-- ==== Sys2Proof/Word.lean ====
section
/-! DEFINITION. The words of the machine and the state of a register that can be poisoned (05 R152). -/

namespace Sys2Proof

abbrev Byte := BitVec 8
abbrev Half := BitVec 16
abbrev W32 := BitVec 32
abbrev W64 := BitVec 64

/-- The payload of a poisoned value: bits [15:10] the cause, bits [9:0] the side-table record index (00 R8, 05 R152). -/
abbrev Payload := BitVec 16

/-- A register or datum with its poison state (05 R152): a clean value, or poison with its payload. -/
inductive Val (α : Type) where
  | ok (v : α)
  | bad (pl : Payload)
  deriving DecidableEq, Repr

/-- The payload of a poisoned value. -/
def Val.pl? {α : Type} : Val α → Option Payload
  | .ok _ => none
  | .bad p => some p

/-- The value, or a default for a poisoned one. -/
def Val.getD {α : Type} (v : Val α) (d : α) : α :=
  match v with
  | .ok x => x
  | .bad _ => d

end Sys2Proof
end

