-- ==== Sys2Proof/Config.lean ====
section
/-! DEFINITION. What the spec leaves open for a value: constants without a body, so that nothing in Lean can evaluate
them (the free values), and the counts that the spec fixes for the module (00 R1, R2). -/

namespace Sys2Proof.Config

/-- The byte that a sector yields when it is read under another key than it was written under (01 R44, R46), by the
key slot and key version it was written under, those it is read under, and its physical address (log entry 3). -/
opaque cipherByte : Nat → Nat → Nat → Nat → Nat → BitVec 8

/-- The offset, in units in the last place, of the approximating instructions FRCP, FRSQ, FEXP2, FLOG2, FSIN, FCOS and
FTANH (by number) from the correctly rounded result, before the bound of 10 R312 is imposed (log entry 6). -/
opaque approxOffset : Nat → BitVec 32 → Int

/-- The core cycles that pass with each step (log entry 2). -/
opaque cycleAdvance : Nat → BitVec 64

/-- The byte a drive holds at an address that nothing has written through the module, by storage port (log entry 11). -/
opaque driveByte : Nat → Nat → BitVec 8

/-- A byte read by a core-less agent or an engine from a CXL pool or the host, by counter and bus address: what lies
behind the host port is not the module's (04 R149; log entry 13). -/
opaque farByte : Nat → Nat → BitVec 8

/-- How such a read ends, by counter and address of the line: 0 with data, 1 with poison, else without an answer (04 R149; log
entry 13). -/
opaque farState : Nat → Nat → Nat

/-- The fabric number of the peer device that a bus address of a host-mapped page reaches, none for the host: the spec gives no map
of bus addresses (03 R114; log entry 18). -/
opaque peerAt : Nat → Option Nat

/-- The fabric number of the peer whose acknowledgement of a retire is missing, by counter (03 R115; log entry 21). -/
opaque lateFab : Nat → Nat

/-- The peer handle by which an ASID reaches a bus address of a peer device: the spec gives an access none (13 R412; log entry 18). -/
opaque handleAt : Nat → Nat → Nat

/-- The buffer of a peer device that an address there lies in, by fabric number and address: a version notice names the buffer and
not its range (03 R115; log entry 41). -/
opaque sealBuf : Nat → Nat → Option Nat

/-- The set of a slice that holds a line (24,576 sets; 02 R69 gives no index), by ASID and line number (log entry 8). -/
opaque sliceSet : Nat → Nat → Nat

/-- The set of a die-cache bank that holds a line (8,192 sets; 02 R62 gives no index), by ASID and line number (log entry 8). -/
opaque dieSet : Nat → Nat → Nat

/-- The set of a translation directory that holds a page (4,096 sets; 04 R128 gives no index), by ASID and page number (log
entry 8). -/
opaque dirSet : Nat → Nat → Nat

/-- Which of two owner slots a harvest buffer is reached under: that of the named ASID, or that of the issuer (04 R137; log
entry 37). -/
opaque harvestNamed : Bool

/-- Which of the values that a byte has had since a pass issued the pass reads, by counter and byte (12 R370; log entry 59). -/
opaque passByte : Nat → Nat → Nat

/-- The UALink port on which a request to a peer leaves (05 R161; 13 R410 gives 16 ports and no choice among them), by counter
(log entry 21). -/
opaque peerPort : Nat → Nat

/-- Whether the compressed form of a 4 KiB block with this content fits a number of units (02 R75, R78), by the
block's address, the counter of free values and the units (log entry 9). -/
opaque compressFits : Nat → Nat → Nat → Bool

/-- The byte of a save area after a save (07 R237 gives no layout), by address and counter (log entry 7). -/
opaque saveByte : Nat → Nat → BitVec 8

/-- The nonce of DBGCH, drawn from the entropy source (13 R407), by draw (log entry 12). -/
opaque debugNonce : Nat → BitVec 384

/-- The serial number of the device identity (13 R407) (log entry 12). -/
opaque serialNumber : BitVec 128

/-- Cores of the module (00 R2). -/
def cores : Nat := 256

/-- Compute dies (00 R1). -/
def dies : Nat := 4

/-- Base dies, and so slices (00 R1). -/
def slices : Nat := 16

/-- Retriever threads of a die: 16 cores of 8 threads (00 R3). -/
def threads : Nat := 128

end Sys2Proof.Config
end

