-- ==== Sys2Proof/Machine/Table.lean ====
section
/-! DEFINITION. Tables: storage indexed by a number, as a list of (index, value) pairs with rising indices. An index
that is not listed holds a default that the reader names. Register files, on-chip buffers, cache-line bytes and HBM
are tables, so that a state is plain data and prints small. -/

namespace Sys2Proof.Machine

/-- Index and value, in rising order of the index. `Tbl (BitVec 8)` is a list of `Host.Cell`. -/
abbrev Tbl (α : Type) := List (Nat × α)

/-- The value at an index, `d` where none is listed. -/
def Tbl.get {α : Type} (d : α) (t : Tbl α) (k : Nat) : α :=
  match t with
  | [] => d
  | (j, v) :: r => if j = k then v else Tbl.get d r k

/-- The value at an index, if one is listed. -/
def Tbl.find {α : Type} (t : Tbl α) (k : Nat) : Option α :=
  match t with
  | [] => none
  | (j, v) :: r => if j = k then some v else Tbl.find r k

/-- The table without the index. -/
def Tbl.del {α : Type} (t : Tbl α) (k : Nat) : Tbl α :=
  match t with
  | [] => []
  | (j, v) :: r => if j = k then Tbl.del r k else (j, v) :: Tbl.del r k

/-- Puts a pair before the first larger index. -/
def Tbl.ins {α : Type} (t : Tbl α) (k : Nat) (v : α) : Tbl α :=
  match t with
  | [] => [(k, v)]
  | (j, u) :: r => if k < j then (k, v) :: (j, u) :: r else (j, u) :: Tbl.ins r k v

/-- Sets an index; the index is listed afterwards. -/
def Tbl.put {α : Type} (t : Tbl α) (k : Nat) (v : α) : Tbl α := Tbl.ins (Tbl.del t k) k v

/-- Sets an index in the canonical form of a memory whose unlisted indices read `d`: writing `d` removes the entry. -/
def Tbl.set {α : Type} [DecidableEq α] (d : α) (t : Tbl α) (k : Nat) (v : α) : Tbl α :=
  if v = d then Tbl.del t k else Tbl.put t k v

/-- Changes one index. -/
def Tbl.upd {α : Type} (d : α) (t : Tbl α) (k : Nat) (f : α → α) : Tbl α := Tbl.put t k (f (Tbl.get d t k))

/-- The indices rise strictly. -/
def Tbl.sorted {α : Type} : Tbl α → Bool
  | [] => true
  | [_] => true
  | (a, _) :: (b, w) :: r => decide (a < b) && Tbl.sorted ((b, w) :: r)

/-- The canonical form: rising indices, and no entry equal to what an unlisted index reads as. -/
def Tbl.wf {α : Type} [DecidableEq α] (d : α) (t : Tbl α) : Bool :=
  Tbl.sorted t && t.all (fun e => decide (e.2 ≠ d))

/-- The bytes of a memory by address, in one canonical form; an unlisted byte reads 0 (log entry 3). -/
abbrev Memory := Tbl (BitVec 8)

/-- The canonical form of a memory. -/
def Memory.wf (m : Memory) : Bool := Tbl.wf 0 m

/-- Changes every listed value. -/
def Tbl.mapVals {α β : Type} (t : Tbl α) (f : Nat → α → β) : Tbl β := t.map (fun e => (e.1, f e.1 e.2))

/-- Applies `f` to the element of a list at a position. -/
def listUpd {α : Type} (l : List α) (n : Nat) (f : α → α) : List α :=
  match l, n with
  | [], _ => []
  | x :: r, 0 => f x :: r
  | x :: r, n + 1 => x :: listUpd r n f

/-- The list without the element at a position. -/
def listDel {α : Type} (l : List α) (n : Nat) : List α :=
  match l, n with
  | [], _ => []
  | _ :: r, 0 => r
  | x :: r, n + 1 => x :: listDel r n

end Sys2Proof.Machine
end

