-- ==== Sys2Proof/Machine/Bits.lean ====
section
/-! DEFINITION. Bit fields, lane masks, byte order and sign extension (00 R6, R7, R14). -/

namespace Sys2Proof.Machine

/-- An address with its bit 0 cleared, as the PC keeps it (01 R20; 09 R281). -/
def evenPc (w : W64) : W64 := w - w % 2

/-- `n` bits of `w` from bit `lo`. -/
def fld (w lo n : Nat) : Nat := w / 2 ^ lo % 2 ^ n

/-- Bit `i` of `w`. -/
def bit (w i : Nat) : Bool := w / 2 ^ i % 2 == 1

/-- 1 or 0. -/
def b2n (b : Bool) : Nat := if b then 1 else 0

/-- The signed value of an n-bit number. -/
def toS (n x : Nat) : Int := if bit x (n - 1) then (x : Int) - 2 ^ n else x

/-- The low n bits of an integer (two's complement). -/
def lowBits (n : Nat) (x : Int) : Nat := (x % (2 ^ n : Int)).toNat

/-- The sign extension of an n-bit number to 64 bits (00 R14). -/
def sext64 (n x : Nat) : W64 := BitVec.ofInt 64 (toS n (x % 2 ^ n))

/-- The lanes of a mask in ascending order. -/
def lanesOf (m : Nat) : List Nat := (List.range 32).filter (fun l => bit m l)

/-- The mask of a list of lanes. -/
def maskOf (ls : List Nat) : Nat := ls.foldl (fun m l => if bit m l then m else m + 2 ^ l) 0

/-- The bits of `a` that are not in `b`. -/
def without (a b : Nat) : Nat := a - (a &&& b)

/-- Number of ones among the low n bits. -/
def popN (n x : Nat) : Nat := ((List.range n).filter (fun i => bit x i)).length

/-- Index of the lowest one among the low n bits. -/
def lowest (n x : Nat) : Option Nat := (List.range n).find? (fun i => bit x i)

/-- The k-th one among the low n bits, counted from 0 (02 R65). -/
def kthSet (n x k : Nat) : Option Nat := ((List.range n).filter (fun i => bit x i))[k]?

/-- A mask of `n` ones from bit `lo`. -/
def ones (lo n : Nat) : Nat := (2 ^ n - 1) * 2 ^ lo

/-- The number whose little-endian bytes are listed (00 R7). -/
def ofBytes (bs : List Byte) : Nat := bs.foldr (fun b n => b.toNat + 256 * n) 0

/-- The n low bytes of a number, little-endian (00 R7). -/
def toBytes : Nat → Nat → List Byte
  | 0, _ => []
  | n + 1, x => BitVec.ofNat 8 x :: toBytes n (x / 256)

/-- The little-endian number at `n` indices of a byte table. -/
def tblNum (t : Tbl Byte) (k n : Nat) : Nat := ofBytes ((List.range n).map (fun i => Tbl.get 0 t (k + i)))

/-- Writes the n low bytes of a number at an index of a byte table in its canonical form. -/
def tblPut (t : Tbl Byte) (k n x : Nat) : Tbl Byte :=
  ((List.range n).zip (toBytes n x)).foldl (fun t e => Tbl.set 0 t (k + e.1) e.2) t

/-- The smaller of two saturating counts. -/
def satAdd (mx a b : Nat) : Nat := min mx (a + b)

/-- The 32-bit words of a number, lowest first (08 R245). -/
def words32 (n x : Nat) : List (Val W64) := (List.range n).map (fun i => .ok (BitVec.ofNat 64 (x / 2 ^ (32 * i) % 2 ^ 32)))

end Sys2Proof.Machine
end

