-- ==== Sys2Proof/Machine/Fp.lean ====
section
/-! DEFINITION. The binary and narrow floating-point formats (08 R247, R253), exact values, one rounding (R248, R249),
the operations and conversions with their flags (R250, R251, R258), and the approximating functions (10 R312). -/

namespace Sys2Proof.Machine

/-- A floating-point format: exponent and fraction widths, bias, code of the largest finite magnitude, whether it has an
infinity, code of the default NaN if it has one. -/
structure Fmt where
  eb : Nat
  fb : Nat
  bias : Nat
  maxc : Nat
  inf : Bool
  dnan : Option Nat
  deriving DecidableEq, Repr

def Fmt.f64 : Fmt := ⟨11, 52, 1023, 0x7FEFFFFFFFFFFFFF, true, some 0x7FF8000000000000⟩
def Fmt.f32 : Fmt := ⟨8, 23, 127, 0x7F7FFFFF, true, some 0x7FC00000⟩
def Fmt.f16 : Fmt := ⟨5, 10, 15, 0x7BFF, true, some 0x7E00⟩
def Fmt.bf16 : Fmt := ⟨8, 7, 127, 0x7F7F, true, some 0x7FC0⟩
def Fmt.e4m3 : Fmt := ⟨4, 3, 7, 0x7E, false, some 0x7F⟩
def Fmt.e5m2 : Fmt := ⟨5, 2, 15, 0x7B, true, some 0x7E⟩
def Fmt.e3m2 : Fmt := ⟨3, 2, 3, 0x1F, false, none⟩
def Fmt.e2m3 : Fmt := ⟨2, 3, 1, 0x1F, false, none⟩
def Fmt.e2m1 : Fmt := ⟨2, 1, 1, 0x7, false, none⟩

/-- Width of the format in bits. -/
def Fmt.w (F : Fmt) : Nat := 1 + F.eb + F.fb

/-- An exact value: NaN (signalling or quiet, with its sign), infinity, or (−1)^neg · m · 2^e. -/
inductive FV where
  | nan (sig neg : Bool)
  | inf (neg : Bool)
  | fin (neg : Bool) (m : Nat) (e : Int)
  deriving DecidableEq, Repr

/-- The value a code stands for (08 R247, R253). Only the four IEEE formats have signalling NaNs: those of the 8-bit formats are quiet (R247;
10 R319). -/
def Fmt.dec (F : Fmt) (x : Nat) : FV :=
  let neg := bit x (F.eb + F.fb)
  let c := x % 2 ^ (F.eb + F.fb)
  let f := c % 2 ^ F.fb
  let e := c / 2 ^ F.fb
  if c ≤ F.maxc then
    if e = 0 then .fin neg f (1 - (F.bias : Int) - F.fb)
    else .fin neg (f + 2 ^ F.fb) ((e : Int) - F.bias - F.fb)
  else if F.inf && f == 0 then .inf neg
  else .nan (F.inf && F.w != 8 && !bit f (F.fb - 1)) neg

/-- A code with its flags, in the layout of %fpx: 1 NX, 2 UF, 4 OF, 8 DZ, 16 NV (08 R251). -/
structure FR where
  code : Nat
  fl : Nat
  deriving DecidableEq, Repr

/-- The sign bit of the format. -/
def Fmt.sgn (F : Fmt) (neg : Bool) : Nat := if neg then 2 ^ (F.eb + F.fb) else 0

/-- The infinity of the format, or its largest finite value where it has none. -/
def Fmt.infc (F : Fmt) (neg : Bool) : Nat := F.sgn neg + (if F.inf then F.maxc + 1 else F.maxc)

/-- The default NaN, or +0 where the format has none (08 R249, R258). -/
def Fmt.nanc (F : Fmt) : Nat := F.dnan.getD 0

/-- Whether a kept significand is rounded up in magnitude, by mode (08 R248); `rem` is the part dropped out of 2^sh, with
`st` whether anything lies below it. -/
def roundUp (rm : Nat) (neg : Bool) (kept rem half : Nat) (st : Bool) : Bool :=
  match rm with
  | 0 => rem > half || (rem == half && (st || kept % 2 == 1))
  | 1 => false
  | 2 => neg && (rem != 0 || st)
  | _ => !neg && (rem != 0 || st)

/-- m · 2^e in units of 2^q, rounded by mode: the integer and whether it is inexact. -/
def quant (rm : Nat) (neg : Bool) (m : Nat) (e q : Int) (st : Bool) : Nat × Bool :=
  if q ≤ e then
    let k := m * 2 ^ (e - q).toNat
    (if roundUp rm neg k 0 1 st then k + 1 else k, st)
  else
    let sh := (q - e).toNat
    let k := m / 2 ^ sh
    let r := m % 2 ^ sh
    (if roundUp rm neg k r (2 ^ (sh - 1)) st then k + 1 else k, r != 0 || st)

/-- The result beyond the largest finite value, by mode (08 R258). -/
def Fmt.over (F : Fmt) (rm : Nat) (neg : Bool) : Nat :=
  if F.inf && (rm == 0 || (rm == 2 && neg) || (rm == 3 && !neg)) then F.infc neg else F.sgn neg + F.maxc

/-- Rounds (−1)^neg · m · 2^e, with something more below it when `st`, to the format (08 R248, R249, R258). -/
def Fmt.round (F : Fmt) (rm : Nat) (neg : Bool) (m : Nat) (e : Int) (st : Bool := false) : FR :=
  if m = 0 then ⟨F.sgn neg, if st then 3 else 0⟩
  else
    let top : Int := e + Nat.log2 m
    let emin : Int := 1 - (F.bias : Int)
    let q := max top emin - F.fb
    let (k, ix) := quant rm neg m e q st
    let (ku, _) := quant rm neg m e (top - F.fb) st
    let tiny := top < emin && !(top + 1 == emin && ku == 2 ^ (F.fb + 1))
    -- the code counts units of the grid: a carry out of the fraction moves into the exponent by itself
    let code := ((q - (emin - F.fb)).toNat) * 2 ^ F.fb + k
    if code > F.maxc then ⟨F.over rm neg, 5⟩
    else ⟨F.sgn neg + code, b2n ix + (if tiny && ix then 2 else 0)⟩

/-- An invalid operation: the default NaN with NV (08 R250). -/
def Fmt.inv (F : Fmt) : FR := ⟨F.nanc, 16⟩

/-- A NaN result, with NV when an operand signals. -/
def Fmt.qnan (F : Fmt) (sig : Bool) : FR := ⟨F.nanc, if sig then 16 else 0⟩

/-- Whether a value is a signalling NaN. -/
def FV.sig : FV → Bool
  | .nan s _ => s
  | _ => false

/-- Whether a value is a NaN. -/
def FV.isNan : FV → Bool
  | .nan _ _ => true
  | _ => false

/-- The sum of two finite values, exactly, rounded once; an exact zero by R249. -/
def Fmt.addFin (F : Fmt) (rm : Nat) (an : Bool) (am : Nat) (ae : Int) (bn : Bool) (bm : Nat) (be : Int) : FR :=
  let e := min ae be
  let x : Int := (am * 2 ^ (ae - e).toNat : Nat)
  let y : Int := (bm * 2 ^ (be - e).toNat : Nat)
  let s := (if an then -x else x) + (if bn then -y else y)
  if s = 0 then ⟨F.sgn (if an == bn then an else rm == 2), 0⟩
  else F.round rm (s < 0) s.natAbs e

/-- a + b (08 R249, R250). -/
def Fmt.add (F : Fmt) (rm : Nat) (a b : FV) : FR :=
  match a, b with
  | .nan s _, y => F.qnan (s || y.sig)
  | x, .nan s _ => F.qnan (s || x.sig)
  | .inf p, .inf q => if p == q then ⟨F.infc p, 0⟩ else F.inv
  | .inf p, _ => ⟨F.infc p, 0⟩
  | _, .inf q => ⟨F.infc q, 0⟩
  | .fin an am ae, .fin bn bm be => F.addFin rm an am ae bn bm be

/-- The negative of a value. -/
def FV.neg : FV → FV
  | .nan s n => .nan s n
  | .inf n => .inf (!n)
  | .fin n m e => .fin (!n) m e

/-- a × b (08 R249, R250). -/
def Fmt.mul (F : Fmt) (rm : Nat) (a b : FV) : FR :=
  match a, b with
  | .nan s _, y => F.qnan (s || y.sig)
  | x, .nan s _ => F.qnan (s || x.sig)
  | .inf p, .inf q => ⟨F.infc (p != q), 0⟩
  | .inf p, .fin q m _ => if m = 0 then F.inv else ⟨F.infc (p != q), 0⟩
  | .fin p m _, .inf q => if m = 0 then F.inv else ⟨F.infc (p != q), 0⟩
  | .fin p m e, .fin q n f => F.round rm (p != q) (m * n) (e + f)

/-- a × b + c with one rounding (08 R249, R250). -/
def Fmt.fma (F : Fmt) (rm : Nat) (a b c : FV) : FR :=
  match a, b with
  | .nan s _, y => F.qnan (s || y.sig || c.sig)
  | x, .nan s _ => F.qnan (s || x.sig || c.sig)
  | .inf p, .inf q => F.add rm (.inf (p != q)) c
  | .inf p, .fin q m _ => if m = 0 then F.inv else F.add rm (.inf (p != q)) c
  | .fin p m _, .inf q => if m = 0 then F.inv else F.add rm (.inf (p != q)) c
  | .fin p m e, .fin q n f => F.add rm (.fin (p != q) (m * n) (e + f)) c

/-- The value of a non-NaN as a comparison key: an exact rational order, −0 below +0 when `z`. -/
def FV.le (z : Bool) : FV → FV → Bool
  | .inf true, _ => true
  | _, .inf false => true
  | .inf false, _ => false
  | _, .inf true => false
  | .fin an am ae, .fin bn bm be =>
    let e := min ae be
    let x : Int := (am * 2 ^ (ae - e).toNat : Nat)
    let y : Int := (bm * 2 ^ (be - e).toNat : Nat)
    let x' := if an then -x else x
    let y' := if bn then -y else y
    if x' = 0 && y' = 0 && z then an || !bn else decide (x' ≤ y')
  | _, _ => false

/-- minimumNumber or maximumNumber of two codes (10 R310): the code taken, the flags, and whether it was taken from b
by the decision of R316. -/
def Fmt.minmax (F : Fmt) (mx : Bool) (a b : Nat) : FR × Bool :=
  let x := F.dec a
  let y := F.dec b
  let fl := if x.sig || y.sig then 16 else 0
  match x.isNan, y.isNan with
  | true, true => (⟨F.nanc, fl⟩, false)
  | true, false => (⟨b, fl⟩, true)
  | false, true => (⟨a, fl⟩, false)
  | false, false =>
    let takeB := if mx then !(FV.le true y x) else !(FV.le true x y)
    (⟨if takeB then b else a, fl⟩, takeB)

/-- A comparison: 0 LT, 1 LE, 2 EQ, 3 NE; the result and the flags (10 R311). -/
def Fmt.cmp (F : Fmt) (c a b : Nat) : Bool × Nat :=
  let x := F.dec a
  let y := F.dec b
  if x.isNan || y.isNan then (c == 3, if c < 2 || x.sig || y.sig then 16 else 0)
  else
    let le := FV.le false x y
    let ge := FV.le false y x
    (match c with | 0 => le && !ge | 1 => le | 2 => le && ge | _ => !(le && ge), 0)

/-- The class mask of FCLASS (10 R313). -/
def Fmt.cls (F : Fmt) (a : Nat) : Nat :=
  match F.dec a with
  | .nan true _ => 256
  | .nan false _ => 512
  | .inf n => if n then 1 else 128
  | .fin n m _ =>
    if m = 0 then (if n then 8 else 16)
    else if m < 2 ^ F.fb then (if n then 4 else 32)
    else (if n then 2 else 64)

/-- The integer square root. -/
def isqrt (n : Nat) : Nat := Nat.sqrt n

/-- IEEE squareRoot (10 R312). -/
def Fmt.sqrt (F : Fmt) (rm a : Nat) : FR :=
  match F.dec a with
  | .nan s _ => F.qnan s
  | .inf false => ⟨F.infc false, 0⟩
  | .inf true => F.inv
  | .fin n m e =>
    if m = 0 then ⟨F.sgn n, 0⟩
    else if n then F.inv
    else
      -- m · 2^e = (m · 2^k) · 2^(e − k) with an even exponent and enough bits
      let k : Nat := 2 * F.fb + 8 + (if (e % 2) = 0 then 0 else 1)
      let r := isqrt (m * 2 ^ k)
      F.round rm false r ((e - k) / 2) (r * r != m * 2 ^ k)

/-- Rounds a value to a format as a conversion does (08 R258). -/
def Fmt.cvt (F : Fmt) (rm : Nat) (x : FV) : FR :=
  match x with
  | .nan s n =>
    if F == Fmt.e4m3 then ⟨F.sgn n + 0x7F, if s then 16 else 0⟩
    else if F.dnan.isNone then ⟨0, 16⟩
    else F.qnan s
  | .inf n => if F.inf then ⟨F.infc n, 0⟩ else ⟨F.infc n, 5⟩
  | .fin n m e => F.round rm n m e

/-- A value rounded to an integer by mode: the integer and whether it is inexact. -/
def rint (rm : Nat) (n : Bool) (m : Nat) (e : Int) : Int × Bool :=
  let (k, ix) := quant rm n m e 0 false
  (if n then -(k : Int) else k, ix)

/-- A conversion to an integer type with bounds (10 R318; 08 R258): the integer and the flags. -/
def cvtInt (lo hi : Int) (rm : Nat) (x : FV) : Int × Nat :=
  match x with
  | .nan _ _ => (0, 16)
  | .inf n => (if n then lo else hi, 16)
  | .fin n m e =>
    let (k, ix) := rint rm n m e
    if k < lo then (lo, 16) else if hi < k then (hi, 16) else (k, b2n ix)

/-- A conversion to `.t2` (08 R258): the value and the flags. -/
def cvtT2 (rm : Nat) (x : FV) : Int × Nat :=
  match x with
  | .nan _ _ => (0, 16)
  | .inf n => (if n then -1 else 1, 1)
  | .fin n m e =>
    let (k, ix) := rint rm n m e
    let c := max (-1) (min 1 k)
    (c, b2n (ix || c != k))

/-- The code of `.t2` (08 R256). -/
def t2code (k : Int) : Nat := if k = 0 then 0 else if k < 0 then 3 else 1

/-- The value of a `.t2` code; 10 reads as 0 (08 R256). -/
def t2val (c : Nat) : Int := if c = 1 then 1 else if c = 3 then -1 else 0

/-- A conversion to `.e8m0` (08 R258). -/
def cvtE8 (x : FV) : Nat :=
  match x with
  | .fin _ m e => if m = 0 then 0 else (max 0 (min 254 (e + Nat.log2 m + 127))).toNat
  | _ => 255

/-- The five `.t2` codes of a `.t5p` byte, and whether the byte is reserved (08 R257). -/
def t5dec (b : Nat) : Nat × Bool :=
  if 243 ≤ b then (0, true)
  else ((List.range 5).foldl (fun n i => n + t2code (if b / 3 ^ i % 3 = 2 then -1 else Int.ofNat (b / 3 ^ i % 3)) * 4 ^ i) 0, false)

/-- The `.t5p` byte of five `.t2` codes, and whether a code is reserved (08 R257; 10 R319). -/
def t5enc (c : Nat) : Nat × Bool :=
  ((List.range 5).foldl (fun n i => n + (let v := c / 4 ^ i % 4; if v = 1 then 1 else if v = 3 then 2 else 0) * 3 ^ i) 0,
   (List.range 5).any (fun i => c / 4 ^ i % 4 == 2))

/-! The approximating functions (10 R312). A reference is computed in fixed point with `P` fraction bits; the result is a
code next to it chosen by the free value `Config.approxOffset`, limited to the stated bound (log entry 6). -/

/-- Fraction bits of the fixed-point references. -/
def fxP : Nat := 96

/-- 2^f for 0 ≤ f < 1 in fixed point, by the product over the bits of f of 2^(2^−i), each a repeated square root. -/
def fxExp2 : Nat → Nat → Nat → Nat → Nat
  | 0, _, _, acc => acc
  | n + 1, root, f, acc =>
    let r := isqrt (root * 2 ^ fxP)
    let f2 := 2 * f
    if 2 ^ fxP ≤ f2 then fxExp2 n r (f2 - 2 ^ fxP) (acc * r / 2 ^ fxP) else fxExp2 n r f2 acc

/-- log2 of m in [1, 2) in fixed point, digit by digit. -/
def fxLog2 : Nat → Nat → Nat → Nat → Nat
  | 0, _, _, acc => acc
  | n + 1, m, w, acc =>
    let m2 := m * m / 2 ^ fxP
    if 2 * 2 ^ fxP ≤ m2 then fxLog2 n (m2 / 2) (w / 2) (acc + w / 2) else fxLog2 n m2 (w / 2) acc

/-- π · 2^192, rounded down: enough to reduce every finite FP32 value. -/
def piFx : Nat := 0x3_243F_6A88_85A3_08D3_1319_8A2E_0370_7344_A409_3822_299F_31D0

/-- Alternating series of sine (k = 1) or cosine (k = 0) of x in fixed point: term, and the running sum. -/
def fxTrig : Nat → Nat → Int → Int → Int → Int
  | 0, _, _, _, acc => acc
  | n + 1, k, x2, term, acc =>
    let t := -(term * x2 / 2 ^ fxP) / (((k + 1) * (k + 2) : Nat) : Int)
    fxTrig n (k + 2) x2 t (acc + t)

/-- Sine or cosine of (−1)^neg · m · 2^e: a signed fixed-point number. -/
def fxSinCos (cos neg : Bool) (m : Nat) (e : Int) : Int :=
  -- x in units of 2^−192, reduced by 2π
  let x : Nat := if 0 ≤ e + 192 then m * 2 ^ (e + 192).toNat else m / 2 ^ (-(e + 192)).toNat
  let r : Nat := x % (2 * piFx)
  let y : Int := (if r ≤ piFx then (r : Int) else (r : Int) - 2 * piFx) / 2 ^ (192 - fxP)
  let y := if neg then -y else y
  let y2 := y * y / 2 ^ fxP
  if cos then fxTrig 40 0 y2 (2 ^ fxP) (2 ^ fxP) else fxTrig 40 1 y2 y y

/-- Whether a code lies within `lim` units in the last place of m · 2^e, with a margin of 2^−16 units for the error of the reference. -/
def withinUlp (lim c m : Nat) (e : Int) : Bool :=
  match Fmt.f32.dec c with
  | .fin _ mc ec =>
    let q : Int := max (e + Nat.log2 m) (-126) - 39
    let b := min e (min ec q)
    ((m * 2 ^ (e - b).toNat : Nat) - (mc * 2 ^ (ec - b).toNat : Nat) : Int).natAbs ≤ (lim * 2 ^ 16 - 1) * 2 ^ (q - b).toNat
  | _ => false

/-- A code near m · 2^e that a free value chooses among those within `lim` units in the last place of it, the nearest one included. -/
def nearCode (k : Nat) (a : W32) (lim : Nat) (neg : Bool) (m : Nat) (e : Int) : Nat :=
  let r := min 0x7F7FFFFF (Fmt.f32.round 0 false m e).code
  let c := ((r : Int) + Config.approxOffset k a).toNat
  Fmt.f32.sgn neg + (if withinUlp lim c m e then c else r)

/-- NX, and UF when the result is subnormal (10 R312). -/
def nearFl (c : Nat) : Nat := if c % 2 ^ 31 < 0x00800000 then 3 else 1

/-- A signed fixed-point reference moved by a free value of at most 2^−21 − 2^−24, or 2^−22 − 2^−24, and rounded. -/
def nearAbs (k : Nat) (a : W32) (lim : Nat) (x : Int) : FR :=
  let d := max (-(lim : Int)) (min (lim : Int) (Config.approxOffset k a))
  let y := x + d * 2 ^ (fxP - 40)
  let r := Fmt.f32.round 0 (y < 0) y.natAbs (-(fxP : Int))
  ⟨r.code, nearFl r.code⟩

/-- Whether a natural number is a power of two. -/
def isPow2 (m : Nat) : Bool := m != 0 && 2 ^ Nat.log2 m == m

/-- FRCP, FRSQ, FEXP2, FLOG2, FSIN, FCOS, FTANH by number 0 to 6 (10 R312): special inputs, exact results, and otherwise
a value within the bound. -/
def approx (k : Nat) (a : W32) : FR :=
  let F := Fmt.f32
  match F.dec a.toNat with
  | .nan s _ => F.qnan s
  | .inf n =>
    match k with
    | 0 => ⟨F.sgn n, 0⟩
    | 1 => if n then F.inv else ⟨0, 0⟩
    | 2 => if n then ⟨0, 0⟩ else ⟨F.infc false, 0⟩
    | 3 => if n then F.inv else ⟨F.infc false, 0⟩
    | 4 => F.inv
    | 5 => F.inv
    | _ => ⟨F.sgn n + 0x3F800000, 0⟩
  | .fin n m e =>
    if m = 0 then
      match k with
      | 0 => ⟨F.infc n, 8⟩
      | 1 => ⟨F.infc n, 8⟩
      | 2 => ⟨0x3F800000, 0⟩
      | 3 => ⟨F.infc true, 8⟩
      | 5 => ⟨0x3F800000, 0⟩
      | _ => ⟨F.sgn n, 0⟩
    else
      let top : Int := e + Nat.log2 m
      match k with
      | 0 =>
        if isPow2 m then F.round 0 n 1 (-top)
        else
          let q := 2 ^ 120 / m
          if top < -128 then ⟨F.infc n, 5⟩
          else let c := nearCode 0 a 1 n q (-120 - e); ⟨c, nearFl c⟩
      | 1 =>
        if n then F.inv
        else if isPow2 m && top % 2 == 0 then F.round 0 false 1 (-(top / 2))
        else
          let sh : Nat := if e % 2 = 0 then 0 else 1
          let q := isqrt (2 ^ 200 / (m * 2 ^ sh))
          let c := nearCode 1 a 1 false q (-100 - (e - sh) / 2)
          ⟨c, nearFl c⟩
      | 2 =>
        if !n && 7 ≤ top then ⟨F.infc false, 5⟩
        else if n && 8 ≤ top then ⟨0, 3⟩
        else
          -- a = i + f with 0 ≤ f < 1
          let sh := (-(e + fxP)).toNat
          let x : Nat := if 0 ≤ e + fxP then m * 2 ^ (e + fxP).toNat else if n then (m + 2 ^ sh - 1) / 2 ^ sh else m / 2 ^ sh
          let x : Int := if n then -(x : Int) else x
          let i := x / 2 ^ fxP
          let f := (x % 2 ^ fxP).toNat
          if f = 0 && -149 ≤ i && 0 ≤ e + fxP then F.round 0 false 1 i
          else
            let r := fxExp2 fxP (2 * 2 ^ fxP) f (2 ^ fxP)
            let c := nearCode 2 a 2 false r (i - fxP)
            ⟨c, nearFl c⟩
      | 3 =>
        if n then F.inv
        else if isPow2 m then
          let t := F.round 0 (top < 0) top.natAbs 0
          ⟨t.code, 0⟩
        else
          let l := fxLog2 fxP (m * 2 ^ fxP / 2 ^ Nat.log2 m) (2 ^ fxP) 0
          let y : Int := top * 2 ^ fxP + l
          if top == -1 || top == 0 then nearAbs 3 a (2 ^ 18 - 2 ^ 16) y
          else let c := nearCode 3 a 2 (y < 0) y.natAbs (-(fxP : Int)); ⟨c, nearFl c⟩
      | 4 => nearAbs 4 a (2 ^ 19 - 2 ^ 16) (fxSinCos false n m e)
      | 5 => nearAbs 5 a (2 ^ 19 - 2 ^ 16) (fxSinCos true n m e)
      | _ =>
        if 5 ≤ top then ⟨F.sgn n + 0x3F800000 - b2n (Config.approxOffset 6 a < 0), 1⟩
        else if top < -14 then let c := nearCode 6 a 1 n m e; ⟨c, nearFl c⟩
        else
          -- tanh x = (E − 1) / (E + 1) with E = 2^(2x / ln 2)
          let x : Nat := if 0 ≤ e + fxP then m * 2 ^ (e + fxP).toNat else m / 2 ^ (-(e + fxP)).toNat
          let y := 2 * x * 2 ^ fxP / 0xB17217F7D1CF79ABC9E3B398
          let r := fxExp2 fxP (2 * 2 ^ fxP) (y % 2 ^ fxP) (2 ^ fxP) * 2 ^ (y / 2 ^ fxP)
          let t := (r - 2 ^ fxP) * 2 ^ fxP / (r + 2 ^ fxP)
          let c := nearCode 6 a 2 n t (-(fxP : Int))
          ⟨c, nearFl c⟩

end Sys2Proof.Machine
end

