-- ==== Sys2Proof/Syntax.lean ====
section
/-! DEFINITION. The instruction type: one constructor for each row of spec/opcode_table.json. The first 237
constructors are the 32-bit words of the lane and uniform sets with every bit of the word in a named field (09 R277,
R278); fields named z and y hold the bits that must be 0 (09 R295). Then the dictionary code (09 R279), and the rows
that are indivisible events of the device (95): their operands name the agent, request or outside value concerned. -/

namespace Sys2Proof

/-- The executing contexts: a split k of the group in slot `slot` of module core `core` (06 R190), a Retriever thread
of a die (06 R194), a control-core thread (07 R209), and the two engine sequencers of a core (07 R232). -/
inductive Actor where
  | split (core slot k : Nat)
  | thread (die t : Nat)
  | ctl (die t : Nat)
  | mseq (core : Nat)
  | cseq (core : Nat)
  deriving DecidableEq, Repr

/-- One constructor for each row of the opcode table. -/
inductive Instr where
  /-- IADD (R300): Lane integer add, optionally natural and saturating. -/
  | iadd (d a b m : Nat)
  /-- ISUB (R300): Lane integer subtract, optionally natural and saturating. -/
  | isub (d a b m : Nat)
  /-- IMUL (R300): Lane 32-bit integer multiply, low half. -/
  | imul (d a b m : Nat)
  /-- IMULH (R300): Lane integer multiply, high 32 bits. -/
  | imulh (d a b m : Nat)
  /-- IMAD (R300): Lane integer multiply-add into d. -/
  | imad (d a b m : Nat)
  /-- IMIN (R300): Lane integer minimum. -/
  | imin (d a b m : Nat)
  /-- IMAX (R300): Lane integer maximum. -/
  | imax (d a b m : Nat)
  /-- IABS (R300): Lane absolute difference. -/
  | iabs (d a b m : Nat)
  /-- AND (R301): Lane bitwise AND. -/
  | and32 (d a b m : Nat)
  /-- OR (R301): Lane bitwise OR. -/
  | or32 (d a b m : Nat)
  /-- XOR (R301): Lane bitwise XOR. -/
  | xor32 (d a b m : Nat)
  /-- ANDN (R301): Lane a AND NOT b. -/
  | andn (d a b m : Nat)
  /-- SHL (R301): Lane shift left by register count. -/
  | shl (d a b m : Nat)
  /-- SHR (R301): Lane logical shift right. -/
  | shr (d a b m : Nat)
  /-- SAR (R301): Lane arithmetic shift right. -/
  | sar (d a b m : Nat)
  /-- ROT (R301): Lane rotate left. -/
  | rot (d a b m : Nat)
  /-- POPC (R302): Lane population count. -/
  | popc (d a b m : Nat)
  /-- CLZ (R302): Lane count leading zeros. -/
  | clz (d a b m : Nat)
  /-- BREV (R302): Lane bit reverse. -/
  | brev (d a b m : Nat)
  /-- BFX (R302): Lane bit-field extract with register position and length. -/
  | bfx (d a b m : Nat)
  /-- BFI (R302): Lane bit-field insert. -/
  | bfi (d a b m : Nat)
  /-- BYSEL (R302): Lane byte select by nibble control. -/
  | bysel (d a b m : Nat)
  /-- ADDC (R300): Lane add with carry in and out through p7. -/
  | addc (d a b m : Nat)
  /-- SAD (R300): Lane sum of absolute difference into d. -/
  | sad (d a b m : Nat)
  /-- ISET_LT (R303): Lane integer less-than compare into a predicate. -/
  | isetLt (d a b m : Nat)
  /-- ISET_LE (R303): Lane integer less-or-equal compare into a predicate. -/
  | isetLe (d a b m : Nat)
  /-- ISET_EQ (R303): Lane integer equal compare into a predicate. -/
  | isetEq (d a b m : Nat)
  /-- ISET_NE (R303): Lane integer not-equal compare into a predicate. -/
  | isetNe (d a b m : Nat)
  /-- SEL (R304): Lane select between two registers by p1 to p4. -/
  | sel (d a b m : Nat)
  /-- PLOP (R305): Lane predicate logic operation. -/
  | plop (d a b m : Nat)
  /-- MOV (R306): Lane register move with poison. -/
  | mov (d a b m : Nat)
  /-- BCAST (R306): Broadcast one lane's register to all active lanes. -/
  | bcast (d a b m : Nat)
  /-- GETL (R306): Read a special register into a lane register. -/
  | getl (d a b m : Nat)
  /-- SHFL (R307): Lane shuffle by register lane operand. -/
  | shfl (d a b m : Nat)
  /-- FADD (R310): FP32 add. -/
  | fadd (d a b m : Nat)
  /-- FSUB (R310): FP32 subtract. -/
  | fsub (d a b m : Nat)
  /-- FMUL (R310): FP32 multiply. -/
  | fmul (d a b m : Nat)
  /-- FFMA (R310): FP32 fused multiply-add. -/
  | ffma (d a b m : Nat)
  /-- FMIN (R310): FP32 minimumNumber. -/
  | fmin (d a b m : Nat)
  /-- FMAX (R310): FP32 maximumNumber. -/
  | fmax (d a b m : Nat)
  /-- FSET_LT (R311): FP32 less-than compare into a predicate. -/
  | fsetLt (d a b m : Nat)
  /-- FSET_LE (R311): FP32 less-or-equal compare into a predicate. -/
  | fsetLe (d a b m : Nat)
  /-- FSET_EQ (R311): FP32 equal compare into a predicate. -/
  | fsetEq (d a b m : Nat)
  /-- FSET_NE (R311): FP32 not-equal compare into a predicate. -/
  | fsetNe (d a b m : Nat)
  /-- FRCP (R312): FP32 approximate reciprocal. -/
  | frcp (d a b m : Nat)
  /-- FRSQ (R312): FP32 approximate reciprocal square root. -/
  | frsq (d a b m : Nat)
  /-- FSQRT (R312): FP32 correctly rounded square root. -/
  | fsqrt (d a b m : Nat)
  /-- FEXP2 (R312): FP32 approximate base-2 exponential. -/
  | fexp2 (d a b m : Nat)
  /-- FLOG2 (R312): FP32 approximate base-2 logarithm. -/
  | flog2 (d a b m : Nat)
  /-- FSIN (R312): FP32 approximate sine. -/
  | fsin (d a b m : Nat)
  /-- FCOS (R312): FP32 approximate cosine. -/
  | fcos (d a b m : Nat)
  /-- FTANH (R312): FP32 approximate hyperbolic tangent. -/
  | ftanh (d a b m : Nat)
  /-- FCLASS (R313): FP32 class mask. -/
  | fclass (d a b m : Nat)
  /-- DADD (R314): FP64 add on register pairs. -/
  | dadd (d a b m : Nat)
  /-- DMUL (R314): FP64 multiply. -/
  | dmul (d a b m : Nat)
  /-- DFMA (R314): FP64 fused multiply-add. -/
  | dfma (d a b m : Nat)
  /-- DMIN (R314): FP64 minimumNumber. -/
  | dmin (d a b m : Nat)
  /-- DMAX (R314): FP64 maximumNumber. -/
  | dmax (d a b m : Nat)
  /-- DSET (R314): FP64 compare into a predicate, condition in m. -/
  | dset (d a b m : Nat)
  /-- HADD2 (R315): Packed BF16 add. -/
  | hadd2 (d a b m : Nat)
  /-- HSUB2 (R315): Packed BF16 subtract. -/
  | hsub2 (d a b m : Nat)
  /-- HMUL2 (R315): Packed BF16 multiply. -/
  | hmul2 (d a b m : Nat)
  /-- HFMA2 (R315): Packed BF16 fused multiply-add. -/
  | hfma2 (d a b m : Nat)
  /-- HMAX2 (R315): Packed BF16 maximumNumber. -/
  | hmax2 (d a b m : Nat)
  /-- MAXD2 (R316): Packed BF16 max with two decision bits shifted into %dr. -/
  | maxd2 (d a b m : Nat)
  /-- CVT (R317): Convert between numeric types by conversion code. -/
  | cvt (d a b m : Nat)
  /-- CVTX_PACK (R319): Pack narrow elements from several registers. -/
  | cvtxPack (d a b m : Nat)
  /-- CVTX_UNPACK (R319): Unpack narrow elements into several registers. -/
  | cvtxUnpack (d a b m : Nat)
  /-- CVTX_DECODE (R319): Decode a .t5p byte into five .t2 codes. -/
  | cvtxDecode (d a b m : Nat)
  /-- CVTX_ENCODE (R319): Encode five .t2 codes into a .t5p byte. -/
  | cvtxEncode (d a b m : Nat)
  /-- IADDI (R300): Lane add immediate. -/
  | iaddi (d a imm : Nat)
  /-- IMULI (R300): Lane multiply immediate. -/
  | imuli (d a imm : Nat)
  /-- ANDI (R301): Lane AND immediate. -/
  | andi (d a imm : Nat)
  /-- ORI (R301): Lane OR immediate. -/
  | ori (d a imm : Nat)
  /-- XORI (R301): Lane XOR immediate. -/
  | xori (d a imm : Nat)
  /-- SHLI (R301): Lane shift left by immediate. -/
  | shli (d a imm : Nat)
  /-- SHRI (R301): Lane logical shift right by immediate. -/
  | shri (d a imm : Nat)
  /-- SARI (R301): Lane arithmetic shift right by immediate. -/
  | sari (d a imm : Nat)
  /-- ISETI_LT (R303): Lane signed less-than compare with immediate. -/
  | isetiLt (d a imm : Nat)
  /-- ISETI_LE (R303): Lane signed less-or-equal compare with immediate. -/
  | isetiLe (d a imm : Nat)
  /-- ISETI_EQ (R303): Lane equal compare with immediate. -/
  | isetiEq (d a imm : Nat)
  /-- ISETI_NE (R303): Lane not-equal compare with immediate. -/
  | isetiNe (d a imm : Nat)
  /-- ISETI_LTN (R303): Lane natural less-than compare with immediate. -/
  | isetiLtn (d a imm : Nat)
  /-- ISETI_LEN (R303): Lane natural less-or-equal compare with immediate. -/
  | isetiLen (d a imm : Nat)
  /-- MOVI (R309): Lane move sign-extended 16-bit immediate. -/
  | movi (d a imm : Nat)
  /-- MOVHI (R309): Lane set upper 16 bits from immediate. -/
  | movhi (d a imm : Nat)
  /-- LDB_S (R320): Global byte load, sign-extended. -/
  | ldbS (d a imm : Nat)
  /-- LDB_N (R320): Global byte load, zero-extended. -/
  | ldbN (d a imm : Nat)
  /-- LDH_S (R320): Global halfword load, sign-extended. -/
  | ldhS (d a imm : Nat)
  /-- LDH_N (R320): Global halfword load, zero-extended. -/
  | ldhN (d a imm : Nat)
  /-- STB (R320): Global byte store. -/
  | stb (d a imm : Nat)
  /-- STH (R320): Global halfword store. -/
  | sth (d a imm : Nat)
  /-- SHFLI (R307): Lane shuffle by immediate lane operand. -/
  | shfli (d a imm : Nat)
  /-- BFXI (R302): Lane bit-field extract with immediate position and length. -/
  | bfxi (d a imm : Nat)
  /-- LDW (R322): Global 4-byte load with hint and lookahead. -/
  | ldw (hint d x base la : Nat)
  /-- LDD (R322): Global 8-byte load into a pair. -/
  | ldd (hint d x base la : Nat)
  /-- LDQ (R322): Global 16-byte load into four registers. -/
  | ldq (hint d x base la : Nat)
  /-- LDF (R323): Format-decoding load of one element of a page. -/
  | ldf (hint d x base la : Nat)
  /-- STW (R322): Global 4-byte store. -/
  | stw (hint d x base la : Nat)
  /-- STD (R322): Global 8-byte store. -/
  | std (hint d x base la : Nat)
  /-- STQ (R322): Global 16-byte store. -/
  | stq (hint d x base la : Nat)
  /-- PREF (R324): Prefetch a line into L1 and slice. -/
  | pref (hint d x base la : Nat)
  /-- LDLW (R326): Local-space 4-byte load. -/
  | ldlw (sp d a imm : Nat)
  /-- LDLD (R326): Local-space 8-byte load. -/
  | ldld (sp d a imm : Nat)
  /-- LDLQ (R326): Local-space 16-byte load. -/
  | ldlq (sp d a imm : Nat)
  /-- STLW (R326): Local-space 4-byte store. -/
  | stlw (sp d a imm : Nat)
  /-- STLD (R326): Local-space 8-byte store. -/
  | stld (sp d a imm : Nat)
  /-- STLQ (R326): Local-space 16-byte store. -/
  | stlq (sp d a imm : Nat)
  /-- LDLB (R326): Local-space byte load, zero-extended. -/
  | ldlb (sp d a imm : Nat)
  /-- STLB (R326): Local-space byte store. -/
  | stlb (sp d a imm : Nat)
  /-- ATOM_ADD32 (R327): Lane 32-bit atomic add at the selected scope. -/
  | atomAdd32 (d x scope base la : Nat)
  /-- ATOM_ADD64 (R327): Lane 64-bit atomic add. -/
  | atomAdd64 (d x scope base la : Nat)
  /-- ATOM_ADDF32 (R327): Lane FP32 atomic add. -/
  | atomAddf32 (d x scope base la : Nat)
  /-- ATOM_MIN_S32 (R327): Lane signed atomic minimum. -/
  | atomMinS32 (d x scope base la : Nat)
  /-- ATOM_MIN_N32 (R327): Lane natural atomic minimum. -/
  | atomMinN32 (d x scope base la : Nat)
  /-- ATOM_MAX_S32 (R327): Lane signed atomic maximum. -/
  | atomMaxS32 (d x scope base la : Nat)
  /-- ATOM_MAX_N32 (R327): Lane natural atomic maximum. -/
  | atomMaxN32 (d x scope base la : Nat)
  /-- ATOM_AND32 (R327): Lane atomic AND. -/
  | atomAnd32 (d x scope base la : Nat)
  /-- ATOM_OR32 (R327): Lane atomic OR. -/
  | atomOr32 (d x scope base la : Nat)
  /-- ATOM_XOR32 (R327): Lane atomic XOR. -/
  | atomXor32 (d x scope base la : Nat)
  /-- ATOM_XCHG32 (R327): Lane 32-bit atomic exchange. -/
  | atomXchg32 (d x scope base la : Nat)
  /-- ATOM_XCHG64 (R327): Lane 64-bit atomic exchange. -/
  | atomXchg64 (d x scope base la : Nat)
  /-- ATOM_CAS32 (R327): Lane 32-bit atomic compare-and-swap. -/
  | atomCas32 (d x scope base la : Nat)
  /-- ATOM_CAS64 (R327): Lane 64-bit atomic compare-and-swap. -/
  | atomCas64 (d x scope base la : Nat)
  /-- ATOM_INC_N32 (R327): Lane atomic wrapping increment. -/
  | atomIncN32 (d x scope base la : Nat)
  /-- ATOM_ADDBF16X2 (R327): Lane packed BF16 atomic add. -/
  | atomAddbf16x2 (d x scope base la : Nat)
  /-- SADD (R334): Scalar 64-bit add. -/
  | sadd (d a b g m : Nat)
  /-- SSUB (R334): Scalar 64-bit subtract. -/
  | ssub (d a b g m : Nat)
  /-- SMUL (R334): Scalar multiply, low 64 bits. -/
  | smul (d a b g m : Nat)
  /-- SMULH (R334): Scalar multiply, high 64 bits. -/
  | smulh (d a b g m : Nat)
  /-- SDIV (R334): Scalar divide truncated toward zero. -/
  | sdiv (d a b g m : Nat)
  /-- SREM (R334): Scalar remainder. -/
  | srem (d a b g m : Nat)
  /-- SAND (R334): Scalar AND. -/
  | sand (d a b g m : Nat)
  /-- SOR (R334): Scalar OR. -/
  | sor (d a b g m : Nat)
  /-- SXOR (R334): Scalar XOR. -/
  | sxor (d a b g m : Nat)
  /-- SSHL (R334): Scalar shift left. -/
  | sshl (d a b g m : Nat)
  /-- SSHR (R334): Scalar logical shift right. -/
  | sshr (d a b g m : Nat)
  /-- SSAR (R334): Scalar arithmetic shift right. -/
  | ssar (d a b g m : Nat)
  /-- SMIN (R334): Scalar minimum. -/
  | smin (d a b g m : Nat)
  /-- SMAX (R334): Scalar maximum. -/
  | smax (d a b g m : Nat)
  /-- SSET_LT (R335): Scalar less-than compare into a q predicate. -/
  | ssetLt (d a b g m : Nat)
  /-- SSET_LE (R335): Scalar less-or-equal compare into a q predicate. -/
  | ssetLe (d a b g m : Nat)
  /-- SSET_EQ (R335): Scalar equal compare into a q predicate. -/
  | ssetEq (d a b g m : Nat)
  /-- SSET_NE (R335): Scalar not-equal compare into a q predicate. -/
  | ssetNe (d a b g m : Nat)
  /-- SSEL (R336): Scalar select by q1 to q4. -/
  | ssel (d a b g m : Nat)
  /-- QLOP (R337): Uniform predicate logic operation. -/
  | qlop (d a b g m : Nat)
  /-- SPOPC (R334): Scalar population count. -/
  | spopc (d a b g m : Nat)
  /-- SCLZ (R334): Scalar count leading zeros. -/
  | sclz (d a b g m : Nat)
  /-- SMOV (R334): Scalar move with poison. -/
  | smov (d a b g m : Nat)
  /-- VTOU (R340): Read one lane's register into a uniform register. -/
  | vtou (d a b g m : Nat)
  /-- VOTE (R340): Ballot or vote over a lane predicate. -/
  | vote (d a b g m : Nat)
  /-- REDX (R340): Reduction over active lanes into a uniform register. -/
  | redx (d a b g m : Nat)
  /-- GETS (R341): Read a special register into a uniform register. -/
  | gets (d a b g m : Nat)
  /-- PUTS (R341): Write a special register from a uniform register. -/
  | puts (d a b g m : Nat)
  /-- SADDC (R334): Scalar add with carry through q7. -/
  | saddc (d a b g m : Nat)
  /-- SADDI (R338): Scalar add immediate. -/
  | saddi (d a imm : Nat)
  /-- SANDI (R338): Scalar AND immediate. -/
  | sandi (d a imm : Nat)
  /-- SORI (R338): Scalar OR immediate. -/
  | sori (d a imm : Nat)
  /-- SXORI (R338): Scalar XOR immediate. -/
  | sxori (d a imm : Nat)
  /-- SSHLI (R338): Scalar shift left by immediate. -/
  | sshli (d a imm : Nat)
  /-- SSHRI (R338): Scalar logical shift right by immediate. -/
  | sshri (d a imm : Nat)
  /-- SSARI (R338): Scalar arithmetic shift right by immediate. -/
  | ssari (d a imm : Nat)
  /-- SSETI_LT (R338): Scalar signed less-than compare with immediate. -/
  | ssetiLt (d a imm : Nat)
  /-- SSETI_EQ (R338): Scalar equal compare with immediate. -/
  | ssetiEq (d a imm : Nat)
  /-- SSETI_LTN (R338): Scalar natural less-than compare with immediate. -/
  | ssetiLtn (d a imm : Nat)
  /-- SMULI (R338): Scalar multiply immediate. -/
  | smuli (d a imm : Nat)
  /-- SMOVI (R339): Scalar move sign-extended 18-bit immediate. -/
  | smovi (d imm : Nat)
  /-- SHI18 (R339): Shift scalar left 18 and add immediate. -/
  | shi18 (d imm : Nat)
  /-- SADR (R339): PC-relative address into a scalar register. -/
  | sadr (d imm : Nat)
  /-- BRA (R344): Uniform conditional branch on a q predicate. -/
  | bra (c off : Nat)
  /-- BR (R344): Lane branch dividing the split by a p predicate. -/
  | br (c off : Nat)
  /-- BR_E (R194): Ejectable lane branch that may move the minority to Retriever threads. -/
  | brE (c off : Nat)
  /-- JOINAT (R198): Set the split's join point. -/
  | joinat (c off : Nat)
  /-- CALL (R344): Call with link in s62 or e15. -/
  | call (c off : Nat)
  /-- LOOP (R345): Decrement %lc and branch by predicate. -/
  | loop (c off : Nat)
  /-- RGN_I (R165): Open an idempotent region in each active lane. -/
  | rgnI (c off : Nat)
  /-- RGN_H (R165): Open a held region in each active lane. -/
  | rgnH (c off : Nat)
  /-- MMA_Q (R368): Per-quarter matrix passes, fused by key, on the compute-in-memory array. -/
  | mmaQ (a view se acc sat sp z la : Nat)
  /-- MMA_PK (R372): Collective block-form matrix pass over the pack. -/
  | mmaPk (y a view se acc sat sp z la : Nat)
  /-- MZERO (R373): Zero a range of C-buffer elements and clear their poison. -/
  | mzero (y a b z la : Nat)
  /-- CPY (R377): Collective copy by descriptor through the copy engine. -/
  | cpy (y d a z la : Nat)
  /-- CPYR (R384): Collective copy to a peer device with optional remote barrier. -/
  | cpyr (y d a b la : Nat)
  /-- DISP_SEND (R387): Dispatch tokens to receive buffers by dispatch table. -/
  | dispSend (y d a z mode la : Nat)
  /-- DISP_OPEN (R388): Open a receive buffer of the device. -/
  | dispOpen (y d a z mode la : Nat)
  /-- DISP_CLOSE (R388): Close a receive buffer and return its claim count. -/
  | dispClose (y d a z mode la : Nat)
  /-- CSTL (R390): Castle the named shadowed views of one space. -/
  | cstl (y mask sp z : Nat)
  /-- FORK (R374): Start the matrix and copy sequencers on engine programs. -/
  | fork (y a b z : Nat)
  /-- RDV (R376): Wait for both engine sequencers and report their marks. -/
  | rdv (y d z la : Nat)
  /-- XCH (R391): Exchange a lane register with a partner group. -/
  | xch (d a b la : Nat)
  /-- JOIN (R198): Rejoin point for ejected lanes, or wait for them on the home core. -/
  | join (z : Nat)
  /-- RET (R346): Return to the address in a uniform register. -/
  | ret (y a z : Nat)
  /-- BRX (R346): Indirect per-lane branch through a register pair. -/
  | brx (y a z : Nat)
  /-- EXIT (R347): End the active lanes of the split, or a control or engine program. -/
  | exit (z : Nat)
  /-- NOP (R346): No operation. -/
  | nop (z : Nat)
  /-- YIELD (R346): Let the other ready splits issue first. -/
  | yield (z : Nat)
  /-- CMT_BR (R171): Commit, sending poisoned lanes to recovery. -/
  | cmtBr (z : Nat)
  /-- CMT_SV (R171): Commit, servicing serviceable faults and replaying. -/
  | cmtSv (z : Nat)
  /-- CMT_RL (R171): Commit, continuing poisoned lanes with ORPH set. -/
  | cmtRl (z : Nat)
  /-- PCHK (R349): Test a register's poison into a predicate, optionally with payload. -/
  | pchk (u p y a pl e z : Nat)
  /-- PCLR (R350): Clear poison, reserve entries and orphan state. -/
  | pclr (f n q sx z : Nat)
  /-- SIDE (R351): Read a word of a side-table record. -/
  | side (d a k z : Nat)
  /-- BAR (R352): Barrier arrive and/or wait at a kind of barrier. -/
  | bar (kind act slot z : Nat)
  /-- FENCE_ACQ (R94): Acquire fence at a scope. -/
  | fenceAcq (scope kind z : Nat)
  /-- FENCE_REL (R94): Release fence at a scope. -/
  | fenceRel (scope kind z : Nat)
  /-- FENCE_AR (R94): Release then acquire fence at a scope. -/
  | fenceAr (scope kind z : Nat)
  /-- TRIG (R354): Release at device scope and trigger dependent launches. -/
  | trig (z : Nat)
  /-- TREADY (R354): Release and count toward a tile flag. -/
  | tready (y a z : Nat)
  /-- TWAIT (R354): Wait for a tile flag, then acquire. -/
  | twait (y a z : Nat)
  /-- SVC (R355): Enter supervisor mode at SVEC + 0x40. -/
  | svc (z : Nat)
  /-- SRET (R355): Return from supervisor mode, starting replay after a service. -/
  | sret (z : Nat)
  /-- BRK (R206): Breakpoint that halts the split when debug is enabled. -/
  | brk (z : Nat)
  /-- HARV (R137): Harvest accessed, dirty and heat state of an ASID into a buffer. -/
  | harv (d a b clr z : Nat)
  /-- TLBI_GEN (R125): Raise an ASID's generation by broadcast. -/
  | tlbiGen (d a b form z : Nat)
  /-- TLBI_PAGE (R128): Invalidate one page of an ASID through the directory. -/
  | tlbiPage (d a b form z : Nat)
  /-- TLBI_HOLD (R129): Invalidate a page and hold its requests at every slice of the domain. -/
  | tlbiHold (d a b form z : Nat)
  /-- TLBI_REL (R129): Release the hold on a page. -/
  | tlbiRel (d a b form z : Nat)
  /-- CWB (R73): Write back a range at core or slice level. -/
  | cwb (d a b lvl z : Nat)
  /-- CINV (R73): Invalidate a range, writing back first or discarding. -/
  | cinv (d a b lvl mode z : Nat)
  /-- SEAL_CLOSE (R115): Seal a buffer range, incrementing its version and notifying peers. -/
  | sealClose (d a b op z : Nat)
  /-- SEAL_OPEN (R115): Retire a sealed version at every peer and open the range. -/
  | sealOpen (d a b op z : Nat)
  /-- EVT (R359): Insert an EVT record into the die's event queue. -/
  | evt (y a z : Nat)
  /-- WAITEV (R360): Control core waits for an event record. -/
  | waitev (d a z : Nat)
  /-- LAUNCH (R220): Validate a launch descriptor and start a grid. -/
  | launch (d a z : Nat)
  /-- VACATE_SAVE (R236): Save every pack with a member on the named cores. -/
  | vacateSave (d a b mode z : Nat)
  /-- VACATE_OPEN (R236): Add the named cores to a grid's core mask. -/
  | vacateOpen (d a b mode z : Nat)
  /-- VACATE_KILL (R236): Kill every pack of a grid on the die. -/
  | vacateKill (d a b mode z : Nat)
  /-- DICT (R225): Preload a dictionary into named cores. -/
  | dict (d a b z : Nat)
  /-- FLUSHST (R361): Write one page back to its drive. -/
  | flushst (d a b fua z : Nat)
  /-- HASHSW (R362): Switch an interleave domain to a new slice mask. -/
  | hashsw (d a z : Nat)
  /-- SLD_W (R342): Scalar 4-byte global load. -/
  | sldW (hint d base off la : Nat)
  /-- SLD_D (R342): Scalar 8-byte global load. -/
  | sldD (hint d base off la : Nat)
  /-- SST_W (R342): Scalar 4-byte global store. -/
  | sstW (hint d base off la : Nat)
  /-- SST_D (R342): Scalar 8-byte global store. -/
  | sstD (hint d base off la : Nat)
  /-- SATOM_ADD64 (R343): Scalar 64-bit atomic add at the home slice, device scope. -/
  | satomAdd64 (hint d base off la : Nat)
  /-- SCAS64 (R343): Scalar 64-bit compare-and-swap at the home slice. -/
  | scas64 (hint d base off la : Nat)
  /-- SLDL (R342): Scalar 8-byte local-space load. -/
  | sldl (hint d base off la : Nat)
  /-- SSTL (R342): Scalar 8-byte local-space store. -/
  | sstl (hint d base off la : Nat)
  /-- DICTIONARY_CODE (R282): Execute a dictionary entry with lane-register rebase. -/
  | dictionaryCode (rb index : Nat)
  /-- UNASSIGNED_ENCODING (R294): Execution of an unassigned encoding yields ILLEGAL_ENC without writing anything. Operands: the word, or the halfword of a dictionary code, that is no instruction; performed by the current actor. -/
  | unassignedEncoding (detail : Nat)
  /-- INSTRUCTION_FETCH_FAULT (R28): A failed fetch check allocates a record and resolves the split as a commit would. -/
  | instructionFetchFault
  /-- REGISTER_WRITE (R10): Write to a register field with no row of its own, including ignored writes. Operands: a host write of size bytes at BAR0 offset off of function fn, or, for fn from 8, at BAR4 offset off of function fn - 8. -/
  | registerWrite (fn : Nat) (off : Nat) (size : Nat) (value : Nat)
  /-- STORE_TRANSLATION_PROBE (R444): A store's probe arrives at the home slice and makes the translation checks. Operands: the probe that actor a's store has outstanding arrives; ev names the victims its walk evicts. -/
  | storeTranslationProbe (a : Actor) (ev : Nat)
  /-- PROBE_RETURN (R444): All probes of a store return and the store takes effect or is held. Operands: the last probe of actor a's store returns. -/
  | probeReturn (a : Actor)
  /-- L1_FILL (R52): A fill returns and merges into the L1 line, completing the load. Operands: the answered read of actor a merges into the L1. -/
  | l1Fill (a : Actor)
  /-- SLICE_READ_MISS (R49): A read request reaches the home slice, hits or translates and reads memory. Operands: actor a's read request arrives at the slice; ev names the victims. -/
  | sliceReadMiss (a : Actor) (ev : Nat)
  /-- WALK_COMPLETE (R122): A page walk finishes and installs a translation or faults. Operands: the walk that actor a's request waits for finishes; ev names the victim TLB entry. -/
  | walkComplete (a : Actor) (ev : Nat)
  /-- WRITE_BACK (R89): Dirty bytes of a line arrive at the home slice and are merged. Operands: the full set of line n in the core's L1 makes room, and the dirty bytes of the line that leaves arrive at the home slice. -/
  | writeBack (core : Nat) (n : Nat)
  /-- BYPASS_STORE (R52): A bypass store miss is performed at the home slice with its probe. Operands: actor a's bypass store arrives at the slice with its probe. -/
  | bypassStore (a : Actor) (ev : Nat)
  /-- SLICE_ATOMIC (R71): An atomic request is applied by the slice's atomic unit in lane order. Operands: actor a's atomic request arrives at the atomic unit. -/
  | sliceAtomic (a : Actor) (ev : Nat)
  /-- RECLAIM (R60): A reclaim reaches the owner L1, which writes back and invalidates the page's lines. Operands: the reclaim of the page reaches its owner. -/
  | reclaim (sl : Nat) (asid : Nat) (page : Nat)
  /-- RECLAIM_ACK (R60): The owner's acknowledgement makes the entry SHARED and releases held requests. Operands: the owner's acknowledgement reaches the slice. -/
  | reclaimAck (sl : Nat) (asid : Nat) (page : Nat)
  /-- REPLICA_INVALIDATE (R64): A die invalidates its replicas of a page and acknowledges. Operands: the die drops its replicas of the page. -/
  | replicaInvalidate (sl : Nat) (asid : Nat) (page : Nat) (die : Nat)
  /-- REPLICA_INVALIDATE_ACK (R64): All acknowledgements return the entry to memory-side mode and perform the write. Operands: every die has acknowledged. -/
  | replicaInvalidateAck (sl : Nat) (asid : Nat) (page : Nat)
  /-- REQUEST_BOUNCE (R68): A slice that is not the line's home returns a bounce. Operands: actor a's request meets a slice that may not serve it. -/
  | requestBounce (a : Actor)
  /-- REQUEST_REPLAY (R68): A bounced request is replayed once the requester's epoch or generation changes. Operands: actor a's bounced request is sent again. -/
  | requestReplay (a : Actor)
  /-- REMOTE_SCRATCHPAD_ACCESS (R102): A remote pack-scratchpad access arrives and takes effect at the target core. Operands: actor a's pack-scratchpad access arrives at its target core. -/
  | remoteScratchpadAccess (a : Actor)
  /-- RETRIEVER_ACCESS (R87): An ejected lane's access arrives at its home core over the mesh. Operands: the access of ejected lane a arrives at its home core. -/
  | retrieverAccess (a : Actor)
  /-- GEN_BROADCAST_RECEIVE (R125): A slice, die cache or compute die adopts a new generation of an ASID. Operands: receiver r (0 to 15 a slice, 16 to 19 a compute die with its die cache) adopts the new generation. -/
  | genBroadcastReceive (asid : Nat) (r : Nat)
  /-- GEN_BROADCAST_DONE (R125): Every receiver has acknowledged and the generation broadcast completes. Operands: every receiver has acknowledged. -/
  | genBroadcastDone (asid : Nat)
  /-- DROP_NOTICE (R126): A slice receives a drop notice of dirty bytes and increments GENDROP. Operands: the oldest drop notice to the slice arrives. -/
  | dropNotice (sl : Nat)
  /-- PAGE_INVALIDATE_RECEIVE (R128): A named slice reclaims, writes back, flushes and drops a page. Operands: the slice receives the invalidate. -/
  | pageInvalidateReceive (sl : Nat) (asid : Nat) (page : Nat)
  /-- PAGE_INVALIDATION_DONE (R128): All acknowledgements remove the directory entry and release held requests. Operands: every acknowledgement is in. -/
  | pageInvalidationDone (asid : Nat) (page : Nat)
  /-- HARVEST_DONE (R137): Every slice has finished its harvest walk. Operands: every slice has finished the harvest that actor a issued. -/
  | harvestDone (a : Actor)
  /-- RANGE_OPERATION_DONE (R73): Every write-back of a CWB or CINV has been accepted. Operands: the range operation of actor a has been accepted. -/
  | rangeOperationDone (a : Actor)
  /-- DOMAIN_SWITCH_DONE (R67): The new MASK and EPOCH are written and held requests proceed. Operands: step 4 of the switch of the domain. -/
  | domainSwitchDone (dom : Nat)
  /-- SLCS_CLR (R77): Writing CLR clears SPILLS and REFUSED. Operands: CLR written to SLCS. -/
  | slcsClr (sl : Nat)
  /-- SLTS_CLR (R131): Writing CLR clears GENDROP and WALKS. Operands: CLR written to SLTS. -/
  | sltsClr (sl : Nat)
  /-- CMCMD_SET (R79): Write a block's units into its compression metadata word. Operands: CMCMD written with OP 01. -/
  | cmcmdSet (value : Nat)
  /-- CMCMD_QUERY (R79): Load a block's NU, UBASE and SPL into CMCMD. Operands: CMCMD written with OP 10. -/
  | cmcmdQuery (value : Nat)
  /-- CMCMD_SET_DONE (R79): Every slice has rewritten fitting pinned lines and BUSY clears. -/
  | cmcmdSetDone
  /-- SLHM_WRITE (R66): Write of a domain hash-mask register, MASK ignored while EN = 1. Operands: the master SLHM is written. -/
  | slhmWrite (dom : Nat) (value : Nat)
  /-- SLHC_WRITE (R134): Write of a domain heat configuration, taking effect for later misses. Operands: the master SLHC is written. -/
  | slhcWrite (dom : Nat) (value : Nat)
  /-- COMMIT_BACKOFF_EXPIRY (R173): A commit back-off elapses and the commit is issued again. Operands: the back-off of the group elapses. -/
  | commitBackoffExpiry (core : Nat) (slot : Nat)
  /-- FETCH_REQUEST_INTAKE (R144): A Fetch engine takes a service request when intake and fetch-table room exist. Operands: the engine takes the request at the head of its intake queue. -/
  | fetchRequestIntake (port : Nat)
  /-- NVME_COMMAND_COMPLETE (R143): An NVMe command completes, finishing a fetch or flush. Operands: a command in flight of page n of the port completes; its NVMe status in [14:0], the poisoned sectors of the page from [16]. -/
  | nvmeCommandComplete (port : Nat) (n : Nat) (status : Nat)
  /-- NVME_COMMAND_TIMEOUT (R416): A command passes TMO and is aborted as a failure. Operands: a command in flight of page n of the port passes TMO. -/
  | nvmeCommandTimeout (port : Nat) (n : Nat)
  /-- STORAGE_LINK_UP (R415): A storage link comes up and the engine initialises the drive. Operands: the link comes up; the drive reports block size 2^(lbs+9), and in ident its queue count [15:0], MQES [31:16] and MDTS [39:32]. -/
  | storageLinkUp (port : Nat) (lbs : Nat) (ident : Nat)
  /-- STORAGE_LINK_DOWN (R416): A storage link goes down and in-flight commands fail. Operands: the link goes down. -/
  | storageLinkDown (port : Nat)
  /-- FRDB_SERVICED (R148): Host completes a PAGE_HOST fault as serviced. Operands: FRDB written with FAIL 0. -/
  | frdbServiced (die : Nat) (token : Nat)
  /-- FRDB_FAIL (R148): Host fails a PAGE_HOST fault, sending lanes to recovery. Operands: FRDB written with FAIL 1. -/
  | frdbFail (die : Nat) (token : Nat)
  /-- HAND_OVER_DONE (R197): An ejected lane's thread issues its first instruction after hand-over. Operands: the hand-over of the thread is complete. -/
  | handOverDone (die : Nat) (t : Nat)
  /-- REJOIN_TIMEOUT (R200): An ejected lane's rejoin timeout expires and its recall begins. Operands: the rejoin timeout of the thread expires. -/
  | rejoinTimeout (die : Nat) (t : Nat)
  /-- RECALL_COMPLETE (R202): A recalled lane's accesses are acknowledged and it re-enters the group. Operands: the recalled lane re-enters its group. -/
  | recallComplete (die : Nat) (t : Nat)
  /-- POWER_TOKEN_GRANT (R230): The head power-token request is granted when free tokens cover it. Operands: the head request is granted. -/
  | powerTokenGrant (die : Nat)
  /-- MATRIX_PASS_COMPLETE (R370): A pass writes its C elements and returns its tokens. Operands: the oldest matrix operation of the core completes. -/
  | matrixPassComplete (core : Nat)
  /-- COPY_COMPLETE (R383): A copy's writes take effect and its status is written. Operands: episode n of the workgroup's copies moves its elements and completes. -/
  | copyComplete (core : Nat) (wg : Nat) (n : Nat)
  /-- CPYR_ACK (R384): The peer acknowledges data and barrier increment and the status is written. Operands: the peer acknowledges (fault 0) or answers with a fault (1). -/
  | cpyrAck (core : Nat) (wg : Nat) (n : Nat) (fault : Nat)
  /-- DISPATCH_DELIVER (R387): A receiver claims a slot, writes the token and increments the done word. Operands: the next token of the dispatch reaches its receiver; a peer answers delivered (0), refused (1) or with a fault (2). -/
  | dispatchDeliver (core : Nat) (wg : Nat) (n : Nat) (answer : Nat)
  /-- DISPATCH_DONE (R387): Every delivered slot and increment has taken effect and the status is written. Operands: every delivered slot has taken effect. -/
  | dispatchDone (core : Nat) (wg : Nat) (n : Nat)
  /-- PEER_TIMEOUT (R414): A peer or host request goes unanswered past PTO. Operands: what actor a has outstanding toward a peer or the host goes unanswered past PTO. -/
  | peerTimeout (a : Actor)
  /-- XCH_TIMEOUT (R393): An exchange partner fails to pair within 2^20 cycles. Operands: the oldest unpaired exchange of the group times out. -/
  | xchTimeout (core : Nat) (slot : Nat)
  /-- CASTLING (R104): After engine writes drain, FRONT and SHADOW swap in one castling cycle. Operands: the castling cycle of actor a's CSTL. -/
  | castling (a : Actor)
  /-- RDV_COMPLETE (R376): Both sequencers have ended and RDV writes its status. Operands: both sequencers have ended. -/
  | rdvComplete (core : Nat) (wg : Nat)
  /-- TILE_FLAG_NOTIFY (R222): A placement unit rereads tile flags on a TREADY notification. Operands: the placement unit and the waiting splits reread the tile flags. -/
  | tileFlagNotify (die : Nat)
  /-- PACK_PLACE (R223): The placement unit places a pack once its dependency and cores allow. Operands: the placement unit places the first pack that fits. -/
  | packPlace (die : Nat)
  /-- PACK_SAVE_COMPLETE (R237): A saved pack's state is written out and its cores freed. Operands: the oldest save of the die has written its state out. -/
  | packSaveComplete (die : Nat)
  /-- QUANTUM_EXPIRY (R234): A queue's quantum elapses and one QUANTUM event is written. Operands: the quantum of the queue has elapsed. -/
  | quantumExpiry (die : Nat) (q : Nat)
  /-- GRID_COMPLETION (R219): All workgroups have released and the home die writes GRID_DONE. Operands: the first finished grid homed at the die completes. -/
  | gridCompletion (die : Nat)
  /-- SUBMISSION_TAKE (R211): A free control-core thread starts the program at a queue's HEAD. Operands: a free control-core thread takes the next submission. -/
  | submissionTake (die : Nat)
  /-- EVENT_INSERT (R212): An event record is offered to the die's event queue. Operands: the oldest held event is offered to the event queue. -/
  | eventInsert (die : Nat)
  /-- WAITEV_TIMEOUT (R360): A WAITEV limit elapses with no record. Operands: the limit of the WAITEV elapses. -/
  | waitevTimeout (die : Nat) (t : Nat)
  /-- DBGCTL_RESUME (R207): Resume every halted split on the die. Operands: RESUME written to DBGCTL. -/
  | dbgctlResume (die : Nat)
  /-- DBGCTL_HALTED_CLEAR (R207): Write-one-to-clear of HALTED. Operands: HALTED written with 1. -/
  | dbgctlHaltedClear (die : Nat)
  /-- KSCMD_LOAD (R397): Load XTS keys into a key slot on all base dies. Operands: KSCMD written with OP 01. -/
  | kscmdLoad (slot : Nat)
  /-- KSCMD_REVOKE (R397): Revoke a key slot on all base dies. Operands: KSCMD written with OP 10. -/
  | kscmdRevoke (slot : Nat)
  /-- KEY_SLOT_OP_DONE (R397): A key slot operation completes on all base dies and BUSY clears. -/
  | keySlotOpDone
  /-- MFES_CLEAR (R398): Write-one-to-clear of MF error status bits. Operands: MFES written. -/
  | mfesClear (value : Nat)
  /-- ALM_LOCK (R420): Freeze the alarm policy until cold reset. -/
  | almLock
  /-- ALM_CLEAR (R420): Write-one-to-clear of alarm source bits. Operands: source bits of ALM written. -/
  | almClear (value : Nat)
  /-- SECURITY_ALARM (R421): An alarm source fires and the policy's action is taken. Operands: alarm source src (ALM bit) fires. -/
  | securityAlarm (src : Nat)
  /-- DBGGO_GO (R407): Start verifying the debug unlock response for a die. Operands: DBGGO written with GO 1. -/
  | dbggoGo (die : Nat)
  /-- DEBUG_UNLOCK_RESULT (R422): Verification ends, setting DBGCTL.EN or raising the DBG alarm. Operands: the verification of the response ends; ok says whether both signatures verify. -/
  | debugUnlockResult (ok : Nat)
  /-- DRST_GO (R403): Start a compute-die reset through DRST. Operands: DRST written with GO 1. -/
  | drstGo (die : Nat)
  /-- FUNCTION_LEVEL_RESET (R417): A function-level reset of a die function resets its compute die. Operands: function-level reset of die function 1 + die. -/
  | functionLevelReset (die : Nat)
  /-- BDRST_RESET (R403): Reset a base die, dropping its slice state. Operands: RESET bit of BDRST written. -/
  | bdrstReset (sl : Nat)
  /-- CTXB_WRITE (R402): Write of the context-table base, ignored after die functions are enabled. Operands: CTXB written. -/
  | ctxbWrite (value : Nat)
  /-- PEERB_WRITE (R402): Write of the peer-table base, ignored after die functions are enabled. Operands: PEERB written. -/
  | peerbWrite (value : Nat)
  /-- FABN_WRITE (R402): Write of the fabric number, ignored after UALink first trains. Operands: FABN written. -/
  | fabnWrite (value : Nat)
  /-- MODULE_COLD_RESET (R419): Cold reset runs the boot ROM and verifies and starts firmware. Operands: cold reset; ok says whether the firmware image verifies; then what the firmware writes. -/
  | moduleColdReset (ok : Nat) (ctxb : Nat) (peerb : Nat) (fab : Nat)
  /-- THERMAL_LIMIT (R425): A junction reaches 100, 110 or 120 degrees C and the action is taken. Operands: the die reaches 100 (0), 110 (1) or 120 (2) degrees C. -/
  | thermalLimit (die : Nat) (lvl : Nat) (tmax : Nat)
  /-- THERMAL_RECOVER (R425): A junction falls 5 degrees C below a limit and its action is withdrawn. Operands: the die falls 5 degrees C below limit lvl. -/
  | thermalRecover (die : Nat) (lvl : Nat)
  /-- SPDM_REQUEST (R395): An SPDM 1.3 message is served for a TDI. Operands: an SPDM message arrives for the die's TDI. -/
  | spdmRequest (die : Nat) (code : Nat)
  /-- KEY_PROGRAM (R396): A TDI's owner slot is programmed inside its secure session. Operands: KEY_PROGRAM inside the TDI's secure session. -/
  | keyProgram (die : Nat) (slot : Nat)
  /-- LOCK_INTERFACE (R422): A TDI is locked, refused when debug is enabled. Operands: TDISP LOCK_INTERFACE. -/
  | lockInterface (die : Nat)
  /-- STOP_INTERFACE (R418): A TDI in ERROR returns to CONFIG_UNLOCKED. Operands: TDISP STOP_INTERFACE. -/
  | stopInterface (die : Nat)
  /-- HOST_BAR2_READ (R409): A host read through a die function's BAR2 window. Operands: host read of size bytes at BAR2 offset off. -/
  | hostBar2Read (die : Nat) (off : Nat) (size : Nat)
  /-- HOST_BAR2_WRITE (R409): A host write through a die function's BAR2 window. Operands: host write; ep 1 marks poisoned data. -/
  | hostBar2Write (die : Nat) (off : Nat) (size : Nat) (value : Nat) (ep : Nat)
  /-- PEER_REQUEST (R413): An inbound UALink request is served under the IMAP-matched local ASID. Operands: cmd holds the kind in [2:0], an atomic's op in [6:3] and the size in bytes from [7]: an inbound read (0), write (1) or atomic (2), a token of a SEND (3) for buffer addr, its header and payload the value, or an access that times out (4); poi: the poisoned sectors of the data. -/
  | peerRequest (fab : Nat) (rasid : Nat) (cmd : Nat) (addr : Nat) (value : Nat) (poi : Nat)
  /-- CXL_COMPLETION (R149): A host or CXL completion returns data, poison or timeout. Operands: the completion of actor a's host or CXL access: data (0), poisoned (1) or a fault (2). -/
  | cxlCompletion (a : Actor) (kind : Nat) (value : Nat)
  /-- SEAL_VERSION_NOTICE (R115): A peer receives a sealed (buffer, version) pair. Operands: a peer's sealed pair arrives. -/
  | sealVersionNotice (dev : Nat) (buf : Nat) (ver : Nat)
  /-- SEAL_RETIRE (R412): A die invalidates lines of a retired version and acknowledges. Operands: a retire reaches the die. -/
  | sealRetire (die : Nat) (dev : Nat) (buf : Nat) (ver : Nat)
  /-- SEAL_RETIRE_ACK (R115): All retire acknowledgements set the seal entry OPEN. Operands: every retire acknowledgement of actor a's open is in. -/
  | sealRetireAck (a : Actor)
  /-- START_INTERFACE (R395): A TDISP START_INTERFACE request moves a TDI from CONFIG_LOCKED to RUN. Operands: TDISP START_INTERFACE. -/
  | startInterface (die : Nat)
  /-- UALINK_PORTS_TRAIN (R402): The UALink ports first train after cold reset, after which writes to FABN are ignored. -/
  | ualinkPortsTrain
  /-- PEER_ACCESS_COMPLETION (R114): The response to an uncached load, store or atomic to a peer device arrives over UALink, carrying data, poison or a fault. Operands: the response to actor a's uncached peer access: data (0), poisoned (1) or a fault (2). -/
  | peerAccessCompletion (a : Actor) (kind : Nat) (value : Nat)
  /-- DIE_RESET_COMPLETE (R417): A compute-die reset finishes within 10 ms, INRST clears and the die accepts work again. Operands: the reset of the die finishes. -/
  | dieResetComplete (die : Nat)
  /-- BASE_DIE_RESET_COMPLETE (R403): A base-die reset finishes, its INRST bit clears and its SLHC copy is reloaded. Operands: the reset of the base die finishes. -/
  | baseDieResetComplete (sl : Nat)
  /-- UNCORRECTABLE_ECC_ERROR (R154): A stored HBM or on-chip sector suffers an uncorrectable error, which is later detected as ECC_UE. Operands: the sector at addr of HBM (sp 4) or of the core's scratchpad, A-, C- or W-buffer (0 to 3) suffers an error. -/
  | uncorrectableEccError (sp : Nat) (core : Nat) (addr : Nat) (syn : Nat)
  deriving DecidableEq, Repr

end Sys2Proof
end

