-- ==== Sys2Proof/Machine/State.lean ====
section
/-! DEFINITION. The state of the module: every piece of state the spec gives the machine, as plain data (INVENTORY.md,
"State"), the reasons a step can stop, and the module right after module cold reset. A field named in a docstring with
a rule is the spec's; the last fields of `State` (agenda, cur, ctr) are the model's own. -/

namespace Sys2Proof.Machine

/-- Lane region state (05 R165, R166). `start` and `recov` are the start PC and the recovery target; `recp` is REC. -/
structure Rgn where
  opn : Bool := false
  kind : Bool := false
  p : Bool := false
  nsv : Bool := false
  orph : Bool := false
  recv : Bool := false
  rpl : Nat := 0
  recp : Payload := 0
  seq : Nat := 0
  start : W64 := 0
  recov : W64 := 0
  deriving DecidableEq, Repr

/-- A lane that does not run is exited (06 R178) or ejected to a Retriever thread of its die (R194). -/
inductive Life where
  | exited
  | live
  | ejected (t : Nat)
  deriving DecidableEq, Repr

/-- One lane: registers, predicates, %dr, region, life (05 R152; 10 R316). Unlisted registers are 0 and clean. -/
structure Lane where
  v : Tbl (Val W32) := []
  p : Tbl (Val Bool) := []
  dr : Val W32 := .ok 0
  rgn : Rgn := {}
  life : Life := .exited
  deriving DecidableEq, Repr

/-- What a split waits for: a barrier by its key (06 R188, 11 R352), a JOIN at an address (06 R198), a tile flag (11 R354),
the SRET of a handler or the service of a commit (04 R141, R143). -/
inductive Wait where
  | none
  | bar (key : Nat)
  | join (j : W64)
  | tile (t : Nat) (pc : W64)
  | service
  deriving DecidableEq, Repr

/-- An instruction that completes later and until then holds its split (11 R333): its status register, and what it waits
for. A generation form keeps the new generation as its page; `range` keeps the status it will give. -/
inductive Blk where
  | harv (d : Nat)
  | tlbi (d asid : Nat) (gen : Bool) (page : Nat)
  | range (d : Nat) (res : Val W64)
  | sealOpen (d entry : Nat) (pc : W64)
  | flush (d port asid : Nat) (page : Nat)
  | hashsw (d dom : Nat)
  | cstl (space mask : Nat)
  | waitev (d : Nat) (order : Nat) (limit : Nat)
  deriving DecidableEq, Repr

/-- A split: PC, mask, %lc, join point J, supervisor mode and return (none: a fault-service entry), wait, the instruction that holds it, those
of splits merged into it that hold it after that (06 R192), the slots that must issue before it after YIELD, halt with the PC after the BRK it is at, and whether a fetch
fault's commit waits for a permit (06 R190, R198, R206; 11 R345, R346, R355; 01 R28). -/
structure Split where
  pc : W64 := 0
  mask : Nat := 0
  lc : W32 := 0
  join : Option W64 := none
  sup : Bool := false
  ret : Option W64 := none
  wait : Wait := .none
  blk : Option Blk := none
  also : List Blk := []
  yld : List Nat := []
  halted : Bool := false
  brk : Option W64 := none
  due : Bool := false
  deriving DecidableEq, Repr

/-- One access of a lane (10 R320, R327) or of the group (11 R342): the lane, the address, its size, the data (for a
compare-and-swap the swap value in `aux`), the poison of the data, and which piece of a lane's element it is (R323). -/
structure Acc where
  lane : Nat
  addr : Nat
  size : Nat
  data : Nat := 0
  aux : Nat := 0
  bad : Option Payload := none
  piece : Nat := 0
  deriving DecidableEq, Repr

/-- A fault with its detail (05 R161, R162). -/
structure Flt where
  cause : Nat
  detail : Nat
  deriving DecidableEq, Repr

/-- What one access gave: the bytes as a number, poison, or a fault that has no record yet, with its address, the key of its
page or view frame, and whether it met a CLEAN view. -/
inductive Res where
  | num (n : Nat)
  | bad (pl : Payload)
  | fault (f : Flt) (va page : Nat) (cln : Bool)
  deriving DecidableEq, Repr

/-- Kind of a request to a home slice: a read of sectors, a store's probe (02 R444), a bypass store (02 R52), an atomic
(02 R71), an uncached access (03 R114; 04 R149). -/
inductive ReqKind where
  | read
  | probe
  | bypass
  | atomic
  | uncached
  deriving DecidableEq, Repr

/-- Where the bytes of a page lie: HBM, a compressed block (key, offset in it), or behind the host port (01 R25, R30). -/
inductive Loc where
  | hbm (pa : Nat)
  | blk (key off : Nat)
  | far (kind addr : Nat)
  deriving DecidableEq, Repr

/-- A translated access at its home slice: where the byte lies, the key slot, the leaf, the class of fills (02 R59), whether the page
is replicated, whether the slice keeps no translation and so no line of it (02 R59; 04 R128), and the fabric number of the peer
device that a host-mapped address reaches (03 R114; log entry 18). -/
structure Tr where
  loc : Loc
  slot : Nat
  raw : Nat
  cls : Nat
  rep : Bool
  noal : Bool := false
  peer : Option Nat := none
  deriving DecidableEq, Repr

/-- What a slice answers: 128 bytes of the line with a poison bit a sector, the class, whether the page is replicated,
the old values of an atomic's lanes, or a fault; format and geometry of the page where its translation is known, whether its class code is reserved, the key slot of the
page, and whether the page is a peer device's, whose data no cache here keeps (03 R114). -/
structure Resp where
  bytes : Tbl Byte := []
  pois : Nat := 0
  cls : Nat := 0
  rep : Bool := false
  old : List (Nat × Res) := []
  fault : Option Flt := none
  leaf : Option (Nat × Nat) := none
  shc : Bool := false
  slot : Nat := 0
  peer : Bool := false
  deriving DecidableEq, Repr

/-- Where a request stands: sent, waiting at a slice, bounced, waiting for an answer from outside through a translation, answered. -/
inductive ReqSt where
  | sent
  | walking (sl : Nat)
  | bounced
  | remote (t : Tr)
  | back (r : Resp)
  deriving DecidableEq, Repr

/-- A request: its kind, address, hint, the accesses it carries, and the epoch, generation and home slice under which it was hashed
(02 R68; 04 R126; no slice: the hash failed). -/
structure Req where
  kind : ReqKind
  addr : Nat
  hint : Nat := 0
  accs : List Acc := []
  epoch : Nat := 0
  gen : Nat := 0
  sl : Option Nat := none
  st : ReqSt := .sent
  deriving DecidableEq, Repr

/-- The memory instruction in flight of a context: the instruction, its PC and word, the lanes it was issued for, the
accesses still to perform and the results so far, the pages still to probe, the request outstanding, the held result,
whether it still travels to its place (Retriever mesh, remote scratchpad), whether every probe has been answered, the
format and geometry of an LDF page with its address and the element each lane names, the mode it issued in, the pages of peer
devices that its probes found (03 R114), and its place in its context's issue order (03 R85). -/
structure MemOp where
  ins : Instr
  pc : W64
  word : Nat
  mask : Nat
  todo : List Acc := []
  res : Tbl Res := []
  probes : List Nat := []
  req : Option Req := none
  hid : Nat := 0
  mesh : Bool := false
  remote : Bool := false
  probed : Bool := false
  fmt : Option (Nat × Nat) := none
  page : Nat := 0
  idx : Tbl Nat := []
  sup : Bool := false
  peers : List Nat := []
  ord : Nat := 0
  deriving DecidableEq, Repr

/-- A held long-latency result (09 R283 to R287): the destination registers (lane or uniform), the window count left of
each lane, the values once available (a list of words for each lane; uniform values under index 32), the lane registers for which a
later write stands, the register that an LDF also writes should its page's format prove to have 64 bits (10 R323), and the registers, each
with the LDF that may come to write it and the lane, whose write is held back until that format is known. -/
structure Held where
  regs : List Nat
  uni : Bool
  win : Tbl Nat := []
  val : Option (Tbl (List (Val W64))) := none
  gone : List (Nat × Nat) := []
  soft : List Nat := []
  maybe : List (Nat × Nat × Nat) := []
  deriving DecidableEq, Repr

/-- A commit whose service is pending (04 R140 to R143; 05 R172, R173): the PC after it, lanes that continue, replay and
recover, the records serviced, the handler's lanes, the stage (0 in-lane, 1 to be swapped out, 2 out), the slot, tokens and pages
(storage port, page) still awaited, the committing split as it was, and the records whose service has failed. -/
structure Svc where
  pc : W64
  cont : Nat
  replay : Nat
  recov : Nat
  recs : List Nat
  handler : Nat := 0
  stage : Nat := 0
  permit : Bool := true
  slot : Nat := 0
  pages : List (Nat × Nat) := []
  tokens : List Nat := []
  split : Split := {}
  failed : List Nat := []
  entered : Nat := 0
  deriving DecidableEq, Repr

/-- Power-token request of a context (07 R230): none, asked, granted. -/
inductive Tok where
  | none
  | asked
  | granted
  deriving DecidableEq, Repr

/-- An exchange issued (12 R391): partner (pack, member, gid), its number with that partner, mask, held result, the
PC, values of v[A]. -/
structure Xch where
  pack : Nat
  member : Nat
  gid : Nat
  k : Nat
  mask : Nat
  hid : Nat
  pc : W64
  vals : Tbl (Val W32)
  deriving DecidableEq, Repr

/-- An executing context: a resident group, a Retriever thread's private copy, a control-core thread, or an engine
sequencer (whose e0 to e15 are s 0 to s 15). -/
structure Ctx where
  on : Bool := false
  core : Nat := 0
  wslot : Nat := 0
  gid : Nat := 0
  asid : Nat := 0
  lanes : Tbl Lane := []
  s : Tbl (Val W64) := []
  q : Tbl (Val Bool) := []
  warn : W32 := 0
  fpx : W32 := 0
  fpm : W32 := 0
  splits : Tbl Split := []
  pool : List Split := []
  seq : Nat := 0
  kexp : Nat := 0
  backoff : Bool := false
  ovf : Bool := false
  lastRec : Option Nat := none
  memops : Tbl MemOp := []
  pend : Tbl Held := []
  hid : Nat := 0
  arr : Tbl Nat := []
  trig : Nat := 0
  trigd : Bool := false
  counts : Tbl Nat := []
  xchN : Tbl Nat := []
  xch : List Xch := []
  svc : Option Svc := none
  hit : Tbl Payload := []
  hpack : Bool := false
  tok : Tok := .none
  tokN : Nat := 0
  tokSlot : Nat := 0
  last : Nat := 0
  home : Nat := 0
  lane : Nat := 0
  jrec : Option W64 := none
  moved : Bool := false
  timedOut : Bool := false
  queue : Nat := 0
  fw : Bool := false
  deriving DecidableEq, Repr

/-- A side-table record (05 R160); `mb` is the model's own: the pack member whose on-chip space its error lies in (R172). -/
structure Rec where
  pc : W64 := 0
  detail : W64 := 0
  va : Nat := 0
  asid : Nat := 0
  seq : Nat := 0
  chain : Nat := 0
  cause : Nat := 0
  lane : Nat := 0
  group : Nat := 0
  wgs : Nat := 0
  mb : Nat := 0
  noprev : Bool := false
  serv : Bool := false
  live : Bool := false
  stale : Bool := false
  out : Bool := false
  deriving DecidableEq, Repr

/-- A byte held in quarantine: its value, its owner lanes, whether the owners form a mask of a uniform store, its
poison, and whether loads still see it (05 R168 to R170). -/
structure QByte where
  val : Byte
  own : Nat
  poi : Option Payload
  fwd : Bool := true
  deriving DecidableEq, Repr

/-- A quarantine entry (05 R168): group slot, space (0 global, 1 scratchpad, 2 A-buffer, 3 C-buffer), sector address (on
chip the view number above the offset), ASID or pack member, bytes by offset, whether it is of the reserve. -/
structure QEnt where
  slot : Nat
  space : Nat
  addr : Nat
  asid : Nat
  bytes : Tbl QByte
  reserve : Bool
  deriving DecidableEq, Repr

/-- A view descriptor (01 R36). -/
structure View where
  rld : W64 := 0
  en : Bool := false
  shd : Bool := false
  cln : Bool := false
  flip : Bool := false
  nfr : Nat := 0
  front : Nat := 0
  shadow : Nat := 0
  deriving DecidableEq, Repr

/-- One arrival at a copy, peer-copy or dispatch episode (12 R377): the issuing context (for an engine program, the group of its FORK),
its operands, its lanes, its held result, its mode. -/
structure Arrival where
  act : Actor
  a : Val W64
  b : W64 := 0
  b1 : W64 := 0
  mask : Nat
  hid : Nat
  sup : Bool
  deriving DecidableEq, Repr

/-- A fault of an engine with the virtual address of its element, the key of its page or view frame, and whether it met a CLEAN
view. -/
structure EFlt where
  flt : Flt
  va : Nat := 0
  page : Nat := 0
  cln : Bool := false
  deriving DecidableEq, Repr

/-- The progress of a dispatch (12 R385 to R387): header fields, destinations as (peer handle, buffer), tokens still to send
as (destination, token, ALT, TAG), retries, counts, and the fault that ended it. -/
structure Disp where
  tsrc : Nat
  tstr : Nat
  ndst : Nat
  tsz : Nat
  tsp : Nat
  dests : List (Nat × Nat)
  sends : List (Nat × Nat × Nat × Nat)
  retry : List (Nat × Nat × Nat × Nat) := []
  first : Nat := 0
  second : Nat := 0
  drop : Nat := 0
  stop : Option EFlt := none
  deriving DecidableEq, Repr

/-- A copy-queue operation (12 R377 to R388; 07 R240): instruction, its kind (0 CPY, 1 CPYR, 2 DISP), episode number,
arrivals, whether it holds the reserved entry, whether a sequencer issued it, the progress of a dispatch. -/
structure CopyOp where
  ins : Instr
  kind : Nat
  epi : Nat
  pc : W64
  word : Nat
  arr : List Arrival
  reserved : Bool
  seqr : Bool
  disp : Option Disp := none
  deriving DecidableEq, Repr

/-- A resolved local access: core, workgroup slot, space, view, offset in the view, byte in the space, CLEAN. -/
structure LPos where
  core : Nat
  wslot : Nat
  sp : Nat
  view : Nat
  off : Nat
  byte : Nat
  cln : Bool
  deriving DecidableEq, Repr

/-- One row of a pass: lane, C row and A row as resolved at issue, scale bytes (12 R365, R371). -/
structure MRow where
  lane : Nat
  c : LPos
  a : LPos
  scale : Nat
  deriving DecidableEq, Repr

/-- A pass of the array (12 R365 to R371): rows, pass word, k-blocks, N of a sparse B (0 dense), scale selector, flags, its W
view as resolved at issue, the tokens it holds; or the elements that an MZERO clears from the C position of its one row. -/
structure Pass where
  rows : List MRow
  word : Nat := 0
  nk : Nat := 1
  spn : Nat := 0
  sel : Nat := 0
  acc : Bool := false
  sat : Bool := false
  w : LPos
  tokens : Nat
  zero : Option Nat := none
  deriving DecidableEq, Repr

/-- A matrix operation issued on a core (12 R370): issuer, the lanes it marks, whether a fault marks all of them (the block
form) or only their quarters, owner slot, PC and word, the passes left; whether a program of the sequencer issued it (12 R375), and the
bytes of A and W operands that an engine has overwritten since, as (core, space, byte, old value; none: in a poisoned sector) (12
R370). -/
structure MatOp where
  act : Actor
  wslot : Nat
  mask : Nat
  whole : Bool
  owner : Nat
  pc : W64
  word : Nat
  passes : List Pass
  seqr : Bool := false
  old : List (Nat × Nat × Nat × ((Nat × Nat) ⊕ Byte)) := []
  deriving DecidableEq, Repr

/-- A launch descriptor as read, with the descriptors of its view table (07 R217; 01 R36). -/
structure Desc where
  saveb : Nat := 0
  udata : Nat := 0
  ptags : List Nat := []
  tcnt : Nat := 0
  texp : Nat := 0
  tsh : Nat := 0
  tflag : Nat := 0
  hset : Nat := 0
  dicta : Nat := 0
  privb : Nat := 0
  memb : Nat := 0
  teamt : Nat := 0
  viewt : Nat := 0
  views : List Nat := []
  frames : List Nat := [0, 0, 0, 0]
  dcnt : Nat := 0
  psz : Nat := 0
  t : Nat := 1
  nlog : Nat := 0
  dmask : Nat := 1
  depm : Nat := 0
  ejt : Nat := 0
  rjt : Nat := 0
  regs : Nat := 1
  cosched : Bool := false
  qcap : Nat := 0
  w : Nat := 1
  asid : Nat := 0
  gtag : Nat := 0
  entry : W64 := 0
  addr : Nat := 0
  deriving DecidableEq, Repr

/-- The instruction being executed: the context, its PC, the PC after it, and its word (for details).
The model's own latch, set by the step. -/
structure Cur where
  act : Actor := .split 0 0 0
  pc : W64 := 0
  npc : W64 := 0
  word : Nat := 0
  deriving DecidableEq, Repr

/-- A workgroup's arrival at its k-th MMA.PK (12 R372): the tokens its pass takes, the instruction, and where it was reached. -/
structure PkArr where
  k : Nat
  n : Nat
  ins : Instr
  cur : Cur
  deriving DecidableEq, Repr

/-- A resident workgroup of a core (06 R184; 01 R35, R36, R41): grid, %wgid, member, pack base core, %teams, frames, views
(space × 16 + number), group slots, operations of the copy engine, marks of its engine programs since the last RDV,
whether its last group has exited. -/
structure Wg where
  grid : Nat := 0
  w : Nat := 0
  base : Nat := 0
  member : Nat := 0
  teams : W64 := 0
  alloc : List Nat := [0, 0, 0, 0]
  views : Tbl View := []
  slots : List Nat := []
  ops : List CopyOp := []
  mmark : Bool := false
  cmark : Bool := false
  mrun : Bool := false
  crun : Bool := false
  forker : Nat := 0
  fmask : Nat := 0
  rdv : List (Nat × Nat) := []
  pk : List PkArr := []
  pkN : Nat := 0
  done : Bool := false
  deriving DecidableEq, Repr

/-- The first workgroup of the pack of a workgroup: it names the pack within its grid (06 R182). -/
def Wg.first (g : Wg) : Nat := g.w - g.member

/-- The dictionary of a core (07 R224): tag, count, entries (none: unreadable). -/
structure Dict where
  asid : Nat
  dicta : Nat
  dcnt : Nat
  words : Tbl (Option W32)
  deriving DecidableEq, Repr

/-- A core: side table and pointer (05 R160, R163), quarantine (R168), service permits in use (R173), dictionary,
resident workgroups, matrix operations in order (12 R370), and whether it has stopped issuing for a context load (07 R235). -/
structure Core where
  side : Tbl Rec := []
  ptr : Nat := 0
  quar : List QEnt := []
  permits : Nat := 0
  dict : Option Dict := none
  wgs : Tbl Wg := []
  mq : List MatOp := []
  stop : Bool := false
  deriving DecidableEq, Repr

/-- A line of an L1 (02 R51): the class uses 7 for unclassified; `refused` marks a write-back refused by R76, `rsv` the contexts whose
fill the line waits for (R52), and `slot` the key slot it was filled or written under (01 R48). -/
structure L1Line where
  asid : Nat
  gen : Nat
  line : Nat
  valid : Nat := 0
  dirty : Nat := 0
  pois : Nat := 0
  cls : Nat := 7
  stamp : Nat := 0
  hint : Nat := 0
  refused : Bool := false
  rsv : List Actor := []
  slot : Option Nat := none
  data : Tbl Byte := []
  deriving DecidableEq, Repr

/-- A leaf as the TLB keeps it: the entry as read and the physical or bus address of its first byte (04 R118). -/
structure Leaf where
  raw : Nat
  base : Nat
  size : Nat
  page : Nat
  cw : Nat
  deriving DecidableEq, Repr

/-- A TLB entry of a slice (02 R59, R63; 04 R118, R133); owner none is SHARED. `rcl` names the requester of a reclaim in
progress (some none: an agent that serves no core). -/
structure TEnt where
  asid : Nat
  gen : Nat
  leaf : Leaf
  owner : Option Nat
  rrd : Nat := 0
  rwr : Nat := 0
  rep : Bool := false
  repMask : Nat := 0
  a : Bool := false
  d : Bool := false
  heat : Nat := 0
  pre : Nat := 0
  rcl : Option (Option Nat) := none
  acked : Bool := false
  inval : Bool := false
  deriving DecidableEq, Repr

/-- A line of a slice (02 R69): where it lies and under which key slot, a dirty bit a byte, a poison bit a sector, and the errors
that its fill detected in sectors that no reader has read since (05 R155). -/
structure SLine where
  asid : Nat
  gen : Nat
  line : Nat
  loc : Loc
  slot : Nat
  dirty : Nat := 0
  pois : Nat := 0
  hint : Nat := 0
  data : Tbl Byte := []
  ecc : List (Nat × Flt) := []
  deriving DecidableEq, Repr

/-- A walk in flight with the contexts that wait for it (04 R121). -/
structure Walk where
  asid : Nat
  gen : Nat
  page : Nat
  waiters : List Actor
  deriving DecidableEq, Repr

/-- A page held by an invalidation, a hold or a switch, and whether only a release frees it (04 R128, R129). -/
structure HeldPage where
  asid : Nat
  page : Nat
  size : Nat
  sticky : Bool
  deriving DecidableEq, Repr

/-- An entry of a translation directory (04 R128). -/
structure DirEnt where
  asid : Nat
  gen : Nat
  page : Nat
  size : Nat
  mask : Nat
  deriving DecidableEq, Repr

/-- A pinned line of a spill area (02 R75). -/
structure SpillLine where
  asid : Nat
  gen : Nat
  line : Nat
  stack : Nat
  crec : Nat
  blk : Nat
  off : Nat
  slot : Nat
  pois : Nat
  data : Tbl Byte
  deriving DecidableEq, Repr

/-- A base die: slice cache and TLB, both with the least recently used first, walk cache (ASID, generation, level, index prefix,
entry), directory, generations adopted, walks in flight and the misses that wait for one of the 64 to end (04 R121), requests that
wait for a reclaim or a replica invalidation of their page, held pages, spill area and counters, copies of SLHM and SLHC (02, 04;
13 R403). -/
structure Slice where
  lines : List SLine := []
  tlb : List TEnt := []
  wcache : List (Nat × Nat × Nat × Nat × Nat) := []
  dir : List DirEnt := []
  gens : Tbl Nat := []
  walks : List Walk := []
  queue : List Actor := []
  waits : List Walk := []
  held : List HeldPage := []
  spill : List SpillLine := []
  spills : Nat := 0
  refused : Nat := 0
  gendrop : Nat := 0
  walkN : Nat := 0
  slhm : Tbl W32 := []
  slhc : Tbl W32 := []
  inRst : Bool := false
  deriving DecidableEq, Repr

/-- A line of a die cache: a replica (owner none) or a line of a sealed version (fabric number, buffer, version), with the key slot of
the page it was read through (01 R48). -/
structure DcLine where
  asid : Nat
  gen : Nat
  line : Nat
  ver : Option (Nat × Nat × Nat) := none
  cls : Nat := 4
  pois : Nat := 0
  data : Tbl Byte := []
  slot : Nat := 0
  deriving DecidableEq, Repr

/-- Per-sector state of HBM (01 R44, R47; 05 R154): key slot and key version it was written under, reserved syndrome,
undetected uncorrectable error with its syndrome. -/
structure Sec where
  slot : Nat := 0
  ver : Nat := 0
  pois : Bool := false
  ecc : Option Nat := none
  deriving DecidableEq, Repr

/-- A key slot (01 R43, R48; 13 R397, R421). -/
structure Key where
  ver : Nat := 0
  revoked : Bool := false
  deriving DecidableEq, Repr

/-- An on-chip sector (01 R45; 05 R153, R154): owner tag, poison (one bit, or one bit an element in the C-buffer),
undetected error. -/
structure OSec where
  tag : Nat := 0
  pois : Nat := 0
  ecc : Option Nat := none
  deriving DecidableEq, Repr

/-- An entry of the seal table (03 R115). -/
structure Seal where
  asid : Nat
  base : Nat
  len : Nat
  buf : Nat
  ver : Nat := 0
  sealed : Bool := false
  deriving DecidableEq, Repr

/-- A message that leaves the module (log entry 51): its kind, an address or name, data, the bytes it carries with their mask, and
a poison bit for each 32-byte sector that the data lie in (05 R156). -/
structure Msg where
  kind : Nat
  addr : Nat
  data : Nat
  size : Nat := 0
  mask : Nat := 0
  aux : Nat := 0
  poi : Nat := 0
  deriving DecidableEq, Repr

/-- The memory system: L1s by core with class generations, on-chip spaces by core (byte index space × 2^20 + byte),
slices, die caches, generation tables and SLHM copies of the compute dies, HBM with sector state and the contents of
compressed blocks, key slots, seal table, versions held from peers, retires of them not yet acknowledged (03 R115), the places of the context
and peer tables (13 R402), event records offered, messages sent, drop notices under
way (04 R126), counter of free values; and two latches of the step under way: an access must wait at its slice, so that the step
does not happen yet (log entry 35), and an access met a reserved sharing class (01 R31). -/
structure Mem where
  l1 : Tbl (List L1Line) := []
  cgen : Tbl (Tbl Nat) := []
  oc : Tbl (Tbl Byte) := []
  osec : Tbl (Tbl OSec) := []
  slices : Tbl Slice := []
  dc : Tbl (List DcLine) := []
  dgen : Tbl (Tbl Nat) := []
  dslhm : Tbl (Tbl W32) := []
  hbm : Memory := []
  sec : Tbl Sec := []
  blocks : Tbl (Tbl Byte) := []
  bsec : Tbl (Tbl Sec) := []
  keys : Tbl Key := []
  erased : Bool := false
  seals : List Seal := []
  vers : List (Nat × Nat × Nat × Nat) := []
  retires : List (Nat × Nat × Nat × Nat) := []
  ctxb : Nat := 0
  peerb : Nat := 0
  cmtb : Tbl W64 := []
  offer : List (Nat × BitVec 128) := []
  out : List Msg := []
  notices : List Nat := []
  ctr : Nat := 0
  stall : Bool := false
  shc : Bool := false
  deriving DecidableEq, Repr

/-- A member of a saved pack: its workgroup, its groups (gid, context), its records, entries, on-chip bytes and sectors
relative to its frames, and its running engine programs (07 R237). -/
structure Saved where
  wg : Wg
  groups : Tbl Ctx
  recs : Tbl Rec
  quar : List QEnt
  oc : Tbl Byte
  osec : Tbl OSec
  mseq : Option Ctx
  cseq : Option Ctx
  deriving DecidableEq, Repr

/-- Where a pack stands: on a block of cores, or out with its saved members. `saving` says that a save is under way; `left` orders
the packs that are out by when they left (07 R223); `load` is the first of the cores that drain for its return (07 R235). -/
structure Pack where
  p : Nat
  die : Nat
  base : Option Nat := none
  saved : List Saved := []
  saving : Bool := false
  left : Nat := 0
  load : Option Nat := none
  deriving DecidableEq, Repr

/-- A grid in flight (07 R219): tag, its number among the launches, descriptor, home die, queue, core mask of each die (R233), next fresh pack of each die and the
packs placed before their turn (R222), packs placed or out, packs retired, members exited for each die and each team, the COUNT
of each team, the grids in flight at its launch that it depends on (R220, R221), groups triggered or exited, status, whether a pack has been
placed, the packs that a die reset has lost, each with its die (13 R417). -/
structure Grid where
  tag : Nat
  num : Nat := 0
  home : Nat
  queue : Nat
  desc : Desc
  masks : Tbl Nat := []
  next : Tbl Nat := []
  ahead : List Nat := []
  packs : List Pack := []
  retired : Nat := 0
  goneDie : Tbl Nat := []
  goneTeam : Tbl Nat := []
  teamCnt : Tbl Nat := []
  prods : List Nat := []
  trigN : Nat := 0
  status : Nat := 0
  started : Bool := false
  lost : Tbl Nat := []
  deriving DecidableEq, Repr

/-- A SAVE that has been accepted (07 R236): die, issuing thread, ASID, the packs whose save it waits for (grid, die, pack), cores
of the die freed so far. -/
structure Vac where
  die : Nat
  thread : Nat
  asid : Nat
  wait : List (Nat × Nat × Nat)
  freed : Nat
  deriving DecidableEq, Repr

/-- A page service that waits for the host (04 R147): token, ASID, page. -/
structure FaultTok where
  token : Nat
  asid : Nat
  page : Nat
  deriving DecidableEq, Repr

/-- The states of a TDI (13 R395). -/
inductive Tdi where
  | unlocked
  | locked
  | run
  | error
  deriving DecidableEq, Repr

/-- A compute die: submission queues (07 R210) with the ASID of each queue whose quantum runs (R234), event queue (R212, R213), notification ring (13 R399), fault tokens
(04 R147), power tokens (07 R230, R231), debug control (06 R207), cycle counter (07 R244), TDI and its slots (13 R395,
R396), reset and thermal state. -/
structure Die where
  sqd : Tbl (BitVec 128) := []
  lastq : Nat := 0
  quanta : Tbl Nat := []
  evBase : Nat := 0
  evLsz : Nat := 0
  evDrop : Nat := 0
  evW : Nat := 0
  evR : Nat := 0
  evOn : List (BitVec 128) := []
  evHeld : List (BitVec 128) := []
  hnr : BitVec 128 := 0
  tokens : List FaultTok := []
  nextTok : Nat := 0
  pool : Nat := 256
  used : Nat := 0
  ptq : List (Actor × Nat) := []
  dbgEn : Bool := false
  halted : Bool := false
  haltPack : Bool := false
  cycles : W64 := 0
  notes : Bool := false
  waitN : Nat := 0
  tdi : Tdi := .unlocked
  tdiSlots : List Nat := []
  ownSlot : Option Nat := none
  inRst : Bool := false
  thermal : Nat := 0
  savedPool : Option Nat := none
  deriving DecidableEq, Repr

/-- The NVMe commands of one page (13 R415, R416): the namespace they name, their queue pair, how many are still to be sent and how many
are in flight, the first error status of one that has ended (0 none), and the sectors of the page that came poisoned (05 R156). -/
structure NvmeCmds where
  nsid : Nat
  pair : Nat
  todo : Nat
  sent : Nat := 0
  fail : Nat := 0
  pois : Nat := 0
  deriving DecidableEq, Repr

/-- A page being fetched (04 R143 to R145): ASID, page, leaf, its address, the frame taken, the commands that read it. -/
structure Fetch where
  asid : Nat
  page : Nat
  leaf : Nat
  leafAt : Nat
  frame : Nat
  cmds : NvmeCmds
  deriving DecidableEq, Repr

/-- A page being written to its drive (11 R361): the thread that asked, ASID, page, LBA base, FUA, the commands that write it. -/
structure Flush where
  act : Actor
  asid : Nat
  page : Nat
  lba : Nat
  fua : Bool
  cmds : NvmeCmds
  deriving DecidableEq, Repr

/-- A service request of one commit for a storage port (04 R144): the group it is for (grid, workgroup, gid), its ASID, the
pages not yet in the fetch table. -/
structure FReq where
  grid : Nat
  w : Nat
  gid : Nat
  asid : Nat
  pages : List Nat
  deriving DecidableEq, Repr

/-- A storage port: link, configuration (13 R416), depth of its queues and largest transfer (log2 of 4 KiB units, 0 no limit) as the drive
gave them (13 R415), intake queue, fetch table, flushes, the drive's bytes written and its poisoned sectors, by namespace × 2^64 + byte
address (04 R144; 05 R156; 11 R361). -/
structure Port where
  nsid : W32 := 1
  tmo : Nat := 30
  lbs : Nat := 0
  qp : Nat := 0
  depth : Nat := 0
  mdts : Nat := 0
  ready : Bool := false
  en : Bool := false
  intake : List FReq := []
  offered : List FReq := []
  table : List Fetch := []
  flushes : List Flush := []
  drive : Tbl Byte := []
  bad : List Nat := []
  deriving DecidableEq, Repr

/-- The management function's registers (13 R397 to R407, R414, R420; 02 R66, R79; 04 R134). -/
structure Mf where
  ksSlot : Nat := 0
  ksStat : Nat := 0
  ksBusy : Bool := false
  ksOp : Nat := 0
  kskey : BitVec 512 := 0
  mfes : BitVec 4 := 0
  almLock : Bool := false
  pol : Nat := 0
  almCount : Nat := 0
  almSrc : BitVec 5 := 0
  trip : Bool := false
  tdie : Nat := 0
  tmax : Nat := 0
  pto : W32 := 1100000
  fabn : Nat := 0
  msix : Tbl (BitVec 128) := []
  pba : List Nat := []
  enabled : Bool := false
  trained : Bool := false
  drstDie : Nat := 0
  cmStk : Nat := 0
  cmBlk : Nat := 0
  cmNu : Nat := 0
  cmUbase : Nat := 0
  cmRec : Nat := 0
  cmErr : Bool := false
  cmSpl : Bool := false
  cmBusy : Bool := false
  h2w : Tbl W64 := []
  nonce : Nat := 0
  dbgunl : Tbl Byte := []
  dbgStat : Nat := 0
  dbgDie : Nat := 0
  slhm : Tbl W32 := []
  slhc : Tbl W32 := []
  imap : Tbl W64 := []
  halted : Bool := false
  booted : Bool := false
  deriving DecidableEq, Repr

/-- A receive buffer of the dispatch table (12 R388). -/
structure Buf where
  asid : Nat
  base : Nat
  donea : Nat
  cap : Nat
  slot : Nat
  claim : Nat := 0
  deriving DecidableEq, Repr

/-- A generation broadcast, with the receivers (0 to 15 slices, 16 to 19 compute dies) still to adopt (04 R125). -/
structure Bcast where
  asid : Nat
  gen : Nat
  left : List Nat
  deriving DecidableEq, Repr

/-- A page invalidation with the slices still to acknowledge (04 R128, R129). -/
structure Inval where
  asid : Nat
  page : Nat
  size : Nat
  left : List Nat
  hold : Bool
  deriving DecidableEq, Repr

/-- A move of the agenda: an executing context tries to issue, or an event row of the table happens (log entry 1). -/
inductive Move where
  | run (a : Actor)
  | event (i : Instr)
  deriving DecidableEq, Repr

/-- The state of the module. -/
structure State where
  groups : Tbl Ctx := []
  threads : Tbl Ctx := []
  ctls : Tbl Ctx := []
  mseqs : Tbl Ctx := []
  cseqs : Tbl Ctx := []
  cores : Tbl Core := []
  dies : Tbl Die := []
  mem : Mem := {}
  mf : Mf := {}
  grids : List Grid := []
  gridN : Nat := 0
  rr : Nat := 0
  ports : Tbl Port := []
  bufs : Tbl Buf := []
  bcasts : List Bcast := []
  invals : List Inval := []
  switches : List (Nat × Nat) := []
  vacs : List Vac := []
  leftN : Nat := 0
  agenda : List Move := []
  cur : Cur := {}
  next : Option Instr := none
  deriving DecidableEq, Repr

/-- Why the machine can stop with a fault. -/
inductive Fault where
  /-- Raised by `step` when the agenda names an event row that is not well formed or a word that is no event: a broken
  schedule, not a behaviour of the hardware (log entry 1). Safe: no state follows. -/
  | illFormedMove
  deriving DecidableEq, Repr

/-- Why the machine can refuse an instruction. -/
inductive Refusal where
  /-- Raised by an arm of `exec` whose instruction has no meaning yet. Safe: no state follows. -/
  | notModelled (mnemonic : String)
  deriving DecidableEq, Repr

/-- The outcome type of every meaning. -/
abbrev Out := Host.Outcome State Fault Refusal

/-- The module right after module cold reset (13 R419): every register at its stated reset value, nothing resident, no
line cached. Side-table record 1,023 (the sentinel, 05 R160), PTOK.POOL 256, PTO, FECFG and SLHC.ENG are the defaults of
their accessors and fields. -/
def State.reset : State := {}

end Sys2Proof.Machine
end

