-- ==== Sys2Proof/Machine/Phys.lean ====
section
/-! DEFINITION. HBM behind its keys (01 R23, R44 to R48), compressed blocks (01 R30; 02 R75, R78), context entries and
page tables as a walk reads them (04 R117, R119 to R122), and the home slice of a line (02 R65). -/

namespace Sys2Proof.Machine

/-! Cause codes (05 R162). -/

def cPageMiss : Nat := 1
def cFirstTouch : Nat := 2
def cPageStorage : Nat := 3
def cPageHost : Nat := 4
def cProt : Nat := 5
def cBounds : Nat := 6
def cMisalign : Nat := 7
def cEccUe : Nat := 8
def cPoisonMem : Nat := 9
def cInvalidOp : Nat := 10
def cIllegalEnc : Nat := 11
def cCompressSpill : Nat := 12
def cQuarantineFull : Nat := 13
def cRemoteFault : Nat := 14
def cRemoteTimeout : Nat := 15
def cDieLost : Nat := 16
def cKeyRevoked : Nat := 17
def cSideOverflow : Nat := 18
def cEngineFault : Nat := 19
def cFpInvalid : Nat := 20

/-! Components of the memory system. -/

def Mem.slice (m : Mem) (i : Nat) : Slice := Tbl.get {} m.slices i
def Mem.setSlice (m : Mem) (i : Nat) (x : Slice) : Mem := { m with slices := Tbl.put m.slices i x }
def Mem.updSlice (m : Mem) (i : Nat) (f : Slice → Slice) : Mem := m.setSlice i (f (m.slice i))
def Mem.key (m : Mem) (k : Nat) : Key := Tbl.get {} m.keys k
def Mem.lines1 (m : Mem) (c : Nat) : List L1Line := Tbl.get [] m.l1 c
def Mem.setLines1 (m : Mem) (c : Nat) (ls : List L1Line) : Mem := { m with l1 := Tbl.put m.l1 c ls }

/-- Offers an event record to a die's event queue (07 R212). -/
def Mem.event (m : Mem) (die : Nat) (r : BitVec 128) : Mem := { m with offer := m.offer ++ [(die, r)] }

/-- Messages leave the module (log entry 51). -/
def Mem.send (m : Mem) (ms : List Msg) : Mem := { m with out := m.out ++ ms }
def State.send (s : State) (ms : List Msg) : State := { s with mem := s.mem.send ms }

/-- An event record (07 R215). -/
def evRec (type status asid token src die : Nat) (cc : Bool) (data : Nat) : BitVec 128 :=
  BitVec.ofNat 128 (type % 256 * 2 ^ 120 + status % 256 * 2 ^ 112 + asid % 65536 * 2 ^ 96 + token % 65536 * 2 ^ 80
    + src % 256 * 2 ^ 72 + die % 4 * 2 ^ 70 + b2n cc * 2 ^ 69 + data % 2 ^ 64)

/-- The key version in force of a slot; an erase changes every key (13 R397, R421). -/
def Mem.ver (m : Mem) (k : Nat) : Nat := 2 * (m.key k).ver + b2n m.erased

/-- The populated part of HBM (01 R23). -/
def populated (pa : Nat) : Bool := pa < 0x10000000000 && pa % 0x1000000000 < 64000000000

/-- A byte of HBM as read under a key slot (01 R44, R46; log entry 3). -/
def Mem.byte (m : Mem) (slot pa : Nat) : Byte :=
  let c := Tbl.get {} m.sec (pa / 32)
  if c.slot = slot && c.ver = m.ver slot then Tbl.get 0 m.hbm pa
  else Config.cipherByte c.slot c.ver slot (m.ver slot) pa

/-- Stores one byte of HBM in the canonical form. -/
def Mem.poke (m : Mem) (pa : Nat) (b : Byte) : Mem := { m with hbm := Tbl.set 0 m.hbm pa b }

/-- Writes bytes of one sector under a key slot (01 R44, R47; 05 R154). Under another key than the sector's, the bytes
not written are those the new key reads. Poison stays unless every byte is written with clean data. -/
def Mem.putSec (m : Mem) (slot sn : Nat) (bs : List (Nat × Byte)) (poi : Bool) : Mem :=
  let c := Tbl.get {} m.sec sn
  let same := c.slot = slot && c.ver = m.ver slot
  let full := (List.range 32).all (fun i => bs.any (fun e => e.1 == i))
  let m1 := if same || full then m
    else { m with hbm := (List.range 32).foldl (fun h i => Tbl.set 0 h (32 * sn + i) (m.byte slot (32 * sn + i))) m.hbm }
  let h := bs.foldl (fun h e => Tbl.set 0 h (32 * sn + e.1) e.2) m1.hbm
  let c' : Sec := ⟨slot, m.ver slot, poi || (!full && (c.pois || c.ecc.isSome)), none⟩
  { m1 with hbm := h, sec := Tbl.put m1.sec sn c' }

/-- The state of a sector as met by a read: none clean, or poisoned or an uncorrectable error with its syndrome. -/
def Mem.secFault (m : Mem) (sn : Nat) : Option Flt :=
  let c := Tbl.get {} m.sec sn
  match c.ecc with
  | some syn => some ⟨cEccUe, syn % 256 * 2 ^ 56 + 32 * sn % 2 ^ 40⟩
  | none => if c.pois then some ⟨cPoisonMem, 32 * sn % 2 ^ 40⟩ else none

/-- The base die rewrites a sector whose error it found with the reserved syndrome (05 R154). -/
def Mem.scrub (m : Mem) (sn : Nat) : Mem :=
  let c := Tbl.get {} m.sec sn
  if c.ecc.isSome then { m with sec := Tbl.put m.sec sn { c with ecc := none, pois := true } } else m

/-- The key of a compressed block: stack, record, block. -/
def blkKey (stack rec blk : Nat) : Nat := (stack * 2 ^ 23 + rec) * 16 + blk

/-- The block word of a compression record (02 R78); the table is stored under slot 0. -/
def Mem.blkWordAt (stack rec blk : Nat) (m : Mem) : Nat :=
  (fld (Tbl.get 0 m.cmtb stack).toNat 0 40) * 65536 + rec * 128 + 8 * blk

/-- The sector that holds the block word of a compressed block. -/
def Mem.wordSec (m : Mem) (k : Nat) : Nat := Mem.blkWordAt (k / 2 ^ 27) (k / 16 % 2 ^ 23) (k % 16) m / 32

/-- n little-endian bytes of HBM under a slot. -/
def Mem.num (m : Mem) (slot pa n : Nat) : Nat := ofBytes ((List.range n).map (fun i => m.byte slot (pa + i)))

/-- Writes n little-endian bytes of HBM under a slot; they lie in one sector. -/
def Mem.putNum (m : Mem) (slot pa n x : Nat) : Mem :=
  m.putSec slot (pa / 32) (((List.range n).zip (toBytes n x)).map (fun e => (pa % 32 + e.1, e.2))) false

/-! Peer handles (13 R411). -/

/-- What a peer handle names for an ASID: nothing, this device, or a peer with its fabric number and ASID there. -/
inductive Peer where
  | invalid
  | self
  | dev (fab rasid : Nat)
  deriving DecidableEq, Repr

/-- A peer handle resolved through the peer table, which is read under key slot 0: the spec names no slot for it (log entry 46). -/
def Mem.peerOf (m : Mem) (asid h : Nat) : Peer :=
  if h = 0xFFFF then .self
  else
    let pa := m.peerb * 65536 + 8 * h
    if !populated pa || (m.secFault (pa / 32)).isSome then .invalid
    else
      let e := m.num 0 pa 8
      if bit e 63 && fld e 16 16 = asid then .dev (fld e 48 10) (fld e 32 16) else .invalid

/-- Whether the peer handle by which an ASID reaches an address of a peer device resolves to a fabric number (13 R412; log entry 18). -/
def Mem.handled (m : Mem) (asid fab addr : Nat) : Bool :=
  match m.peerOf asid (Config.handleAt asid addr) with
  | .dev f _ => f == fab
  | _ => false

/-- The record length of a stack's table (02 R78). -/
def Mem.cmtLen (m : Mem) (stack : Nat) : Nat := min 16384 (fld (Tbl.get 0 m.cmtb stack).toNat 40 16) * 512

/-- The physical address of the first unit of a compressed block, and the bytes of its units (02 R78). -/
def Mem.units (m : Mem) (k : Nat) : Nat × Nat :=
  let w := m.num 0 (Mem.blkWordAt (k / 2 ^ 27) (k / 16 % 2 ^ 23) (k % 16) m) 8
  (k / 2 ^ 27 * 0x1000000000 + fld w 0 26 * 1024, (fld w 62 2 + 1) * 1024)

/-- The first sector of a block's units with an undetected error, and its syndrome. -/
def Mem.unitErr (m : Mem) (k : Nat) : Option (Nat × Nat) :=
  let (a, n) := m.units k
  (m.sec.find? (fun e => a / 32 ≤ e.1 && e.1 < (a + n) / 32 && e.2.ecc.isSome)).map (fun e => (e.1, e.2.ecc.getD 0))

/-- The HBM address that the detail of an error at a location names: of a compressed block that of its first unit, since the form
inside the units is the base die's own (05 R161; 02 R78; log entry 9). -/
def Mem.locPhys (m : Mem) (l : Loc) : Nat :=
  match l with
  | .hbm a => a / 32 * 32 % 2 ^ 40
  | .blk k _ => (m.units k).1 % 2 ^ 40
  | .far _ _ => 0

/-- The fault of a request that met a fault or a timeout outside (05 R161): fabric number of the peer, 0 for the host, and port. -/
def remoteFlt (timeout : Bool) (fab port : Nat) : Flt := ⟨if timeout then cRemoteTimeout else cRemoteFault, fab % 65536 * 256 + port % 256⟩

/-- The UALink port that a request took: a free value from 1 to 16 (log entry 21). -/
def Mem.uaPort (m : Mem) : Nat := 1 + Config.peerPort m.ctr % 16

/-- Why a read behind the host port has no answer, where it has none (04 R149; log entry 13). -/
def Mem.farFail (m : Mem) (l : Loc) : Option Flt :=
  match l with
  | .far kind a =>
    if 2 ≤ Config.farState m.ctr (kind * 2 ^ 56 + a / 128 * 128) then
      match (if kind = 6 then Config.peerAt a else none) with
      | some f => some (remoteFlt true f m.uaPort)
      | none => some (remoteFlt true 0 0)
    else none
  | _ => none

/-- Reads 32 bytes at a location, with the fault of the sector if it has one. An error in the block word of a compressed block, or in any
of its units, is met by a read of any of its bytes (05 R154, R155; log entry 9). -/
def Mem.locSec (m : Mem) (slot : Nat) (l : Loc) : List Byte × Option Flt :=
  match l with
  | .hbm pa => ((List.range 32).map (fun i => m.byte slot (pa + i)), m.secFault (pa / 32))
  | .blk k off =>
    let w := m.num 0 (Mem.blkWordAt (k / 2 ^ 27) (k / 16 % 2 ^ 23) (k % 16) m) 8
    let c : Sec := Tbl.get {} (Tbl.get [] m.bsec k) (off / 32)
    let bs := (List.range 32).map (fun i =>
      if bit w 60 then 0
      else if c.slot = slot && c.ver = m.ver slot then Tbl.get 0 (Tbl.get [] m.blocks k) (off + i)
      else Config.cipherByte c.slot c.ver slot (m.ver slot) (k * 4096 + off + i + 2 ^ 56))
    (bs, match m.secFault (m.wordSec k), m.unitErr k with
      | some f, _ => some f
      | none, some (sn, syn) => some ⟨cEccUe, syn % 256 * 2 ^ 56 + 32 * sn % 2 ^ 40⟩
      | none, none => if c.pois then some ⟨cPoisonMem, m.locPhys l⟩ else none)
  | .far kind a => ((List.range 32).map (fun i => Config.farByte m.ctr (kind * 2 ^ 56 + a + i)),
      if Config.farState m.ctr (kind * 2 ^ 56 + a / 128 * 128) = 1 then some ⟨cPoisonMem, 0⟩ else none)

/-- The base die meets an error in the units of a compressed block: the sector is rewritten with the reserved syndrome, and every
sector of the block, whose form is lost, is poisoned (05 R154; log entry 9). An error in the sector of its block word is rewritten first. -/
def Mem.scrubBlk (m : Mem) (k : Nat) : Mem :=
  let m0 := m.scrub (m.wordSec k)
  match m0.unitErr k with
  | none => m0
  | some (sn, _) =>
    { (m0.scrub sn) with bsec := Tbl.upd [] m0.bsec k (fun t => (List.range 128).foldl (fun t i => Tbl.upd {} t i (fun c => { c with pois := true })) t) }

/-- Writes bytes of the 32 at an offset of a compressed block without an error: its units are written anew, and it leaves the ZERO
state with the bytes it read as (02 R78; 05 R154). -/
def Mem.blkPut (m : Mem) (slot k off : Nat) (bs : List (Nat × Byte)) (poi : Bool) : Mem :=
  let (ua, un) := m.units k
  let at' := Mem.blkWordAt (k / 2 ^ 27) (k / 16 % 2 ^ 23) (k % 16) m
  let w := m.num 0 at' 8
  let m1 := if bit w 60 then
      { (m.putNum 0 at' 8 (w - 2 ^ 60)) with
        blocks := Tbl.put m.blocks k []
        bsec := Tbl.put m.bsec k ((List.range 128).foldl (fun t i => Tbl.put t i ⟨slot, m.ver slot, false, none⟩) []) }
    else m
  let (old, _) := m.locSec slot (.blk k off)
  let full := (List.range 32).all (fun i => bs.any (fun e => e.1 == i))
  let c : Sec := Tbl.get {} (Tbl.get [] m1.bsec k) (off / 32)
  let base := ((List.range 32).zip old).foldl (fun t e => Tbl.set 0 t (off + e.1) e.2) (Tbl.get [] m1.blocks k)
  { m1 with
            sec := m1.sec.map (fun e => if ua / 32 ≤ e.1 && e.1 < (ua + un) / 32 then (e.1, { e.2 with pois := false, ecc := none }) else e)
            blocks := Tbl.put m1.blocks k (bs.foldl (fun t e => Tbl.set 0 t (off + e.1) e.2) base)
            bsec := Tbl.put m1.bsec k (Tbl.put (Tbl.get [] m1.bsec k) (off / 32)
              ⟨slot, m.ver slot, poi || (!full && c.pois), none⟩) }

/-- Writes bytes of the 32 at a location. A write behind the host port is sent at once (03 R86) with its poison (05 R156). -/
def Mem.locPut (m : Mem) (slot : Nat) (l : Loc) (bs : List (Nat × Byte)) (poi : Bool) : Mem :=
  match l with
  | .hbm pa => m.putSec slot (pa / 32) bs poi
  | .blk k off => (m.scrubBlk k).blkPut slot k off bs poi
  | .far kind a => { m with out := m.out ++ [{ kind := 1, addr := kind * 2 ^ 56 + a, data := tblNum (bs.foldl (fun t e => Tbl.set 0 t e.1 e.2) []) 0 32
                                               size := 32, mask := maskOf (bs.map (·.1)), poi := b2n poi }] }

/-! Context entries and walks (04 R117, R119 to R122; 01 R25 to R30). -/

/-- Word k of the context entry of an ASID, read under slot 0; or the failure of the read (R119). -/
def Mem.ctxWord (m : Mem) (asid k : Nat) : Except Flt Nat :=
  let pa := m.ctxb * 65536 + asid * 32 + 8 * k
  if !populated pa then .error ⟨cBounds, pa⟩
  else match m.secFault (pa / 32) with
    | some f => .error f
    | none => .ok (m.num 0 pa 8)

/-- A context word where a failed read counts as 0 (V clear). -/
def Mem.ctx0 (m : Mem) (asid k : Nat) : Nat := match m.ctxWord asid k with | .ok w => w | .error _ => 0

/-- Interleave domain, owner slot, shared slot, current generation, SVEC, MISSV of an ASID (04 R117). -/
def Mem.dom (m : Mem) (asid : Nat) : Nat := fld (m.ctx0 asid 1) 52 4
def Mem.oslot (m : Mem) (asid : Nat) : Nat := fld (m.ctx0 asid 1) 40 12
def Mem.sslot (m : Mem) (asid : Nat) : Nat := fld (m.ctx0 asid 1) 28 12
def Mem.genOf (m : Mem) (asid : Nat) : Nat := fld (m.ctx0 asid 1) 56 8
def Mem.svec (m : Mem) (asid : Nat) : W64 := BitVec.ofNat 64 (m.ctx0 asid 3)
def Mem.missv (m : Mem) (asid : Nat) : Bool := bit (m.ctx0 asid 1) 1

/-- The first eleven bits of the hash: x of R65. -/
def hashX (asid va : Nat) : Nat :=
  let l := fld va 7 48
  ((fld l 0 12 ^^^ fld l 12 12) ^^^ (fld l 24 12 ^^^ fld l 36 12)) ^^^ (fld asid 0 12 ^^^ fld asid 12 4)

/-- The home slice of a line under a mask (02 R65). -/
def homeOf (mask asid va : Nat) : Option Nat :=
  let n := popN 16 mask
  if n = 0 then none else kthSet 16 mask (hashX asid va % n)

/-- The home of a line under an SLHM copy, none where the domain is not enabled (02 R65). -/
def homeIn (copy : Tbl W32) (dom asid va : Nat) : Option Nat :=
  let r := (Tbl.get 0 copy dom).toNat
  if bit r 31 then homeOf (fld r 0 16) asid va else none

/-- A page-table entry: a table word (table address) or a leaf with the level's size (01 R24 to R27). -/
def leafOf (e lvl va at' : Nat) : Leaf :=
  let frame := fld e 0 40
  let cont := lvl == 3 && bit e 45
  let sz := if lvl == 1 then 42 else if lvl == 2 then 29 else if cont then 21 else 16
  let fr := if lvl == 1 then frame / 2 ^ 26 * 2 ^ 26 else if lvl == 2 then frame / 2 ^ 13 * 2 ^ 13
    else if cont then (frame + 2 ^ 40 - va / 65536 % 32) % 2 ^ 40 else frame
  let cw := (if cont then at' - 8 * (va / 65536 % 32) else at') + 0x10000
  ⟨e, fr, sz, va / 2 ^ sz * 2 ^ sz, cw⟩

/-- The fault of a leaf by its KIND (01 R25). -/
def leafFault (l : Leaf) : Option Flt :=
  match fld l.raw 60 3 with
  | 0 => some ⟨cPageMiss, 1⟩
  | 3 => some ⟨cPageStorage, l.raw⟩
  | 4 => some ⟨cPageHost, l.raw⟩
  | 5 => some ⟨cFirstTouch, l.raw⟩
  | 7 => some ⟨cPageMiss, 2⟩
  | _ => none

/-- Reads a table entry under the owner slot (R119). -/
def Mem.tblEntry (m : Mem) (oslot pa : Nat) : Except Flt Nat :=
  if !populated pa then .error ⟨cBounds, pa⟩
  else if (m.key oslot).revoked then .error ⟨cKeyRevoked, oslot⟩
  else match m.secFault (pa / 32) with
    | some f => .error f
    | none => .ok (m.num oslot pa 8)

/-- The walk from a table on, with the levels left to go; the walk-cache lookup replaces a table read (R119, R120). -/
def Mem.walkFrom (m : Mem) (wc : Nat → Nat → Option Nat) (oslot va : Nat) : Nat → Nat → Nat → List (Nat × Nat × Nat) →
    Except Flt (Leaf × List (Nat × Nat × Nat))
  | 0, _, _, _ => .error ⟨cPageMiss, 3⟩
  | fuel + 1, lvl, tbl, acc =>
    let idx := fld va (if lvl == 1 then 42 else if lvl == 2 then 29 else 16) 13
    let pa := tbl + 8 * idx
    let pre := va / 2 ^ (if lvl == 1 then 42 else 29)
    let rd : Except Flt Nat := match (if lvl < 3 then wc lvl pre else none) with
      | some e => .ok e
      | none => m.tblEntry oslot pa
    match rd with
    | .error f => .error f
    | .ok e =>
      if !bit e 63 then .error ⟨cPageMiss, 0⟩
      else if bit e 44 then
        if lvl = 3 then .error ⟨cPageMiss, 3⟩
        else m.walkFrom wc oslot va fuel (lvl + 1) (fld e 0 40 * 65536) (acc ++ [(lvl, pre, e)])
      else
        let l := leafOf e lvl va pa
        match leafFault l with
        | some f => .error f
        | none => .ok (l, acc)

/-- The whole walk of an address: checks 3 and 4 of R28. -/
def Mem.walk (m : Mem) (wc : Nat → Nat → Option Nat) (asid va : Nat) : Except Flt (Leaf × List (Nat × Nat × Nat)) :=
  match m.ctxWord asid 1 with
  | .error f => .error f
  | .ok w =>
    if !bit w 0 then .error ⟨cPageMiss, 4⟩
    else m.walkFrom wc (m.oslot asid) va 3 1 (fld (m.ctx0 asid 0) 16 40 * 65536) []

/-- The missing permissions of an access: need is bit 0 RD, 1 W, 2 X; a user access needs S = 0 (01 R28; 05 R161). -/
def missing (raw need : Nat) (sup : Bool) : Nat :=
  b2n (bit need 0 && !bit raw 40) + 2 * b2n (bit need 1 && !bit raw 41) + 4 * b2n (bit need 2 && !bit raw 42)
    + 8 * b2n (!sup && bit raw 43)

/-- The key slot a leaf selects (01 R24, R43). -/
def Mem.leafSlot (m : Mem) (asid raw : Nat) : Nat := if bit raw 46 then m.sslot asid else m.oslot asid

/-- Whether the compression metadata table of a stack lies in it (01 R30; 02 R78). -/
def Mem.cmtIn (m : Mem) (st : Nat) : Bool :=
  let base := fld (Tbl.get 0 m.cmtb st).toNat 0 40 * 65536
  base / 0x1000000000 == st && base + m.cmtLen st * 128 ≤ (st + 1) * 0x1000000000

/-- Where an address of a leaf's range lies; or BOUNDS (01 R23, R30). The frame of a contiguous range advances with the page (R27).
A frame in the compression metadata table is reached as ordinary HBM: no check of R28 names it (02 R78; log entry 68). -/
def Mem.locate (m : Mem) (l : Leaf) (va : Nat) : Except Flt Loc :=
  let off := va - l.page
  let kind := fld l.raw 60 3
  let a := (l.base * 65536 + off) % 2 ^ 56
  if kind != 1 then .ok (.far kind a)
  else if bit l.raw 52 && l.size ≤ 21 && !(l.size == 21 && !bit l.raw 45) then
    let f := (l.base + off / 65536) % 2 ^ 40
    let st := fld f 36 4
    let rc := fld f 0 23
    let ra := fld (Tbl.get 0 m.cmtb st).toNat 0 40 * 65536 + rc * 128
    if m.cmtLen st ≤ rc || !m.cmtIn st || !populated ra then .error ⟨cBounds, ra⟩
    else .ok (.blk (blkKey st rc (off % 65536 / 4096)) (off % 4096))
  else if populated a then .ok (.hbm a)
  else .error ⟨cBounds, a⟩

/-- Checks 5 to 7 of R28 on a leaf. -/
def Mem.leafCheck (m : Mem) (asid : Nat) (l : Leaf) (va need : Nat) (sup : Bool) : Except Flt Loc :=
  let mp := missing l.raw need sup
  if mp != 0 then .error ⟨cProt, mp⟩
  else match m.locate l va with
    | .error f => .error f
    | .ok loc =>
      let k := m.leafSlot asid l.raw
      if (m.key k).revoked then .error ⟨cKeyRevoked, k⟩ else .ok loc

/-- The kind's class of a leaf with reserved codes as system (01 R31). -/
def shcOf (raw : Nat) : Nat := min 4 (fld raw 49 3)

/-- Adds a flushed entry to its companion word (04 R135, R136); a companion outside HBM is dropped silently. -/
def Mem.flushCw (m : Mem) (e : TEnt) : Mem :=
  if !populated e.leaf.cw then m
  else
    let k := m.oslot e.asid
    let w := m.num k e.leaf.cw 8
    let w' := (b2n (bit w 63 || e.a)) * 2 ^ 63 + (b2n (bit w 62 || e.d)) * 2 ^ 62 + min 255 (fld w 54 8 + e.heat) * 2 ^ 54
      + fld w 48 6 * 2 ^ 48 + min 255 (fld w 40 8 + 1) * 2 ^ 40 + fld w 0 40
    m.putNum k e.leaf.cw 8 w'

/-- Whether an address range of a SEALED entry is hit (03 R115). -/
def Mem.sealedAt (m : Mem) (asid va : Nat) : Bool :=
  m.seals.any (fun e => e.sealed && e.asid == asid && e.base ≤ va && va < e.base + e.len * 65536)

end Sys2Proof.Machine
end

