-- ==== Sys2Proof/Machine/Slice.lean ====
section
/-! DEFINITION. The slices (02 R59 to R64, R69, R75, R76; 04 R118 to R136): lines, translations and their installation,
reclaim, replicas, directory, and accesses that a slice performs. A step that serves an agent without outstanding
requests of its own (a write-back, a fetch, an engine, a control core, the host) carries out walk, reclaim and replica
invalidation inside it; requests of lanes take them as events (log entry 10). Where the slice would make such an access wait, the
step sets `Mem.stall` and does not happen yet (log entry 35). -/

namespace Sys2Proof.Machine

/-- Who accesses: the core it counts as (02 R59; none: an agent that serves no core), its die, supervisor mode, whether
it is an engine (04 R133). -/
structure Who where
  core : Option Nat
  die : Nat
  sup : Bool := false
  eng : Bool := false
  deriving DecidableEq, Repr

/-- The generation a compute die's cores use for an ASID (04 R125). -/
def Mem.dieGen (m : Mem) (die asid : Nat) : Nat := Tbl.get 0 (Tbl.get [] m.dgen die) asid

/-- The generation a slice holds for an ASID. -/
def Slice.gen (x : Slice) (asid : Nat) : Nat := Tbl.get 0 x.gens asid

def Slice.findLine (x : Slice) (asid line : Nat) : Option SLine :=
  x.lines.find? (fun l => l.asid == asid && l.gen == x.gen asid && l.line == line)

def Leaf.covers (l : Leaf) (va : Nat) : Bool := l.page ≤ va && va < l.page + 2 ^ l.size

def Slice.findEnt (x : Slice) (asid va : Nat) : Option TEnt :=
  x.tlb.find? (fun e => e.asid == asid && e.gen == x.gen asid && e.leaf.covers va)

/-- The entry of an address becomes the most recently used of the TLB (04 R118). -/
def Slice.useEnt (x : Slice) (asid va : Nat) : Slice :=
  match x.findEnt asid va with
  | some e => { x with tlb := x.tlb.filter (fun y => y != e) ++ [e] }
  | none => x

/-- Changes the entry of an address. -/
def Slice.updEnt (x : Slice) (asid va : Nat) (f : TEnt → TEnt) : Slice :=
  { x with tlb := x.tlb.map (fun e => if e.asid == asid && e.gen == x.gen asid && e.leaf.covers va then f e else e) }

/-- The location `d` bytes further on. -/
def Loc.add (l : Loc) (d : Nat) : Loc :=
  match l with
  | .hbm a => .hbm (a + d)
  | .blk k o => .blk k (o + d)
  | .far k a => .far k (a + d)

/-- The bytes of one sector of a line that a mask names, as (offset in sector, byte). -/
def secBytes (data : Tbl Byte) (mask s : Nat) : List (Nat × Byte) :=
  ((List.range 32).filter (fun i => bit mask (32 * s + i))).map (fun i => (i, Tbl.get 0 data (32 * s + i)))

/-- Writes the masked bytes of a line to its location, sector by sector, with the poison of each (05 R154). -/
def Mem.lineStore (m : Mem) (slot : Nat) (loc : Loc) (data : Tbl Byte) (mask pois : Nat) : Mem :=
  (List.range 4).foldl (fun m s =>
    let bs := secBytes data mask s
    if bs.isEmpty && !bit pois s then m else m.locPut slot (loc.add (32 * s)) bs (bit pois s)) m

/-- Whether a page of compressed blocks is spilled: any of its block words has SPL (02 R78). -/
def Mem.spilled (m : Mem) (k : Nat) : Bool :=
  (List.range 16).any (fun b => bit (m.num 0 (Mem.blkWordAt (k / 2 ^ 27) (k / 16 % 2 ^ 23) b m) 8) 61)

/-- Sets or clears SPL of a block's word (02 R75). -/
def Mem.setSpl (m : Mem) (k : Nat) (on : Bool) : Mem :=
  let a := Mem.blkWordAt (k / 2 ^ 27) (k / 16 % 2 ^ 23) (k % 16) m
  let w := m.num 0 a 8
  m.putNum 0 a 8 (w - b2n (bit w 61) * 2 ^ 61 + b2n on * 2 ^ 61)

/-- Whether any slice pins a line of a block. -/
def Mem.pinned (m : Mem) (k : Nat) : Bool :=
  (List.range Config.slices).any (fun i => (m.slice i).spill.any (fun p => blkKey p.stack p.crec p.blk == k))

/-- The pinned lines of a block are written into its units and freed (02 R75). -/
def Mem.unpin (m : Mem) (k : Nat) : Mem :=
  (List.range Config.slices).foldl (fun m i =>
    let x := m.slice i
    let mine := x.spill.filter (fun p => blkKey p.stack p.crec p.blk == k)
    let m := mine.foldl (fun m p => m.lineStore p.slot (.blk k p.off) p.data (2 ^ 128 - 1) p.pois) m
    m.setSlice i { x with spill := x.spill.filter (fun p => blkKey p.stack p.crec p.blk != k) }) m

/-- The pinned line of a location (02 R75): what the block holds there. It is found by its place in the block and not by its tag: it
leaves only as R75 says, and a write-back into the spill area is one to memory (02 R73; log entry 38). -/
def Slice.pin (x : Slice) (loc : Loc) : Option SpillLine :=
  match loc with
  | .blk k off => x.spill.find? (fun p => blkKey p.stack p.crec p.blk == k && p.off == off)
  | _ => none

/-- The slice that pins the line of a location, with the line. -/
def Mem.pinAt (m : Mem) (loc : Loc) : Option (Nat × SpillLine) :=
  (List.range Config.slices).findSome? (fun i => ((m.slice i).pin loc).map (fun p => (i, p)))

/-- A slice line goes to memory (02 R75): a block that no longer fits its units is pinned in the spill area, with a SPILL
event; a block that fits takes its pinned lines with it, the older copy of this line first. A line that must leave the slice while
the area is full waits for room beyond its 8,192 lines (log entry 54). -/
def Mem.lineOut (m : Mem) (sl die : Nat) (l : SLine) : Mem :=
  match l.loc with
  | .blk k off =>
    let w := m.num 0 (Mem.blkWordAt (k / 2 ^ 27) (k / 16 % 2 ^ 23) (k % 16) m) 8
    let m := { m with ctr := m.ctr + 1 }
    if Config.compressFits m.ctr k (fld w 62 2 + 1) then
      ((m.unpin k).lineStore l.slot l.loc l.data l.dirty l.pois).setSpl k false
    else
      let p : SpillLine := ⟨l.asid, l.gen, l.line, k / 2 ^ 27, k / 16 % 2 ^ 23, k % 16, off, l.slot, l.pois, l.data⟩
      let m1 := (List.range Config.slices).foldl (fun m i => m.updSlice i (fun x =>
        { x with spill := x.spill.filter (fun q => !(blkKey q.stack q.crec q.blk == k && q.off == off)) })) m
      let x := m1.slice sl
      let x' := { x with spill := x.spill ++ [p], spills := satAdd 0xFFFFFF x.spills 1 }
      ((m1.setSlice sl x').setSpl k true).event die (evRec 5 0 l.asid 0 sl die false (l.line * 128 / 65536 * 65536))
  | _ => m.lineStore l.slot l.loc l.data l.dirty l.pois

/-- Removes a line from a slice, writing it out first when dirty. -/
def Mem.lineDrop (m : Mem) (sl die : Nat) (l : SLine) (write : Bool) : Mem :=
  let m1 := if write && (l.dirty != 0) then m.lineOut sl die l else m
  m1.updSlice sl (fun x => { x with lines := x.lines.filter (fun y => !(y.asid == l.asid && y.gen == l.gen && y.line == l.line)) })

/-- The slice's line of an address behind the host port leaves: an atomic at the target has made it old (02 R71; 03 R92). -/
def Mem.farDrop (m : Mem) (sl die asid va : Nat) : Mem :=
  match (m.slice sl).findLine asid (va / 128) with
  | some l => m.lineDrop sl die l true
  | none => m

/-- What a read of a line's 128 bytes gives: the bytes, a poison bit a sector, the errors first met, or no answer at all. -/
structure LineRd where
  data : Tbl Byte := []
  pois : Nat := 0
  errs : List (Nat × Flt) := []
  fail : Option Flt := none
  deriving DecidableEq, Repr

/-- Reads the 128 bytes of a line from memory or from the spill area; errors found in the sectors named are scrubbed (05 R154,
R155). Pinned bytes of another key slot read as that slot's do (01 R44). -/
def Mem.lineIn (m : Mem) (slot : Nat) (loc : Loc) (secs : Nat) : Mem × LineRd :=
  match m.pinAt loc, m.farFail loc with
  | some (_, p), _ =>
    let d := if p.slot = slot then p.data
      else (List.range 128).foldl (fun t i => Tbl.set 0 t i (Config.cipherByte p.slot (m.ver p.slot) slot (m.ver slot) (p.line * 128 + i))) []
    (m, { data := d, pois := p.pois })
  | none, some f => ({ m with ctr := m.ctr + 1 }, { fail := some f })
  | none, none =>
    let rs := (List.range 4).map (fun s => (s, m.locSec slot (loc.add (32 * s))))
    let data := rs.foldl (fun t r => ((List.range 32).zip r.2.1).foldl (fun t e => Tbl.set 0 t (32 * r.1 + e.1) e.2) t) []
    let pois := rs.foldl (fun n r => if r.2.2.isSome then n + 2 ^ r.1 else n) 0
    let flts := rs.filterMap (fun r => match r.2.2 with
      | some f => if f.cause == cEccUe && bit secs r.1 then some (r.1, f) else none
      | none => none)
    let m1 := match loc with
      | .hbm a => (List.range 4).foldl (fun (m : Mem) s => if bit secs s then m.scrub (a / 32 + s) else m) m
      | .blk k _ => m.scrubBlk k
      | .far _ _ => m
    ({ m1 with ctr := m1.ctr + 1 }, { data := data, pois := pois, errs := flts })

/-- Whether two lines share a set of a slice (02 R69; log entry 8). -/
def sameSet (asid line asid' line' : Nat) : Bool := Config.sliceSet asid line % 24576 == Config.sliceSet asid' line' % 24576

/-- The line that a fill of a set replaces (02 R69): of 16, the least recently used, whatever its hint for a long-lived fill; a default
or short-lived fill passes over long-lived lines while there are 8 or fewer of them. -/
def victimOf (set : List SLine) (hint : Nat) : Option SLine :=
  if set.length < 16 then none
  else if hint = 2 || 8 < (set.filter (fun l => l.hint == 2)).length then set.head?
  else set.find? (fun l => l.hint != 2)

/-- Puts a line into its set by its hint (02 R69): short-lived at the least, others at the most recently used end. -/
def Mem.lineInsert (m : Mem) (sl die : Nat) (l : SLine) : Mem :=
  let ls := (m.slice sl).lines
  let v? := if ls.length < 16 then none else victimOf (ls.filter (fun y => sameSet y.asid y.line l.asid l.line)) l.hint
  let m := match v? with | some v => m.lineDrop sl die v true | none => m
  m.updSlice sl (fun x => { x with lines := if l.hint == 1 then l :: x.lines else x.lines ++ [l] })

/-- A hit uses a line: it becomes the most recently used of its set, and takes the access's hint if that is short-lived or long-lived
(01 R32; 02 R69). -/
def Mem.lineUse (m : Mem) (sl hint : Nat) (l : SLine) : Mem :=
  let l' := if hint = 1 || hint = 2 then { l with hint := hint } else l
  m.updSlice sl (fun x => { x with lines := x.lines.filter (fun y => !(y.asid == l.asid && y.gen == l.gen && y.line == l.line)) ++ [l'] })

/-- The resolved retention hint (01 R32). -/
def resHint (hint raw : Nat) : Nat := if hint != 0 then hint else fld raw 47 2

/-- Whether a miss leaves no line in the slice: bypass (02 R69), a page of which the slice keeps no translation (02 R59), a peer
device's memory (03 R114). -/
def Tr.noLine (t : Tr) (hint : Nat) : Bool := resHint hint t.raw == 3 || t.noal || t.peer.isSome

/-- The bytes of `data` under a mask over those of `old`. -/
def overBytes (mask : Nat) (data old : Tbl Byte) : Tbl Byte :=
  (List.range 128).foldl (fun t i => if bit mask i then Tbl.set 0 t i (Tbl.get 0 data i) else t) old

/-- The poison of a line's sectors after a write: that of the bytes written, and that of a sector not written whole (05 R154). -/
def overPois (mask new old : Nat) : Nat :=
  (List.range 4).foldl (fun n s => if bit new s || (bit old s && !(List.range 32).all (fun i => bit mask (32 * s + i))) then n + 2 ^ s else n) 0

/-- Whether a location lies behind the host port. -/
def Loc.isFar (l : Loc) : Bool := match l with | .far _ _ => true | _ => false

/-- Merges written bytes into the slice's line: into the line on a hit; on a miss into an allocated line, or through to
memory under bypass (02 R69). A write to a host-mapped or CXL page goes on to its target at once (03 R86). -/
def Mem.merge (m : Mem) (sl die asid line : Nat) (t : Tr) (hint : Nat) (data : Tbl Byte) (mask pois : Nat) : Mem :=
  let x := m.slice sl
  let send (m : Mem) : Mem := if t.loc.isFar then m.lineStore t.slot t.loc data mask pois else m
  let dirt : Nat := if t.loc.isFar then 0 else mask
  match x.findLine asid line with
  | some l =>
    send (m.lineUse sl hint { l with
      data := overBytes mask data l.data
      dirty := l.dirty ||| dirt
      pois := overPois mask pois l.pois
      ecc := l.ecc.filter (fun e => fld mask (32 * e.1) 32 == 0) })
  | none =>
    if t.noLine hint then
      match t.loc with
      | .blk _ _ =>
        let (m1, r) := m.lineIn t.slot t.loc 15
        m1.lineOut sl die ⟨asid, x.gen asid, line, t.loc, t.slot, 2 ^ 128 - 1, overPois mask pois r.pois, 0, overBytes mask data r.data, []⟩
      | _ => m.lineStore t.slot t.loc data mask pois
    else
      let (m1, r) := m.lineIn t.slot t.loc 15
      if r.fail.isSome then send m1
      else
        let p := overPois mask pois r.pois
        send (m1.lineInsert sl die ⟨asid, x.gen asid, line, t.loc, t.slot, dirt ||| (if r.pois ≠ p && !t.loc.isFar then 2 ^ 128 - 1 else 0), p,
          resHint hint t.raw, overBytes mask data r.data, r.errs.filter (fun e => fld mask (32 * e.1) 32 == 0)⟩)

/-! Reclaim and drop. -/

/-- One counted miss (04 R133, R134). -/
def TEnt.count (e : TEnt) (slhc : Nat) (pref eng : Bool) : TEnt :=
  if !bit slhc 31 || (pref && !bit slhc 19) || (eng && !bit slhc 18) then e
  else
    let p := (e.pre + 1) % 2 ^ min 4 (fld slhc 0 3)
    { e with pre := p, heat := if p = 0 then min 255 (e.heat + 1) else e.heat }

/-- A slice's copy of SLHC; bit 18 (ENG) is 1 at reset (04 R134). -/
def Slice.heatCfg (x : Slice) (dom : Nat) : Nat := (Tbl.get 0x40000 x.slhc dom).toNat

/-- The location and slot of a line through a translation. -/
def Mem.ref (m : Mem) (e : TEnt) (va : Nat) : Except Flt (Loc × Nat) :=
  match m.locate e.leaf va with
  | .ok l => .ok (l, m.leafSlot e.asid e.leaf.raw)
  | .error f => .error f

def L1Line.same (l k : L1Line) : Bool := l.asid == k.asid && l.gen == k.gen && l.line == k.line

/-- The poison of the sectors of an L1 line that hold dirty bytes. -/
def L1Line.dirtyPois (l : L1Line) : Nat :=
  (List.range 4).foldl (fun n s => if bit l.pois s && fld l.dirty (32 * s) 32 != 0 then n + 2 ^ s else n) 0

/-- What is left of an L1 line whose write-back is refused where the line would have to go: its dirty bytes, as of a line without a
fill (02 R54, R76; log entry 54). -/
def L1Line.keepDirty (l : L1Line) : L1Line :=
  { l with
    valid := 0
    cls := 7
    refused := true
    rsv := []
    pois := l.dirtyPois }

/-- Whether the slice refuses a write-back: the spill area is full and the page spilled (02 R76). -/
def Mem.refuses (m : Mem) (sl : Nat) (loc : Loc) : Bool :=
  match loc with
  | .blk k _ => 8192 ≤ (m.slice sl).spill.length && m.spilled k
  | _ => false

/-- A refusal is counted (02 R76, R77). -/
def Mem.countRefusal (m : Mem) (sl : Nat) : Mem := m.updSlice sl (fun x => { x with refused := satAdd 0xFFFFFF x.refused 1 })

/-- The counters of replication: reads and writes from dies other than the slice's neighbour (02 R63). -/
def TEnt.remote (e : TEnt) (write : Bool) : TEnt :=
  let e := if write then { e with rwr := e.rwr + 1 } else { e with rrd := e.rrd + 1 }
  let e := if e.rrd ≥ 255 || e.rwr ≥ 255 then { e with rrd := e.rrd / 2, rwr := e.rwr / 2 } else e
  if e.owner.isNone && e.rrd ≥ 32 && e.rrd ≥ 16 * e.rwr then { e with rep := true } else e

/-- The bytes of a write-back: one that misses sets A and D, and counts as a miss; one that hits changes neither (04 R132, R133). A
write-back from another die than the slice's neighbour counts in RWR (02 R63). -/
def Slice.wrote (x : Slice) (asid va cfg : Nat) (hit far : Bool) : Slice :=
  x.updEnt asid va (fun t =>
    let t := if hit then t else { t.count cfg false false with a := true, d := true }
    if far then t.remote true else t)

/-- An L1 line's dirty bytes go to the slice through its entry of the page; false: the slice refuses them (02 R76). Bytes without a
location are lost. -/
def Mem.sendBack (m : Mem) (sl core : Nat) (e : TEnt) (l : L1Line) : Mem × Bool :=
  match m.ref e (l.line * 128) with
  | .error _ => (m, true)
  | .ok (loc, k) =>
    if m.refuses sl loc then (m.countRefusal sl, false)
    else
      let hit := ((m.slice sl).findLine e.asid l.line).isSome
      let m1 := m.updSlice sl (fun x => x.wrote e.asid (l.line * 128) (x.heatCfg (m.dom e.asid)) hit (core / 64 != sl / 4))
      (m1.merge sl (core / 64) e.asid l.line ⟨loc, k, e.leaf.raw, 0, false, false, none⟩ l.hint l.data l.dirty l.pois, true)

/-- X's L1 writes back the dirty bytes of its lines of the page homed at the slice and invalidates those lines (02 R60
step 3). A line that the slice refuses stays dirty in the L1 (R76). Lines of an older generation lose their bytes (04 R126). -/
def Mem.reclaimL1 (m : Mem) (sl core : Nat) (e : TEnt) : Mem :=
  let copy := Tbl.get [] m.dslhm (core / 64)
  let g := m.dieGen (core / 64) e.asid
  let mine (l : L1Line) : Bool := l.asid == e.asid && l.gen == g && e.leaf.covers (l.line * 128)
    && homeIn copy (m.dom e.asid) e.asid (l.line * 128) == some sl
  (m.lines1 core).foldl (fun m l =>
    if !mine l then m
    else
      let r := if l.dirty = 0 then (m, true) else m.sendBack sl core e l
      r.1.setLines1 core ((r.1.lines1 core).filterMap (fun y =>
        if !y.same l then some y else if r.2 then none else some y.keepDirty))) m

/-- The dirty bytes that a core's L1 has of a line of a page PRIVATE to that core go to the slice; the line stays. -/
def Mem.ownBytes (m : Mem) (sl asid va : Nat) (core : Option Nat) : Mem :=
  match core, (m.slice sl).findEnt asid va with
  | some c, some e =>
    if e.owner != some c then m
    else ((m.lines1 c).filter (fun l => l.asid == asid && l.gen == m.dieGen (c / 64) asid && l.line == va / 128 && l.dirty != 0)).foldl (fun m l =>
      let r := m.sendBack sl c e l
      r.1.setLines1 c ((r.1.lines1 c).map (fun y =>
        if !y.same l then y else if r.2 then { y with dirty := 0, pois := y.pois &&& y.valid, refused := false } else { y with refused := true }))) m
  | _, _ => m

/-- Takes the slice out of the directory's mask of a page (04 R128). -/
def Mem.dirRemove (m : Mem) (sl asid gen page : Nat) : Mem :=
  match homeOf 0xFFFF asid page with
  | none => m
  | some h => m.updSlice h (fun x => { x with dir := x.dir.filterMap (fun d =>
      if d.asid == asid && d.gen == gen && d.page == page then
        let k := without d.mask (2 ^ sl)
        if k = 0 then none else some { d with mask := k }
      else some d) })

/-- Drops an entry: its lines leave the slice, written out when dirty, its state goes to the companion word, the directory
forgets it (04 R118, R128, R136; log entry 14). -/
def Mem.dropEnt (m : Mem) (sl die : Nat) (e : TEnt) : Mem :=
  let ls := (m.slice sl).lines.filter (fun l => l.asid == e.asid && l.gen == e.gen && e.leaf.covers (l.line * 128))
  let m1 := ls.foldl (fun m l => m.lineDrop sl die l true) m
  let e' := ((m1.slice sl).findEnt e.asid e.leaf.page).getD e
  let m2 := m1.flushCw e'
  let m3 := m2.updSlice sl (fun x => { x with tlb := x.tlb.filter (fun y =>
    !(y.asid == e.asid && y.gen == e.gen && y.leaf.page == e.leaf.page && y.leaf.size == e.leaf.size)) })
  m3.dirRemove sl e.asid e.gen e.leaf.page

/-- After the owner has acknowledged: SHARED with the class of SHC; class 000 goes to the new core, or is flushed and
dropped when no core asked (02 R60 step 4; 01 R31). -/
def Mem.reclaimEnd (m : Mem) (sl die : Nat) (e : TEnt) (who : Option Nat) : Mem :=
  if fld e.leaf.raw 49 3 = 0 then
    match who with
    | some y => m.updSlice sl (fun x => x.updEnt e.asid e.leaf.page (fun t => { t with owner := some y, rcl := none, acked := false }))
    | none => m.dropEnt sl die { e with owner := none }
  else m.updSlice sl (fun x => x.updEnt e.asid e.leaf.page (fun t => { t with owner := none, rcl := none, acked := false }))

/-- A whole reclaim, for agents whose access is one step. -/
def Mem.reclaim (m : Mem) (sl : Nat) (e : TEnt) (who : Option Nat) : Mem :=
  match e.owner with
  | some x => (m.reclaimL1 sl x e).reclaimEnd sl (x / 64) e who
  | none => m

/-- Evicts an entry, reclaiming it from its owner first (02 R61). -/
def Mem.evictEnt (m : Mem) (sl die : Nat) (e : TEnt) : Mem :=
  let m1 := match e.owner with | some x => m.reclaimL1 sl x e | none => m
  m1.dropEnt sl die { e with owner := none }

/-- Every slice a directory entry names drops its entry when the directory entry is evicted (04 R128). -/
def Mem.dirEvict (m : Mem) (d : DirEnt) (die : Nat) : Mem :=
  (List.range Config.slices).foldl (fun m s =>
    if bit d.mask s then
      match (m.slice s).findEnt d.asid d.page with
      | some e => m.evictEnt s die e
      | none => m
    else m) m

/-- Registers a slice in the directory of a page before the walk reads the leaf (04 R128). `way` names the entry that a full set of 8
gives up, counted from the oldest (log entry 8). -/
def Mem.dirAdd (m : Mem) (sl die asid page size way : Nat) : Mem :=
  match homeOf 0xFFFF asid page with
  | none => m
  | some h =>
    let x := m.slice h
    let here (d : DirEnt) : Bool := d.asid == asid && d.gen == (m.slice sl).gen asid && d.page == page && d.size == size
    if x.dir.any here then
      m.setSlice h { x with dir := x.dir.map (fun d => if here d then { d with mask := d.mask ||| 2 ^ sl } else d) }
    else
      let set := if x.dir.length < 8 then [] else x.dir.filter (fun d => Config.dirSet d.asid d.page % 4096 == Config.dirSet asid page % 4096)
      let m1 := if set.length < 8 then m else match set[way % 8]? with
        | some d => (m.dirEvict d die).updSlice h (fun y => { y with dir := y.dir.filter (fun z => z != d) })
        | none => m
      m1.updSlice h (fun y => { y with dir := y.dir ++ [⟨asid, (m.slice sl).gen asid, page, size, 2 ^ sl⟩] })

/-- Page number at the entry's size XORed with the ASID, modulo 2,048 (04 R118). -/
def tlbSet (asid page size : Nat) : Nat := (page / 2 ^ size ^^^ asid) % 2048

/-- Installs a translation; the least recently used of 8 ways of its set goes when all are taken (04 R118, R122). -/
def Mem.install (m : Mem) (sl die : Nat) (e : TEnt) (way : Nat) : Mem :=
  let m0 := m.dirAdd sl die e.asid e.leaf.page e.leaf.size way
  let same := (m0.slice sl).tlb.filter (fun t => tlbSet t.asid t.leaf.page t.leaf.size == tlbSet e.asid e.leaf.page e.leaf.size)
  let m1 := if same.length < 8 then m0 else match same.head? with
    | some v => m0.evictEnt sl die v
    | none => m0
  m1.updSlice sl (fun x => { x with tlb := x.tlb ++ [e] })

/-- The walk-cache lookup of a slice (04 R120). -/
def Slice.wcFind (x : Slice) (asid lvl pre : Nat) : Option Nat :=
  (x.wcache.find? (fun w => w.1 == asid && w.2.1 == x.gen asid && w.2.2.1 == lvl && w.2.2.2.1 == pre)).map (·.2.2.2.2)

/-- Keeps the table entries a walk used, at most 512, the least recently used first (04 R120). -/
def Slice.wcPut (x : Slice) (asid : Nat) (es : List (Nat × Nat × Nat)) : Slice :=
  es.foldl (fun x e =>
    let r := x.wcache.filter (fun w => !(w.1 == asid && w.2.1 == x.gen asid && w.2.2.1 == e.1 && w.2.2.2.1 == e.2.1))
    let r := if r.length < 512 then r else r.tail
    { x with wcache := r ++ [(asid, x.gen asid, e.1, e.2.1, e.2.2)] }) x

/-- The walk of a miss and its installation with A, and D for a write (04 R119 to R122). A probe sets no D (02 R444). An agent that
serves no core installs SHARED, and nothing for class 000 (02 R59). -/
def Mem.walkInstall (m : Mem) (sl asid va : Nat) (who : Who) (write : Bool) (way : Nat) : Mem × Except Flt TEnt :=
  let x := m.slice sl
  let bump (m : Mem) : Mem := m.updSlice sl (fun x => { x with walkN := satAdd 0xFFFFFF x.walkN 1 })
  match m.walk (x.wcFind asid) asid va with
  | .error f =>
    let m1 := if f.cause == cEccUe then m.scrub (f.detail % 2 ^ 40 / 32) else m
    (bump m1, .error f)
  | .ok (l, es) =>
    let e : TEnt := { asid := asid, gen := x.gen asid, leaf := l, owner := who.core, a := true, d := write }
    let m1 := (bump m).updSlice sl (fun x => x.wcPut asid es)
    if who.core.isNone && fld l.raw 49 3 == 0 then (m1, .ok e)
    else (m1.install sl who.die e way, .ok e)

/-- Invalidates the replicas of a page in every die cache its mask names and returns it to memory-side mode (02 R64). -/
def Mem.unreplicate (m : Mem) (sl : Nat) (e : TEnt) : Mem :=
  if !e.rep then m
  else
    let m1 := (List.range Config.dies).foldl (fun m d =>
      if bit e.repMask d then
        { m with dc := Tbl.upd [] m.dc d (fun ls => ls.filter (fun l =>
          !(l.ver.isNone && l.asid == e.asid && e.leaf.covers (l.line * 128)))) }
      else m) m
    m1.updSlice sl (fun x => x.updEnt e.asid e.leaf.page (fun t => { t with rep := false, repMask := 0, rrd := 0, rwr := 0 }))

/-- The class of fills through an entry: private to its owner, else that of SHC (02 R59). -/
def TEnt.cls (e : TEnt) : Nat := if e.owner.isSome then 0 else shcOf e.leaf.raw

/-- Whether a slice holds the requests to a page (04 R128, R129). -/
def Slice.holds (x : Slice) (asid va : Nat) : Bool := x.held.any (fun h => h.asid == asid && h.page ≤ va && va < h.page + 2 ^ h.size)

/-- The page number of a walk or wait. -/
def pageOf (va : Nat) : Nat := va / 65536 * 65536

/-- Whether an access must wait at its slice: the base die is in reset, the generations differ (04 R126), the page is held (04 R129), a
walk of the page runs or all 64 do (04 R121), a reclaim runs for another, or replicas are being invalidated under a write (02 R60,
R64). -/
def Mem.mustWait (m : Mem) (sl asid va : Nat) (who : Who) (write : Bool) : Bool :=
  let x := m.slice sl
  x.inRst || x.gen asid != m.dieGen who.die asid || x.holds asid va || match x.findEnt asid va with
    | none => 64 ≤ x.walks.length || x.walks.any (fun w => w.asid == asid && w.page == pageOf va)
    | some e => (e.rcl.isSome && !(e.owner.isSome && e.owner == who.core && !e.acked)) || (e.inval && write)

/-- The bus address of a far location that is host-mapped reaches a peer device or the host (03 R114; log entry 18). -/
def Loc.peer (l : Loc) : Option Nat := match l with | .far 6 a => Config.peerAt a | _ => none

/-- The translation of an access at its home slice, all of it in one step: walk, reclaim, replica invalidation, checks 3 to
7 of R28, A, D, heat and replication counters. `need` is 1 read, 2 write, 3 atomic, 4 fetch; `probe` as R444. On a slice hit the check
made at the miss that filled the line stands, no entry is consulted, and neither A nor D changes (04 R123, R132); the key slot is always
checked (02 R50). A fetch, and a Fetch engine's read, is no counted miss (04 R133). An engine's access to a page PRIVATE to its own core
finds the bytes that the core has written (02 R49; 03 R92; log entry 62). `way` is 0 for an access in one step (log entry 8); without `cnt`
it looks the page up for an access that counts on its own. -/
def Mem.translate (m : Mem) (sl asid va need : Nat) (who : Who) (probe pref : Bool) (way : Nat := 0) (cnt : Bool := true) : Mem × Except Flt Tr :=
  let write := bit need 1
  if m.mustWait sl asid va who (write && !probe) then ({ m with stall := true }, .error ⟨0, 0⟩)
  else
  let m := if who.eng then m.ownBytes sl asid va who.core else m
  let hit := !probe && ((m.slice sl).findLine asid (va / 128)).isSome
  let (m1, r) := match (m.slice sl).findEnt asid va with
    | some e => (m, Except.ok e)
    | none => m.walkInstall sl asid va who (write && !probe) way
  match r with
  | .error f => (m1, .error f)
  | .ok e0 =>
    let m2 := if e0.owner != who.core && e0.owner.isSome then m1.reclaim sl e0 who.core else m1
    let e1? := (m2.slice sl).findEnt asid va
    let e1 := e1?.getD { e0 with owner := none }
    let m3 := if write && !probe then m2.unreplicate sl e1 else m2
    let chk := if hit then (match m3.ref e1 va with
        | .ok (loc, k) => if (m3.key k).revoked then Except.error ⟨cKeyRevoked, k⟩ else .ok loc
        | .error f => .error f)
      else m3.leafCheck asid e1.leaf va need who.sup
    match chk with
    | .error f => (m3, .error f)
    | .ok loc =>
      let far := who.die != sl / 4
      let dom := m3.dom asid
      let m4 := m3.updSlice sl (fun x => (x.updEnt asid va (fun t =>
        let t := if hit then t else { t with a := true, d := t.d || (write && !probe) }
        let t := if hit || probe || !cnt || need = 4 || need = 0 then t else t.count (x.heatCfg dom) pref who.eng
        if far && !probe && cnt then t.remote write else t)) |> (fun x => if hit then x else x.useEnt asid va))
      let m5 := if 5 ≤ fld e1.leaf.raw 49 3 then { m4 with shc := true } else m4
      if write && m5.sealedAt asid va then (m5, .error ⟨cProt, 2⟩)
      else
        let e2 := ((m5.slice sl).findEnt asid va).getD e1
        (m5, .ok { loc := loc, slot := m5.leafSlot asid e1.leaf.raw, raw := e1.leaf.raw, cls := e2.cls, rep := e2.rep, noal := e1?.isNone, peer := loc.peer })

/-- The location of a line's first byte from that of an address in it. -/
def Loc.line (l : Loc) (va : Nat) : Loc :=
  match l with
  | .hbm a => .hbm (a - va % 128)
  | .blk k o => .blk k (o - va % 128)
  | .far k a => .far k (a - va % 128)

/-- The four sectors that n bytes of a line touch. -/
def secMask (va n : Nat) : Nat := maskOf ((List.range 4).filter (fun i => 32 * i < va % 128 + n && va % 128 < 32 * i + 32))

/-- The translation of the first byte of a line from that of an address in it. -/
def Tr.line (t : Tr) (va : Nat) : Tr := { t with loc := t.loc.line va }

/-- A read of sectors of a line at the slice through a translation of the line: bytes, poison, and the errors first met in those
sectors (05 R155), or no answer; allocates where a line may be left (02 R69). -/
def Mem.sliceLine (m : Mem) (sl die asid va secs hint : Nat) (t : Tr) : Mem × LineRd :=
  let mine (e : Nat × Flt) : Bool := bit secs e.1
  let t := t.line va
  match (m.slice sl).findLine asid (va / 128) with
  | some l =>
    (m.lineUse sl hint { l with ecc := l.ecc.filter (fun e => !mine e) }, { data := l.data, pois := l.pois, errs := l.ecc.filter mine })
  | none =>
    if t.noLine hint then m.lineIn t.slot t.loc secs
    else
      let (m1, r) := m.lineIn t.slot t.loc 15
      if r.fail.isSome then (m1, r)
      else (m1.lineInsert sl die ⟨asid, (m1.slice sl).gen asid, va / 128, t.loc, t.slot, 0, r.pois, resHint hint t.raw, r.data,
        r.errs.filter (fun e => !mine e)⟩, { r with errs := r.errs.filter mine })

/-! The die cache (02 R62, R63, R412). -/

/-- Two lines share a set of a die cache: its bank is the home under mask 0x000F (02 R62; log entry 8). -/
def sameDieSet (a l a' l' : Nat) : Bool :=
  homeOf 0xF a (l * 128) == homeOf 0xF a' (l' * 128) && Config.dieSet a l % 8192 == Config.dieSet a' l' % 8192

/-- Puts a line into a die's cache: its set keeps 16, and the least recently used leaves (13 R412). -/
def Mem.dcPut (m : Mem) (die : Nat) (y : DcLine) : Mem :=
  let ls := (Tbl.get [] m.dc die).filter (fun z => !(z.ver == y.ver && z.asid == y.asid && z.line == y.line))
  let set := if ls.length < 16 then [] else ls.filter (fun z => sameDieSet z.asid z.line y.asid y.line)
  let ls' := if set.length < 16 then ls else match set.head? with | some v => ls.filter (fun z => z != v) | none => ls
  { m with dc := Tbl.put m.dc die (ls' ++ [y]) }

/-- A replica of a line in a die's cache; a hit makes it the most recently used. -/
def Mem.dcFind (m : Mem) (die asid line : Nat) : Option DcLine :=
  (Tbl.get [] m.dc die).find? (fun y => y.ver.isNone && y.asid == asid && y.line == line && y.gen == m.dieGen die asid)

/-- A replica of a line goes to a die's cache, and the page's mask remembers the die (02 R62, R63). -/
def Mem.replicate (m : Mem) (sl die asid line : Nat) (t : Tr) (d : Tbl Byte) (p : Nat) : Mem :=
  if !t.rep then m
  else
    (m.updSlice sl (fun s => s.updEnt asid (line * 128) (fun e => { e with repMask := e.repMask ||| 2 ^ die }))).dcPut die
      { asid := asid, gen := m.dieGen die asid, line := line, cls := t.cls, pois := p, data := d, slot := t.slot }

/-- The home of a line under a die's copy of SLHM, or the fault of check 2 (01 R28). -/
def Mem.hash (m : Mem) (die asid va : Nat) : Except Flt Nat :=
  if va / 2 ^ 55 != 0 then .error ⟨cBounds, 0⟩
  else match homeIn (Tbl.get [] m.dslhm die) (m.dom asid) asid va with
    | some h => .ok h
    | none => .error ⟨cBounds, m.dom asid⟩

/-- The leaf of an address as its home slice has it, or as a walk would find it. -/
def Mem.leafAt (m : Mem) (die asid va : Nat) : Option Leaf :=
  match m.hash die asid va with
  | .error _ => none
  | .ok sl => match (m.slice sl).findEnt asid va with
    | some e => some e.leaf
    | none => match m.walk (fun _ _ => none) asid va with
      | .ok (l, _) => some l
      | .error _ => none

/-- The physical location in HBM of an address, that of its sector, 0 where there is none: for the detail of an error met in a cache (05
R161; log entry 56). -/
def Mem.physOf (m : Mem) (die asid va : Nat) : Nat :=
  match m.leafAt die asid va with
  | none => 0
  | some l => match m.locate l va with
    | .ok loc => m.locPhys loc
    | .error _ => 0

/-- The version that a die holds of the peer device's buffer in which an address lies, with the device and buffer (03 R115; 13 R412). -/
def Mem.sealOf (m : Mem) (die : Nat) (t : Tr) : Option (Nat × Nat × Nat) :=
  match t.peer, t.loc with
  | some fab, .far _ addr => match Config.sealBuf fab addr with
    | some buf => (m.vers.find? (fun v => v.1 == die && v.2.1 == fab && v.2.2.1 == buf)).map (fun v => v.2)
    | none => none
  | _, _ => none

/-- The sealed line of an address in a die's cache: owner, buffer, version and address match, and the reader's peer handle resolves to the
owner (13 R411, R412). -/
def Mem.sealedLine (m : Mem) (die asid : Nat) (t : Tr) : Option DcLine :=
  match m.sealOf die t, t.loc with
  | some v, .far _ addr => if !m.handled asid v.1 addr then none else (Tbl.get [] m.dc die).find? (fun y => y.ver == some v && y.line == addr / 128)
  | _, _ => none

/-- The translation of an address as far as its location, without any effect: for what the die cache holds of a peer's memory. -/
def Mem.peek (m : Mem) (die asid va : Nat) : Option Tr :=
  match m.leafAt die asid va with
  | some l => match m.locate l va with
    | .ok loc => some { loc := loc, slot := m.leafSlot asid l.raw, raw := l.raw, cls := 7, rep := false, peer := loc.peer }
    | .error _ => none
  | none => none

/-- What a die's cache has for a read miss: a replica, or a sealed line (R62; 13 R412); its line is then the most recently used. -/
def Mem.dcLook (m : Mem) (die asid va : Nat) : Option DcLine :=
  match m.dcFind die asid (va / 128) with
  | some y => some y
  | none => (m.peek die asid va).bind (m.sealedLine die asid)

/-- A line that came from a peer device under a version its die holds goes to the die's cache (13 R412). The bank hash takes ASID
0 and the line's address at the owner (log entry 8). -/
def Mem.keepSealed (m : Mem) (die : Nat) (t : Tr) (d : Tbl Byte) (p : Nat) : Mem :=
  match m.sealOf die t, t.loc with
  | some v, .far _ addr => m.dcPut die { asid := 0, gen := 0, line := addr / 128, ver := some v, pois := p, data := d, slot := t.slot }
  | _, _ => m

/-- A read of n bytes that do not cross a line, as one step at the home slice (03 R86): the number, with the error of its data
if it has one; or the fault of the access. An engine's read looks its die's cache up first, and fills it (02 R49, R62; 13 R412). `need` is
1, 4 for a fetch, 0 for a Fetch engine's read of a page. -/
def Mem.readP (m : Mem) (who : Who) (asid va n hint : Nat) (need : Nat := 1) (cnt : Bool := true) : Mem × Except Flt (Nat × Option Flt) :=
  match m.hash who.die asid va with
  | .error f => (m, .error f)
  | .ok sl =>
    let secs := (List.range 4).filter (fun s => 32 * s < va % 128 + n && va % 128 < 32 * s + 32)
    match (if who.eng then m.dcLook who.die asid va else none) with
    | some y => (m.dcPut who.die y, .ok (tblNum y.data (va % 128) n,
        (secs.find? (fun s => bit y.pois s)).map (fun s => ⟨cPoisonMem, m.physOf who.die asid (va / 128 * 128 + 32 * s)⟩)))
    | none =>
      match m.translate sl asid va need who false false 0 cnt with
      | (m1, .error f) => (m1, .error f)
      | (m1, .ok t) =>
        let (m2, r) := m1.sliceLine sl who.die asid va (secMask va n) hint t
        match r.fail with
        | some f => (m2, .error f)
        | none =>
          let at' (s : Nat) : Nat := m2.locPhys ((t.loc.line va).add (32 * s))
          let err := match r.errs.find? (fun f => secs.contains f.1) with
            | some f => some f.2
            | none => (secs.find? (fun s => bit r.pois s)).map (fun s => ⟨cPoisonMem, at' s⟩)
          let m3 := if !who.eng then m2
            else if t.peer.isSome then m2.keepSealed who.die (t.line va) r.data r.pois
            else m2.replicate sl who.die asid (va / 128) t r.data r.pois
          (m3, .ok (tblNum r.data (va % 128) n, err))

/-- The same read where poisoned data count as a fault. -/
def Mem.readG (m : Mem) (who : Who) (asid va n hint : Nat) : Mem × Except Flt Nat :=
  match m.readP who asid va n hint with
  | (m1, .error f) => (m1, .error f)
  | (m1, .ok (_, some f)) => (m1, .error f)
  | (m1, .ok (x, none)) => (m1, .ok x)

/-- A write of bytes within one line, as one step at the home slice (03 R86), with a poison bit for each byte: a sector that takes a poisoned
byte is poisoned (05 R154). -/
def Mem.writeG (m : Mem) (who : Who) (asid va n x : Nat) (poi : Nat) (hint : Nat) (cnt : Bool := true) : Mem × Option Flt :=
  match m.hash who.die asid va with
  | .error f => (m, some f)
  | .ok sl =>
    match m.translate sl asid va 2 who false false 0 cnt with
    | (m1, .error f) => (m1, some f)
    | (m1, .ok t) =>
      let at' := poi % 2 ^ n * 2 ^ (va % 128)
      let pm := maskOf ((List.range 4).filter (fun s => fld at' (32 * s) 32 != 0))
      (m1.merge sl who.die asid (va / 128) (t.line va) hint (tblPut [] (va % 128) n x) (ones (va % 128) n) pm, none)

/-- An indivisible update of 8 or 4 bytes at the home slice: the old value (02 R71). A poisoned operand of a peer leaves the sector
poisoned (05 R156). -/
def Mem.updG (m : Mem) (who : Who) (asid va n : Nat) (f : Nat → Nat) (poi : Bool := false) : Mem × Except Flt Nat :=
  match m.hash who.die asid va with
  | .error e => (m, .error e)
  | .ok sl =>
    match m.translate sl asid va 3 who false false with
    | (m1, .error e) => (m1, .error e)
    | (m1, .ok t) =>
      let (m2, r) := m1.sliceLine sl who.die asid va (secMask va n) 0 t
      match r.fail, r.errs.find? (fun e => e.1 == va % 128 / 32) with
      | some f, _ => (m2, .error f)
      | none, some e => (m2, .error e.2)
      | none, none =>
        if bit r.pois (va % 128 / 32) then (m2, .error ⟨cPoisonMem, m2.locPhys ((t.loc.line va).add (va % 128 / 32 * 32))⟩)
        else
          let old := tblNum r.data (va % 128) n
          (m2.merge sl who.die asid (va / 128) (t.line va) 0 (tblPut [] (va % 128) n (f old)) (ones (va % 128) n)
            (if poi then 2 ^ (va % 128 / 32) else 0), .ok old)

/-- Reads n bytes of a descriptor that may cross lines: 8 bytes at a time. A fault comes with the address of its 8 bytes. -/
def Mem.readMany (m : Mem) (who : Who) (asid va : Nat) : Nat → Nat → Mem × Except (Nat × Flt) Nat
  | 0, _ => (m, .ok 0)
  | k + 1, i =>
    match m.readG who asid (va + 8 * i) 8 0 with
    | (m1, .error f) => (m1, .error (va + 8 * i, f))
    | (m1, .ok w) =>
      match Mem.readMany m1 who asid va k (i + 1) with
      | (m2, .error f) => (m2, .error f)
      | (m2, .ok r) => (m2, .ok (w + 2 ^ 64 * r))

end Sys2Proof.Machine
end

