-- ==== Sys2Proof/Machine/L1.lean ====
section
/-! DEFINITION. The L1 of a core (02 R51 to R58, R73, R76; 04 R126): lookup, allocation, fill, write-back, release, acquire,
range operations. -/

namespace Sys2Proof.Machine

/-- The generation a core uses for an ASID (04 R125). -/
def Mem.coreGen (m : Mem) (core asid : Nat) : Nat := m.dieGen (core / 64) asid

/-- The current generation of a class in a core's L1 (02 R55). -/
def Mem.clsGen (m : Mem) (core cls : Nat) : Nat := Tbl.get 0 (Tbl.get [] m.cgen core) cls

/-- A stale line (02 R57): neither private nor unclassified, with another stamp than its class's generation. -/
def Mem.stale (m : Mem) (core : Nat) (l : L1Line) : Bool := l.cls != 0 && l.cls != 7 && l.stamp != m.clsGen core l.cls

def Mem.drop1 (m : Mem) (core : Nat) (l : L1Line) : Mem := m.setLines1 core ((m.lines1 core).filter (fun k => !l.same k))

/-- Puts a line at the most recently used end, replacing its former state. -/
def Mem.put1 (m : Mem) (core : Nat) (l : L1Line) : Mem :=
  m.setLines1 core ((m.lines1 core).filter (fun k => !l.same k) ++ [l])

/-- Changes the state of a line that no access uses: its place in the order of replacement stays. -/
def Mem.set1 (m : Mem) (core : Nat) (l : L1Line) : Mem :=
  m.setLines1 core ((m.lines1 core).map (fun k => if l.same k then l else k))

/-- Writes the dirty bytes of a line back to its home (02 R52, R88). The line's state is the caller's to change; the answer
says which slice refused, if one did. A line of an older generation loses its bytes and sends a drop notice (04 R126);
bytes whose translation faults have no requester and are lost (log entry 54). -/
def Mem.writeBack1 (m : Mem) (core : Nat) (l : L1Line) : Mem × Option Nat :=
  if l.dirty = 0 then (m, none)
  else match m.hash (core / 64) l.asid (l.line * 128) with
    | .error _ => (m, none)
    | .ok sl =>
      if l.gen != m.coreGen core l.asid then ({ m with notices := m.notices ++ [sl] }, none)
      else match m.translate sl l.asid (l.line * 128) 2 ⟨some core, core / 64, true, false⟩ false false with
        | (m1, .error _) => ({ m1 with shc := m.shc }, none)
        | (m1, .ok t) =>
          if m1.refuses sl t.loc then (({ m1 with shc := m.shc }).countRefusal sl, some sl)
          else (({ m1 with shc := m.shc }).merge sl (core / 64) l.asid l.line t l.hint l.data l.dirty l.pois, none)

/-- Writes a line back and invalidates it; where the slice refuses, its dirty bytes stay (02 R76). -/
def Mem.flush1 (m : Mem) (core : Nat) (l : L1Line) : Mem × Option Nat :=
  match m.writeBack1 core l with
  | (m1, none) => (m1.drop1 core l, none)
  | (m1, some sl) => (m1.set1 core l.keepDirty, some sl)

/-- Writes a line back; it stays valid and becomes clean (02 R56, R73). Bytes of sectors that no fill has completed are then not held
any more (R52). -/
def Mem.clean1 (m : Mem) (core : Nat) (l : L1Line) : Mem × Option Nat :=
  match m.writeBack1 core l with
  | (m1, none) => (m1.set1 core { l with dirty := 0, pois := l.pois &&& l.valid, refused := false, rsv := [] }, none)
  | (m1, some sl) => (m1.set1 core { l with refused := true }, some sl)

/-- Folds a write-back operation over lines and collects the slices that refused. -/
def Mem.overLines (m : Mem) (core : Nat) (f : Mem → Nat → L1Line → Mem × Option Nat) (ls : List L1Line) : Mem × List Nat :=
  ls.foldl (fun a l => let r := f a.1 core l; (r.1, match r.2 with | some s => a.2 ++ [s] | none => a.2)) (m, [])

/-- The widest class that a scope acts on: 0 none, 1 pack, 2 die, 3 device, 4 system (03 R83). -/
def scopeCls (scope : Nat) : Nat := match scope with | 0 => 0 | 1 => 1 | 2 => 2 | 3 => 3 | 4 => 3 | _ => 4

/-- The release of R56 at a scope; the slices that refused a write-back it needed (R76). Lines that it does not act on and that were
refused before are offered again with it. Bytes for the host and CXL memory have been sent to
their target by then (03 R86). -/
def Mem.release (m : Mem) (core scope : Nat) : Mem × List Nat :=
  let k := scopeCls scope
  if k = 0 then (m, [])
  else
    let ls := m.lines1 core
    let acted (l : L1Line) : Bool := l.cls != 0 && l.cls ≤ k
    let shared := ls.filter (fun l => acted l && l.dirty != 0)
    let uncl := ls.filter (fun l => l.cls == 7 && l.dirty != 0)
    let again := ls.filter (fun l => l.refused && !acted l && l.cls != 7 && l.dirty != 0)
    let (m1, r1) := m.overLines core Mem.clean1 shared
    let (m2, r2) := m1.overLines core Mem.flush1 uncl
    ((m2.overLines core Mem.clean1 again).1, r1 ++ r2)

/-- A generation wrap: lines of the class with the same stamp bit [3] as the new value are written back and invalidated
(02 R58). Dirty bytes that the slice refuses stay, as of a line without class and stamp (log entry 54). -/
def Mem.wrap (m : Mem) (core cls new : Nat) : Mem :=
  if new == 8 || new == 0 then
    (m.overLines core Mem.flush1 ((m.lines1 core).filter (fun l => l.cls == cls && bit l.stamp 3 == bit new 3))).1
  else m

/-- The acquire of R56 at a scope. An answer that a slice gave before it and that has not filled yet is asked for again, so that no later
load takes older data for current (03 R90). -/
def Mem.acquire (m : Mem) (core scope : Nat) : Mem :=
  let m := if scopeCls scope = 0 then m else m.setLines1 core ((m.lines1 core).map (fun l => { l with rsv := [] }))
  (List.range (scopeCls scope)).foldl (fun m i =>
    let c := i + 1
    let g := (m.clsGen core c + 1) % 16
    let m1 := { m with cgen := Tbl.upd [] m.cgen core (fun t => Tbl.put t c g) }
    m1.wrap core c g) m

/-- The L1's line of an address for an access: absent when stale (written back and invalidated first, R57; of a line whose write-back
is refused the dirty bytes are left) or of an older generation (dropped, 04 R126). -/
def Mem.look1 (m : Mem) (core asid line : Nat) : Mem × Option L1Line :=
  let g := m.coreGen core asid
  let old := (m.lines1 core).filter (fun l => l.asid == asid && l.line == line && l.gen != g)
  let m0 := old.foldl (fun m l => (m.flush1 core l).1) m
  let here (m : Mem) : Option L1Line := (m.lines1 core).find? (fun l => l.asid == asid && l.gen == g && l.line == line)
  match here m0 with
  | none => (m0, none)
  | some l =>
    if m0.stale core l then
      let m1 := (m0.flush1 core l).1
      (m1, here m1)
    else (m0, some l)

/-- What a set of an L1 has for a new line (02 R52, R76): a way, none since all 12 hold refused lines, or none until a fill completes. -/
inductive Room where
  | free
  | full
  | wait
  deriving DecidableEq, Repr

/-- Makes room in the set of a line: the least recently used line that is neither refused nor waiting for a fill leaves; one that the
slice refuses is passed over from then on (02 R51, R52, R76). -/
def Mem.room1 (m : Mem) (core line : Nat) : Mem × Room :=
  let set (m : Mem) : List L1Line := (m.lines1 core).filter (fun l => l.line % 256 == line % 256)
  if (set m).length < 12 then (m, .free)
  else
    let m1 := (set m).foldl (fun m v =>
      if (set m).length < 12 || v.refused || !v.rsv.isEmpty then m
      else match m.writeBack1 core v with
        | (m1, none) => m1.drop1 core v
        | (m1, some _) => m1.set1 core { v with refused := true }) m
    (m1, if (set m1).length < 12 then .free else if (set m1).all (·.refused) then .full else .wait)

/-- Whether a line can serve n bytes at an offset (02 R52). -/
def L1Line.has (l : L1Line) (off n : Nat) : Bool :=
  (List.range n).all (fun i => bit l.valid ((off + i) / 32) || bit l.dirty (off + i))

/-- Whether any of n bytes lies in a poisoned sector. -/
def L1Line.bad (l : L1Line) (off n : Nat) : Bool := (List.range n).any (fun i => bit l.pois ((off + i) / 32))

/-- A context's fill is pending: its line holds a way for it (02 R52). -/
def Mem.reserve1 (m : Mem) (core asid line hint : Nat) (a : Actor) : Mem × Room :=
  match m.look1 core asid line with
  | (m1, some l) => (m1.set1 core { l with rsv := l.rsv.filter (fun b => b != a) ++ [a] }, .free)
  | (m1, none) =>
    match m1.room1 core line with
    | (m2, .free) => (m2.put1 core { asid := asid, gen := m2.coreGen core asid, line := line, hint := hint, rsv := [a] }, .free)
    | r => r

/-- The fills of the contexts that a test names are pending no more: a line that holds nothing else gives up its way. -/
def Mem.unreserve1 (m : Mem) (core : Nat) (f : Actor → Bool) : Mem :=
  m.setLines1 core ((m.lines1 core).filterMap (fun l =>
    let l' := { l with rsv := l.rsv.filter (fun b => !f b) }
    if l.rsv.any f && l'.rsv.isEmpty && l.valid = 0 && l.dirty = 0 then none else some l'))

/-- Contexts of a core that end leave no access behind: neither a way reserved in its L1 nor a place among those that wait at a slice. -/
def Mem.forget (m : Mem) (core : Nat) (f : Actor → Bool) : Mem :=
  let clean (ws : List Walk) : List Walk :=
    (ws.map (fun w => { w with waiters := w.waiters.filter (fun b => !f b) })).filter (fun w => !w.waiters.isEmpty)
  (List.range Config.slices).foldl (fun m i => m.updSlice i (fun x =>
    { x with walks := clean x.walks, queue := x.queue.filter (fun b => !f b), waits := clean x.waits })) (m.unreserve1 core f)

/-- The fetched bytes of a line, and the fills that it waits for, are not to be used any more: dirty bytes stay (03 R90). -/
def Mem.expire1 (m : Mem) (core asid line : Nat) : Mem :=
  m.setLines1 core ((m.lines1 core).filterMap (fun l =>
    if l.asid != asid || l.line != line then some l
    else if l.dirty = 0 then none
    else some { l with valid := 0, rsv := [], pois := l.dirtyPois }))

/-- Whether an address is a peer device's memory (03 R114; log entry 18). -/
def Mem.peerVa (m : Mem) (die asid va : Nat) : Bool :=
  match m.leafAt die asid va with
  | some l => match m.locate l va with
    | .ok loc => loc.peer.isSome
    | .error _ => false
  | none => false

/-- Writes n bytes into a line of the L1; the line is allocated unclassified without a fetch (02 R52, R54). A write of a
whole sector clears its poison (05 R154). `full`: the set holds only refused lines; `wait`: every other way waits for a fill. -/
def Mem.store1 (m : Mem) (core asid va n x hint : Nat) : Mem × Room :=
  let line := va / 128
  let (m1, f) := m.look1 core asid line
  let mask := ones (va % 128) n
  let upd (l : L1Line) : L1Line :=
    let whole s := (List.range 32).all (fun i => bit mask (32 * s + i))
    { l with
      data := tblPut l.data (va % 128) n x
      dirty := l.dirty ||| mask
      pois := (List.range 4).foldl (fun k s => if bit l.pois s && !whole s then k + 2 ^ s else k) 0 }
  match f with
  | some l => (m1.put1 core (upd l), .free)
  | none =>
    match m1.room1 core line with
    | (m2, .free) =>
      let k := (m2.leafAt (core / 64) asid va).map (fun l => m2.leafSlot asid l.raw)
      (m2.put1 core (upd { asid := asid, gen := m2.coreGen core asid, line := line, hint := hint, slot := k }), .free)
    | r => r

/-- A fill merges into the line that waits for it: dirty bytes are kept, fetched bytes fill the rest of the sectors, class and stamp
come from the fill (02 R52, R54, R74). False: the line has been invalidated or written back since the slice answered, and the context
must ask again. -/
def Mem.fill1 (m : Mem) (core asid line secs : Nat) (a : Actor) (r : Resp) : Mem × Bool :=
  match (m.lines1 core).find? (fun l => l.asid == asid && l.gen == m.coreGen core asid && l.line == line && l.rsv.contains a) with
  | none => (m, false)
  | some l =>
    let need := without secs l.valid
    let data := (List.range 128).foldl (fun t i => if bit need (i / 32) && !bit l.dirty i then Tbl.set 0 t i (Tbl.get 0 r.bytes i) else t) l.data
    (m.put1 core { l with
      data := data
      valid := l.valid ||| need
      pois := l.pois ||| (r.pois &&& need)
      cls := r.cls
      stamp := m.clsGen core r.cls
      slot := some r.slot
      rsv := l.rsv.filter (fun b => b != a) }, true)

/-- The effect of a range operation on one L1 (02 R73): write back only, write back and invalidate, or discard the lines
wholly inside; the slices that refused. -/
def Mem.range1 (m : Mem) (core asid lo hi : Nat) (inv discard : Bool) : Mem × List Nat :=
  let ls := (m.lines1 core).filter (fun l => l.asid == asid && l.line * 128 < hi && lo < l.line * 128 + 128)
  let f (m : Mem) (c : Nat) (l : L1Line) : Mem × Option Nat :=
    if !inv then m.clean1 c l
    else if discard && lo ≤ l.line * 128 && l.line * 128 + 128 ≤ hi then (m.drop1 c l, none)
    else m.flush1 c l
  m.overLines core f ls

/-- The effect of a range operation on the slices of the ASID's domain (02 R73). -/
def Mem.rangeS (m : Mem) (die asid lo hi : Nat) (inv discard : Bool) : Mem :=
  (List.range Config.slices).foldl (fun m s =>
    let x := m.slice s
    let ls := x.lines.filter (fun l => l.asid == asid && l.gen == x.gen asid && l.line * 128 < hi && lo < l.line * 128 + 128)
    ls.foldl (fun m l =>
      if inv then m.lineDrop s die l (!(discard && lo ≤ l.line * 128 && l.line * 128 + 128 ≤ hi))
      else if l.dirty = 0 then m
      else (m.lineOut s die l).updSlice s (fun x => { x with lines := x.lines.map (fun y =>
        if y.asid == l.asid && y.gen == l.gen && y.line == l.line then { y with dirty := 0 } else y) })) m) m

/-- Drops the lines of a private range without write-back (01 R42). -/
def Mem.dropPrivate (m : Mem) (core asid lo hi : Nat) : Mem :=
  m.setLines1 core ((m.lines1 core).filter (fun l => !(l.asid == asid && lo ≤ l.line * 128 && l.line * 128 + 128 ≤ hi)))

end Sys2Proof.Machine
end

