-- ==== Sys2Proof/Machine/Flags.lean ====
section
/-! DEFINITION. The sticky flags: %warn (09 R275) and %fpx (08 R251). Hardware only sets their bits. -/

namespace Sys2Proof.Machine

/-! Bit numbers of %warn (09 R275). -/

def wLookaheadWaw : Nat := 0
def wGeomRsvd : Nat := 1
def wShcRsvd : Nat := 2
def wFmtRsvd : Nat := 3
def wTernRsvd : Nat := 4
def wSparseDup : Nat := 5
def wScopeRsvd : Nat := 6
def wRgnNest : Nat := 7
def wCmtNoRegion : Nat := 8
def wRgnOpenExit : Nat := 9
def wEjectNoJoin : Nat := 10
def wEjectUnmapped : Nat := 11
def wTeamNone : Nat := 12
def wMcastOut : Nat := 13
def wModIgn : Nat := 14
def wModRsvd : Nat := 15
def wCvtRsvd : Nat := 16
def wRegAlign : Nat := 17
def wHintRsvd : Nat := 18
def wPcOdd : Nat := 19

/-- The word with one bit. -/
def flag (n : Nat) : W32 := BitVec.ofNat 32 (2 ^ n)

/-- The word with one bit when a condition holds. -/
def flagIf (b : Bool) (n : Nat) : W32 := if b then flag n else 0

/-- Sets warnings. -/
def Ctx.warns (c : Ctx) (w : W32) : Ctx := { c with warn := c.warn ||| w }

/-- Sets exception flags. -/
def Ctx.fpflags (c : Ctx) (w : W32) : Ctx := { c with fpx := c.fpx ||| w }

/-- INVP of %fpm (08 R252). -/
def Ctx.invp (c : Ctx) : Bool := bit c.fpm.toNat 0

/-- The %fpx bits that software keeps: a PUTS writes bits [4:0] (08 R251, 00 R11). -/
def fpxMask : W32 := 0x1F

/-- The %warn bits that software keeps (09 R275). -/
def warnMask : W32 := 0xFFFFF

/-- Z-free flag computation of a rounding: the low five bits of a flag number as %fpx bits. -/
def fpBits (fl : Nat) : W32 := BitVec.ofNat 32 (fl % 32)

end Sys2Proof.Machine
end

