-- ==== Sys2Proof/Machine/Operands.lean ====
section
/-! DEFINITION. Operand forms: registers of a lane and of the uniform file with their poison (05 R152, R157; 09 R273, R279),
pairs and quads, predicates, and the writes, which respect the constant registers and held results (09 R284, R285). -/

namespace Sys2Proof.Machine

/-- The first payload of a list of operands (05 R157). -/
def firstBad : List (Option Payload) → Option Payload
  | [] => none
  | some p :: _ => some p
  | none :: r => firstBad r

/-- The number of a register operand of k registers with its low bits read as 0 (09 R279, R296). -/
def alignReg (k r : Nat) : Nat := r - r % k

/-- The warning of a misaligned register operand. -/
def alignWarn (k r : Nat) : W32 := flagIf (r % k != 0) wRegAlign

/-! A lane's registers. -/

/-- v[r] of a lane. -/
def Lane.rd (x : Lane) (r : Nat) : Val W32 := Tbl.get (.ok 0) x.v (r % 128)

/-- p[r] of a lane; p0 is true (09 R273). -/
def Lane.pr (x : Lane) (r : Nat) : Val Bool := if r % 8 = 0 then .ok true else Tbl.get (.ok false) x.p (r % 8)

/-- A predicate as used: poisoned reads false (05 R152). -/
def Lane.pTrue (x : Lane) (r : Nat) : Bool := (x.pr r).getD false

/-- A 64-bit operand in a pair, with the even register's payload first (05 R152). -/
def Lane.rd2 (x : Lane) (r : Nat) : Val W64 :=
  match firstBad [(x.rd r).pl?, (x.rd (r + 1)).pl?] with
  | some p => .bad p
  | none => .ok (BitVec.ofNat 64 (((x.rd r).getD 0).toNat + 2 ^ 32 * ((x.rd (r + 1)).getD 0).toNat))

/-- k consecutive registers as a number, or the payload of the lowest-numbered poisoned one (05 R152). -/
def Lane.rdN (x : Lane) (r k : Nat) : Option Payload × Nat :=
  (firstBad ((List.range k).map (fun i => (x.rd (r + i)).pl?)),
   (List.range k).foldr (fun i n => ((x.rd (r + i)).getD 0).toNat + 2 ^ 32 * n) 0)

/-- The low or high word of a 64-bit value with its poison. -/
def half64 (v : Val W64) (hi : Bool) : Val W32 :=
  match v with
  | .bad p => .bad p
  | .ok w => .ok (if hi then (w >>> 32).setWidth 32 else w.setWidth 32)

/-! Uniform registers. -/

/-- s[r]; s0 reads 0, clean (09 R273). -/
def Ctx.rs (c : Ctx) (r : Nat) : Val W64 := if r % 64 = 0 then .ok 0 else Tbl.get (.ok 0) c.s (r % 64)

/-- q[r]; q0 is true. -/
def Ctx.rq (c : Ctx) (r : Nat) : Val Bool := if r % 8 = 0 then .ok true else Tbl.get (.ok false) c.q (r % 8)

def Ctx.qTrue (c : Ctx) (r : Nat) : Bool := (c.rq r).getD false

/-- A lane of a context; one that is not listed has exited. -/
def Ctx.ln (c : Ctx) (l : Nat) : Lane := Tbl.get {} c.lanes l

def Ctx.setLn (c : Ctx) (l : Nat) (x : Lane) : Ctx := { c with lanes := Tbl.put c.lanes l x }

/-- A later write of a register stands against a held result (09 R285). -/
def Ctx.waw (c : Ctx) (uni : Bool) (l r : Nat) : Ctx :=
  let hits (rs : Held → List Nat) (h : Held) : Bool := h.uni == uni && (rs h).contains r && (Tbl.find h.win l).isSome
  if c.pend.any (fun h => hits (fun h => h.regs ++ h.soft) h.2) then
    { c.warns (flagIf (c.pend.any (fun h => hits Held.regs h.2)) wLookaheadWaw) with pend := c.pend.map (fun h =>
        if hits (fun h => h.regs ++ h.soft) h.2 then (h.1, { h.2 with gone := (l, r) :: h.2.gone }) else h) }
  else c

/-- A later write of s[r] stands against a held result (09 R285). -/
def Ctx.wawU (c : Ctx) (r : Nat) : Ctx :=
  if c.pend.any (fun h => h.2.uni && h.2.regs.contains r) then
    { c.warns (flag wLookaheadWaw) with pend := c.pend.map (fun h =>
      if h.2.uni && h.2.regs.contains r then (h.1, { h.2 with gone := (32, r) :: h.2.gone }) else h) }
  else c

/-- An LDF writes these registers and no others: the held results that waited for that give way to it in those of them that its own issue
met inside their windows (10 R323; 09 R285). -/
def Ctx.ldfSure (c : Ctx) (hid : Nat) (regs : List Nat) : Ctx :=
  let meets (h : Held) : List (Nat × Nat × Nat) := h.maybe.filter (fun m => m.1 == hid && regs.contains m.2.2)
  { c.warns (flagIf (c.pend.any (fun h => !(meets h.2).isEmpty)) wLookaheadWaw) with
    pend := c.pend.map (fun h => (h.1, { h.2 with
      gone := (meets h.2).map (·.2) ++ h.2.gone
      maybe := h.2.maybe.filter (fun m => m.1 != hid) })) }

/-- The format of an LDF's page is known (10 R323): the registers that it writes; a write in the window that met one of them stands. -/
def Ctx.ldfKnown (c : Ctx) (hid : Nat) (regs : List Nat) : Ctx :=
  let late := c.pend.any (fun h => h.1 = hid && h.2.gone.any (fun g => regs.contains g.2 && !h.2.regs.contains g.2))
  ({ c.warns (flagIf late wLookaheadWaw) with
    pend := c.pend.map (fun h => if h.1 = hid then (h.1, { h.2 with regs := regs, soft := [] }) else h) } : Ctx).ldfSure hid regs

/-- Writes v[r] of a lane. -/
def Ctx.wv (c : Ctx) (l r : Nat) (v : Val W32) : Ctx :=
  let c := c.waw false l (r % 128)
  c.setLn l { c.ln l with v := Tbl.put (c.ln l).v (r % 128) v }

/-- Writes p[r] of a lane; p0 discards it (09 R273). -/
def Ctx.wp (c : Ctx) (l r : Nat) (v : Val Bool) : Ctx :=
  if r % 8 = 0 then c else c.setLn l { c.ln l with p := Tbl.put (c.ln l).p (r % 8) v }

/-- Writes %dr of a lane. -/
def Ctx.wdr (c : Ctx) (l : Nat) (v : Val W32) : Ctx := c.setLn l { c.ln l with dr := v }

/-- Writes s[r]; s0 discards it (09 R273). A held result of s[r] gives way to it (09 R285). -/
def Ctx.ws (c : Ctx) (r : Nat) (v : Val W64) : Ctx :=
  if r % 64 = 0 then c
  else
    let c := c.wawU (r % 64)
    { c with s := Tbl.put c.s (r % 64) v }

/-- Writes q[r]; q0 discards it. -/
def Ctx.wq (c : Ctx) (r : Nat) (v : Val Bool) : Ctx :=
  if r % 8 = 0 then c else { c with q := Tbl.put c.q (r % 8) v }

/-! Held results (09 R283 to R287). -/

/-- Whether a held result can be written: it is available, no live lane's window is open, and no LDF may yet take its place. -/
def Ctx.ripe (c : Ctx) (h : Held) : Bool :=
  h.val.isSome && h.maybe.isEmpty && h.win.all (fun w => w.2 = 0 || (w.1 < 32 && decide ((c.ln w.1).life = .exited)))

/-- Writes one held result, but for the registers whose later write stands. -/
def Ctx.writeHeld (c : Ctx) (h : Held) : Ctx :=
  match h.val with
  | none => c
  | some t =>
    t.foldl (fun c e =>
      (h.regs.zip e.2).foldl (fun c rv =>
        if h.gone.contains (e.1, rv.1) then c
        else if h.uni then (if rv.1 % 64 = 0 then c else { c with s := Tbl.put c.s (rv.1 % 64) rv.2 })
        else c.setLn e.1 { c.ln e.1 with v := Tbl.put (c.ln e.1).v (rv.1 % 128) (match rv.2 with
          | .ok w => .ok (w.setWidth 32)
          | .bad p => .bad p) }) c) c

/-- Writes every held result that can be written, in issue order. -/
def Ctx.settle (c : Ctx) : Ctx :=
  c.pend.foldl (fun c h =>
    if c.ripe h.2 then { c.writeHeld h.2 with pend := Tbl.del (c.writeHeld h.2).pend h.1 } else c) c

/-- An instruction of the lanes has executed: their windows shrink (09 R283). -/
def Ctx.tickWin (c : Ctx) (mask : Nat) (uni : Bool) : Ctx :=
  { c with pend := c.pend.map (fun h => (h.1, { h.2 with win := h.2.win.map (fun w =>
      if (w.1 < 32 && bit mask w.1) || (uni && w.1 = 32) then (w.1, w.2 - 1) else w) })) }

/-- The windows of lanes end (09 R286). -/
def Ctx.endWin (c : Ctx) (mask : Nat) : Ctx :=
  { c with pend := c.pend.map (fun h => (h.1, { h.2 with win := h.2.win.map (fun w =>
      if w.1 = 32 || bit mask w.1 then (w.1, 0) else w) })) }

/-- Opens a held result with a window of `la` further instructions for each lane; the issuing instruction's own retirement
counts one down. A later long-latency destination inside a window stands against the earlier one (09 R285); where an LDF may or may not come
to write a register, the earlier result waits until that is known (10 R323). -/
def Ctx.hold (c : Ctx) (regs : List Nat) (uni : Bool) (mask la : Nat) (soft : List Nat := []) : Ctx × Nat :=
  let win : Tbl Nat := if mask = 0 then [(32, la + 1)] else (lanesOf mask).map (fun l => (l, la + 1))
  let c0 := regs.foldl (fun c r => if uni then (if r % 64 = 0 then c else c.wawU r)
    else (lanesOf mask).foldl (fun c l => c.waw false l r) c) c
  let maybe (h : Held) : List (Nat × Nat × Nat) :=
    if h.uni then [] else soft.flatMap (fun r => if (h.regs ++ h.soft).contains r then
      ((lanesOf mask).filter (fun l => (Tbl.find h.win l).isSome)).map (fun l => (c.hid, l, r)) else [])
  let c1 : Ctx := { c0 with pend := c0.pend.map (fun h => (h.1, { h.2 with maybe := maybe h.2 ++ h.2.maybe })) }
  ({ c1 with pend := Tbl.put c1.pend c1.hid { regs := regs, uni := uni, win := win, soft := soft }, hid := c1.hid + 1 }, c1.hid)

/-- The value of a held result has become available. -/
def Ctx.deliver (c : Ctx) (hid : Nat) (t : Tbl (List (Val W64))) : Ctx :=
  let regs := ((Tbl.find c.pend hid).map Held.regs).getD []
  ({ c with pend := c.pend.map (fun h => if h.1 = hid then (h.1, { h.2 with val := some t }) else h) } : Ctx).ldfSure hid regs

end Sys2Proof.Machine
end

