-- ==== Sys2Proof/Machine/Ops.lean ====
section
/-! DEFINITION. The shared operations of every meaning: contexts, splits and their placement (06 R190 to R192), records and
sinks (05 R151, R158, R160 to R167), legality by the executing agent (09 R294; 11 R332), retirement of an instruction with
its windows and merges, and the entry to and return from supervisor mode (04 R141; 11 R355). -/

namespace Sys2Proof

/-- The slot of the actor's split in its context. -/
def Actor.slot : Actor → Nat
  | .split _ _ k => k
  | _ => 0

/-- Lane contexts: a split of a group and an ejected lane. -/
def Actor.lanes : Actor → Bool
  | .split _ _ _ => true
  | .thread _ _ => true
  | _ => false

/-- The actor without its slot: a context of its own or of a group. -/
def Actor.base : Actor → Actor
  | .split c g _ => .split c g 0
  | a => a

def Actor.isSeq : Actor → Bool
  | .mseq _ => true
  | .cseq _ => true
  | _ => false

def Actor.isCtl : Actor → Bool
  | .ctl _ _ => true
  | _ => false

def Actor.isThread : Actor → Bool
  | .thread _ _ => true
  | _ => false

end Sys2Proof

namespace Sys2Proof.Machine

/-! Components of the state. -/

def State.core (s : State) (c : Nat) : Core := Tbl.get {} s.cores c
def State.setCore (s : State) (c : Nat) (x : Core) : State := { s with cores := Tbl.put s.cores c x }
def State.die (s : State) (d : Nat) : Die := Tbl.get {} s.dies d
def State.setDie (s : State) (d : Nat) (x : Die) : State := { s with dies := Tbl.put s.dies d x }
def State.port (s : State) (p : Nat) : Port := Tbl.get {} s.ports p
def State.setPort (s : State) (p : Nat) (x : Port) : State := { s with ports := Tbl.put s.ports p x }

/-- The context an actor executes in. -/
def State.ctx (s : State) (a : Actor) : Ctx :=
  match a with
  | .split c g _ => Tbl.get {} s.groups (c * 32 + g)
  | .thread d t => Tbl.get {} s.threads (d * 128 + t)
  | .ctl d t => Tbl.get {} s.ctls (d * 8 + t)
  | .mseq c => Tbl.get {} s.mseqs c
  | .cseq c => Tbl.get {} s.cseqs c

/-- Replaces the context of an actor. -/
def State.setCtx (s : State) (a : Actor) (x : Ctx) : State :=
  match a with
  | .split c g _ => { s with groups := Tbl.put s.groups (c * 32 + g) x }
  | .thread d t => { s with threads := Tbl.put s.threads (d * 128 + t) x }
  | .ctl d t => { s with ctls := Tbl.put s.ctls (d * 8 + t) x }
  | .mseq c => { s with mseqs := Tbl.put s.mseqs c x }
  | .cseq c => { s with cseqs := Tbl.put s.cseqs c x }

def State.updCtx (s : State) (a : Actor) (f : Ctx → Ctx) : State := s.setCtx a (f (s.ctx a))

/-- The context of the executing actor. -/
def State.me (s : State) : Ctx := s.ctx s.cur.act

/-- Changes the context of the executing actor. -/
def State.upd (s : State) (f : Ctx → Ctx) : State := s.updCtx s.cur.act f

def Ctx.split (c : Ctx) (k : Nat) : Split := Tbl.get {} c.splits k
def Ctx.setSplit (c : Ctx) (k : Nat) (x : Split) : Ctx := { c with splits := Tbl.put c.splits k x }

/-- The executing split. -/
def State.sp (s : State) : Split := s.me.split s.cur.act.slot

/-- The active lanes of the executing split: its mask and its lanes in ascending order (00 R14). -/
def State.mask (s : State) : Nat := s.sp.mask
def State.active (s : State) : List Nat := lanesOf s.mask

/-- Changes the executing split. -/
def State.updSp (s : State) (f : Split → Split) : State :=
  s.upd (fun c => c.setSplit s.cur.act.slot (f (c.split s.cur.act.slot)))

/-- The module core an actor runs on or is homed at. -/
def State.coreOf (s : State) (a : Actor) : Nat :=
  match a with
  | .split c _ _ => c
  | .thread _ _ => (s.ctx a).core
  | .ctl d _ => d * 64
  | .mseq c => c
  | .cseq c => c

/-- The compute die of an actor. -/
def State.dieOf (_s : State) (a : Actor) : Nat :=
  match a with
  | .split c _ _ => c / 64
  | .thread d _ => d
  | .ctl d _ => d
  | .mseq c => c / 64
  | .cseq c => c / 64

/-- The workgroup of an actor. -/
def State.wgOf (s : State) (a : Actor) : Wg := Tbl.get {} (s.core (s.coreOf a)).wgs (s.ctx a).wslot

def State.setWg (s : State) (c w : Nat) (x : Wg) : State :=
  s.setCore c { s.core c with wgs := Tbl.put (s.core c).wgs w x }

def State.updWg (s : State) (c w : Nat) (f : Wg → Wg) : State := s.setWg c w (f (Tbl.get {} (s.core c).wgs w))

/-- The number by which a grid is found: its tag and its number among the launches. -/
def Grid.key (g : Grid) : Nat := g.tag + 65536 * g.num

/-- A grid by its number. -/
def State.gridAt (s : State) (g : Nat) : Option Grid := s.grids.find? (fun x => x.key == g)

def State.updGrid (s : State) (k : Nat) (f : Grid → Grid) : State :=
  { s with grids := s.grids.map (fun g => if g.key == k then f g else g) }

def State.desc (s : State) (a : Actor) : Desc :=
  match s.gridAt (s.wgOf a).grid with
  | some g => g.desc
  | none => {}

/-- As whom an actor accesses memory (02 R59): engines and threads count as their core, a control core as none. -/
def State.who (s : State) (a : Actor) : Who :=
  match a with
  | .ctl d t => ⟨none, d, (s.ctx (.ctl d t)).fw, false⟩
  | _ => ⟨some (s.coreOf a), s.dieOf a, ((s.ctx a).split a.slot).sup, false⟩

/-- The actors that exist: sequencers, every slot of a group, threads, control-core threads. -/
def State.actors (s : State) : List Actor :=
  s.mseqs.map (fun e => .mseq e.1) ++ s.cseqs.map (fun e => .cseq e.1)
    ++ s.groups.flatMap (fun e => (List.range 4).map (fun k => .split (e.1 / 32) (e.1 % 32) k))
    ++ s.threads.map (fun e => .thread (e.1 / 128) (e.1 % 128)) ++ s.ctls.map (fun e => .ctl (e.1 / 8) (e.1 % 8))

/-- Puts an event record on offer at a die (07 R212). -/
def State.event (s : State) (die : Nat) (r : BitVec 128) : State := { s with mem := s.mem.event die r }

/-! Records (05 R151, R160 to R163). -/

/-- A fault of a lane: the lane, cause and detail, the virtual address or 0, the key of its page or view frame, and
whether it lies in a CLEAN view. -/
structure LFlt where
  lane : Nat
  flt : Flt
  va : Nat := 0
  page : Nat := 0
  cln : Bool := false
  deriving DecidableEq, Repr

/-- The payload of a cause and a record index (00 R8). -/
def mkPl (cause idx : Nat) : Payload := BitVec.ofNat 16 (cause % 64 * 1024 + idx % 1024)

def plCause (p : Payload) : Nat := p.toNat / 1024
def plIdx (p : Payload) : Nat := p.toNat % 1024

/-- A record of the side table; record 1,023 is the sentinel (05 R160). -/
def Core.entry (c : Core) (i : Nat) : Rec :=
  if i = 1023 then { live := true, cause := cSideOverflow } else Tbl.get {} c.side i

def Core.setRec (c : Core) (i : Nat) (r : Rec) : Core := { c with side := Tbl.put c.side i r }

/-- Whether n records from i are free and lie below 1,023. -/
def Core.freeRun (c : Core) (i n : Nat) : Bool :=
  i + n ≤ 1023 && (List.range n).all (fun k => !(c.entry (i + k)).live)

/-- Length of the free run at i, at most n. -/
def Core.runLen (c : Core) (i : Nat) : Nat → Nat
  | 0 => 0
  | n + 1 => if i < 1023 && !(c.entry i).live then 1 + c.runLen (i + 1) n else 0

/-- Where n records go (05 R163): the first run of n free indices in ring order from the pointer, else the longest free
run, the first of equally long ones (log entry 42); the start and the number that fit. -/
def Core.place (c : Core) (n : Nat) : Nat × Nat :=
  let ring := (List.range 1023).map (fun k => (c.ptr + k) % 1023)
  match ring.find? (fun i => c.freeRun i n) with
  | some i => (i, n)
  | none => ring.foldl (fun b i => let l := c.runLen i n; if b.2 < l then (i, l) else b) (c.ptr, 0)

/-- Whether a cause is serviceable when its record is allocated (05 R162, R172). -/
def servCause (m : Mem) (asid cause : Nat) (cln : Bool) : Bool :=
  cause == cFirstTouch || cause == cPageStorage || cause == cPageHost || (cause == cPageMiss && m.missv asid)
    || (cause == cEccUe && cln)

/-- The lane context whose records and regions an actor's faults concern: for an engine sequencer, the group that issued
the FORK (12 R375). -/
def State.marker (s : State) (a : Actor) : Actor :=
  match a with
  | .mseq c => .split c (s.wgOf a).forker 0
  | .cseq c => .split c (s.wgOf a).forker 0
  | _ => a

/-- The context that keeps a group's own state: for an ejected lane its home group, for a sequencer the group of the FORK. -/
def State.homeActor (s : State) (a : Actor) : Actor :=
  match a with
  | .thread d t => .split (s.ctx (.thread d t)).core (s.ctx (.thread d t)).home 0
  | _ => s.marker a

/-- The context that holds a lane: the thread of an ejected lane (06 R195), else the actor's own. -/
def State.laneActor (s : State) (a : Actor) (l : Nat) : Actor :=
  match ((s.ctx a).ln l).life with
  | .ejected t => .thread (s.dieOf a) t
  | _ => a

/-- The region state of a lane of a group. -/
def State.rgnAt (s : State) (a : Actor) (l : Nat) : Rgn := ((s.ctx (s.laneActor a l)).ln l).rgn

/-- The distinct pairs of cause and page in order of their first lane (05 R151). -/
def pairsOf (fs : List LFlt) : List LFlt :=
  fs.foldl (fun ps f => if ps.any (fun p => p.flt.cause == f.flt.cause && p.page == f.page) then ps else ps ++ [f]) []

/-- Allocates records for the faults of one instruction and answers each lane's payload. A control core keeps no side
table: its payload names record 1,023 (11 R332). `pc` is the origin PC. -/
def State.alloc (s : State) (a : Actor) (pc : W64) (fs : List LFlt) : State × Tbl Payload :=
  if a.isCtl then (s, fs.map (fun f => (f.lane, mkPl f.flt.cause 1023)))
  else
    let cn := s.coreOf a
    let co := s.core cn
    let g := s.marker a
    let cx := s.ctx g
    let hm := s.homeActor a
    let ps := pairsOf fs
    let (start, fit) := co.place ps.length
    let (co1, last, idxs) := (ps.zip (List.range ps.length)).foldl (fun (acc : Core × Option Nat × List Nat) pn =>
      let p := pn.1
      if pn.2 < fit then
        let i := start + pn.2
        let lr := s.rgnAt g p.lane
        let r : Rec :=
          { pc := pc
            detail := BitVec.ofNat 64 p.flt.detail
            va := p.va % 2 ^ 55
            asid := cx.asid
            seq := lr.seq
            chain := acc.2.1.getD 0
            cause := p.flt.cause
            lane := p.lane % 32
            group := cx.gid
            wgs := cx.wslot
            mb := if 2 ^ 60 ≤ p.page then (p.page - 2 ^ 60) / 2 ^ 14 - (s.wgOf g).base else 0
            noprev := acc.2.1.isNone
            serv := servCause s.mem cx.asid p.flt.cause p.cln
            live := true
            out := !lr.opn }
        (acc.1.setRec i r, some i, acc.2.2 ++ [i])
      else (acc.1, acc.2.1, acc.2.2 ++ [1023])) (co, (s.ctx hm).lastRec, [])
    let co2 := { co1 with ptr := if fit = 0 then co1.ptr else (start + fit) % 1023 }
    let full := fit < ps.length
    let s1 := (s.setCore cn co2).updCtx hm (fun c => { c with lastRec := last, ovf := c.ovf || full })
    let pl (f : LFlt) : Payload :=
      match (ps.zip idxs).find? (fun p => p.1.flt.cause == f.flt.cause && p.1.page == f.page) with
      | some p => mkPl f.flt.cause p.2
      | none => mkPl f.flt.cause 1023
    (s1, fs.map (fun f => (f.lane, pl f)))

/-- One record for the group as a whole, in the name of its lowest active lane (11 R343; 00 R15). -/
def State.alloc1 (s : State) (a : Actor) (pc : W64) (mask : Nat) (f : Flt) (va : Nat) : State × Payload :=
  let l := (lowest 32 mask).getD 0
  let (s1, t) := s.alloc a pc [{ lane := l, flt := f, va := va, page := va % 2 ^ 55 / 65536 }]
  (s1, Tbl.get (mkPl f.cause 1023) t l)

/-! Sinks (05 R158, R167). -/

/-- Marks a lane's region with a payload; a payload carried in from before the region gets a record of its own. -/
def State.sink (s : State) (a0 : Actor) (pc : W64) (l : Nat) (pl : Payload) : State :=
  let a := s.laneActor a0 l
  let cx := s.ctx a
  let rg := (cx.ln l).rgn
  if !rg.opn then s.updCtx a (fun c => { c with hit := if c.svc.isSome then Tbl.put c.hit l pl else c.hit }.setLn l { c.ln l with rgn := { (c.ln l).rgn with orph := true } })
  else
    let r := (s.core (s.coreOf a)).entry (plIdx pl)
    let (s1, pl1, ok) :=
      if plIdx pl = 1023 then (s, pl, false)
      else if r.live && !r.stale && r.wgs == cx.wslot && r.group == cx.gid && r.seq == rg.seq then (s, pl, r.serv)
      else
        let (s1, t) := s.alloc a pc [{ lane := l, flt := ⟨plCause pl, pl.toNat⟩ }]
        let p1 := Tbl.get pl t l
        -- a carried-in record is never serviceable
        let s2 := s1.setCore (s1.coreOf a) (let co := s1.core (s1.coreOf a)
          if plIdx p1 = 1023 then co else co.setRec (plIdx p1) { co.entry (plIdx p1) with serv := false })
        (s2, p1, false)
    s1.updCtx a (fun c => { c with hit := if c.svc.isSome then Tbl.put c.hit l pl1 else c.hit }.setLn l { c.ln l with
      rgn := { (c.ln l).rgn with
        recp := if (c.ln l).rgn.p then (c.ln l).rgn.recp else pl1
        p := true
        nsv := (c.ln l).rgn.nsv || !ok } })

/-- Marks several lanes, each with a payload. -/
def State.sinks (s : State) (a : Actor) (pc : W64) (ls : List (Nat × Payload)) : State :=
  ls.foldl (fun s e => s.sink a pc e.1 e.2) s

/-- A program of a sequencer has marked lanes: its bit of RDV is set (12 R376). -/
def State.seqMark (s : State) : State :=
  match s.cur.act with
  | .mseq c => s.updWg c (s.ctx s.cur.act).wslot (fun w => { w with mmark := true })
  | .cseq c => s.updWg c (s.ctx s.cur.act).wslot (fun w => { w with cmark := true })
  | _ => s

/-- A sink of the whole executing split, or of the lanes active at the FORK for an engine program, whose RDV bit is then
set (12 R375, R376). A control core marks nothing here. -/
def State.sinkAll (s : State) (pl : Payload) : State :=
  let a := s.cur.act
  if a.isCtl then s
  else if a.isSeq then (s.sinks (s.marker a) s.cur.pc ((lanesOf (s.wgOf a).fmask).map (fun l => (l, pl)))).seqMark
  else s.sinks a s.cur.pc (s.active.map (fun l => (l, pl)))

/-- The lanes on whose behalf the executing actor allocates. -/
def State.faultMask (s : State) : Nat := if s.cur.act.isSeq then (s.wgOf s.cur.act).fmask else s.mask

/-- Allocates one record of a cause for the executing actor. -/
def State.fault1 (s : State) (f : Flt) (va : Nat := 0) : State × Payload := s.alloc1 s.cur.act s.cur.pc s.faultMask f va

/-- A fault that marks every active lane and writes no register; on a control core it goes to s61 (07 R209). -/
def State.faultAll (s : State) (f : Flt) (va : Nat := 0) : State :=
  let (s1, pl) := s.fault1 f va
  if s.cur.act.isCtl then s1.upd (fun c => c.ws 61 (.bad pl)) else s1.sinkAll pl

/-! Splits (06 R190 to R192). -/

/-- Whether two splits of equal PC become one (R192): neither is halted or waits, nor is only one in supervisor mode; a handler's lanes stay
apart from those of an SVC (log entry 19). -/
def Split.joins (x y : Split) : Bool :=
  x.mask != 0 && y.mask != 0 && x.pc == y.pc && x.sup == y.sup && x.ret.isSome == y.ret.isSome && x.wait == .none && y.wait == .none
    && !x.halted && !y.halted

/-- The instructions that hold a split. -/
def Split.blks (x : Split) : List Blk := x.blk.toList ++ x.also

/-- A split held by these instructions. -/
def Split.heldBy (x : Split) (l : List Blk) : Split := { x with blk := l.head?, also := l.tail }

/-- An instruction that held a split holds it no longer. -/
def Ctx.freed (c : Ctx) (k : Nat) (b : Blk) : Ctx := c.setSplit k ((c.split k).heldBy ((c.split k).blks.erase b))

/-- The lanes of another split join a split: it waits for what held either (R192). -/
def Split.take (x y : Split) : Split := { x with mask := x.mask ||| y.mask }.heldBy (x.blks ++ y.blks)

/-- A slot absorbs the pool entries of its PC (R191). -/
def Ctx.absorb (c : Ctx) (k : Nat) : Ctx :=
  let sp := c.split k
  { c.setSplit k ((c.pool.filter sp.joins).foldl Split.take sp) with
    pool := c.pool.filter (fun e => !sp.joins e) }

/-- A slot takes an entry of the pool (R191). -/
def Ctx.fetchPool (c : Ctx) (k : Nat) (ok : Split → Bool) : Option Ctx :=
  (c.pool.reverse.find? ok).map (fun e => ({ c.setSplit k e with pool := (c.pool.reverse.erase e).reverse } : Ctx).absorb k)

/-- Slots absorb the entries of their PC, and slots without lanes take the entry pushed most recently (R191). -/
def Ctx.promote (c : Ctx) : Ctx :=
  (List.range 4).foldl (fun c k => if (c.split k).mask != 0 then c else (c.fetchPool k (fun _ => true)).getD c)
    ((List.range 4).foldl (fun c k => if (c.split k).mask != 0 && !c.pool.isEmpty then c.absorb k else c) c)

/-- Two slots of equal PC merge into the lower-numbered (R192). -/
def Ctx.mergeOne (c : Ctx) (i j : Nat) : Ctx :=
  let x := c.split i
  let y := c.split j
  if x.joins y then (c.setSplit i (x.take y)).setSplit j {} else c

/-- All merges of an issue cycle. -/
def Ctx.merge (c : Ctx) : Ctx :=
  [(0, 1), (0, 2), (0, 3), (1, 2), (1, 3), (2, 3)].foldl (fun c p => c.mergeOne p.1 p.2) c

/-- Merges and promotions, for a group. -/
def Ctx.tidy (c : Ctx) : Ctx := c.merge.promote

/-- Places further outcomes: into a free slot, the lowest of several, else the pool (R190; log entry 42). -/
def Ctx.placeSplit (c : Ctx) (x : Split) : Ctx :=
  match (List.range 4).find? (fun k => (c.split k).mask == 0) with
  | some k => c.setSplit k x
  | none => { c with pool := c.pool ++ [x] }

/-- An ordered list of outcomes replaces the split in slot k (R190); each keeps %lc, J and mode of the split. -/
def Ctx.outcomes (c : Ctx) (k : Nat) (os : List (W64 × Nat)) : Ctx :=
  let sp := c.split k
  match os.filter (fun o => o.2 != 0) with
  | [] => c.setSplit k {}
  | o :: r =>
    r.foldl (fun c o => c.placeSplit { sp with pc := o.1, mask := o.2, wait := .none, blk := none, also := [], yld := [] })
      (c.setSplit k { sp with pc := o.1, mask := o.2 })

/-- Whether an entry of the pool can issue (R191). -/
def Split.ready (x : Split) : Bool := x.wait == .none && !x.halted

/-- A split that waits at a barrier or JOIN while the pool holds a ready entry gives up its slot to the most recent one (R191). -/
def Ctx.yieldSlot (c : Ctx) (k : Nat) : Ctx :=
  match c.fetchPool k Split.ready with
  | some x => { x with pool := x.pool ++ [c.split k] }
  | none => c

/-! Retirement. -/

/-- The PC moves to the next instruction. -/
def State.advance (s : State) : State := s.updSp (fun x => { x with pc := s.cur.npc })

/-- The warnings that an engine program has set in its own context go to its group (09 R285, R296; 12 R375). -/
def State.shareWarn (s : State) : State :=
  let a := s.cur.act
  let w := (s.ctx a).warn
  (s.updCtx a (fun c => { c with warn := 0 })).updCtx (s.marker a) (fun c => c.warns w)

/-- The end of an executed instruction: windows of its lanes shrink, held results that are ripe are written, slots merge,
YIELD marks of other splits drop this slot (06 R192; 09 R283; 11 R346). -/
def State.finish (s : State) (mask : Nat) : State :=
  let k := s.cur.act.slot
  (if s.cur.act.isSeq && !s.me.pend.isEmpty then s.shareWarn else s).upd (fun c =>
    let c := (c.tickWin mask true).settle
    let c := { c with splits := c.splits.map (fun e => if e.1 = k then e else (e.1, { e.2 with yld := e.2.yld.filter (· != k) })) }
    match s.cur.act with
    | .split _ _ _ => c.tidy
    | _ => c)

/-- Retires a straight-line instruction. -/
def State.retire (s : State) (mask : Nat) : State := (s.advance).finish mask

/-! Power tokens (07 R230). -/

/-- A grant that is not used is given back (log entry 58). -/
def State.giveBack (s : State) (a : Actor) : State :=
  let c := s.ctx a
  let d := s.die (s.dieOf a)
  (s.setDie (s.dieOf a) { d with used := d.used - c.tokN }).updCtx a (fun c => { c with tok := .none, tokN := 0 })

/-- The split that holds a grant goes another way than to its matrix instruction: the grant goes back, and it has not arrived at an MMA.PK
(07 R230; 12 R372). -/
def State.leaveTokens (s : State) (a : Actor) : State :=
  let c := s.ctx a
  if c.tok == .granted && (c.tokSlot == a.slot || a.isSeq) then
    (s.giveBack a).updWg (s.coreOf a) c.wslot (fun w => { w with pk := w.pk.filter (fun e => e.cur.act.base != a.base) })
  else s

/-! Legality (09 R294; 11 R332; 12 R375). -/

/-- What is left of a context that has ended: whose it was, for what it has outstanding. -/
def Ctx.ended (c : Ctx) : Ctx := { core := c.core, wslot := c.wslot, gid := c.gid, asid := c.asid, queue := c.queue, hid := c.hid }

/-- Ends an engine program (12 R375). -/
def State.endSeq (s : State) : State :=
  let a := s.cur.act
  let w := (s.ctx a).wslot
  match a with
  | .mseq c => (s.updCtx a Ctx.ended).updWg c w (fun g => { g with mrun := false })
  | .cseq c => (s.updCtx a Ctx.ended).updWg c w (fun g => { g with crun := false })
  | _ => s

/-- The fate of an encoding that is not an instruction where it executes (09 R294): a record and a sink, the fault register
of a control core, or the end of an engine program. -/
def State.unassigned (s : State) (detail : Nat) : State :=
  let f : Flt := ⟨cIllegalEnc, detail⟩
  if s.cur.act.isSeq then (s.faultAll f).endSeq
  else (s.faultAll f).retire s.mask

/-- A lane-set instruction: executes in a split or on a Retriever thread, is unassigned elsewhere (R332). -/
def State.laneSet (s : State) (k : State → State) : Out :=
  if s.cur.act.lanes then .next ((k s).retire s.mask) else .next (s.unassigned s.cur.word)

/-- An ejected lane that meets an instruction of R201 is recalled before it. -/
def State.recallMe (s : State) : State := s.upd (fun c => { c with timedOut := true })

/-- Whether the registers an instruction names exist for an engine sequencer (12 R375). -/
def seqRegs (rs : List Nat) : Bool := rs.all (· < 16)

/-- Where a class of uniform instructions may execute (R332). -/
structure Legal where
  ctl : Bool := true
  seq : Bool := true
  thread : Bool := true
  sup : Bool := true
  user : Bool := true

/-- Scalar arithmetic and the other classes of the first row of R332. -/
def Legal.all : Legal := {}

/-- The first row without the engine sequencers. -/
def Legal.noSeq : Legal := { seq := false }

/-- Branches and region instructions of groups and ejected lanes. -/
def Legal.lane : Legal := { ctl := false, seq := false }

/-- Instructions that recall an ejected lane and are illegal on a control core. -/
def Legal.home : Legal := { ctl := false, seq := false, thread := false }

/-- The same, not performed in supervisor mode. -/
def Legal.homeUser : Legal := { ctl := false, seq := false, thread := false, sup := false }

/-- Whether the executing context is in supervisor mode; a control core counts for privileged instructions (R332). -/
def State.priv (s : State) : Bool := s.cur.act.isCtl || s.sp.sup

/-- A uniform instruction under its class: `k` is the whole effect, retirement included. -/
def State.uni (s : State) (lg : Legal) (regs : List Nat) (k : State → State) : Out :=
  let a := s.cur.act
  if a.isCtl then (if lg.ctl then .next (k s) else .next (s.unassigned s.cur.word))
  else if a.isSeq then (if lg.seq && seqRegs regs then .next (k s) else .next (s.unassigned s.cur.word))
  else if a.isThread && !lg.thread then .next s.recallMe
  else if s.sp.sup && !lg.sup then .next ((s.faultAll ⟨cInvalidOp, s.cur.word⟩).retire s.mask)
  else .next (k s)

/-- A uniform instruction that retires in stream order. -/
def State.uni1 (s : State) (lg : Legal) (regs : List Nat) (k : State → State) : Out :=
  s.uni lg regs (fun s => (k s).retire s.mask)

/-- A control-only instruction (07 R209; R332). -/
def State.ctlOnly (s : State) (k : State → State) : Out :=
  if s.cur.act.isCtl then .next (k s) else .next (s.unassigned s.cur.word)

/-- A privileged instruction: elsewhere its status register receives PROT poison (R332). -/
def State.privileged (s : State) (d : Nat) (k : State → State) : Out :=
  s.uni Legal.noSeq [] (fun s =>
    if s.priv then k s
    else
      let (s1, pl) := s.fault1 ⟨cProt, s.cur.word⟩
      (s1.upd (fun c => c.ws d (.bad pl))).retire s.mask)

/-- A uniform sink of register operands (R331): the first poisoned operand marks every active lane and nothing is
performed. -/
def State.sinkOps (s : State) (ops : List (Option Payload)) (k : State → State) : State :=
  match firstBad ops with
  | some p => (s.sinkAll p).retire s.mask
  | none => k s

/-- The guard of a GR instruction (R330; 09 R278). -/
def State.guarded (s : State) (g : Nat) (k : State → State) : State :=
  if g = 0 then k s
  else match s.me.rq (if g = 2 then 2 else 1) with
    | .bad p => s.sinkAll p
    | .ok b => if (if g = 3 then !b else b) then k s else s

/-- Sets warnings of an actor: those of an engine program are its group's (09 R296). -/
def State.warnOf (s : State) (a : Actor) (w : W32) : State := s.updCtx (s.marker a) (fun c => c.warns w)

/-- Sets warnings of the executing context. -/
def State.warns (s : State) (w : W32) : State := s.warnOf s.cur.act w

/-- A reserved sharing class that the accesses of an actor met sets its warning (01 R31). -/
def State.noteShc (s : State) (a : Actor) : State :=
  if s.mem.shc then ({ s with mem := { s.mem with shc := false } }).warnOf a (flag wShcRsvd) else s

/-- MOD_IGN when a field that must be 0 is not (09 R295). -/
def ignW (b : Bool) : W32 := flagIf b wModIgn

/-! Supervisor mode: entry and return. -/

/-- The executing split enters supervisor mode at a vector, with the address to return to recorded (11 R355); a fault-service
entry records none (04 R141). -/
def State.enterSup (s : State) (k : Nat) (a : Actor) (vec : W64) (ret : Option W64) : State :=
  s.updCtx a (fun c => c.setSplit k { c.split k with pc := evenPc vec, sup := true, ret := ret })

/-- The split leaves supervisor mode and continues at an address. -/
def State.leaveSup (s : State) (k : Nat) (a : Actor) (pc : W64) : State :=
  s.updCtx a (fun c => c.setSplit k { c.split k with pc := pc, sup := false, ret := none })

end Sys2Proof.Machine
end

