-- ==== Sys2Proof/Machine/LaneOps.lean ====
section
/-! DEFINITION. The shared shapes of lane instructions (10 R297, R298): what each active lane computes from its own
registers, poison of operands (05 R157), flags and FP_INVALID (08 R250), and the special registers (09 R274). -/

namespace Sys2Proof.Machine

/-- What one lane's execution gives: register and predicate writes, a new %dr, %fpx flags, warnings, and whether an
invalid operation makes the results FP_INVALID poison under INVP. -/
structure LRes where
  vs : List (Nat × Val W32) := []
  ps : List (Nat × Val Bool) := []
  dr : Option (Val W32) := none
  fl : Nat := 0
  wn : W32 := 0
  inv : Bool := false
  deriving DecidableEq, Repr

/-- The results of a lane with a poisoned operand: poison everywhere, no flags. -/
def LRes.poison (r : LRes) (p : Payload) : LRes :=
  { vs := r.vs.map (fun e => (e.1, .bad p)), ps := r.ps.map (fun e => (e.1, .bad p)), dr := r.dr.map (fun _ => .bad p) }

/-- Writes a lane's results. -/
def Ctx.apply (c : Ctx) (l : Nat) (r : LRes) : Ctx :=
  let c := r.vs.foldl (fun c e => c.wv l e.1 e.2) c
  let c := r.ps.foldl (fun c e => c.wp l e.1 e.2) c
  let c := match r.dr with | some v => c.wdr l v | none => c
  (c.fpflags (fpBits r.fl)).warns r.wn

/-- Executes a lane function in the active lanes in ascending order: all lanes read before any writes. Invalid lanes under
INVP share one FP_INVALID record (08 R250; 05 R151). -/
def State.eachLane (s : State) (f : Nat → Lane → LRes) : State :=
  let rs := s.active.map (fun l => (l, f l (s.me.ln l)))
  let bads := if s.me.invp then rs.filter (fun r => r.2.inv) else []
  let (s1, t) := if bads.isEmpty then (s, []) else
    s.alloc s.cur.act s.cur.pc (bads.map (fun r => { lane := r.1, flt := ⟨cFpInvalid, s.cur.word⟩ }))
  s1.upd (fun c => rs.foldl (fun c r =>
    match Tbl.find t r.1 with
    | some p => c.apply r.1 { r.2.poison p with fl := r.2.fl, wn := r.2.wn }
    | none => c.apply r.1 r.2) c)

/-- The warning of an ejected lane that reads a register outside HSET which its thread has not written (06 R196; log entry
15). -/
def State.unmapped (s : State) (reads : List Nat) : W32 :=
  flagIf (s.cur.act.isThread && s.active.any (fun l => reads.any (fun r => (Tbl.find (s.me.ln l).v (r % 128)).isNone))) wEjectUnmapped

/-- A lane instruction: registers read, warnings, the lane function. -/
def State.laneOp (s : State) (reads : List Nat) (wn : W32) (f : Nat → Lane → LRes) : Out :=
  s.laneSet (fun s => (s.warns (wn ||| s.unmapped reads)).eachLane f)

/-- d := g a b. -/
def lr2 (d a b : Nat) (g : W32 → W32 → W32) (x : Lane) : LRes :=
  match firstBad [(x.rd a).pl?, (x.rd b).pl?] with
  | some p => { vs := [(d, .bad p)] }
  | none => { vs := [(d, .ok (g ((x.rd a).getD 0) ((x.rd b).getD 0)))] }

/-- d := g d a b; poison in the order a, b, d. -/
def lr3 (d a b : Nat) (g : W32 → W32 → W32 → W32) (x : Lane) : LRes :=
  match firstBad [(x.rd a).pl?, (x.rd b).pl?, (x.rd d).pl?] with
  | some p => { vs := [(d, .bad p)] }
  | none => { vs := [(d, .ok (g ((x.rd d).getD 0) ((x.rd a).getD 0) ((x.rd b).getD 0)))] }

/-- d := g a. -/
def lr1 (d a : Nat) (g : W32 → W32) (x : Lane) : LRes :=
  match (x.rd a).pl? with
  | some p => { vs := [(d, .bad p)] }
  | none => { vs := [(d, .ok (g ((x.rd a).getD 0)))] }

/-- p[d] := g a b, and with `and` also p[d] (10 R303). -/
def lrSet (d a b : Nat) (an : Bool) (g : W32 → W32 → Bool) (x : Lane) : LRes :=
  match firstBad [(x.rd a).pl?, (x.rd b).pl?, if an then (x.pr d).pl? else none] with
  | some p => { ps := [(d, .bad p)] }
  | none => { ps := [(d, .ok (g ((x.rd a).getD 0) ((x.rd b).getD 0) && (!an || x.pTrue d)))] }

def State.vr2 (s : State) (d a b : Nat) (wn : W32) (g : W32 → W32 → W32) : Out := s.laneOp [a, b] wn (fun _ => lr2 d a b g)
def State.vr3 (s : State) (d a b : Nat) (wn : W32) (g : W32 → W32 → W32 → W32) : Out :=
  s.laneOp [a, b, d] wn (fun _ => lr3 d a b g)
def State.vr1 (s : State) (d a : Nat) (wn : W32) (g : W32 → W32) : Out := s.laneOp [a] wn (fun _ => lr1 d a g)

/-! Special registers (09 R274). -/

/-- The home group slot of a lane context. -/
def State.homeSlot (s : State) (a : Actor) : Nat :=
  match a with
  | .split _ g _ => g
  | _ => (s.ctx a).home

/-- The lane view of %rgn (05 R166). -/
def Rgn.view (r : Rgn) : Nat :=
  b2n r.opn * 2 ^ 31 + b2n (r.opn && r.kind) * 2 ^ 30 + b2n (r.opn && r.p) * 2 ^ 29 + b2n (r.opn && r.nsv) * 2 ^ 28 + b2n r.orph * 2 ^ 27
    + b2n r.recv * 2 ^ 26 + r.rpl % 16 * 2 ^ 22 + r.recp.toNat

/-- QUSE of a group: the entries it holds (05 R166). -/
def Core.quseAll (c : Core) (slot : Nat) : Nat := (c.quar.filter (fun e => e.slot == slot)).length

/-- The group view of %rgn (05 R166). -/
def State.rgnView (s : State) : Nat :=
  let a := s.cur.act
  let c := s.ctx (s.homeActor a)
  let quse := (s.core (s.coreOf a)).quseAll (s.homeSlot a)
  let pm := maskOf ((List.range 32).filter (fun l => let r := s.rgnAt (s.homeActor a) l; (r.opn && r.p) || r.orph))
  c.seq % 65536 * 2 ^ 48 + quse % 1024 * 2 ^ 38 + c.kexp % 8 * 2 ^ 35 + b2n c.ovf * 2 ^ 34 + pm

/-- The value of a special register for a lane (09 R274; 06 R180, R181); a reserved number reads 0. -/
def State.special (s : State) (l n : Nat) : Val W64 :=
  let a := s.cur.act
  let c := s.me
  let g := s.wgOf a
  let has := !a.isCtl
  let nn := 2 ^ (s.desc a).nlog
  let num (x : Nat) : Val W64 := .ok (BitVec.ofNat 64 x)
  match n with
  | 0 => num (if a.lanes then l else 0)
  | 1 => num (if a.lanes then l / 8 else 0)
  | 2 => num c.gid
  | 3 => num (if has then g.w else 0)
  | 4 => num (if has then g.w / nn else 0)
  | 5 => num (if has then g.member else 0)
  | 6 => num (s.dieOf a)
  | 7 => if has then .ok g.teams else num 0
  | 8 => .ok (s.die (s.dieOf a)).cycles
  | 9 => if a.lanes then (match (c.ln l).dr with | .ok w => .ok (w.setWidth 64) | .bad p => .bad p) else num 0
  | 10 => .ok (s.sp.lc.setWidth 64)
  | 11 => .ok (c.warn.setWidth 64)
  | 12 => num (s.rgnView)
  | 13 => .ok (c.fpx.setWidth 64)
  | 14 => .ok (c.fpm.setWidth 64)
  | _ => num 0

end Sys2Proof.Machine
end

