-- ==== Sys2Proof/Machine/LaneFp.lean ====
section
/-! DEFINITION. The floating-point, packed BF16 and conversion instructions of the lane set (10 R310 to R319; 08). -/

namespace Sys2Proof.Machine

/-- A result word with flags; NV makes it invalid (08 R250). -/
def LRes.fp (d : Nat) (w : W32) (fl : Nat) : LRes := { vs := [(d, .ok w)], fl := fl, inv := bit fl 4 }

/-- A 64-bit result into a pair. -/
def LRes.fp64 (d : Nat) (x fl : Nat) : LRes :=
  { vs := [(d, .ok (BitVec.ofNat 32 x)), (d + 1, .ok (BitVec.ofNat 32 (x / 2 ^ 32)))], fl := fl, inv := bit fl 4 }

/-- Poison into the registers of a destination. -/
def LRes.bad (ds : List Nat) (p : Payload) : LRes := { vs := ds.map (fun d => (d, .bad p)) }

/-- An FP32 value of a word. -/
def f32v (w : W32) : FV := Fmt.f32.dec w.toNat

/-! FP32 (R310, R311). -/

/-- Two operands and a rounding into d. -/
def State.fop2 (s : State) (d a b : Nat) (wn : W32) (g : W32 → W32 → FR) : Out :=
  s.laneOp [a, b] wn (fun _ x =>
    match firstBad [(x.rd a).pl?, (x.rd b).pl?] with
    | some p => .bad [d] p
    | none => let r := g ((x.rd a).getD 0) ((x.rd b).getD 0); .fp d (BitVec.ofNat 32 r.code) r.fl)

def fFadd (m : Nat) (a b : W32) : FR := Fmt.f32.add m (f32v a) (f32v b)
def fFsub (m : Nat) (a b : W32) : FR := Fmt.f32.add m (f32v a) (f32v b).neg
def fFmul (m : Nat) (a b : W32) : FR := Fmt.f32.mul m (f32v a) (f32v b)
def fFfma (m : Nat) (d a b : W32) : FR := Fmt.f32.fma m (f32v a) (f32v b) (f32v d)

def execFadd (d a b m : Nat) (s : State) : Out := s.fop2 d a b 0 (fFadd m)
def execFsub (d a b m : Nat) (s : State) : Out := s.fop2 d a b 0 (fFsub m)
def execFmul (d a b m : Nat) (s : State) : Out := s.fop2 d a b 0 (fFmul m)
def execFfma (d a b m : Nat) (s : State) : Out :=
  s.laneOp [a, b, d] 0 (fun _ x =>
    match firstBad [(x.rd a).pl?, (x.rd b).pl?, (x.rd d).pl?] with
    | some p => .bad [d] p
    | none => let r := fFfma m ((x.rd d).getD 0) ((x.rd a).getD 0) ((x.rd b).getD 0); .fp d (BitVec.ofNat 32 r.code) r.fl)
def execFmin (d a b m : Nat) (s : State) : Out := s.fop2 d a b (ignW (m != 0)) (fun x y => (Fmt.f32.minmax false x.toNat y.toNat).1)
def execFmax (d a b m : Nat) (s : State) : Out := s.fop2 d a b (ignW (m != 0)) (fun x y => (Fmt.f32.minmax true x.toNat y.toNat).1)

/-- FSET with a condition. -/
def State.fset (s : State) (c d a b m : Nat) : Out :=
  s.laneOp [a, b] (ignW (8 ≤ d || bit m 0)) (fun _ x =>
    match firstBad [(x.rd a).pl?, (x.rd b).pl?, if bit m 1 then (x.pr d).pl? else none] with
    | some p => { ps := [(d % 8, .bad p)] }
    | none =>
      let r := Fmt.f32.cmp c ((x.rd a).getD 0).toNat ((x.rd b).getD 0).toNat
      { ps := [(d % 8, .ok (r.1 && (!bit m 1 || x.pTrue d)))], fl := r.2, inv := bit r.2 4 })

def execFsetLt (d a b m : Nat) (s : State) : Out := s.fset 0 d a b m
def execFsetLe (d a b m : Nat) (s : State) : Out := s.fset 1 d a b m
def execFsetEq (d a b m : Nat) (s : State) : Out := s.fset 2 d a b m
def execFsetNe (d a b m : Nat) (s : State) : Out := s.fset 3 d a b m

/-! Functions of one operand (R312, R313). -/

def State.fop1 (s : State) (d a : Nat) (wn : W32) (g : W32 → FR) : Out :=
  s.laneOp [a] wn (fun _ x =>
    match (x.rd a).pl? with
    | some p => .bad [d] p
    | none => let r := g ((x.rd a).getD 0); .fp d (BitVec.ofNat 32 r.code) r.fl)

def execFrcp (d a b m : Nat) (s : State) : Out := s.fop1 d a (ignW (m != 0 || b != 0)) (approx 0)
def execFrsq (d a b m : Nat) (s : State) : Out := s.fop1 d a (ignW (m != 0 || b != 0)) (approx 1)
def execFsqrt (d a b m : Nat) (s : State) : Out := s.fop1 d a (ignW (b != 0)) (fun x => Fmt.f32.sqrt m x.toNat)
def execFexp2 (d a b m : Nat) (s : State) : Out := s.fop1 d a (ignW (m != 0 || b != 0)) (approx 2)
def execFlog2 (d a b m : Nat) (s : State) : Out := s.fop1 d a (ignW (m != 0 || b != 0)) (approx 3)
def execFsin (d a b m : Nat) (s : State) : Out := s.fop1 d a (ignW (m != 0 || b != 0)) (approx 4)
def execFcos (d a b m : Nat) (s : State) : Out := s.fop1 d a (ignW (m != 0 || b != 0)) (approx 5)
def execFtanh (d a b m : Nat) (s : State) : Out := s.fop1 d a (ignW (m != 0 || b != 0)) (approx 6)
def execFclass (d a b m : Nat) (s : State) : Out :=
  s.fop1 d a (ignW (m != 0 || b != 0)) (fun x => ⟨Fmt.f32.cls x.toNat, 0⟩)

/-! FP64 (R314). -/

/-- The REG_ALIGN warning of operands that span k registers. -/
def alignW (k : Nat) (rs : List Nat) : W32 := flagIf (rs.any (fun r => r % k != 0)) wRegAlign

def State.dop2 (s : State) (d a b : Nat) (wn : W32) (g : Nat → Nat → FR) : Out :=
  let d' := alignReg 2 d
  let a' := alignReg 2 a
  let b' := alignReg 2 b
  s.laneOp [a', a' + 1, b', b' + 1] (wn ||| alignW 2 [d, a, b]) (fun _ x =>
    match firstBad [(x.rd2 a').pl?, (x.rd2 b').pl?] with
    | some p => .bad [d', d' + 1] p
    | none => let r := g ((x.rd2 a').getD 0).toNat ((x.rd2 b').getD 0).toNat; .fp64 d' r.code r.fl)

def f64v (x : Nat) : FV := Fmt.f64.dec x

def execDadd (d a b m : Nat) (s : State) : Out := s.dop2 d a b 0 (fun x y => Fmt.f64.add m (f64v x) (f64v y))
def execDmul (d a b m : Nat) (s : State) : Out := s.dop2 d a b 0 (fun x y => Fmt.f64.mul m (f64v x) (f64v y))
def execDfma (d a b m : Nat) (s : State) : Out :=
  let d' := alignReg 2 d
  let a' := alignReg 2 a
  let b' := alignReg 2 b
  s.laneOp [a', a' + 1, b', b' + 1, d', d' + 1] (alignW 2 [d, a, b]) (fun _ x =>
    match firstBad [(x.rd2 a').pl?, (x.rd2 b').pl?, (x.rd2 d').pl?] with
    | some p => .bad [d', d' + 1] p
    | none =>
      let v (r : Nat) : FV := f64v ((x.rd2 r).getD 0).toNat
      let r := Fmt.f64.fma m (v a') (v b') (v d')
      .fp64 d' r.code r.fl)
def execDmin (d a b m : Nat) (s : State) : Out := s.dop2 d a b (ignW (bit m 1)) (fun x y => (Fmt.f64.minmax false x y).1)
def execDmax (d a b m : Nat) (s : State) : Out := s.dop2 d a b (ignW (bit m 1)) (fun x y => (Fmt.f64.minmax true x y).1)

/-- DSET; d names a predicate. -/
def execDset (d a b m : Nat) (s : State) : Out :=
  let a' := alignReg 2 a
  let b' := alignReg 2 b
  s.laneOp [a', a' + 1, b', b' + 1] (alignW 2 [a, b] ||| ignW (8 ≤ d)) (fun _ x =>
    match firstBad [(x.rd2 a').pl?, (x.rd2 b').pl?] with
    | some p => { ps := [(d % 8, .bad p)] }
    | none =>
      let r := Fmt.f64.cmp m ((x.rd2 a').getD 0).toNat ((x.rd2 b').getD 0).toNat
      { ps := [(d % 8, .ok r.1)], fl := r.2, inv := bit r.2 4 })

/-! Packed BF16 and the decision register (R315, R316). -/

/-- Half h of a word. -/
def halfOf (h : Bool) (w : W32) : Nat := if h then w.toNat / 65536 else w.toNat % 65536

/-- Both halves of a packed operation with their flags ORed. -/
def pack2 (g : Bool → FR) : FR := ⟨(g true).code * 65536 + (g false).code, (g true).fl ||| (g false).fl⟩

def bfv (x : Nat) : FV := Fmt.bf16.dec x

def fHadd2 (m : Nat) (a b : W32) : FR := pack2 (fun h => Fmt.bf16.add m (bfv (halfOf h a)) (bfv (halfOf h b)))
def fHsub2 (m : Nat) (a b : W32) : FR := pack2 (fun h => Fmt.bf16.add m (bfv (halfOf h a)) (bfv (halfOf h b)).neg)
def fHmul2 (m : Nat) (a b : W32) : FR := pack2 (fun h => Fmt.bf16.mul m (bfv (halfOf h a)) (bfv (halfOf h b)))
def fHfma2 (m : Nat) (d a b : W32) : FR :=
  pack2 (fun h => Fmt.bf16.fma m (bfv (halfOf h a)) (bfv (halfOf h b)) (bfv (halfOf h d)))
def fHmax2 (a b : W32) : FR := pack2 (fun h => (Fmt.bf16.minmax true (halfOf h a) (halfOf h b)).1)

def execHadd2 (d a b m : Nat) (s : State) : Out := s.fop2 d a b 0 (fHadd2 m)
def execHsub2 (d a b m : Nat) (s : State) : Out := s.fop2 d a b 0 (fHsub2 m)
def execHmul2 (d a b m : Nat) (s : State) : Out := s.fop2 d a b 0 (fHmul2 m)
def execHfma2 (d a b m : Nat) (s : State) : Out :=
  s.laneOp [a, b, d] 0 (fun _ x =>
    match firstBad [(x.rd a).pl?, (x.rd b).pl?, (x.rd d).pl?] with
    | some p => .bad [d] p
    | none => let r := fHfma2 m ((x.rd d).getD 0) ((x.rd a).getD 0) ((x.rd b).getD 0); .fp d (BitVec.ofNat 32 r.code) r.fl)
def execHmax2 (d a b m : Nat) (s : State) : Out := s.fop2 d a b (ignW (m != 0)) fHmax2

/-- The decision bits of MAXD2: 2 · high + low (R316). -/
def fDec2 (a b : W32) : Nat :=
  2 * b2n (Fmt.bf16.minmax true (halfOf true a) (halfOf true b)).2 + b2n (Fmt.bf16.minmax true (halfOf false a) (halfOf false b)).2

def execMaxd2 (d a b m : Nat) (s : State) : Out :=
  s.laneOp [a, b] (ignW (m != 0)) (fun _ x =>
    match firstBad [(x.rd a).pl?, (x.rd b).pl?] with
    | some p => { vs := [(d, .bad p)], dr := some (.bad p) }
    | none =>
      let va := (x.rd a).getD 0
      let vb := (x.rd b).getD 0
      let r := fHmax2 va vb
      { vs := [(d, .ok (BitVec.ofNat 32 r.code))]
        dr := some (match x.dr with | .bad p => .bad p | .ok w => .ok (w * 4 + BitVec.ofNat 32 (fDec2 va vb)))
        fl := r.fl
        inv := bit r.fl 4 })

/-! Conversions (R317 to R319). -/

/-- The value of a `.e8m0` code (08 R254). -/
def e8val (c : Nat) : FV := if c = 255 then .nan false false else .fin false 1 ((c : Int) - 127)

/-- The floating-point format of a type number of R317, if it is one. -/
def cvtFmt (t : Nat) : Option Fmt :=
  match t with
  | 0 => some .f32 | 1 => some .f64 | 2 => some .f16 | 3 => some .bf16
  | 8 => some .e4m3 | 9 => some .e5m2 | 10 => some .e3m2 | 11 => some .e2m3 | 12 => some .e2m1
  | _ => none

/-- The source value: a floating-point value or an exact integer (R317). -/
def cvtSrc (t x : Nat) : FV × Option Int :=
  match t with
  | 0 => (Fmt.f32.dec (x % 2 ^ 32), none)
  | 1 => (Fmt.f64.dec x, none)
  | 2 => (Fmt.f16.dec (x % 65536), none)
  | 3 => (Fmt.bf16.dec (x % 65536), none)
  | _ =>
    let i : Int := match t with | 4 => toS 32 (x % 2 ^ 32) | 5 => ((x % 2 ^ 32 : Nat) : Int) | 6 => toS 64 x | _ => (x : Int)
    (.fin (i < 0) i.natAbs 0, some i)

/-- Bounds of an integer target (R317). -/
def cvtRange (t : Nat) : Int × Int :=
  match t with
  | 4 => (-(2 ^ 31), 2 ^ 31 - 1) | 5 => (0, 2 ^ 32 - 1) | 6 => (-(2 ^ 63), 2 ^ 63 - 1) | 7 => (0, 2 ^ 64 - 1)
  | _ => (-(2 ^ 15), 2 ^ 15 - 1)

/-- The conversion of a source to a target: the bits to write and the flags (R318; 08 R258). A signalling NaN to .e8m0 sets no flag, as the row
of R258 says (log entry 69). -/
def fCvt (rm t : Nat) (src : FV × Option Int) : FR :=
  match cvtFmt t with
  | some F => F.cvt rm src.1
  | none =>
    if t = 13 then ⟨cvtE8 src.1, 0⟩
    else if t = 15 then
      match src.2 with
      | some i => ⟨t2code (max (-1) (min 1 i)), 0⟩
      | none => let r := cvtT2 rm src.1; ⟨t2code r.1, r.2⟩
    else
      let (lo, hi) := cvtRange t
      let w := if t = 6 || t = 7 then 64 else 32
      match src.2 with
      | some i => ⟨lowBits w (max lo (min hi i)), 0⟩
      | none => let r := cvtInt lo hi rm src.1; ⟨lowBits w r.1, r.2⟩

/-- 64-bit type numbers. -/
def is64 (t : Nat) : Bool := t == 1 || t == 6 || t == 7

/-- CVT; a reserved code executes as MOV of a (R317; 09 R296). -/
def execCvt (d a b m : Nat) (s : State) : Out :=
  let src := b / 16
  let t := b % 16
  if src = t then s.laneOp [a] (flag wCvtRsvd) (fun _ x => { vs := [(d, x.rd a)] })
  else
    let a' := if is64 src then alignReg 2 a else a
    let d' := if is64 t then alignReg 2 d else d
    s.laneOp (if is64 src then [a', a' + 1] else [a']) (flagIf (a' != a || d' != d) wRegAlign) (fun _ x =>
      let v : Val W64 := if is64 src then x.rd2 a' else (match x.rd a' with | .ok w => .ok (w.setWidth 64) | .bad p => .bad p)
      match v with
      | .bad p => .bad (if is64 t then [d', d' + 1] else [d']) p
      | .ok w =>
        let r := fCvt m t (cvtSrc src w.toNat)
        if is64 t then .fp64 d' r.code r.fl else .fp d' (BitVec.ofNat 32 r.code) r.fl)

/-! CVTX (R319). -/

/-- Element width of a format code (08 R261). -/
def fmtW (f : Nat) : Nat :=
  match f with
  | 3 => 16 | 4 => 16 | 5 => 32 | 6 => 32 | 7 => 64 | 8 => 64 | 9 => 64 | 10 => 32 | 11 => 16 | 12 => 16
  | 15 => 6 | 16 => 6 | 17 => 4 | 19 => 2 | _ => 8

/-- The floating-point format of a format code (08 R261). -/
def fmtF (f : Nat) : Option Fmt :=
  match f with
  | 9 => some .f64 | 10 => some .f32 | 11 => some .f16 | 12 => some .bf16 | 13 => some .e4m3 | 14 => some .e5m2
  | 15 => some .e3m2 | 16 => some .e2m3 | 17 => some .e2m1 | _ => none

/-- Formats of PACK and UNPACK: 0x01, 0x02, 0x0B to 0x13. -/
def packFmt (f : Nat) : Bool := f == 1 || f == 2 || (11 ≤ f && f ≤ 19)

/-- Registers that PACK reads and UNPACK writes. -/
def packK (f : Nat) : Nat := if f == 11 || f == 12 then 2 else 4

/-- One element packed from a word (R319; 08 R258). -/
def packEl (f rm : Nat) (w : W32) : FR :=
  match fmtF f with
  | some F => F.cvt rm (f32v w)
  | none =>
    match f with
    | 1 => ⟨lowBits 8 (max (-128) (min 127 w.toInt)), 0⟩
    | 2 => ⟨lowBits 8 (max 0 (min 255 w.toInt)), 0⟩
    | 18 => ⟨cvtE8 (f32v w), 0⟩
    | _ => ⟨t2code (max (-1) (min 1 w.toInt)), 0⟩

/-- An element as an FP32 or integer word, exactly, with flags and warnings (R319, R323). -/
def unpackEl (f c : Nat) : FR × W32 :=
  match fmtF f with
  | some F => (Fmt.f32.cvt 0 (F.dec c), 0)
  | none =>
    match f with
    | 1 => (⟨lowBits 32 (toS 8 c), 0⟩, 0)
    | 18 => (Fmt.f32.cvt 0 (e8val c), 0)
    | 19 => (⟨lowBits 32 (t2val c), 0⟩, flagIf (c == 2) wTernRsvd)
    | _ => (⟨c, 0⟩, 0)

/-- The reserved-subcode fallback: MOV of a, 32 bits (09 R296). -/
def State.cvtRsvd (s : State) (d a : Nat) : Out := s.laneOp [a] (flag wCvtRsvd) (fun _ x => { vs := [(d, x.rd a)] })

def execCvtxPack (d a b m : Nat) (s : State) : Out :=
  let f := b % 32
  if !packFmt f || m != 0 then s.cvtRsvd d a
  else
    let k := packK f
    let a' := alignReg k a
    s.laneOp ((List.range k).map (a' + ·)) (alignWarn k a) (fun _ x =>
      match (x.rdN a' k).1 with
      | some p => .bad [d] p
      | none =>
        let rs := (List.range k).map (fun i => packEl f (b / 32) ((x.rd (a' + i)).getD 0))
        let w := (rs.zip (List.range k)).foldl (fun n r => n + r.1.code % 2 ^ fmtW f * 2 ^ (r.2 * fmtW f)) 0
        .fp d (BitVec.ofNat 32 w) (rs.foldl (fun n r => n ||| r.fl) 0))

def execCvtxUnpack (d a b m : Nat) (s : State) : Out :=
  let f := b % 32
  if !packFmt f || m != 1 then s.cvtRsvd d a
  else
    let k := packK f
    let d' := alignReg k d
    s.laneOp [a] (alignWarn k d ||| ignW (32 ≤ b)) (fun _ x =>
      match x.rd a with
      | .bad p => .bad ((List.range k).map (d' + ·)) p
      | .ok w =>
        let rs := (List.range k).map (fun i => unpackEl f (fld w.toNat (i * fmtW f) (fmtW f)))
        let fl := rs.foldl (fun n r => n ||| r.1.fl) 0
        { vs := (rs.zip (List.range k)).map (fun r => (d' + r.2, .ok (BitVec.ofNat 32 r.1.1.code)))
          fl := fl &&& 16
          wn := rs.foldl (fun n r => n ||| r.2) 0
          inv := bit fl 4 })

def execCvtxDecode (d a b m : Nat) (s : State) : Out :=
  if b % 32 != 20 || m != 2 then s.cvtRsvd d a
  else s.laneOp [a] (ignW (32 ≤ b)) (fun _ x =>
    match x.rd a with
    | .bad p => .bad [d] p
    | .ok w => let r := t5dec (w.toNat % 256); { vs := [(d, .ok (BitVec.ofNat 32 r.1))], wn := flagIf r.2 wTernRsvd })

def execCvtxEncode (d a b m : Nat) (s : State) : Out :=
  if b % 32 != 20 || m != 3 then s.cvtRsvd d a
  else s.laneOp [a] (ignW (32 ≤ b)) (fun _ x =>
    match x.rd a with
    | .bad p => .bad [d] p
    | .ok w => let r := t5enc (w.toNat % 1024); { vs := [(d, .ok (BitVec.ofNat 32 r.1))], wn := flagIf r.2 wTernRsvd })

end Sys2Proof.Machine
end

