-- ==== Sys2Proof/Machine/Format.lean ====
section
/-! DEFINITION. Format decoding of pages (01 R29; 08 R255 to R257, R259 to R262; 10 R323): where an element of a page lies and
what its code means. Used by LDF and by copies that decode. -/

namespace Sys2Proof.Machine

/-- Formats that SPARSE32 geometry applies to (08 R259). -/
def sparseFmt (f : Nat) : Bool := f == 1 || f == 2 || f == 12 || (13 ≤ f && f ≤ 17) || f == 19

/-- The format and geometry that a page decodes under, with the warnings of reserved codes (01 R29; 08 R259, R262). -/
def decCfg (fmt geom : Nat) : Nat × Nat × W32 :=
  if 21 ≤ fmt then (0, 0, flag wFmtRsvd ||| flagIf (2 ≤ geom) wGeomRsvd)
  else if geom = 3 then (fmt, 0, flag wGeomRsvd)
  else if geom = 2 && !sparseFmt fmt then (fmt, 0, flag wGeomRsvd)
  else (fmt, geom, 0)

/-- Bytes of a block of 32 elements (01 R29; 08 R257, R259); n is the N of an N:32 block. -/
def blockBytes (fmt geom n : Nat) : Nat :=
  if geom = 2 then (n * fmtW fmt + 7) / 8 + 5 * n / 8
  else if fmt = 20 then 7 else 4 * fmtW fmt

/-- Elements of a page (10 R323). -/
def pageElems (fmt geom n : Nat) : Nat :=
  if geom = 0 then (if fmt = 20 then 327680 else 524288 / fmtW fmt)
  else 16 * (4096 / blockBytes fmt geom n) * 32

/-- The byte at which the block of an element begins (01 R29; 10 R323). -/
def blockAt (fmt geom n k : Nat) : Nat :=
  let per := 4096 / blockBytes fmt geom n
  k / (32 * per) * 4096 + k / 32 % per * blockBytes fmt geom n

/-- The bytes that decoding an element reads: the first, and how many. -/
def elemBytes (fmt geom n k : Nat) : Nat × Nat :=
  if geom = 2 then (blockAt fmt geom n k, blockBytes fmt geom n)
  else
    let (b, e) := if geom = 0 then (0, k) else (blockAt fmt geom n k, k % 32)
    if fmt = 20 then (b + e / 5, 1)
    else
      let w := fmtW fmt
      (b + e * w / 8, (e * w + w + 7) / 8 - e * w / 8)

/-- The slot that gives element x of a sparse block held in a number, and whether any slot is dropped (08 R260). -/
def sparseSlot (fmt n blk x : Nat) : Option Nat × Bool :=
  let base := (n * fmtW fmt + 7) / 8 * 8
  let ix (i : Nat) : Nat := fld blk (base + 5 * i) 5
  ((List.range n).find? (fun i => ix i == x), (List.range n).any (fun i => (List.range i).any (fun j => ix j == ix i)))

/-- The code of an element from the number its bytes form, and warnings: of a sparse block an element without a slot is code
0. A packed-ternary digit gives the `.t2` code. -/
def elemCode (fmt geom n k x : Nat) : Nat × W32 :=
  let w := fmtW fmt
  if geom = 2 then
    let (sl, dup) := sparseSlot fmt n x (k % 32)
    ((match sl with | some i => fld x (i * w) w | none => 0), flagIf dup wSparseDup)
  else
    let e := if geom = 0 then k else k % 32
    if fmt = 20 then (fld (t5dec (x % 256)).1 (2 * (e % 5)) 2, flagIf (t5dec (x % 256)).2 wTernRsvd)
    else (fld x (e * w % 8) w, 0)

/-- The words that LDF writes for a code: one word, or a pair of a 64-bit format (10 R323). -/
def elemWords (fmt c : Nat) : List (Val W64) × W32 :=
  match fmt with
  | 0 => (words32 1 c, 0)
  | 2 => (words32 1 c, 0)
  | 3 => (words32 1 (lowBits 32 (toS 16 c)), 0)
  | 4 => (words32 1 c, 0)
  | 5 => (words32 1 c, 0)
  | 6 => (words32 1 c, 0)
  | 7 => (words32 2 c, 0)
  | 8 => (words32 2 c, 0)
  | 9 => (words32 2 c, 0)
  | 10 => (words32 1 c, 0)
  | 20 => (words32 1 (unpackEl 19 c).1.code, 0)
  | f => (words32 1 (unpackEl f c).1.code, (unpackEl f c).2)

end Sys2Proof.Machine
end

