-- ==== Sys2Proof/Machine/OnChip.lean ====
section
/-! DEFINITION. The on-chip spaces (01 R33 to R40, R45; 05 R153 to R155): local addresses and views, reads and writes with
owner tags and poison. Spaces are numbered 0 scratchpad, 1 A-buffer, 2 C-buffer, 3 W-buffer. -/

namespace Sys2Proof.Machine

/-- Byte index of a space in a core's on-chip table. -/
def ocKey (sp b : Nat) : Nat := sp * 2 ^ 20 + b

def Mem.osecAt (m : Mem) (core sn : Nat) : OSec := Tbl.get {} (Tbl.get [] m.osec core) sn
def Mem.setOsec (m : Mem) (core sn : Nat) (o : OSec) : Mem := { m with osec := Tbl.upd [] m.osec core (fun t => Tbl.put t sn o) }

/-- The mask of the C-buffer elements of a sector that n bytes from k touch (05 R153). -/
def elemsOf (k n : Nat) : Nat := maskOf ((List.range 8).filter (fun e => e * 4 < k % 32 + n && k % 32 < e * 4 + 4))

/-- The mask of the elements that n bytes from k cover whole. -/
def elemsFull (k n : Nat) : Nat := maskOf ((List.range 8).filter (fun e => k % 32 ≤ e * 4 && e * 4 + 4 ≤ k % 32 + n))

/-- Whether n bytes from k meet poison. -/
def OSec.bad (o : OSec) (sp k n : Nat) : Bool := if sp = 2 then o.pois &&& elemsOf k n != 0 else o.pois != 0

/-- Reads n bytes within one sector under an owner slot: the number, and poison as cause and syndrome. Another owner's
sector reads as zero bytes (R45). A first detection leaves the sector poisoned (05 R154, R155). -/
def Mem.ocRead (m : Mem) (core sp b n slot : Nat) : Mem × Nat × Option (Nat × Nat) :=
  let k := ocKey sp b
  let o := m.osecAt core (k / 32)
  if o.tag != slot then (m, 0, none)
  else match o.ecc with
    | some syn => (m.setOsec core (k / 32) { o with ecc := none, pois := if sp = 2 then 255 else 1 }, 0, some (cEccUe, syn))
    | none => (m, tblNum (Tbl.get [] m.oc core) k n, if o.bad sp k n then some (cPoisonMem, 0) else none)

/-- Writes n bytes within one sector under an owner slot. A sector of another owner is retagged and zeroed where it is not
written (R45); an undetected error met by a partial write poisons the sector (05 R154). -/
def Mem.ocWrite (m : Mem) (core sp b n x slot : Nat) (poi : Bool) : Mem :=
  let k := ocKey sp b
  let sn := k / 32
  let o := m.osecAt core sn
  let t0 := Tbl.get [] m.oc core
  let fresh := o.tag != slot
  let t1 := if fresh then (List.range 32).foldl (fun t i => Tbl.set 0 t (32 * sn + i) 0) t0 else t0
  let old := if fresh then 0 else o.pois
  let pois :=
    if !fresh && o.ecc.isSome && n != 32 then (if sp = 2 then 255 else 1)
    else if sp = 2 then (if poi then old ||| elemsOf k n else without old (elemsFull k n))
    else if poi then 1 else if n = 32 then 0 else old
  ({ m with oc := Tbl.put m.oc core (tblPut t1 k n x) }).setOsec core sn ⟨slot, pois, none⟩

/-! Local addresses and views. -/

/-- The space that a VS space field names (09 R277): both scratchpad forms name the scratchpad. -/
def spaceOf (sc : Nat) : Nat := match sc with | 0 => 0 | 1 => 0 | 2 => 1 | _ => 2

/-- Core and workgroup slot of a member of the actor's pack (01 R34; 06 R182, R183). -/
def State.memberAt (s : State) (a : Actor) (mb : Nat) : Option (Nat × Nat) :=
  let g := s.wgOf a
  if mb = g.member then some (s.coreOf a, (s.ctx a).wslot)
  else ((s.core (g.base + mb)).wgs.find? (fun w => w.2.grid == g.grid && w.2.first == g.first && w.2.member == mb)).map (fun w => (g.base + mb, w.1))

/-- The pack size of the actor's workgroup. -/
def State.packSize (s : State) (a : Actor) : Nat := 2 ^ (s.desc a).nlog

/-- A view resolved in a workgroup: its front run, or where an engine writes (R38). -/
def State.viewPos (s : State) (core wslot sp view off : Nat) (engine : Bool) : Option LPos :=
  let g : Wg := Tbl.get {} (s.core core).wgs wslot
  let v := Tbl.get {} g.views (sp * 16 + view)
  if !v.en || (v.nfr + 1) * 4096 ≤ off then none
  else
    let run := if engine && v.shd then v.shadow else v.front
    some ⟨core, wslot, sp, view, off, (g.alloc.getD sp 0 + run + off / 4096) * 4096 + off % 4096, v.cln⟩

/-- A local access of n bytes through a space code: the checks of R34 in their order, then the frame (R37). A control core
has no view (11 R342). An engine that writes resolves a shadowed view to its shadow run (R38). -/
def State.laddr (s : State) (a : Actor) (sc la n : Nat) (engine : Bool := false) : Except Flt LPos :=
  if la % n != 0 then .error ⟨cMisalign, n⟩
  else if fld la 20 4 != 0 || (sc != 1 && fld la 28 4 != 0) || (sc == 1 && s.packSize a ≤ fld la 28 4) || a.isCtl then
    .error ⟨cBounds, la⟩
  else match (if sc = 1 then s.memberAt a (fld la 28 4) else some (s.coreOf a, (s.ctx a).wslot)) with
    | none => .error ⟨cBounds, la⟩
    | some (c, w) => match s.viewPos c w (spaceOf sc) (fld la 24 4) (fld la 0 20) engine with
      | none => .error ⟨cBounds, la⟩
      | some p => .ok p

/-- The detail of an on-chip error (05 R161). -/
def LPos.detail (p : LPos) (syn : Nat) : Nat := syn % 256 * 2 ^ 56 + 2 ^ 55 + p.sp * 2 ^ 52 + p.view * 2 ^ 48 + p.off

/-- The key by which faults of one view frame share a record (05 R155). -/
def LPos.page (p : LPos) : Nat := 2 ^ 60 + ((p.core * 4 + p.sp) * 16 + p.view) * 256 + p.off / 4096

/-- A write that is not a refill clears CLN of every CLEAN view of the workgroup that holds the frame in its front or
shadow run (R39). -/
def Wg.dirty (g : Wg) (sp byte : Nat) : Wg :=
  let f := byte / 4096 - g.alloc.getD sp 0
  { g with views := g.views.map (fun e =>
      if e.1 / 16 = sp && e.2.cln && e.2.en && ((e.2.front ≤ f && f ≤ e.2.front + e.2.nfr) || (e.2.shd && e.2.shadow ≤ f && f ≤ e.2.shadow + e.2.nfr))
      then (e.1, { e.2 with cln := false }) else e) }

/-- A write to an on-chip space of a workgroup under an owner slot. -/
def State.ocPut (s : State) (core wslot sp byte n x slot : Nat) (poi keep : Bool) : State :=
  let s1 := { s with mem := s.mem.ocWrite core sp byte n x slot poi }
  if keep then s1 else s1.updWg core wslot (fun g => g.dirty sp byte)

/-- The owner slot an actor acts under (R43, R45). -/
def State.owner (s : State) (a : Actor) : Nat := s.mem.oslot (s.ctx a).asid

end Sys2Proof.Machine
end

