-- ==== Sys2Proof/Machine/Quarantine.lean ====
section
/-! DEFINITION. Held stores (05 R168 to R171; 03 R97): holding, forwarding to the group's loads, release and discard; and
stores as they are performed. -/

namespace Sys2Proof.Machine

/-- Where a store goes: space (0 global, 1 scratchpad, 2 A-buffer, 3 C-buffer), ASID or pack member, address. -/
structure Dst where
  space : Nat
  key : Nat
  addr : Nat
  deriving DecidableEq, Repr

/-- The held bytes of a group at n bytes of a destination, the latest entry first (R170). -/
def Core.heldAt (c : Core) (slot : Nat) (d : Dst) (n : Nat) : List (Option QByte) :=
  let es := c.quar.filter (fun e => e.slot == slot && e.space == d.space && e.asid == d.key && e.addr == d.addr / 32 * 32)
  (List.range n).map (fun i => es.reverse.findSome? (fun e => match Tbl.find e.bytes (d.addr % 32 + i) with
    | some b => if b.fwd then some b else none
    | none => none))

/-- A load's result under held bytes: their poison first, then their values over what the place gave. -/
def overlay (h : List (Option QByte)) (r : Res) : Res :=
  match h.findSome? (fun b => b.bind (·.poi)) with
  | some p => .bad p
  | none =>
    if h.all Option.isSome then .num (ofBytes (h.map (fun b => (b.map (·.val)).getD 0)))
    else match r with
      | .num x => .num (ofBytes ((h.zip (toBytes h.length x)).map (fun e => (e.1.map (·.val)).getD e.2)))
      | r => r

/-- A store the group performs stops the forwarding of the held bytes it overlaps (R170). -/
def Core.unforward (c : Core) (slot : Nat) (d : Dst) (n : Nat) : Core :=
  { c with quar := c.quar.map (fun e =>
      if e.slot == slot && e.space == d.space && e.asid == d.key && e.addr == d.addr / 32 * 32 then
        { e with bytes := e.bytes.map (fun b =>
            if d.addr % 32 ≤ b.1 && b.1 < d.addr % 32 + n then (b.1, { b.2 with fwd := false }) else b) }
      else e) }

/-- Entries of its capacity that a group holds. -/
def Core.quse (c : Core) (slot : Nat) : Nat := (c.quar.filter (fun e => e.slot == slot && !e.reserve)).length

/-- Entries of the reserve in use. -/
def Core.reserveUse (c : Core) : Nat := (c.quar.filter (·.reserve)).length

/-- Writes the bytes of a store into an entry if each is free or of the same owners (R169). -/
def QEnt.add (e : QEnt) (off n x own : Nat) (poi : Option Payload) : Option QEnt :=
  if (List.range n).all (fun i => match Tbl.find e.bytes (off + i) with | none => true | some b => b.own == own) then
    some { e with bytes := ((List.range n).zip (toBytes n x)).foldl (fun t i => Tbl.put t (off + i.1) ⟨i.2, own, poi, true⟩) e.bytes }
  else none

/-- The entry of the sector that takes a store: the oldest that can and that no later entry of the sector follows with one of its bytes,
so that the order of the entries stays the group's program order (R169, R170; log entry 55). Entries of the reserve and of the capacity
are never shared. -/
def Core.holdIn (c : Core) (slot : Nat) (d : Dst) (n x own : Nat) (poi : Option Payload) (reserve : Bool) : Option Nat :=
  let sector (e : QEnt) : Bool := e.slot == slot && e.space == d.space && e.asid == d.key && e.addr == d.addr / 32 * 32
  let touches (e : QEnt) : Bool := sector e && (List.range n).any (fun i => (Tbl.find e.bytes (d.addr % 32 + i)).isSome)
  (List.range c.quar.length).find? (fun i => match c.quar[i]? with
    | some e => sector e && e.reserve == reserve && (e.add (d.addr % 32) n x own poi).isSome && !(c.quar.drop (i + 1)).any touches
    | none => false)

/-- Holds a store in an entry of its sector that takes it, else in a new one while the count is below the limit; none: no room. -/
def Core.hold (c : Core) (slot : Nat) (d : Dst) (n x own : Nat) (poi : Option Payload) (reserve : Bool) (cap : Nat) : Option Core :=
  match c.holdIn slot d n x own poi reserve with
  | some i => some { c with quar := listUpd c.quar i (fun e => (e.add (d.addr % 32) n x own poi).getD e) }
  | none =>
    if (if reserve then c.reserveUse else c.quse slot) < cap then
      match (⟨slot, d.space, d.addr / 32 * 32, d.key, [], reserve⟩ : QEnt).add (d.addr % 32) n x own poi with
      | some e => some { c with quar := c.quar ++ [e] }
      | none => none
    else none

/-- The quarantine capacity of a group (07 R217; R168). -/
def State.qcap (s : State) (a : Actor) : Nat := let q := (s.desc a).qcap; if q = 0 then 16 else q

/-- Holds one store for its owner lanes. Beyond capacity it is dropped; the mask is of the owner lanes with an open held region, which are
then to be marked with a QUARANTINE_FULL record (R169). -/
def State.holdStore (s : State) (a : Actor) (d : Dst) (n x own : Nat) (poi : Option Payload) : State × Nat :=
  let cn := s.coreOf a
  let slot := s.homeSlot a
  let opn := (lanesOf own).any (fun l => (s.rgnAt a l).opn)
  match (s.core cn).hold slot d n x own poi (!opn) (if opn then s.qcap a else 64) with
  | some c => (s.setCore cn c, 0)
  | none => (s, maskOf ((lanesOf own).filter (fun l => (s.rgnAt a l).opn && (s.rgnAt a l).kind)))

/-- The QUARANTINE_FULL faults of lanes: each lane has a record of its own (R169). -/
def State.quarFull (s : State) (a : Actor) (l : Nat) : LFlt :=
  { lane := l, flt := ⟨cQuarantineFull, (s.core (s.coreOf a)).quseAll (s.homeSlot a)⟩, page := 2 ^ 62 + l }

/-- Stores n bytes of global memory through the L1. A bypass store that misses, a store into a set of refused lines, and one to a peer
device's memory are performed at the home slice without allocating (02 R52, R76; 03 R114). Where every way waits for a fill, the step
does not happen yet (R52). -/
def Mem.storeG (m : Mem) (who : Who) (core asid va n x hint : Nat) : Mem × Option Flt :=
  if m.peerVa who.die asid va || (hint = 3 && (m.look1 core asid (va / 128)).2.isNone) then m.writeG who asid va n x 0 hint
  else match m.store1 core asid va n x hint with
  | (m1, .free) => (m1, none)
  | (m1, .full) => m1.writeG who asid va n x 0 hint
  | (m1, .wait) => ({ m1 with stall := true }, none)

/-- A store takes effect at its destination. -/
def State.place (s : State) (a : Actor) (d : Dst) (n x hint : Nat) : State :=
  let cn := s.coreOf a
  if d.space = 0 then { s with mem := (s.mem.storeG (s.who a) cn d.key d.addr n x hint).1 }
  else
    let loc := match s.memberAt a d.key with
      | some (c, w) => s.viewPos c w (d.space - 1) (fld d.addr 24 4) (fld d.addr 0 20) false
      | none => none
    match loc with
    | some p => s.ocPut p.core p.wslot p.sp p.byte n x (s.owner a) false false
    | none => s

/-- Performs a store of a group: loads of the group see it and no held byte that it overlaps (R170). -/
def State.perform (s : State) (a : Actor) (slot : Nat) (d : Dst) (n x hint : Nat) : State :=
  let cn := s.coreOf a
  (s.setCore cn ((s.core cn).unforward slot d n)).place a d n x hint

/-- What a commit does with a byte: drop it if a discarding lane owns it, release it when its last owner releases, else keep
it for the others (R171). -/
inductive QFate where
  | drop
  | release
  | keep (own : Nat)
  deriving DecidableEq, Repr

def QByte.fate (b : QByte) (rel dis : Nat) : QFate :=
  if b.own &&& dis != 0 then .drop
  else if b.own &&& rel = 0 then .keep b.own
  else if without b.own rel = 0 then .release
  else .keep (without b.own rel)

/-- Consecutive bytes of a list of (address, byte) pairs that lie in one 4-byte word, as (address, size, number): a store of whole words
where the words are whole (R171; 05 R154). -/
def runsOf (bs : List (Nat × Byte)) : List (Nat × Nat × Nat) :=
  (List.range 8).flatMap (fun w =>
    let mine := bs.filter (fun b => b.1 % 32 / 4 == w)
    if mine.length = 4 then [(mine.foldl (fun k b => min k b.1) (mine.headD (0, 0)).1, 4, ofBytes ((List.range 4).map (fun i =>
      ((mine.find? (fun b => b.1 % 4 == i)).getD (0, 0)).2)))]
    else mine.map (fun b => (b.1, 1, b.2.toNat)))

/-- Resolves a group's entries: bytes of discarding lanes go, bytes whose owners have all released take effect in
allocation order (R170, R171); what older entries still hold of those bytes is then no longer seen by loads. `which` selects entries by
their reserve flag. An entry keeps no retention hint (R168), and the line that a released store allocates takes the default one (log entry 68). -/
def State.resolveHeld (s : State) (a : Actor) (slot rel dis : Nat) (which : Bool → Bool) : State :=
  let cn := s.coreOf a
  let es := (s.core cn).quar
  let mine (e : QEnt) : Bool := e.slot == slot && which e.reserve
  let goes (b : QByte) : Bool := b.fate rel dis = .release && b.poi.isNone
  let outs := (es.filter mine).flatMap (fun e =>
    (runsOf ((e.bytes.filter (fun b => goes b.2)).map (fun b => (e.addr + b.1, b.2.val)))).map (fun r => ((⟨e.space, e.asid, r.1⟩ : Dst), r.2)))
  let hides (k : Nat) (e : QEnt) (i : Nat) : Bool := (es.drop (k + 1)).any (fun f => mine f && f.space == e.space && f.asid == e.asid && f.addr == e.addr
    && (match Tbl.find f.bytes i with | some b => goes b | none => false))
  let left := ((List.range es.length).zip es).filterMap (fun ke =>
    let e := ke.2
    if mine e then
      let bs := e.bytes.filterMap (fun b => match b.2.fate rel dis with
        | .keep o => some (b.1, { b.2 with own := o, fwd := b.2.fwd && !hides ke.1 e b.1 })
        | _ => none)
      if bs.isEmpty then none else some { e with bytes := bs }
    else some e)
  outs.foldl (fun s o => s.place a o.1 o.2.1 o.2.2 0) (s.setCore cn { s.core cn with quar := left })

end Sys2Proof.Machine
end

