-- ==== Sys2Proof/Machine/MemPath.lean ====
section
/-! DEFINITION. The path of a memory access of a context (02 R49 to R54, R60 to R64, R68 to R72, R444; 03 R85, R87; 10 R321 to
R328): the memory instruction in flight, its accesses in ascending lane order, its requests to home slices, what a slice
answers, and its completion. -/

namespace Sys2Proof.Machine

/-- Kinds of memory instructions. -/
inductive MKind where
  | load
  | store
  | atomic
  | ldf
  | pref
  deriving DecidableEq, Repr

/-- What a memory instruction is: kind, size, hint, first register, sign bits of a load, scope of an atomic (0 WG to 3
SYSTEM), its operation (10 R327), space code of a local form, whether it is uniform, lookahead. -/
structure MInfo where
  kind : MKind := .load
  size : Nat := 4
  hint : Nat := 0
  d : Nat := 0
  sgn : Nat := 0
  scope : Nat := 0
  op : Nat := 0
  space : Option Nat := none
  uni : Bool := false
  la : Nat := 0
  deriving DecidableEq, Repr

/-- Lane registers of an operand of n bytes. -/
def regsOf (n : Nat) : Nat := (n + 3) / 4

/-- Operand size of an atomic (10 R327). -/
def atomSize (op : Nat) : Nat := if op = 1 || op = 11 || op = 13 then 8 else 4

def vmInfo (k : MKind) (size hint d la : Nat) : MInfo := { kind := k, size := size, hint := hint, d := alignReg (regsOf size) d, la := la }
def viInfo (k : MKind) (size d sgn : Nat) : MInfo := { kind := k, size := size, d := d, sgn := sgn }
def vsInfo (k : MKind) (size sp d : Nat) : MInfo := { kind := k, size := size, space := some sp, d := alignReg (regsOf size) d }
def vaInfo (op d scope la : Nat) : MInfo :=
  { kind := .atomic, size := atomSize op, op := op, scope := scope, la := la
    d := alignReg (if op = 12 then 2 else if op = 13 then 4 else regsOf (atomSize op)) d }
def gmInfo (k : MKind) (size hint d la : Nat) : MInfo := { kind := k, size := size, hint := hint, d := d, la := la, uni := true }

/-- The memory instructions (09 R277, R278, R290, R291). -/
def Instr.minfo : Instr → Option MInfo
  | .ldbS d _ _ => some (viInfo .load 1 d 8)
  | .ldbN d _ _ => some (viInfo .load 1 d 0)
  | .ldhS d _ _ => some (viInfo .load 2 d 16)
  | .ldhN d _ _ => some (viInfo .load 2 d 0)
  | .stb d _ _ => some (viInfo .store 1 d 0)
  | .sth d _ _ => some (viInfo .store 2 d 0)
  | .ldw hint d _ _ la => some (vmInfo .load 4 hint d la)
  | .ldd hint d _ _ la => some (vmInfo .load 8 hint d la)
  | .ldq hint d _ _ la => some (vmInfo .load 16 hint d la)
  | .ldf hint d _ _ la => some (vmInfo .ldf 1 hint d la)
  | .stw hint d _ _ _ => some (vmInfo .store 4 hint d 0)
  | .std hint d _ _ _ => some (vmInfo .store 8 hint d 0)
  | .stq hint d _ _ _ => some (vmInfo .store 16 hint d 0)
  | .pref hint _ _ _ _ => some { kind := .pref, size := 128, hint := if hint = 3 then 0 else hint }
  | .ldlw sp d _ _ => some (vsInfo .load 4 sp d)
  | .ldld sp d _ _ => some (vsInfo .load 8 sp d)
  | .ldlq sp d _ _ => some (vsInfo .load 16 sp d)
  | .stlw sp d _ _ => some (vsInfo .store 4 sp d)
  | .stld sp d _ _ => some (vsInfo .store 8 sp d)
  | .stlq sp d _ _ => some (vsInfo .store 16 sp d)
  | .ldlb sp d _ _ => some (vsInfo .load 1 sp d)
  | .stlb sp d _ _ => some (vsInfo .store 1 sp d)
  | .atomAdd32 d _ sc _ la => some (vaInfo 0 d sc la)
  | .atomAdd64 d _ sc _ la => some (vaInfo 1 d sc la)
  | .atomAddf32 d _ sc _ la => some (vaInfo 2 d sc la)
  | .atomMinS32 d _ sc _ la => some (vaInfo 3 d sc la)
  | .atomMinN32 d _ sc _ la => some (vaInfo 4 d sc la)
  | .atomMaxS32 d _ sc _ la => some (vaInfo 5 d sc la)
  | .atomMaxN32 d _ sc _ la => some (vaInfo 6 d sc la)
  | .atomAnd32 d _ sc _ la => some (vaInfo 7 d sc la)
  | .atomOr32 d _ sc _ la => some (vaInfo 8 d sc la)
  | .atomXor32 d _ sc _ la => some (vaInfo 9 d sc la)
  | .atomXchg32 d _ sc _ la => some (vaInfo 10 d sc la)
  | .atomXchg64 d _ sc _ la => some (vaInfo 11 d sc la)
  | .atomCas32 d _ sc _ la => some (vaInfo 12 d sc la)
  | .atomCas64 d _ sc _ la => some (vaInfo 13 d sc la)
  | .atomIncN32 d _ sc _ la => some (vaInfo 14 d sc la)
  | .atomAddbf16x2 d _ sc _ la => some (vaInfo 15 d sc la)
  | .sldW hint d _ _ la => some (gmInfo .load 4 hint d la)
  | .sldD hint d _ _ la => some (gmInfo .load 8 hint d la)
  | .sstW hint d _ _ _ => some (gmInfo .store 4 hint d 0)
  | .sstD hint d _ _ _ => some (gmInfo .store 8 hint d 0)
  | .satomAdd64 _ d _ _ la => some { gmInfo .atomic 8 0 d la with scope := 2, op := 1 }
  | .scas64 _ d _ _ la => some { gmInfo .atomic 8 0 (alignReg 2 d) la with scope := 2, op := 13 }
  | .sldl hint d _ _ la => some { gmInfo .load 8 0 d la with space := some hint }
  | .sstl hint d _ _ _ => some { gmInfo .store 8 0 d 0 with space := some hint }
  | _ => none

/-- A sum of an atomic that is zero is +0 (10 R327). -/
def zeroPos (w c : Nat) : Nat := if c = 2 ^ (w - 1) then 0 else c

/-- The new value of an atomic's location (10 R327): the old value, the data operand, the swap value. -/
def atomNew (op x v aux : Nat) : Nat :=
  match op with
  | 0 => (x + v) % 2 ^ 32
  | 1 => (x + v) % 2 ^ 64
  | 2 => zeroPos 32 (Fmt.f32.add 0 (Fmt.f32.dec x) (Fmt.f32.dec v)).code
  | 3 => if toS 32 v < toS 32 x then v else x
  | 4 => min x v
  | 5 => if toS 32 x < toS 32 v then v else x
  | 6 => max x v
  | 7 => x &&& v
  | 8 => x ||| v
  | 9 => x ^^^ v
  | 10 => v
  | 11 => v
  | 12 => if x = v then aux else x
  | 13 => if x = v then aux else x
  | 14 => if v ≤ x then 0 else x + 1
  | _ =>
    let h (i : Nat) : Nat := zeroPos 16 (Fmt.bf16.add 0 (Fmt.bf16.dec (fld x (16 * i) 16)) (Fmt.bf16.dec (fld v (16 * i) 16))).code
    h 0 + 2 ^ 16 * h 1

/-! The memory instruction of a context. -/

/-- The memory instruction in flight that an actor issued. -/
def State.opOf (s : State) (a : Actor) : Option MemOp := Tbl.find (s.ctx a).memops a.slot

def State.setOp (s : State) (a : Actor) (o : Option MemOp) : State :=
  s.updCtx a (fun c => { c with memops := match o with | some o => Tbl.put c.memops a.slot o | none => Tbl.del c.memops a.slot })

def MemOp.info (o : MemOp) : MInfo := (Instr.minfo o.ins).getD {}

/-- Whether an operation goes to the scratchpad of a pack member (R102). -/
def MemOp.toPack (o : MemOp) : Bool := o.info.space == some 1

/-- Whether an operation may take effect: every one that its context issued before it, and that the spec orders with it, has. The accesses
of a group take effect in its issue order, those to pack scratchpads among themselves (R85, R99, R102, R114, R444; log entry 10). -/
def Ctx.first (c : Ctx) (o : MemOp) : Bool := c.memops.all (fun e => o.ord ≤ e.2.ord || e.2.toPack != o.toPack)

/-- As whom an operation in flight accesses memory. -/
def State.opWho (s : State) (a : Actor) (o : MemOp) : Who := { s.who a with sup := o.sup }

/-- A fault of a global access. -/
def gFault (f : Flt) (va : Nat) : Res := .fault f va (va % 2 ^ 55 / 65536) false

/-- A request to the home slice of an address as it leaves: it carries the epoch and generation of the die's copies (R68; 04 R126). -/
def State.newReq (s : State) (a : Actor) (k : ReqKind) (addr hint : Nat) (accs : List Acc) : Req :=
  let die := s.dieOf a
  let asid := (s.ctx a).asid
  { kind := k, addr := addr, hint := hint, accs := accs
    epoch := fld (Tbl.get 0 (Tbl.get [] s.mem.dslhm die) (s.mem.dom asid)).toNat 24 4
    gen := s.mem.dieGen die asid
    sl := match s.mem.hash die asid addr with | .ok sl => some sl | .error _ => none }

/-- Changes the request in flight of a context. -/
def State.updReq (s : State) (a : Actor) (f : Req → Req) : State :=
  match s.opOf a with
  | some o => s.setOp a (some { o with req := o.req.map f })
  | none => s

/-- Places a request to the home slice of an address. -/
def State.sendReq (s : State) (a : Actor) (o : MemOp) (k : ReqKind) (addr hint : Nat) (accs : List Acc) : State :=
  s.setOp a (some { o with req := some (s.newReq a k addr hint accs) })

/-- Records the result of an access and takes it from the list. -/
def MemOp.done (o : MemOp) (x : Acc) (r : Res) : MemOp :=
  { o with res := Tbl.put o.res (x.lane * 8 + x.piece) r, todo := o.todo.filter (fun y => !(y.lane == x.lane && y.piece == x.piece)) }

/-- The lane context whose regions and held stores an actor's accesses concern, and the lanes that own a uniform one. -/
def State.owners (s : State) (a : Actor) (o : MemOp) : Nat := if a.isSeq then (s.wgOf a).fmask else o.mask

/-- The held bytes that a load of the context sees. -/
def State.held (s : State) (a : Actor) (d : Dst) (n : Nat) : List (Option QByte) :=
  if a.isCtl then List.replicate n none else (s.core (s.coreOf a)).heldAt (s.homeSlot (s.marker a)) d n

/-- Holds a store. Where a held region has no capacity left for it, a lane store gives QUARANTINE_FULL, which has its record with those of
the other lanes of the instruction; the lanes of a uniform one are marked at once (05 R163, R169). -/
def State.keepStore (s : State) (a : Actor) (o : MemOp) (x : Acc) (d : Dst) (own : Nat) : State × Res :=
  let g := s.marker a
  let (s1, full) := s.holdStore g d x.size x.data own x.bad
  if full = 0 then (s1, .num 0)
  else if o.info.uni then
    let (s2, t) := s1.alloc g o.pc ((Machine.lanesOf full).map (s1.quarFull g))
    (s2.sinks g o.pc t, .num 0)
  else let f := s1.quarFull g x.lane; (s1, .fault f.flt 0 f.page false)

/-- A store takes effect or is held: a poisoned one is held for its lanes and marks them; a clean one is held for the lanes
with an open held region (10 R322; 11 R343; 05 R169). -/
def State.doStore (s : State) (a : Actor) (o : MemOp) (x : Acc) (d : Dst) (hint : Nat) : State × Res :=
  let g := s.marker a
  let own := if o.info.uni then s.owners a o else 2 ^ x.lane
  match x.bad with
  | some p =>
    let s1 := (lanesOf own).foldl (fun s l => s.sink g o.pc l p) s
    let s2 := match a with
      | .mseq c => s1.updWg c (s1.ctx a).wslot (fun w => { w with mmark := true })
      | .cseq c => s1.updWg c (s1.ctx a).wslot (fun w => { w with cmark := true })
      | _ => s1
    s2.keepStore a o x d own
  | none =>
    let kept := maskOf ((lanesOf own).filter (fun l => let r := s.rgnAt g l; r.opn && r.kind))
    if kept != 0 then s.keepStore a o x d kept
    else (s.perform g (s.homeSlot g) d x.size x.data hint, .num 0)

/-! What a slice does with a request. -/

/-- The atomic unit applies the operations of a request on one line in ascending lane order (R71, R72). -/
def Mem.atomUnit (m : Mem) (sl die asid : Nat) (t : Tr) (va op : Nat) (accs : List Acc) : Mem × List (Nat × Res) :=
  let secs := accs.foldl (fun k x => k ||| secMask x.addr x.size) 0
  let (m1, r1) := m.sliceLine sl die asid va secs 0 t
  accs.foldl (fun acc x =>
    let m := acc.1
    let (d, p) := match (m.slice sl).findLine asid (va / 128) with
      | some l => (l.data, l.pois)
      | none => let r := m.lineIn t.slot (t.loc.line va) secs; (r.2.data, r.2.pois)
    let sec := x.addr % 128 / 32
    match r1.errs.find? (fun f => f.1 == sec) with
    | some f => (m, acc.2 ++ [(x.lane, gFault f.2 x.addr)])
    | none =>
      if bit p sec then (m, acc.2 ++ [(x.lane, gFault ⟨cPoisonMem, m.locPhys ((t.loc.line va).add (32 * sec))⟩ x.addr)])
      else
        let old := tblNum d (x.addr % 128) x.size
        let new := atomNew op old x.data x.aux
        (m.merge sl die asid (va / 128) (t.line va) 0 (tblPut [] (x.addr % 128) x.size new) (ones (x.addr % 128) x.size) 0,
          acc.2 ++ [(x.lane, .num old)])) (m1, [])

/-- The atomics that a PCIe target performs: FetchAdd, Swap, CAS (R71). -/
def pcieAtomic (op : Nat) : Bool := [0, 1, 10, 11, 12, 13].contains op

/-- What a request sends to its target behind the host port or at a peer (02 R71; 03 R86, R114): 1 a write of bytes, 7 an atomic with its
operation and its swap value, 8 a read. -/
def farMsg (k : ReqKind) (t : Tr) (va op : Nat) (x : Acc) : Msg :=
  let a := match t.loc with | .far kind a => kind * 2 ^ 56 + a - va + x.addr | _ => 0
  match k with
  | .atomic => { kind := 7, addr := a, data := x.data, size := x.size, mask := op, aux := x.aux }
  | .read => { kind := 8, addr := a, data := 0, size := x.size }
  | _ => { kind := 1, addr := a, data := x.data, size := x.size, mask := 2 ^ x.size - 1, poi := b2n x.bad.isSome }


/-- What a slice makes of a request: an answer, or the request goes out, with the accesses that it carries (04 R149). -/
inductive Served where
  | answer (p : Resp)
  | out (t : Tr) (accs : List Acc)
  deriving DecidableEq, Repr

/-- A slice performs a request whose waiting is over. An access to a peer device's memory, an atomic of system scope on a page behind the
host port, and a miss there go on to the target: the atomic for one lane at a time (R71; 03 R114; 04 R149). -/
def Mem.serve (m : Mem) (who : Who) (asid : Nat) (r : Req) (i : MInfo) (sl ev : Nat) : Mem × Served :=
  let need := match r.kind with
    | .probe => (match i.kind with | .atomic => 3 | .ldf => 1 | _ => 2)
    | .read => 1
    | .bypass => 2
    | .uncached => 2
    | .atomic => 3
  match m.translate sl asid r.addr need who (r.kind == .probe) (i.kind == .pref) ev with
  | (m1, .error f) =>
    let leaf : Option (Nat × Nat) := ((m1.slice sl).findEnt asid r.addr).map (fun e => (fld e.leaf.raw 55 5, fld e.leaf.raw 53 2))
    (m1, .answer { fault := some f, leaf := leaf })
  | (m1, .ok t) =>
    let ans : Resp := { shc := 5 ≤ fld t.raw 49 3, slot := t.slot, peer := t.peer.isSome, cls := t.cls, rep := t.rep }
    let hit := ((m1.slice sl).findLine asid (r.addr / 128)).isSome
    let lead := match r.accs with | x :: _ => [x] | [] => [{ lane := 0, addr := r.addr, size := 128 - r.addr % 128 }]
    let goOut (accs : List Acc) : Mem × Served := (m1.send (accs.map (farMsg r.kind t r.addr i.op)), .out t accs)
    match r.kind with
    | .probe => (m1, .answer { ans with leaf := some (fld t.raw 55 5, fld t.raw 53 2) })
    | .read =>
      if t.loc.isFar && !hit then goOut lead
      else
        let n := match r.accs with | x :: _ => x.size | [] => 128 - r.addr % 128
        let (m2, d) := m1.sliceLine sl who.die asid r.addr (secMask r.addr n) r.hint t
        (m2.replicate sl who.die asid (r.addr / 128) t d.data d.pois, .answer { ans with bytes := d.data, pois := d.pois, fault := d.errs.head?.map (·.2) })
    | .bypass =>
      if t.peer.isSome || (t.loc.isFar && !hit) then goOut r.accs
      else (r.accs.foldl (fun m x => m.merge sl who.die asid (x.addr / 128) (t.line r.addr) 3
        (tblPut [] (x.addr % 128) x.size x.data) (ones (x.addr % 128) x.size) 0) m1, .answer ans)
    | .uncached => goOut r.accs
    | .atomic =>
      if t.loc.isFar && (i.scope = 3 || t.peer.isSome) then
        if i.scope = 3 && !pcieAtomic i.op then (m1, .answer { ans with fault := some ⟨cInvalidOp, 0⟩ })
        else ((m1.farDrop sl who.die asid r.addr).send (lead.map (farMsg r.kind t r.addr i.op)), .out t lead)
      else if t.loc.isFar && !hit then (m1.send [farMsg .read t r.addr 0 { lane := 0, addr := r.addr / 128 * 128, size := 128 }], .out t r.accs)
      else
        let (m2, rs) := m1.atomUnit sl who.die asid t r.addr i.op r.accs
        (m2, .answer { ans with old := rs })

/-! Progress of the memory instruction. -/

/-- The words a load or atomic writes for a number: lane registers, or one uniform register. -/
def MInfo.words (i : MInfo) (n : Nat) : List (Val W64) :=
  if i.uni then [.ok (BitVec.ofNat 64 n)]
  else if i.sgn != 0 then words32 1 (lowBits 32 (toS i.sgn n))
  else words32 (regsOf i.size) n

/-- The element an LDF lane names: the N of a sparse block, and the index (R323). -/
def ldfIndex (geom k : Nat) : Nat × Nat := if geom = 2 then (if bit k 31 then 8 else 16, k % 2 ^ 31) else (16, k)

/-- The accesses that read the bytes of an element, cut at sectors. -/
def ldfPieces (page fmt geom l k : Nat) : List Acc :=
  let (n, x) := ldfIndex geom k
  let (b, len) := elemBytes fmt geom n x
  let lo := page + b
  ((List.range 3).map (fun i =>
    let st := if i = 0 then lo else (lo / 32 + i) * 32
    let en := min (lo + len) ((lo / 32 + i + 1) * 32)
    ({ lane := l, addr := st, size := en - st, piece := i } : Acc))).filter (fun x => x.size != 0 && x.addr < lo + len)

/-- The result of a lane of an LDF from its pieces: its bytes as a number, or the first piece that is none. -/
def MemOp.gather (o : MemOp) (fmt geom l : Nat) : Res :=
  match Tbl.find o.res (l * 8 + 7) with
  | some r => r
  | none =>
    ((ldfPieces o.page fmt geom l (Tbl.get 0 o.idx l)).foldl (fun (acc : Res × Nat) x =>
      match acc.1, Tbl.get (.num 0) o.res (l * 8 + x.piece) with
      | .num n, .num y => (.num (n + y * 2 ^ (8 * acc.2)), acc.2 + x.size)
      | .num _, r => (r, acc.2)
      | r, _ => (r, acc.2)) (.num 0, 0)).1

/-- The page's registers that an LDF writes: a pair for a 64-bit format (R323). -/
def ldfRegs (fmt d : Nat) : List Nat := if fmtW fmt = 64 then [alignReg 2 d, alignReg 2 d + 1] else [d]

/-- What a lane's result writes: the words of its number, or poison in every register; with warnings of a decoding. -/
def MemOp.value (o : MemOp) (fmt geom l : Nat) (pl : Payload) (r : Res) : List (Val W64) × W32 :=
  let i := o.info
  let n := if i.kind == .ldf then (ldfRegs fmt i.d).length else if i.uni then 1 else regsOf i.size
  match r with
  | .bad p => (List.replicate n (.bad p), 0)
  | .fault _ _ _ _ => (List.replicate n (.bad pl), 0)
  | .num x =>
    if i.kind == .ldf then
      let (ns, k) := ldfIndex geom (Tbl.get 0 o.idx l)
      let c := elemCode fmt geom ns k x
      let w := elemWords fmt c.1
      (w.1, c.2 ||| w.2)
    else (i.words x, 0)

/-- The faults among the results of an instruction's lanes. -/
def faultsOf (lead : Option Nat) (rs : List (Nat × Res)) : List LFlt :=
  rs.filterMap (fun r => match r.2 with
    | .fault f va pg cln => some { lane := lead.getD r.1, flt := f, va := if pg < 2 ^ 60 then va else 0, page := pg, cln := cln }
    | _ => none)

/-- Marks the lanes of a faulting store or atomic: the lanes that faulted, or every lane of a uniform one; an engine program
also sets its mark (12 R375). -/
def State.markOp (s : State) (a : Actor) (o : MemOp) (fl : List LFlt) (t : Tbl Payload) : State :=
  if fl.isEmpty then s
  else
    let g := s.marker a
    let ls := if o.info.uni then
        (lanesOf (s.owners a o)).map (fun l => (l, match fl with | f :: _ => Tbl.get 0 t f.lane | [] => 0))
      else fl.map (fun f => (f.lane, Tbl.get 0 t f.lane))
    let s1 := s.sinks g o.pc ls
    match a with
    | .mseq c => s1.updWg c (s1.ctx a).wslot (fun w => { w with mmark := true })
    | .cseq c => s1.updWg c (s1.ctx a).wslot (fun w => { w with cmark := true })
    | _ => s1

/-- Completes the memory instruction: records for its faults, its values to their held result, marks for stores and atomics
that faulted (R321; 05 R158; 11 R343). -/
def State.memFinish (s : State) (a : Actor) (o : MemOp) : State :=
  let i := o.info
  let (fmt, geom, _) := decCfg (o.fmt.getD (0, 0)).1 (o.fmt.getD (0, 0)).2
  let ls := if i.uni then [32] else lanesOf o.mask
  let rs := ls.filterMap (fun l => (if i.kind == .ldf then some (o.gather fmt geom l) else Tbl.find o.res (l * 8)).map (fun r => (l, r)))
  let lead := if i.uni then some ((lowest 32 (s.owners a o)).getD 0) else none
  let fl := if i.kind == .pref then [] else faultsOf lead rs
  let (s1, t) := if fl.isEmpty then (s, []) else s.alloc (s.marker a) o.pc fl
  let outs := rs.map (fun r => (r.1, o.value fmt geom r.1 (Tbl.get 0 t (lead.getD r.1)) r.2))
  let s2 := if i.kind == .store || i.kind == .pref then s1
    else s1.updCtx a (fun c => (c.deliver o.hid (outs.map (fun e => (e.1, e.2.1)))).warns (outs.foldl (fun w e => w ||| e.2.2) 0))
  let s3 := if i.kind == .store || i.kind == .atomic then s2.markOp a o fl t else s2
  (s3.setOp a none).updCtx a Ctx.settle

/-! Trying an access where the context has it. -/

/-- A local access at its space (10 R326; 05 R155). -/
def State.tryLocal (s : State) (a : Actor) (o : MemOp) (x : Acc) (sc : Nat) : State × Res :=
  let i := o.info
  match s.laddr a sc x.addr x.size with
  | .error f => (s, .fault f 0 (2 ^ 60 + 2 ^ 50 + (sc * 2 ^ 32 + x.addr) / 4096) false)
  | .ok p =>
    let mb := if sc = 1 then fld x.addr 28 4 else (s.wgOf a).member
    let d : Dst := ⟨p.sp + 1, mb, x.addr % 2 ^ 28⟩
    if i.kind == .store then s.doStore a o x d 0
    else
      let h := s.held a d x.size
      if h.all Option.isSome then (s, overlay h (.num 0))
      else
        let (m1, n, e) := s.mem.ocRead p.core p.sp p.byte x.size (s.owner a)
        let r : Res := match e with
          | some (c, syn) => .fault ⟨c, p.detail syn⟩ 0 p.page p.cln
          | none => .num n
        ({ s with mem := m1 }, overlay h r)

/-- A load or WG-scope atomic on a line of the L1 that can serve it: the result (R52, R70). `keep`: the line is one of the L1's. -/
def State.tryLine (s : State) (a : Actor) (o : MemOp) (x : Acc) (l : L1Line) (keep : Bool) : State × Res :=
  let i := o.info
  let cn := s.coreOf a
  let asid := (s.ctx a).asid
  let off := x.addr % 128
  let d : Dst := ⟨0, asid, x.addr⟩
  let s1 := if keep then { s with mem := s.mem.put1 cn l } else s
  let r : Res := if l.bad off x.size then gFault ⟨cPoisonMem, s.mem.physOf (s.dieOf a) asid x.addr⟩ x.addr else .num (tblNum l.data off x.size)
  if i.kind == .atomic then
    match r with
    | .num old => ({ s1 with mem := (s1.mem.storeG (s.opWho a o) cn asid x.addr x.size (atomNew i.op old x.data x.aux) 0).1 }, r)
    | r => (s1, r)
  else (s1, overlay (s.held a d x.size) r)

/-- The result of an access from an answer that leaves no line: the bytes the core has written itself stand over it (R52, R74). -/
def State.direct (s : State) (a : Actor) (o : MemOp) (x : Acc) (p : Resp) : State × Res :=
  let cn := s.coreOf a
  let asid := (s.ctx a).asid
  let (m1, l?) := s.mem.look1 cn asid (x.addr / 128)
  let old := l?.getD { asid := asid, gen := m1.coreGen cn asid, line := x.addr / 128 }
  let data := (List.range 128).foldl (fun t i => if bit old.dirty i then t else Tbl.set 0 t i (Tbl.get 0 p.bytes i)) old.data
  ({ s with mem := m1 }).tryLine a o x { old with data := data, valid := 15, pois := p.pois } false

/-- Whether a store of the instruction is to be performed now: it is clean, and no lane of it holds stores (05 R169). -/
def State.storesNow (s : State) (a : Actor) (o : MemOp) (x : Acc) : Bool :=
  x.bad.isNone && (lanesOf (if o.info.uni then s.owners a o else 2 ^ x.lane)).all (fun l =>
    let r := s.rgnAt (s.marker a) l; !(r.opn && r.kind))

/-- What trying an access gives: its result; it needs its home slice; it waits for a way (R52). -/
inductive Tried where
  | done (r : Res)
  | miss
  | wait
  deriving DecidableEq, Repr

/-- Tries an access where the context has it (R49, R52, R57). A store to a peer device's memory goes there uncached (03 R114). -/
def State.tryAcc (s : State) (a : Actor) (o : MemOp) (x : Acc) : State × Tried :=
  let i := o.info
  match i.space with
  | some sc => let r := s.tryLocal a o x sc; (r.1, .done r.2)
  | none =>
    let asid := (s.ctx a).asid
    let h := if i.kind == .atomic then [] else s.held a ⟨0, asid, x.addr⟩ x.size
    if i.kind == .store then
      let now := s.storesNow a o x
      if now && o.peers.contains (x.addr / 65536) then (s, .miss)
      else
        let (m1, f) := if now && i.hint != 3 then s.mem.look1 (s.coreOf a) asid (x.addr / 128) else (s.mem, none)
        let (m2, room) := if now && i.hint != 3 && f.isNone then m1.room1 (s.coreOf a) (x.addr / 128) else (m1, .free)
        if room == .wait then (s, .wait)
        else let r := ({ s with mem := m2 }).doStore a o x ⟨0, asid, x.addr⟩ i.hint; (r.1, .done r.2)
    else if !h.isEmpty && h.all Option.isSome then (s, .done (overlay h (.num 0)))
    else if i.kind == .atomic && (i.scope != 0 || o.peers.contains (x.addr / 65536)) then (s, .miss)
    else
      let (m1, f) := s.mem.look1 (s.coreOf a) asid (x.addr / 128)
      let s1 := { s with mem := m1 }
      match f with
      | none => (s1, .miss)
      | some l => if l.has (x.addr % 128) x.size then let r := s1.tryLine a o x l true; (r.1, .done r.2) else (s1, .miss)

/-- Sends the request an access needs. A line of the die cache answers a read miss (R62). A read that may leave a line first takes a
way for it (R52); where it must wait for one, nothing is sent. An atomic beyond WG scope first leaves the L1 with its line and takes
every lane aimed at it (R71); where the slice refuses that write-back, the dirty bytes stay in the L1 (log entry 54). -/
def State.request (s : State) (a : Actor) (o : MemOp) (x : Acc) : State :=
  let i := o.info
  let asid := (s.ctx a).asid
  let die := s.dieOf a
  if i.kind == .store then s.sendReq a o .uncached x.addr 3 [x]
  else if i.kind == .atomic && (i.scope != 0 || o.peers.contains (x.addr / 65536)) then
    let accs := o.todo.filter (fun y => y.addr / 128 == x.addr / 128)
    let (m1, f) := s.mem.look1 (s.coreOf a) asid (x.addr / 128)
    let m2 := match f with | some l => (m1.flush1 (s.coreOf a) l).1 | none => m1
    ({ s with mem := m2 }).sendReq a o .atomic x.addr 0 accs
  else
    let (m1, room) := if i.hint = 3 then (s.mem, .free) else s.mem.reserve1 (s.coreOf a) asid (x.addr / 128) i.hint a
    if room == .wait then s
    else
      let s1 := ({ s with mem := m1 }).sendReq a o .read x.addr i.hint [x]
      match m1.dcLook die asid x.addr with
      | some y =>
        let p : Resp := { bytes := y.data, pois := y.pois, cls := y.cls, rep := true, slot := y.slot, peer := y.ver.isSome }
        ({ s1 with mem := s1.mem.dcPut die y }).updReq a (fun r => { r with st := .back p })
      | none => s1

/-- The clean stores of a bypass store to one line that miss the L1 and are not held: they go to the slice with their probe
(R52). -/
def State.bypassAccs (s : State) (a : Actor) (o : MemOp) (p : Nat) : State × List Acc :=
  if !(o.info.kind == .store && o.info.hint == 3) then (s, [])
  else
    let (m1, f) := s.mem.look1 (s.coreOf a) (s.ctx a).asid (p / 128)
    ({ s with mem := m1 }, if f.isSome then [] else o.todo.filter (fun x => x.addr / 128 == p / 128 && s.storesNow a o x))

/-- Performs what the operation in flight can perform without waiting, in ascending lane order, and sends the next request
it needs; it stops where an access waits for a way of the L1 (R52), and before its first effect while an earlier operation of its
group is still to take effect (R85, R444). A bypass store, which the slice performs with its probe, sends none until then. -/
def State.memGo : Nat → State → Actor → State
  | 0, s, _ => s
  | n + 1, s, a =>
    match s.opOf a with
    | none => s
    | some o =>
      if o.mesh || o.remote || o.req.isSome then s
      else match o.probes with
      | p :: _ =>
        if o.info.hint = 3 && !(s.ctx a).first o then s
        else
          let (s1, accs) := s.bypassAccs a o p
          if accs.isEmpty then s1.sendReq a o .probe p o.info.hint [] else s1.sendReq a o .bypass p 3 accs
      | [] =>
        if !o.probed then s
        else match o.todo with
        | [] => s.memFinish a o
        | x :: _ =>
          if !(s.ctx a).first o then s
          else match s.tryAcc a o x with
          | (s1, .done r) => memGo n (s1.setOp a (some (o.done x r))) a
          | (s1, .miss) => s1.request a o x
          | (s1, .wait) => s1

/-- Enough rounds for every access of an instruction. -/
def memFuel : Nat := 200

end Sys2Proof.Machine
end

