-- ==== Sys2Proof/Machine/Group.lean ====
section
/-! DEFINITION. The life of groups, workgroups and packs (06 R183, R188, R189, R195, R198; 05 R164, R176; 07 R243): what a
thread gives back, JOIN and barrier episodes, triggers, exits, retirement and kills. -/

namespace Sys2Proof.Machine

/-! Ejected lanes. -/

/-- The registers of a hand-over bitmap. -/
def hsetRegs (h : Nat) : List Nat := (List.range 128).filter (fun i => bit h i)

/-- The state that R195 marks "back" returns to the group, and the thread is free. -/
def State.takeBack (s : State) (a : Actor) (life : Life) : State :=
  let t := s.ctx a
  let x := t.ln t.lane
  let regs := hsetRegs (s.desc a).hset
  let s1 := s.updCtx (.split t.core t.home 0) (fun c =>
    let y := c.ln t.lane
    { c.setLn t.lane { v := regs.foldl (fun v i => Tbl.put v i (x.rd i)) y.v, p := x.p, dr := x.dr, rgn := x.rgn, life := life } with
      fpx := c.fpx ||| t.fpx
      warn := c.warn ||| t.warn })
  s1.setCtx a {}

/-- Whether a lane of the group is ejected with join point j (R198). -/
def State.joinHeld (s : State) (h : Actor) (j : W64) : Bool :=
  (List.range 32).any (fun l => match ((s.ctx h).ln l).life with
    | .ejected t => (s.ctx (.thread (s.dieOf h) t)).jrec == some j
    | _ => false)

/-- Ends the JOIN waits of a group whose lanes are all back (R198). -/
def State.joinCheck (s : State) (h : Actor) : State :=
  let f (x : Split) : Split := match x.wait with
    | .join j => if s.joinHeld h j then x else { x with wait := .none }
    | _ => x
  s.updCtx h (fun c => { c with splits := c.splits.map (fun e => (e.1, f e.2)), pool := c.pool.map f })

/-! Workgroups and their groups. -/

/-- Every resident workgroup with its core and slot. -/
def State.residents (s : State) : List (Nat × Nat × Wg) :=
  s.cores.flatMap (fun c => c.2.wgs.map (fun w => (c.1, w.1, w.2)))

/-- The groups of a resident workgroup that have not exited, with their slots. -/
def State.groupsOf (s : State) (core : Nat) (w : Wg) : List (Nat × Ctx) :=
  (w.slots.map (fun g => (g, s.ctx (.split core g 0)))).filter (fun g => g.2.on)

/-- The lanes of a group that have not exited. -/
def Ctx.alive (c : Ctx) : Nat := maskOf ((List.range 32).filter (fun l => decide ((c.ln l).life ≠ .exited)))

/-- Groups of a workgroup, and its lanes' private range (06 R178; 07 R218; 01 R41). -/
def Desc.groups (d : Desc) : Nat := (d.t + 31) / 32
def Desc.privBase (d : Desc) (w : Nat) : Nat := d.privb + w * d.groups * 32 * d.psz

/-- The teams of a membership word (R181). -/
def teamsOf (t : W64) : List Nat := ((List.range 4).filter (fun i => bit t.toNat (32 + i))).map (fun i => fld t.toNat (8 * i) 8)

/-- The workgroups of a grid that lie on a die (07 R219). -/
def Grid.dieTotal (g : Grid) (die : Nat) : Nat :=
  if !bit g.desc.dmask die then 0
  else
    let m := popN 4 g.desc.dmask
    let n := 2 ^ g.desc.nlog
    (g.desc.w / n + m - 1 - popN die g.desc.dmask) / m * n

/-! Barriers (R188, R189; 11 R352). Keys: 0 workgroup, 1 pack, 2 die, 16 + t team t. -/

/-- The scope of a barrier's release and acquire (03 R101). -/
def barScope (key : Nat) : Nat := if key < 3 then key else 4

/-- The lanes of halted splits, which count as not arrived (R206). -/
def Ctx.haltedLanes (c : Ctx) : Nat :=
  (c.splits.map (·.2) ++ c.pool).foldl (fun m x => if x.halted then m ||| x.mask else m) 0

/-- A group has arrived: every lane of it that has not exited has (R189). -/
def Ctx.arrived (c : Ctx) (key : Nat) : Bool := without c.alive (without (Tbl.get 0 c.arr key) c.haltedLanes) == 0

/-- A resident workgroup has arrived: every group of it that has not exited has. -/
def State.wgArrived (s : State) (core : Nat) (w : Wg) (key : Nat) : Bool :=
  !w.done && (s.groupsOf core w).all (fun g => g.2.arrived key)

/-- Whether a workgroup takes part in a barrier of a workgroup of the same grid. -/
def Wg.peer (key core : Nat) (me w : Wg) (other : Nat) : Bool :=
  w.grid == me.grid && (match key with
    | 0 => other == core && w.w == me.w
    | 1 => w.first == me.first && other / 64 == core / 64
    | 2 => other / 64 == core / 64
    | k => (teamsOf w.teams).contains (k - 16))

/-- The workgroups that are out and take part (a saved pack's arrivals stand). -/
def Grid.outPeers (g : Grid) (key die : Nat) : List Saved :=
  if key < 2 then []
  else (g.packs.filter (fun p => key != 2 || p.die == die)).flatMap (fun p =>
    p.saved.filter (fun w => key = 2 || (teamsOf w.wg.teams).contains (key - 16)))

/-- Whether the open episode of a barrier of a workgroup, resident on a core or out from its die, is complete (R188). -/
def State.barDone (s : State) (core : Nat) (me : Wg) (key : Nat) : Bool :=
  let ps := s.residents.filter (fun r => me.peer key core r.2.2 r.1)
  if key = 0 then s.wgArrived core me 0
  else if key = 1 then ps.all (fun r => r.2.2.done || s.wgArrived r.1 r.2.2 1)
  else match s.gridAt me.grid with
    | none => false
    | some g =>
      let here := (ps.filter (fun r => s.wgArrived r.1 r.2.2 key)).length
      let out := ((g.outPeers key (core / 64)).filter (fun w => !w.wg.done && w.groups.all (fun c => c.2.arrived key))).length
      let due := if key = 2 then g.dieTotal (core / 64) - Tbl.get 0 g.goneDie (core / 64)
        else Tbl.get 0 g.teamCnt (key - 16) - Tbl.get 0 g.goneTeam (key - 16)
      due ≤ here + out

/-- Ends a group's arrivals and waits of a barrier. -/
def Ctx.unbar (c : Ctx) (key : Nat) : Ctx :=
  let f (x : Split) : Split := if x.wait == .bar key then { x with wait := .none } else x
  { c with arr := Tbl.del c.arr key, splits := c.splits.map (fun e => (e.1, f e.2)), pool := c.pool.map f }

/-- Whether a split of the group waits at a barrier. -/
def Ctx.waitsBar (c : Ctx) (key : Nat) : Bool := c.splits.any (fun e => e.2.wait == .bar key) || c.pool.any (fun e => e.wait == .bar key)

/-- An episode completes: waiters continue, each wait an acquire (03 R101). -/
def State.barRelease (s : State) (core : Nat) (me : Wg) (key : Nat) : State :=
  let ps := s.residents.filter (fun r => me.peer key core r.2.2 r.1)
  let s1 := ps.foldl (fun s r =>
    let gs := s.groupsOf r.1 r.2.2
    let m := if gs.any (fun g => g.2.waitsBar key) then s.mem.acquire r.1 (barScope key) else s.mem
    gs.foldl (fun s g => s.updCtx (.split r.1 g.1 0) (fun c => c.unbar key)) { s with mem := m }) s
  if key < 2 then s1
  else s1.updGrid me.grid (fun g => { g with packs := g.packs.map (fun p =>
    if key != 2 || p.die == core / 64 then { p with saved := p.saved.map (fun w => { w with groups := w.groups.map (fun c => (c.1, c.2.unbar key)) }) }
    else p) })

/-- Completes the episode if its arrivals reach the expected count. -/
def State.barCheck (s : State) (core : Nat) (me : Wg) (key : Nat) : State :=
  if s.barDone core me key then s.barRelease core me key else s

/-- The barriers a workgroup can take part in. -/
def Wg.keys (w : Wg) : List Nat := [0, 1, 2] ++ (teamsOf w.teams).map (16 + ·)

/-- The workgroups of a grid that are out, with a core of their die. -/
def State.outs (s : State) (grid : Nat) : List (Nat × Saved) :=
  match s.gridAt grid with
  | some g => g.packs.flatMap (fun p => p.saved.map (fun w => (p.die * 64, w)))
  | none => []

/-- Where expected counts have dropped, halted splits go on, or arrivals have come back, every barrier of the grid is looked at again: those of
resident workgroups, and the die and team barriers at which a workgroup that is out has arrived (R188, R206). -/
def State.barSweep (s : State) (grid : Nat) : State :=
  let s1 := (s.residents.filter (fun r => r.2.2.grid == grid)).foldl (fun s r => r.2.2.keys.foldl (fun s k =>
    if (s.groupsOf r.1 r.2.2).any (fun g => Tbl.get 0 g.2.arr k != 0) then s.barCheck r.1 r.2.2 k else s) s) s
  (s1.outs grid).foldl (fun s r => r.2.wg.keys.foldl (fun s k =>
    if 2 ≤ k && r.2.groups.any (fun c => Tbl.get 0 c.2.arr k != 0) then s.barCheck r.1 r.2.wg k else s) s) s1

/-! Triggers (11 R354; 07 R221). -/

/-- The group triggers once every lane that has not exited has executed TRIG. -/
def State.trigCheck (s : State) (h : Actor) : State :=
  let c := s.ctx h
  if c.on && !c.trigd && c.trig != 0 && c.alive != 0 && without c.alive c.trig == 0 then
    (s.updCtx h (fun c => { c with trigd := true })).updGrid (s.wgOf h).grid (fun g => { g with trigN := g.trigN + 1 })
  else s

/-! Records at the end of regions and groups (05 R164, R176). -/

/-- Whether the REC of a lane that branched to recovery or continued poisoned names a record. -/
def State.recKept (s : State) (h : Actor) (i : Nat) : Bool :=
  (List.range 32).any (fun l => let r := s.rgnAt h l; (r.recv || r.orph) && r.recp != 0 && plIdx r.recp == i)

/-- Whether a record belongs to a group. -/
def Rec.of (r : Rec) (wslot gid : Nat) : Bool := r.live && r.wgs == wslot && r.group == gid

/-- Clears LIVE of the records that a test names. -/
def State.freeRecs (s : State) (core : Nat) (f : Nat → Rec → Bool) : State :=
  s.setCore core { s.core core with side := (s.core core).side.map (fun e => if f e.1 e.2 then (e.1, { e.2 with live := false }) else e) }

/-- When the last lane whose open region has a sequence number has closed it, the group's records of it are freed. -/
def State.closeSeq (s : State) (h : Actor) (q : Nat) : State :=
  if (List.range 32).any (fun l => let r := s.rgnAt h l; r.opn && r.seq == q) then s
  else
    let c := s.ctx h
    s.freeRecs (s.coreOf h) (fun i r => r.of c.wslot c.gid && r.seq == q && !s.recKept h i)

/-- The FAULT events of a group that ends: the records that poisoned lanes' REC name, then its live OUT records (05 R176; 07
R216). A payload that names the sentinel gives its own cause, with the lane (log entry 20). -/
def orphanEvents (asid gtag core wgid gid wslot : Nat) (rgn : Nat → Rgn) (recs : Tbl Rec) : List (BitVec 128) :=
  let ev (cause lane detail : Nat) : BitVec 128 :=
    evRec 3 cause asid gtag core (core / 64) false (wgid % 2 ^ 32 * 2 ^ 32 + gid * 2 ^ 27 + lane * 2 ^ 22 + detail % 2 ^ 22)
  let bad := ((List.range 32).map (fun l => (l, rgn l))).filter (fun e => ((e.2.opn && e.2.p) || e.2.orph) && e.2.recp != 0)
  let named := bad.foldl (fun (ns : List (Nat × Payload)) e =>
    if plIdx e.2.recp ≠ 1023 && ns.any (fun n => plIdx n.2 == plIdx e.2.recp) then ns else ns ++ [(e.1, e.2.recp)]) []
  let outs := recs.filter (fun r => r.2.of wslot gid && r.2.out && !named.any (fun n => plIdx n.2 == r.1))
  named.map (fun n => match Tbl.find recs (plIdx n.2) with
    | some r => ev r.cause r.lane r.detail.toNat
    | none => ev (plCause n.2) n.1 0) ++ outs.map (fun r => ev r.2.cause r.2.lane r.2.detail.toNat)

/-- Delivers the records of a group that ends, marks the grid FAULTED, and frees every record of the group. -/
def State.deliver (s : State) (core slot : Nat) : State :=
  let h : Actor := .split core slot 0
  let c := s.ctx h
  let w := s.wgOf h
  let evs := orphanEvents c.asid (w.grid % 65536) core w.w c.gid c.wslot (s.rgnAt h) (s.core core).side
  let s1 := evs.foldl (fun s e => s.event (core / 64) e) s
  let s2 := if evs.isEmpty then s1 else s1.updGrid w.grid (fun g => { g with status := if g.status = 0 then 1 else g.status })
  s2.freeRecs core (fun _ r => r.of c.wslot c.gid)

/-- Drops the lines of a group's private range (01 R42). -/
def State.dropPrivate (s : State) (core slot : Nat) : State :=
  let h : Actor := .split core slot 0
  let d := s.desc h
  let lo := d.privBase (s.wgOf h).w + (s.ctx h).gid * 32 * d.psz
  { s with mem := s.mem.dropPrivate core (s.ctx h).asid lo (lo + 32 * d.psz) }

/-- Drops the contents of a workgroup's A-, C- and W-buffer frames: they belong to no owner, and no byte is cleared (R243; 01 R45, R46). -/
def State.dropTyped (s : State) (core wslot : Nat) : State :=
  let w : Wg := Tbl.get {} (s.core core).wgs wslot
  let n := match s.gridAt w.grid with | some g => g.desc.frames | none => []
  let mine (k : Nat) : Bool :=
    let sp := k / 2 ^ 15
    sp != 0 && w.alloc.getD sp 0 ≤ k / 128 % 256 && k / 128 % 256 < w.alloc.getD sp 0 + n.getD sp 0
  { s with mem := { s.mem with osec := Tbl.upd [] s.mem.osec core (fun t => t.filter (fun e => !mine e.1)) } }

/-! Packs. -/

/-- The members of the resident pack whose first workgroup is `first`: core, slot, workgroup. -/
def State.packWgs (s : State) (grid first die : Nat) : List (Nat × Nat × Wg) :=
  s.residents.filter (fun r => r.2.2.grid == grid && r.2.2.first == first && r.1 / 64 == die)

/-- Counts a workgroup as exited or killed for barriers (R188). -/
def Grid.count (g : Grid) (die : Nat) (w : Wg) : Grid :=
  { g with
    goneDie := Tbl.upd 0 g.goneDie die (· + 1)
    goneTeam := (teamsOf w.teams).foldl (fun t k => Tbl.upd 0 t k (· + 1)) g.goneTeam }

/-- Takes a workgroup off its core: its slot, frames, groups, engine programs, entries and token requests (R243). -/
def State.freeWg (s : State) (core wslot : Nat) : State :=
  let w : Wg := Tbl.get {} (s.core core).wgs wslot
  let mine (a : Actor) : Bool := s.coreOf a == core && (s.ctx a).wslot == wslot && !a.isCtl && (s.ctx a).on
  let d := core / 64
  let back := ((s.core core).mq.filter (fun m => m.wslot == wslot)).foldl (fun n m => n + m.passes.foldl (fun n p => n + p.tokens) 0) 0
  let held := s.die d
  let holders := w.slots.map (fun g => Actor.split core g 0) ++ if w.mrun then [Actor.mseq core] else []
  let asked := holders.foldl (fun n a => let c := s.ctx a; if c.tok == .granted then n + c.tokN else n) 0
  let s0 := s.setDie d { held with ptq := held.ptq.filter (fun r => !mine r.1), used := held.used - (back + asked) }
  let s1 := { s0 with
    mem := s0.mem.forget core mine
    groups := w.slots.foldl (fun t g => Tbl.del t (core * 32 + g)) s0.groups
    threads := s0.threads.filter (fun t => !(t.2.on && t.2.core == core && t.2.wslot == wslot))
    mseqs := if w.mrun then Tbl.del s0.mseqs core else s0.mseqs
    -- the numbers of its held results are not used again, since operations of another workgroup may name some (12 R375)
    cseqs := if w.crun then Tbl.put s0.cseqs core (s.ctx (.cseq core)).ended else s0.cseqs }
  let co := s1.core core
  let pm := if w.slots.isEmpty then co.permits else
    co.permits - (w.slots.filter (fun g => match (s.ctx (.split core g 0)).svc with
      | some v => v.permit && v.stage == 0 | none => false)).length
  s1.setCore core { co with
    wgs := Tbl.del co.wgs wslot
    quar := co.quar.filter (fun e => !w.slots.contains e.slot)
    mq := co.mq.filter (fun m => m.wslot != wslot)
    permits := pm }

/-- A pack whose members have all exited retires and frees its cores (R183). -/
def State.retirePack (s : State) (grid first die : Nat) : State :=
  let ms := s.packWgs grid first die
  let s1 := ms.foldl (fun s r => s.freeWg r.1 r.2.1) s
  s1.updGrid grid (fun g =>
    { g with packs := g.packs.filter (fun p => !(p.die == die && p.p * 2 ^ g.desc.nlog == first)), retired := g.retired + 1 })

/-- Kills a resident pack: its held stores are discarded and its records delivered (R183, R203; 05 R176; 07 R243). -/
def State.killPack (s : State) (grid first die : Nat) : State :=
  let ms := s.packWgs grid first die
  let s1 := ms.foldl (fun s r =>
    let s2 := ((s.groupsOf r.1 r.2.2).foldl (fun s g => (s.deliver r.1 g.1).dropPrivate r.1 g.1) s).dropTyped r.1 r.2.1
    let trig := ((s.groupsOf r.1 r.2.2).filter (fun g => !g.2.trigd)).length
    s2.updGrid grid (fun g => { (if r.2.2.done then g else g.count die r.2.2) with trigN := g.trigN + trig })) s
  (s1.retirePack grid first die).barSweep grid

/-- The placement unit's offered requests enter the intake queue of 1,024 as far as it has room (04 R144). -/
def Port.takeIn (q : Port) : Port :=
  let n := 1024 - q.intake.length
  { q with intake := q.intake ++ q.offered.take n, offered := q.offered.drop n }

/-- Withdraws the page requests of a workgroup of a grid, and its fault tokens (04 R146). -/
def State.withdraw (s : State) (grid w die : Nat) (toks : List Nat) : State :=
  let d := s.die die
  let s1 := s.setDie die { d with tokens := d.tokens.filter (fun t => !toks.contains t.token) }
  { s1 with ports := s1.ports.map (fun p => (p.1, ({ p.2 with
    intake := p.2.intake.filter (fun r => !(r.grid == grid && r.w == w))
    offered := p.2.offered.filter (fun r => !(r.grid == grid && r.w == w)) }).takeIn)) }

/-- Kills a pack that is out: the records of its saved groups are delivered, as from the first core of its die, since it stands on none (log
entry 67), its requests withdrawn (05 R176; 04 R146). -/
def State.killSaved (s : State) (grid : Nat) (p : Pack) : State :=
  match s.gridAt grid with
  | none => s
  | some g =>
    let s0 := p.saved.foldl (fun s w => s.withdraw grid w.wg.w p.die
      (w.groups.flatMap (fun c => match c.2.svc with | some v => v.tokens | none => []))) s
    let s1 := p.saved.foldl (fun s w =>
      let evs := w.groups.foldl (fun es c => if c.2.on then
        es ++ orphanEvents c.2.asid g.tag (p.die * 64) w.wg.w c.2.gid c.2.wslot (fun l => (c.2.ln l).rgn) w.recs else es) []
      let s2 := evs.foldl (fun s e => s.event p.die e) s
      let trig := (w.groups.filter (fun c => c.2.on && !c.2.trigd)).length
      s2.updGrid grid (fun g => { (if w.wg.done then g else g.count p.die w.wg) with
        status := if g.status = 0 && !evs.isEmpty then 1 else g.status
        trigN := g.trigN + trig })) s0
    (s1.updGrid grid (fun g =>
      { g with packs := g.packs.filter (fun q => !(q.p == p.p && q.die == p.die)), retired := g.retired + 1 })).barSweep grid

/-! Releases that a slice refuses (02 R76; 03 R95). -/

/-- Marks every lane of the issuing group with COMPRESS_SPILL for a slice that refused a write-back of its release (05 R158). -/
def State.refused (s : State) (sls : List Nat) : State :=
  match sls with
  | [] => s
  | sl :: _ =>
    let h := s.homeActor s.cur.act
    let lanes := (s.ctx h).alive
    let (s1, p) := s.alloc1 h s.cur.pc lanes ⟨cCompressSpill, sl⟩ 0
    (s1.sinks h s.cur.pc ((lanesOf lanes).map (fun l => (l, p)))).seqMark

/-- A release by the executing actor at a scope (02 R56). A control core has no L1. -/
def State.doRelease (s : State) (scope : Nat) : State :=
  if s.cur.act.isCtl then s
  else
    let (m, r) := s.mem.release (s.coreOf s.cur.act) scope
    ({ s with mem := m }).refused r

/-- An acquire by the executing actor at a scope. -/
def State.doAcquire (s : State) (scope : Nat) : State :=
  if s.cur.act.isCtl then s else { s with mem := s.mem.acquire (s.coreOf s.cur.act) scope }

/-! Exit. -/

/-- All lanes of a group have exited: its private lines go (01 R42), the release of the workgroup's last group (03 R110), the records,
triggers and barriers; the pack retires with its last workgroup (11 R347). -/
def State.groupEnd (s : State) (core slot : Nat) : State :=
  let h : Actor := .split core slot 0
  let c := s.ctx h
  let w := s.wgOf h
  let last := (s.groupsOf core w).all (fun g => g.1 == slot)
  let s0 := s.dropPrivate core slot
  let s1 := if last then
      let (m, r) := s0.mem.release core 5
      match r with
      | [] => { s0 with mem := m }
      | sl :: _ => (({ s0 with mem := m }).alloc1 h s.cur.pc 1 ⟨cCompressSpill, sl⟩ 0).1
    else s0
  let s2 := s1.deliver core slot
  let s3 := (s2.updCtx h Ctx.ended).updGrid w.grid (fun g => if c.trigd then g else { g with trigN := g.trigN + 1 })
  let s4 := s3.setCore core { s3.core core with
    quar := (s3.core core).quar.filter (fun e => e.slot != slot)
    permits := (s3.core core).permits - b2n (match c.svc with | some v => v.permit && v.stage == 0 | none => false) }
  if !last then s4.barSweep w.grid
  else
    let s5 := ((s4.dropTyped core c.wslot).updWg core c.wslot (fun g => { g with done := true, ops := [] })).updGrid w.grid (fun g => g.count (core / 64) w)
    let s6 := s5.barSweep w.grid
    if (s6.packWgs w.grid w.first (core / 64)).all (fun r => r.2.2.done) then s6.retirePack w.grid w.first (core / 64) else s6

/-- Lanes of a group exit: clean open regions are released, poisoned lanes discard (05 R176); the lanes count as exited for
barriers, triggers and JOIN (11 R347). -/
def State.exitLanes (s : State) (h : Actor) (slot mask : Nat) : State :=
  let core := s.coreOf h
  let rg (l : Nat) : Rgn := ((s.ctx h).ln l).rgn
  let ls := lanesOf mask
  let clean := maskOf (ls.filter (fun l => (rg l).opn && !(rg l).p && !(rg l).orph))
  let bad := maskOf (ls.filter (fun l => ((rg l).opn && (rg l).p) || (rg l).orph))
  let s1 := s.resolveHeld h slot clean bad (fun r => !r)
  let s2 := s1.resolveHeld h slot 0 bad (fun _ => true)
  let s3 := s2.updCtx h (fun c =>
    let c := c.warns (flagIf (ls.any (fun l => (rg l).opn && !(rg l).p)) wRgnOpenExit)
    let c := ls.foldl (fun c l =>
      let x := c.ln l
      c.setLn l { x with life := .exited, rgn := { x.rgn with opn := false, orph := x.rgn.orph || (x.rgn.opn && x.rgn.p) } }) c
    { c with
      arr := c.arr.map (fun e => (e.1, without e.2 mask))
      trig := without c.trig mask
      svc := c.svc.map (fun v => { v with
        cont := without v.cont mask
        replay := without v.replay mask
        recov := without v.recov mask
        handler := without v.handler mask }) })
  let seqs := (ls.filter (fun l => (rg l).opn)).foldl (fun q l => if q.contains (rg l).seq then q else q ++ [(rg l).seq]) ([] : List Nat)
  let s4 := seqs.foldl (fun s q => s.closeSeq h q) s3
  let s5 := s4.joinCheck h
  if (s5.ctx h).alive = 0 then s5.groupEnd core slot
  else (s5.trigCheck h).barSweep (s5.wgOf h).grid

end Sys2Proof.Machine
end

