-- ==== Sys2Proof/Machine/LaneInt.lean ====
section
/-! DEFINITION. The integer, logic, bit-field, compare, select, move and shuffle instructions of the lane set (10 R300 to
R309). Each result function is on plain words; the meanings apply them lane by lane. -/

namespace Sys2Proof.Machine

/-! Result functions. -/

/-- A word as an exact integer, natural or signed (R300). -/
def ival (n : Bool) (w : W32) : Int := if n then (w.toNat : Int) else w.toInt

/-- An exact result narrowed to 32 bits: wrapped, or clamped under `.sat` (R300; 08 R246). -/
def narrow (n sat : Bool) (t : Int) : W32 :=
  if !sat then BitVec.ofInt 32 t
  else if n then BitVec.ofInt 32 (max 0 (min (2 ^ 32 - 1) t))
  else BitVec.ofInt 32 (max (-(2 ^ 31)) (min (2 ^ 31 - 1) t))

/-- The sign-extended 9-bit immediate as a word. -/
def imm9 (i : Nat) : W32 := BitVec.ofInt 32 (toS 9 (i % 512))

def fIadd (m : Nat) (a b : W32) : W32 := narrow (bit m 0) (bit m 1) (ival (bit m 0) a + ival (bit m 0) b)
def fIsub (m : Nat) (a b : W32) : W32 := narrow (bit m 0) (bit m 1) (ival (bit m 0) a - ival (bit m 0) b)
def fImul (a b : W32) : W32 := a * b
def fImulh (m : Nat) (a b : W32) : W32 := BitVec.ofInt 32 ((ival (bit m 0) a * ival (bit m 0) b) / 2 ^ 32)
def fImad (m : Nat) (d a b : W32) : W32 := narrow (bit m 0) (bit m 1) (ival (bit m 0) d + ival (bit m 0) a * ival (bit m 0) b)
def fImin (m : Nat) (a b : W32) : W32 := if ival (bit m 0) a ≤ ival (bit m 0) b then a else b
def fImax (m : Nat) (a b : W32) : W32 := if ival (bit m 0) a ≤ ival (bit m 0) b then b else a
def fIabs (m : Nat) (a b : W32) : W32 :=
  narrow (bit m 0) (bit m 1) ((ival (bit m 0) a - ival (bit m 0) b).natAbs : Int)
def fSad (m : Nat) (d a b : W32) : W32 := d + BitVec.ofNat 32 (ival (bit m 0) a - ival (bit m 0) b).natAbs

/-- Shift count of the register forms: bits [7:0] (R301). -/
def cnt8 (b : W32) : Nat := b.toNat % 256

def fShl (n : Nat) (a : W32) : W32 := a <<< n
def fShr (n : Nat) (a : W32) : W32 := a >>> n
def fSar (n : Nat) (a : W32) : W32 := a.sshiftRight n
def fRot (n : Nat) (a : W32) : W32 := a.rotateLeft (n % 32)

def fPopc (a : W32) : W32 := BitVec.ofNat 32 (popN 32 a.toNat)
def fClz (a : W32) : W32 := BitVec.ofNat 32 (if a = 0 then 32 else 31 - Nat.log2 a.toNat)
def fBrev (a : W32) : W32 := BitVec.ofNat 32 (maskOf ((List.range 32).filter (fun i => bit a.toNat (31 - i))))

/-- The width of a bit field, none when no field exists (R302). -/
def fieldW (pos len : Nat) : Option Nat := if 32 ≤ pos || len == 0 then none else some (min len (32 - pos))

/-- A bit field, sign- or zero-extended; 0 when none exists (R302). -/
def fBfx (nat : Bool) (pos len : Nat) (a : W32) : W32 :=
  match fieldW pos len with
  | none => 0
  | some w => if nat then BitVec.ofNat 32 (fld a.toNat pos w) else BitVec.ofInt 32 (toS w (fld a.toNat pos w))

def fBfi (pos len : Nat) (d a : W32) : W32 :=
  match fieldW pos len with
  | none => d
  | some w => BitVec.ofNat 32 (d.toNat - fld d.toNat pos w * 2 ^ pos + a.toNat % 2 ^ w * 2 ^ pos)

/-- One byte of BYSEL by its nibble (R302). -/
def byselByte (a k : Nat) : Nat :=
  if bit k 3 then 0
  else
    let b := fld a (8 * (k % 4)) 8
    if bit k 2 then (if bit b 7 then 255 else 0) else b

def fBysel (a b : W32) : W32 :=
  BitVec.ofNat 32 ((List.range 4).foldl (fun n i => n + byselByte a.toNat (fld b.toNat (4 * i) 4) * 2 ^ (8 * i)) 0)

/-- A comparison of exact integers: 0 LT, 1 LE, 2 EQ, 3 NE (R303). -/
def cmpI (c : Nat) (a b : Int) : Bool :=
  match c with | 0 => decide (a < b) | 1 => decide (a ≤ b) | 2 => decide (a = b) | _ => decide (a ≠ b)

/-! Integer arithmetic (R300). -/

def execIadd (d a b m : Nat) (s : State) : Out := s.vr2 d a b 0 (fIadd m)
def execIsub (d a b m : Nat) (s : State) : Out := s.vr2 d a b 0 (fIsub m)
def execImul (d a b m : Nat) (s : State) : Out := s.vr2 d a b (ignW (m != 0)) fImul
def execImulh (d a b m : Nat) (s : State) : Out := s.vr2 d a b (ignW (bit m 1)) (fImulh m)
def execImad (d a b m : Nat) (s : State) : Out := s.vr3 d a b 0 (fImad m)
def execImin (d a b m : Nat) (s : State) : Out := s.vr2 d a b (ignW (bit m 1)) (fImin m)
def execImax (d a b m : Nat) (s : State) : Out := s.vr2 d a b (ignW (bit m 1)) (fImax m)
def execIabs (d a b m : Nat) (s : State) : Out := s.vr2 d a b 0 (fIabs m)
def execSad (d a b m : Nat) (s : State) : Out := s.vr3 d a b (ignW (bit m 1)) (fSad m)

/-- a + b + p7 into d and p7; poison in the order a, b, p7 (R300, R298). -/
def execAddc (d a b m : Nat) (s : State) : Out :=
  s.laneOp [a, b] (ignW (m != 0)) (fun _ x =>
    match firstBad [(x.rd a).pl?, (x.rd b).pl?, (x.pr 7).pl?] with
    | some p => { vs := [(d, .bad p)], ps := [(7, .bad p)] }
    | none =>
      let t := ((x.rd a).getD 0).toNat + ((x.rd b).getD 0).toNat + b2n (x.pTrue 7)
      { vs := [(d, .ok (BitVec.ofNat 32 t))], ps := [(7, .ok (2 ^ 32 ≤ t))] })

def execIaddi (d a imm : Nat) (s : State) : Out := s.vr1 d a 0 (· + imm9 imm)
def execImuli (d a imm : Nat) (s : State) : Out := s.vr1 d a 0 (· * imm9 imm)

/-! Logic and shifts (R301). -/

def execAnd32 (d a b m : Nat) (s : State) : Out := s.vr2 d a b (ignW (m != 0)) (· &&& ·)
def execOr32 (d a b m : Nat) (s : State) : Out := s.vr2 d a b (ignW (m != 0)) (· ||| ·)
def execXor32 (d a b m : Nat) (s : State) : Out := s.vr2 d a b (ignW (m != 0)) (· ^^^ ·)
def execAndn (d a b m : Nat) (s : State) : Out := s.vr2 d a b (ignW (m != 0)) (fun x y => x &&& ~~~y)
def execShl (d a b m : Nat) (s : State) : Out := s.vr2 d a b (ignW (m != 0)) (fun x y => fShl (cnt8 y) x)
def execShr (d a b m : Nat) (s : State) : Out := s.vr2 d a b (ignW (m != 0)) (fun x y => fShr (cnt8 y) x)
def execSar (d a b m : Nat) (s : State) : Out := s.vr2 d a b (ignW (m != 0)) (fun x y => fSar (cnt8 y) x)
def execRot (d a b m : Nat) (s : State) : Out := s.vr2 d a b (ignW (m != 0)) (fun x y => fRot (cnt8 y) x)
def execAndi (d a imm : Nat) (s : State) : Out := s.vr1 d a 0 (· &&& imm9 imm)
def execOri (d a imm : Nat) (s : State) : Out := s.vr1 d a 0 (· ||| imm9 imm)
def execXori (d a imm : Nat) (s : State) : Out := s.vr1 d a 0 (· ^^^ imm9 imm)
def execShli (d a imm : Nat) (s : State) : Out := s.vr1 d a (ignW (32 ≤ imm)) (fShl (imm % 32))
def execShri (d a imm : Nat) (s : State) : Out := s.vr1 d a (ignW (32 ≤ imm)) (fShr (imm % 32))
def execSari (d a imm : Nat) (s : State) : Out := s.vr1 d a (ignW (32 ≤ imm)) (fSar (imm % 32))

/-! Bit fields (R302). -/

def execPopc (d a b m : Nat) (s : State) : Out := s.vr1 d a (ignW (m != 0 || b != 0)) fPopc
def execClz (d a b m : Nat) (s : State) : Out := s.vr1 d a (ignW (m != 0 || b != 0)) fClz
def execBrev (d a b m : Nat) (s : State) : Out := s.vr1 d a (ignW (m != 0 || b != 0)) fBrev
def execBfx (d a b m : Nat) (s : State) : Out :=
  s.vr2 d a b (ignW (bit m 1)) (fun x y => fBfx (bit m 0) (fld y.toNat 0 8) (fld y.toNat 8 8) x)
def execBfi (d a b m : Nat) (s : State) : Out :=
  s.vr3 d a b (ignW (m != 0)) (fun w x y => fBfi (fld y.toNat 0 8) (fld y.toNat 8 8) w x)
def execBysel (d a b m : Nat) (s : State) : Out := s.vr2 d a b (ignW (m != 0)) fBysel
def execBfxi (d a imm : Nat) (s : State) : Out := s.vr1 d a 0 (fBfx true (fld imm 0 5) (fld imm 5 4 + 1))

/-! Compares (R303). -/

/-- ISET with a condition. -/
def State.iset (s : State) (c d a b m : Nat) : Out :=
  s.laneOp [a, b] (ignW (8 ≤ d)) (fun _ => lrSet (d % 8) a b (bit m 1) (fun x y => cmpI c (ival (bit m 0) x) (ival (bit m 0) y)))

def execIsetLt (d a b m : Nat) (s : State) : Out := s.iset 0 d a b m
def execIsetLe (d a b m : Nat) (s : State) : Out := s.iset 1 d a b m
def execIsetEq (d a b m : Nat) (s : State) : Out := s.iset 2 d a b m
def execIsetNe (d a b m : Nat) (s : State) : Out := s.iset 3 d a b m

/-- ISETI: signed with the sign-extended, natural with the zero-extended immediate. -/
def State.iseti (s : State) (c : Nat) (n : Bool) (d a imm : Nat) : Out :=
  s.laneOp [a] (ignW (8 ≤ d)) (fun _ x =>
    match (x.rd a).pl? with
    | some p => { ps := [(d % 8, .bad p)] }
    | none => { ps := [(d % 8, .ok (cmpI c (ival n ((x.rd a).getD 0)) (if n then ((imm % 512 : Nat) : Int) else toS 9 (imm % 512))))] })

def execIsetiLt (d a imm : Nat) (s : State) : Out := s.iseti 0 false d a imm
def execIsetiLe (d a imm : Nat) (s : State) : Out := s.iseti 1 false d a imm
def execIsetiEq (d a imm : Nat) (s : State) : Out := s.iseti 2 false d a imm
def execIsetiNe (d a imm : Nat) (s : State) : Out := s.iseti 3 false d a imm
def execIsetiLtn (d a imm : Nat) (s : State) : Out := s.iseti 0 true d a imm
def execIsetiLen (d a imm : Nat) (s : State) : Out := s.iseti 1 true d a imm

/-! Select and predicate logic (R304, R305). -/

def execSel (d a b m : Nat) (s : State) : Out :=
  s.laneOp [a, b] 0 (fun _ x =>
    { vs := [(d, match x.pr (m % 4 + 1) with | .bad p => .bad p | .ok c => if c then x.rd a else x.rd b)] })

/-- 00 AND, 01 OR, 10 XOR, 11 ANDN. -/
def plop (m : Nat) (a b : Bool) : Bool := match m with | 0 => a && b | 1 => a || b | 2 => a != b | _ => a && !b

def execPlop (d a b m : Nat) (s : State) : Out :=
  s.laneOp [] (ignW (8 ≤ d || 8 ≤ a || 8 ≤ b)) (fun _ x =>
    match firstBad [(x.pr a).pl?, (x.pr b).pl?] with
    | some p => { ps := [(d % 8, .bad p)] }
    | none => { ps := [(d % 8, .ok (plop m (x.pTrue a) (x.pTrue b)))] })

/-! Moves, special reads, shuffles (R306 to R309). -/

/-- MOV; m = 11 executes as MOV with MOD_RSVD. -/
def execMov (d a b m : Nat) (s : State) : Out :=
  s.laneOp [a] (ignW (b != 0) ||| flagIf (m == 3) wModRsvd) (fun _ x => { vs := [(d, x.rd a)] })

/-- A lane instruction that reads other lanes' registers: an ejected lane is recalled before it (06 R201). -/
def State.laneHome (s : State) (wn : W32) (f : State → Nat → Lane → LRes) : Out :=
  if s.cur.act.isThread then .next s.recallMe else s.laneSet (fun s => (s.warns wn).eachLane (f s))

def execBcast (d a b m : Nat) (s : State) : Out :=
  s.laneHome (ignW (32 ≤ b || m != 1)) (fun s _ _ => { vs := [(d, (s.me.ln (b % 32)).rd a)] })

/-- GETL (R306; 09 R274): bits [31:0] of the register for each lane. -/
def execGetl (d a b m : Nat) (s : State) : Out :=
  s.laneSet (fun s => (s.warns (ignW (b != 0 || m != 2) ||| flagIf (15 ≤ a) wModRsvd)).eachLane (fun l x =>
    { vs := [(d, if a = 12 then .ok (BitVec.ofNat 32 x.rgn.view) else half64 (s.special l a) false)] }))

/-- The source lane of a shuffle (R307). -/
def shflSrc (mode k l : Nat) : Nat :=
  match mode with
  | 0 => k % 32
  | 1 => if k ≤ l then l - k else l
  | 2 => if l + k ≤ 31 then l + k else l
  | _ => l ^^^ (k % 32)

def execShfl (d a b m : Nat) (s : State) : Out :=
  s.laneHome 0 (fun s l x =>
    { vs := [(d, match x.rd b with | .bad p => .bad p | .ok k => (s.me.ln (shflSrc m k.toNat l)).rd a)] })

def execShfli (d a imm : Nat) (s : State) : Out :=
  s.laneHome (ignW (fld imm 5 2 != 0)) (fun s l _ => { vs := [(d, (s.me.ln (shflSrc (fld imm 7 2) (fld imm 0 5) l)).rd a)] })

/-- The 16-bit immediate a:imm9 (09 R290). -/
def imm16 (a imm : Nat) : Nat := a % 128 * 512 + imm % 512

def execMovi (d a imm : Nat) (s : State) : Out :=
  s.laneOp [] 0 (fun _ _ => { vs := [(d, .ok (BitVec.ofInt 32 (toS 16 (imm16 a imm))))] })

def execMovhi (d a imm : Nat) (s : State) : Out :=
  s.laneOp [d] 0 (fun _ x => { vs := [(d, match x.rd d with
    | .bad p => .bad p
    | .ok w => .ok (BitVec.ofNat 32 (imm16 a imm * 65536 + w.toNat % 65536)))] })

end Sys2Proof.Machine
end

