-- ==== Sys2Proof/Machine/Uniform.lean ====
section
/-! DEFINITION. Scalar arithmetic, compares, selects and predicate logic of the uniform set (11 R334 to R339), cross-lane
reads (R340), special registers (R341). Operands are read and results written in the file of the executing context:
a group, a thread's private copy, a control-core thread or an engine sequencer (R329). -/

namespace Sys2Proof.Machine

/-! Values. -/

/-- A uniform word as an exact integer, natural or signed (R334). -/
def ival64 (n : Bool) (w : W64) : Int := if n then (w.toNat : Int) else w.toInt

/-- An exact result narrowed to 64 bits: wrapped, or clamped under `.sat` (R334; 08 R246). -/
def narrow64 (n sat : Bool) (t : Int) : W64 :=
  if !sat then BitVec.ofInt 64 t
  else if n then BitVec.ofInt 64 (max 0 (min (2 ^ 64 - 1) t))
  else BitVec.ofInt 64 (max (-(2 ^ 63)) (min (2 ^ 63 - 1) t))

def fSadd (m : Nat) (a b : W64) : W64 := narrow64 (bit m 0) (bit m 1) (ival64 (bit m 0) a + ival64 (bit m 0) b)
def fSsub (m : Nat) (a b : W64) : W64 := narrow64 (bit m 0) (bit m 1) (ival64 (bit m 0) a - ival64 (bit m 0) b)
def fSmulh (m : Nat) (a b : W64) : W64 := BitVec.ofInt 64 ((ival64 (bit m 0) a * ival64 (bit m 0) b) / 2 ^ 64)
def fSmin (m : Nat) (a b : W64) : W64 := if ival64 (bit m 0) a ≤ ival64 (bit m 0) b then a else b
def fSmax (m : Nat) (a b : W64) : W64 := if ival64 (bit m 0) a ≤ ival64 (bit m 0) b then b else a

/-- Shift count of the register forms: bits [7:0]. -/
def scnt (b : W64) : Nat := b.toNat % 256

def fSpopc (a : W64) : W64 := BitVec.ofNat 64 (popN 64 a.toNat)
def fSclz (a : W64) : W64 := BitVec.ofNat 64 (if a = 0 then 64 else 63 - Nat.log2 a.toNat)

/-- Whether a division has no result: by zero, or the one that leaves the signed range (R334). -/
def divBad (n quot : Bool) (a b : W64) : Bool := b == 0 || (quot && !n && a.toInt == -(2 ^ 63) && b.toInt == -1)

def fSdiv (n : Bool) (a b : W64) : W64 := BitVec.ofInt 64 (Int.tdiv (ival64 n a) (ival64 n b))
def fSrem (n : Bool) (a b : W64) : W64 := BitVec.ofInt 64 (Int.tmod (ival64 n a) (ival64 n b))

/-- The sign-extended 10-bit immediate. -/
def imm10 (i : Nat) : W64 := sext64 10 i

/-- A function of two uniform registers, with the first poison (05 R157). -/
def Ctx.s2 (c : Ctx) (a b : Nat) (f : W64 → W64 → W64) : Val W64 :=
  match firstBad [(c.rs a).pl?, (c.rs b).pl?] with
  | some p => .bad p
  | none => .ok (f ((c.rs a).getD 0) ((c.rs b).getD 0))

/-- A function of one uniform register. -/
def Ctx.s1 (c : Ctx) (a : Nat) (f : W64 → W64) : Val W64 :=
  match c.rs a with
  | .bad p => .bad p
  | .ok v => .ok (f v)

/-! Shapes. -/

/-- A guarded scalar instruction that only changes the context. -/
def State.gr (s : State) (regs : List Nat) (g : Nat) (wn : W32) (f : Ctx → Ctx) : Out :=
  s.uni1 Legal.all regs (fun s => s.guarded g (fun s => (s.warns wn).upd f))

/-- d := f a b. -/
def State.gr2 (s : State) (d a b g : Nat) (wn : W32) (f : W64 → W64 → W64) : Out :=
  s.gr [d, a, b] g wn (fun c => c.ws d (c.s2 a b f))

/-- d := f a, with b required to be 0. -/
def State.gr1 (s : State) (d a b g : Nat) (wn : W32) (f : W64 → W64) : Out :=
  s.gr [d, a] g (wn ||| ignW (b != 0)) (fun c => c.ws d (c.s1 a f))

/-- A GI form: d := f a. -/
def State.gi (s : State) (d a : Nat) (wn : W32) (f : W64 → W64) : Out :=
  s.gr [d, a] 0 wn (fun c => c.ws d (c.s1 a f))

/-! Arithmetic (R334). -/

def execSadd (d a b g m : Nat) (s : State) : Out := s.gr2 d a b g 0 (fSadd m)
def execSsub (d a b g m : Nat) (s : State) : Out := s.gr2 d a b g 0 (fSsub m)
def execSmul (d a b g m : Nat) (s : State) : Out := s.gr2 d a b g (ignW (m != 0)) (· * ·)
def execSmulh (d a b g m : Nat) (s : State) : Out := s.gr2 d a b g (ignW (bit m 1)) (fSmulh m)
def execSand (d a b g m : Nat) (s : State) : Out := s.gr2 d a b g (ignW (m != 0)) (· &&& ·)
def execSor (d a b g m : Nat) (s : State) : Out := s.gr2 d a b g (ignW (m != 0)) (· ||| ·)
def execSxor (d a b g m : Nat) (s : State) : Out := s.gr2 d a b g (ignW (m != 0)) (· ^^^ ·)
def execSshl (d a b g m : Nat) (s : State) : Out := s.gr2 d a b g (ignW (m != 0)) (fun x y => x <<< scnt y)
def execSshr (d a b g m : Nat) (s : State) : Out := s.gr2 d a b g (ignW (m != 0)) (fun x y => x >>> scnt y)
def execSsar (d a b g m : Nat) (s : State) : Out := s.gr2 d a b g (ignW (m != 0)) (fun x y => x.sshiftRight (scnt y))
def execSmin (d a b g m : Nat) (s : State) : Out := s.gr2 d a b g (ignW (bit m 1)) (fSmin m)
def execSmax (d a b g m : Nat) (s : State) : Out := s.gr2 d a b g (ignW (bit m 1)) (fSmax m)
def execSpopc (d a b g m : Nat) (s : State) : Out := s.gr1 d a b g (ignW (m != 0)) fSpopc
def execSclz (d a b g m : Nat) (s : State) : Out := s.gr1 d a b g (ignW (m != 0)) fSclz
def execSmov (d a b g m : Nat) (s : State) : Out := s.gr1 d a b g (ignW (m != 0)) id

/-- A division; one without a result gives poison(INVALID_OP, word) (R334). -/
def State.sdivide (s : State) (quot : Bool) (d a b g m : Nat) (f : W64 → W64 → W64) : Out :=
  s.uni1 Legal.all [d, a, b] (fun s => s.guarded g (fun s =>
    let s := s.warns (ignW (bit m 1))
    let none? := (firstBad [(s.me.rs a).pl?, (s.me.rs b).pl?]).isNone && divBad (bit m 0) quot ((s.me.rs a).getD 0) ((s.me.rs b).getD 0)
    if none? then
      let (s1, p) := s.fault1 ⟨cInvalidOp, s.cur.word⟩
      s1.upd (fun c => c.ws d (.bad p))
    else s.upd (fun c => c.ws d (c.s2 a b f))))

def execSdiv (d a b g m : Nat) (s : State) : Out := s.sdivide true d a b g m (fSdiv (bit m 0))
def execSrem (d a b g m : Nat) (s : State) : Out := s.sdivide false d a b g m (fSrem (bit m 0))

/-- a + b + q7 into d and q7; poison in the order a, b, q7. -/
def execSaddc (d a b g m : Nat) (s : State) : Out :=
  s.gr [d, a, b] g (ignW (m != 0)) (fun c =>
    match firstBad [(c.rs a).pl?, (c.rs b).pl?, (c.rq 7).pl?] with
    | some p => (c.ws d (.bad p)).wq 7 (.bad p)
    | none =>
      let t := ((c.rs a).getD 0).toNat + ((c.rs b).getD 0).toNat + b2n (c.qTrue 7)
      (c.ws d (.ok (BitVec.ofNat 64 t))).wq 7 (.ok (2 ^ 64 ≤ t)))

/-! Compares (R335, R338). -/

/-- SSET: q[d[2:0]] := a cond b, and with `.and` also q[d]. -/
def State.sset (s : State) (k d a b g m : Nat) : Out :=
  s.gr [a, b] g (ignW (8 ≤ d)) (fun c =>
    c.wq (d % 8) (match firstBad [(c.rs a).pl?, (c.rs b).pl?, if bit m 1 then (c.rq (d % 8)).pl? else none] with
      | some p => .bad p
      | none => .ok (cmpI k (ival64 (bit m 0) ((c.rs a).getD 0)) (ival64 (bit m 0) ((c.rs b).getD 0)) && (!bit m 1 || c.qTrue (d % 8)))))

def execSsetLt (d a b g m : Nat) (s : State) : Out := s.sset 0 d a b g m
def execSsetLe (d a b g m : Nat) (s : State) : Out := s.sset 1 d a b g m
def execSsetEq (d a b g m : Nat) (s : State) : Out := s.sset 2 d a b g m
def execSsetNe (d a b g m : Nat) (s : State) : Out := s.sset 3 d a b g m

/-- SSETI: signed with the sign-extended, natural with the zero-extended immediate. -/
def State.sseti (s : State) (k : Nat) (n : Bool) (d a imm : Nat) : Out :=
  s.gr [a] 0 (ignW (8 ≤ d)) (fun c =>
    c.wq (d % 8) (match c.rs a with
      | .bad p => .bad p
      | .ok v => .ok (cmpI k (ival64 n v) (if n then ((imm % 1024 : Nat) : Int) else toS 10 (imm % 1024)))))

def execSsetiLt (d a imm : Nat) (s : State) : Out := s.sseti 0 false d a imm
def execSsetiEq (d a imm : Nat) (s : State) : Out := s.sseti 2 false d a imm
def execSsetiLtn (d a imm : Nat) (s : State) : Out := s.sseti 0 true d a imm

/-! Select and predicate logic (R336, R337). -/

/-- SSEL takes no guard: its field selects q1 to q4. -/
def execSsel (d a b g m : Nat) (s : State) : Out :=
  s.gr [d, a, b] 0 (ignW (m != 0)) (fun c =>
    c.ws d (match c.rq (g % 4 + 1) with
      | .bad p => .bad p
      | .ok t => if t then c.rs a else c.rs b))

def execQlop (d a b g m : Nat) (s : State) : Out :=
  s.gr [] g (ignW (8 ≤ d || 8 ≤ a || bit b 3 || m != 0)) (fun c =>
    c.wq (d % 8) (match firstBad [(c.rq (a % 8)).pl?, (c.rq (b % 8)).pl?] with
      | some p => .bad p
      | none => .ok (plop (fld b 4 2) (c.qTrue (a % 8)) (c.qTrue (b % 8)))))

/-! Immediates (R338, R339). -/

def execSaddi (d a imm : Nat) (s : State) : Out := s.gi d a 0 (· + imm10 imm)
def execSandi (d a imm : Nat) (s : State) : Out := s.gi d a 0 (· &&& imm10 imm)
def execSori (d a imm : Nat) (s : State) : Out := s.gi d a 0 (· ||| imm10 imm)
def execSxori (d a imm : Nat) (s : State) : Out := s.gi d a 0 (· ^^^ imm10 imm)
def execSshli (d a imm : Nat) (s : State) : Out := s.gi d a (ignW (64 ≤ imm)) (· <<< (imm % 64))
def execSshri (d a imm : Nat) (s : State) : Out := s.gi d a (ignW (64 ≤ imm)) (· >>> (imm % 64))
def execSsari (d a imm : Nat) (s : State) : Out := s.gi d a (ignW (64 ≤ imm)) (·.sshiftRight (imm % 64))
def execSmuli (d a imm : Nat) (s : State) : Out := s.gi d a 0 (· * imm10 imm)

def execSmovi (d imm : Nat) (s : State) : Out := s.gr [d] 0 0 (fun c => c.ws d (.ok (sext64 18 imm)))
def execShi18 (d imm : Nat) (s : State) : Out :=
  s.gr [d] 0 0 (fun c => c.ws d (c.s1 d (fun v => v * 0x40000 + BitVec.ofNat 64 imm)))

/-- The address of the instruction, or of its dictionary code, plus the offset in halfwords. -/
def execSadr (d imm : Nat) (s : State) : Out :=
  let pc := s.cur.pc
  s.gr [d] 0 0 (fun c => c.ws d (.ok (pc + sext64 18 imm * 2)))

/-! Cross-lane reads (R340). -/

/-- A cross-lane form: recalled from a thread (06 R201), illegal without lanes. -/
def State.cross (s : State) (g : Nat) (wn : W32) (f : List Nat → Ctx → Ctx) : Out :=
  s.uni1 Legal.home [] (fun s => s.guarded g (fun s => (s.warns wn).upd (f s.active)))

/-- A lane's word zero-extended, with its poison. -/
def zext64 (v : Val W32) : Val W64 := match v with | .bad p => .bad p | .ok w => .ok (w.setWidth 64)

def execVtou (d a b g m : Nat) (s : State) : Out :=
  s.cross g (ignW (bit b 5 || m != 0)) (fun _ c => c.ws d (zext64 ((c.ln (b % 32)).rd a)))

/-- BALLOT writes s[d]; ANY, ALL and UNI write q[d[2:0]]. The lowest poisoned lane's payload prevails. -/
def execVote (d a b g m : Nat) (s : State) : Out :=
  s.cross g (ignW (8 ≤ a || 4 ≤ b || m != 0 || (b % 4 != 0 && 8 ≤ d))) (fun ls c =>
    let ps := ls.map (fun l => (l, (c.ln l).pr (a % 8)))
    let n := (ps.filter (fun e => e.2.getD false)).length
    match firstBad (ps.map (fun e => e.2.pl?)) with
    | some p => if b % 4 = 0 then c.ws d (.bad p) else c.wq (d % 8) (.bad p)
    | none =>
      match b % 4 with
      | 0 => c.ws d (.ok (BitVec.ofNat 64 (maskOf ((ps.filter (fun e => e.2.getD false)).map (·.1)))))
      | 1 => c.wq (d % 8) (.ok (n != 0))
      | 2 => c.wq (d % 8) (.ok (n == ls.length))
      | _ => c.wq (d % 8) (.ok (n == 0 || n == ls.length)))

/-- The reduction of a nonempty list of words (R340); a signed minimum or maximum keeps its sign (log entry 16). -/
def redx (op : Nat) (ws : List W32) : W64 :=
  let nat (f : Nat → Nat → Nat) : W64 := match ws.map (·.toNat) with | [] => 0 | x :: r => BitVec.ofNat 64 (r.foldl f x)
  let int (f : Int → Int → Int) : W64 := match ws.map (·.toInt) with | [] => 0 | x :: r => BitVec.ofInt 64 (r.foldl f x)
  match op with
  | 0 => BitVec.ofInt 64 ((ws.map (·.toInt)).foldl (· + ·) 0)
  | 1 => BitVec.ofNat 64 ((ws.map (·.toNat)).foldl (· + ·) 0)
  | 2 => int min
  | 3 => nat min
  | 4 => int max
  | 5 => nat max
  | 6 => nat (· &&& ·)
  | _ => nat (· ||| ·)

def execRedx (d a b g m : Nat) (s : State) : Out :=
  s.cross g (ignW (8 ≤ b || m != 0)) (fun ls c =>
    let vs := ls.map (fun l => (c.ln l).rd a)
    c.ws d (match firstBad (vs.map (·.pl?)) with
      | some p => .bad p
      | none => .ok (redx (b % 8) (vs.map (·.getD 0)))))

/-! Special registers (R341; 09 R274). -/

def execGets (d a b g m : Nat) (s : State) : Out :=
  s.uni1 Legal.noSeq [] (fun s => s.guarded g (fun s =>
    let v := s.special ((lowest 32 s.mask).getD 0) a
    (s.warns (ignW (b != 0 || m != 0) ||| flagIf (15 ≤ a) wModRsvd)).upd (fun c => c.ws d v)))

/-- The write of a special register. -/
def State.putSpecial (s : State) (n : Nat) (v : W64) : State :=
  match n with
  | 9 => s.upd (fun c => s.active.foldl (fun c l => c.wdr l (.ok (v.setWidth 32))) c)
  | 10 => s.updSp (fun x => { x with lc := v.setWidth 32 })
  | 11 => s.upd (fun c => { c with warn := v.setWidth 32 &&& warnMask })
  | 13 => s.upd (fun c => { c with fpx := v.setWidth 32 &&& fpxMask })
  | 14 => s.upd (fun c => { c with fpm := v.setWidth 32 &&& 1 })
  | _ => s

def execPuts (d a b g m : Nat) (s : State) : Out :=
  s.uni1 Legal.noSeq [] (fun s => s.guarded g (fun s =>
    match s.me.rs a with
    | .bad p => s.sinkAll p
    | .ok v => (s.warns (ignW (b != 0 || m != 0) ||| flagIf (15 ≤ d) wModRsvd)).putSpecial d v))

end Sys2Proof.Machine
end

