-- ==== Sys2Proof/Machine/Engine.lean ====
section
/-! DEFINITION. What the copy and routing engines do (12 R378 to R384; 01 R33, R38, R39; 05 R155): descriptors, element moves,
W-buffer decoding, multicast. Engines read and write global memory at the home slices (03 R105). -/

namespace Sys2Proof.Machine

/-- The workgroup an engine acts for: core, slot, ASID, owner slot, supervisor mode, an actor of it that names its views and
takes its warnings. -/
structure Eng where
  act : Actor
  core : Nat
  wslot : Nat
  asid : Nat
  slot : Nat
  sup : Bool
  deriving DecidableEq, Repr

/-- The engine's view of the workgroup of a group. -/
def State.engOf (s : State) (a : Actor) (sup : Bool) : Eng :=
  ⟨a, s.coreOf a, (s.ctx a).wslot, (s.ctx a).asid, s.owner a, sup⟩

def Eng.who (e : Eng) : Who := ⟨some e.core, e.core / 64, e.sup, true⟩

def EFlt.g (f : Flt) (va : Nat) : EFlt := { flt := f, va := va, page := va % 2 ^ 55 / 65536 }

/-- ENGINE_FAULT of an engine at a byte offset of its descriptor (05 R161). -/
def engFlt (eng off : Nat) : Flt := ⟨cEngineFault, eng + off * 256⟩

/-! Bytes. -/

/-- n bytes from an address, cut at sectors. -/
def sectorsOf (va n : Nat) : List (Nat × Nat) :=
  ((List.range (n / 32 + 2)).map (fun i =>
    let st := max va ((va / 32 + i) * 32)
    (st, min (va + n) ((va / 32 + i + 1) * 32) - st))).filter (fun e => e.2 != 0)

/-- Whether a piece of an access from an address is the first in its line: one access to a line counts once (02 R63; 04 R133). -/
def firstOf (va at' : Nat) : Bool := at' == va || at' % 128 == 0

/-- Reads n bytes of global memory for an engine: the number with a poison bit for each byte that a poisoned sector holds (05 R155), or the
fault with the address of the bytes that met it. -/
def Mem.readN (m : Mem) (who : Who) (asid va n hint : Nat) : Mem × Except (Nat × Flt) (Nat × Nat) :=
  (sectorsOf va n).foldl (fun (acc : Mem × Except (Nat × Flt) (Nat × Nat)) e =>
    match acc.2 with
    | .error _ => acc
    | .ok (x, p) => match acc.1.readP who asid e.1 e.2 hint 1 (firstOf va e.1) with
      | (m, .error f) => (m, .error (e.1, f))
      | (m, .ok (y, f)) => (m, .ok (x + y * 2 ^ (8 * (e.1 - va)), p + if f.isSome then ones (e.1 - va) e.2 else 0))) (m, .ok (0, 0))

/-- Writes n bytes of global memory for an engine with their poison; or the fault with its address. -/
def Mem.writeN (m : Mem) (who : Who) (asid va n x poi hint : Nat) : Mem × Option (Nat × Flt) :=
  (sectorsOf va n).foldl (fun (acc : Mem × Option (Nat × Flt)) e =>
    match acc.2 with
    | some _ => acc
    | none =>
      let (m, f) := acc.1.writeG who asid e.1 e.2 (x / 2 ^ (8 * (e.1 - va)) % 2 ^ (8 * e.2)) (fld poi (e.1 - va) e.2) hint (firstOf va e.1)
      (m, f.map (fun f => (e.1, f)))) (m, none)

/-- The fault of an address as an engine records it. -/
def EFlt.at' (e : Nat × Flt) : EFlt := EFlt.g e.2 e.1

/-- An error that a read of an on-chip space met: where its bytes begin, how many of those read they are, and its fault. -/
structure OcErr where
  pos : LPos
  n : Nat
  flt : Flt
  deriving DecidableEq, Repr

/-- The position `d` bytes further on. -/
def LPos.add (p : LPos) (d : Nat) : LPos := { p with off := p.off + d, byte := p.byte + d }

/-- Reads n bytes of an on-chip space: the number, and the errors of its sectors in their order. -/
def State.ocGetN (s : State) (p : LPos) (n slot : Nat) : State × Nat × List OcErr :=
  let r := (sectorsOf p.byte n).foldl (fun (acc : Mem × Nat × List OcErr) e =>
    let (m, y, err) := acc.1.ocRead p.core p.sp e.1 e.2 slot
    let q := p.add (e.1 - p.byte)
    (m, acc.2.1 + y * 2 ^ (8 * (e.1 - p.byte)), acc.2.2 ++ (err.map (fun x => (⟨q, e.2, ⟨x.1, q.detail x.2⟩⟩ : OcErr))).toList)) (s.mem, 0, [])
  ({ s with mem := r.1 }, r.2)

/-- The errors of a read as a poison bit for each byte. -/
def poisonOf (p : LPos) (es : List OcErr) : Nat := es.foldl (fun k e => k ||| ones (e.pos.byte - p.byte) e.n) 0

/-! The pass word (R366). -/

def pwBf (w : Nat) : Nat := fld w 27 5
def pwAf (w : Nat) : Nat := fld w 22 5
def pwN (w : Nat) : Nat := 8 * (fld w 16 5 + 1)
def pwCb (w : Nat) : Nat := 8 * fld w 11 5
def pwKb (w : Nat) : Nat := fld w 0 8
def pwRsvd (w : Nat) : Bool := bit w 21 || fld w 8 3 != 0

/-- k-blocks of a pass by its N:32 (0 dense, 16, 8). -/
def nkOf (spn : Nat) : Nat := if spn = 16 then 2 else if spn = 8 then 4 else 1

/-- Bytes of an A row. -/
def aBytes (w spn : Nat) : Nat := 32 * nkOf spn * fmtW (pwAf w) / 8

/-! Engine writes beside passes (12 R370; 03 R104). -/

/-- The ranges of the on-chip spaces that a pass reads as A and B: (core, space, first byte, bytes). -/
def State.passReads (s : State) (p : Pass) : List (Nat × Nat × Nat × Nat) :=
  if p.zero.isSome then []
  else
    let v := Tbl.get {} (Tbl.get ({} : Wg) (s.core p.w.core).wgs p.w.wslot).views (48 + p.w.view)
    (p.w.core, 3, p.w.byte, (v.nfr + 1) * 4096) :: p.rows.map (fun r => (r.a.core, 1, r.a.byte, aBytes p.word p.spn))

/-- The ranges of the C-buffer that a pass reads and writes. -/
def Pass.outputs (p : Pass) : List (Nat × Nat × Nat × Nat) :=
  p.rows.map (fun r => (r.c.core, 2, r.c.byte, 4 * p.zero.getD (pwN p.word)))

/-- Whether n bytes of a shadow run lie in frames that a pass under way has resolved to: until it completes, an engine's write there is
held (03 R104). -/
def State.frameHeld (s : State) (p : LPos) (n : Nat) : Bool :=
  (Tbl.get {} (Tbl.get ({} : Wg) (s.core p.core).wgs p.wslot).views (p.sp * 16 + p.view)).shd
    && s.cores.any (fun c => c.2.mq.any (fun o => o.passes.any (fun q => (s.passReads q ++ q.outputs).any (fun r =>
      r.1 == p.core && r.2.1 == p.sp && r.2.2.1 / 4096 ≤ (p.byte + n - 1) / 4096 && p.byte / 4096 ≤ (r.2.2.1 + r.2.2.2 - 1) / 4096))))

/-- Before an engine writes n bytes of an operand space, the passes under way that read there keep the bytes of the sectors as they were, each
with the error that its sector had: each may still be read (12 R370). -/
def State.noteOld (s : State) (p : LPos) (n slot : Nat) : State :=
  if s.cores.all (fun c => c.2.mq.isEmpty) then s
  else
    let lo := p.byte / 32 * 32
    let olds := (List.range ((p.byte + n + 31) / 32 * 32 - lo)).map (fun i =>
      let (_, x, err) := s.mem.ocRead p.core p.sp (lo + i) 1 slot
      (lo + i, match err with | some e => Sum.inl e | none => Sum.inr (BitVec.ofNat 8 x)))
    let keep (o : MatOp) : MatOp :=
      let rs := (o.passes.flatMap s.passReads).filter (fun r => r.1 == p.core && r.2.1 == p.sp)
      { o with old := o.old ++ (olds.filter (fun b => rs.any (fun r => r.2.2.1 ≤ b.1 && b.1 < r.2.2.1 + r.2.2.2))).map (fun b => (p.core, p.sp, b.1, b.2)) }
    { s with cores := s.cores.map (fun c => (c.1, { c.2 with mq := c.2.mq.map keep })) }

/-- An engine's write of n bytes of an on-chip space with their poison: a sector that takes a poisoned byte is poisoned (05 R155). -/
def State.ocPutN (s : State) (p : LPos) (n x slot poi : Nat) (keep : Bool) : State :=
  if s.frameHeld p n then { s with mem := { s.mem with stall := true } }
  else (sectorsOf p.byte n).foldl (fun s e =>
    s.ocPut p.core p.wslot p.sp e.1 e.2 (x / 2 ^ (8 * (e.1 - p.byte)) % 2 ^ (8 * e.2)) slot (fld poi (e.1 - p.byte) e.2 != 0) keep) (if p.sp = 0 then s else s.noteOld p n slot)

/-! Copy descriptors (R378, R379). -/

/-- A parsed copy descriptor: dimensions as (count, source stride, destination stride). -/
structure CDesc where
  src : Nat
  dst : Nat
  scl : Nat
  ssp : Nat
  dsp : Nat
  scope : Nat
  hint : Nat
  esz : Nat
  spn : Nat
  tm : Bool
  tslot : Nat
  rfl : Bool
  mcast : Nat
  dims : List (Nat × Int × Int)
  deriving DecidableEq, Repr

def CDesc.parse (x : Nat) : CDesc :=
  { src := fld x 192 64
    dst := fld x 128 64
    scl := fld x 64 64
    ssp := fld x 61 3
    dsp := fld x 58 3
    scope := fld x 55 3
    hint := fld x 53 2
    esz := fld x 50 3
    spn := fld x 45 2
    tm := bit x 44
    tslot := fld x 42 2
    rfl := bit x 41
    mcast := fld x 16 16
    dims := (List.range (fld x 47 3 + 1)).map (fun k =>
      (fld x (256 + 128 * k + 96) 32, toS 48 (fld x (256 + 128 * k + 48) 48), toS 48 (fld x (256 + 128 * k) 48))) }

/-- The byte offset of the field that makes a descriptor an error (R380, R382, R384; 01 R33: the copy engine reads neither
the A-buffer nor the W-buffer). -/
def copyErr (x : Nat) (peer : Bool) : Option Nat :=
  let d := CDesc.parse x
  if 4 < d.ssp || d.ssp == 3 then some 7
  else if 5 < d.dsp || (peer && d.dsp != 0) then some 7
  else if d.dsp == 5 && d.ssp != 0 then some 7
  else if d.dsp == 5 && d.spn == 3 then some 5
  else if d.dsp != 5 && 4 < d.esz then some 6
  else if fld x 32 9 != 0 then some 4
  else if fld x 0 16 != 0 then some 0
  else if d.tm && (peer || d.dsp != 1) then some 5
  else if peer && d.mcast != 0 then some 2
  else none

/-- The warning of a reserved scope code of a global destination, which acts as system (03 R83). Each write of an engine takes effect at
its slice, and one to the host or CXL memory has gone on to its target by then, so that the status follows both (R383; 03 R106). -/
def CDesc.scopeWarn (d : CDesc) : W32 := flagIf (d.dsp == 0 && 5 < d.scope) wScopeRsvd

def CDesc.total (d : CDesc) : Nat := d.dims.foldl (fun n k => n * k.1) 1

/-- Source and destination offsets of the element with a linear index, dimension 0 the fastest. -/
def CDesc.offs (d : CDesc) (i : Nat) : Int × Int :=
  let r := d.dims.foldl (fun (a : Nat × Int × Int) k =>
    let j : Int := ((a.1 % k.1 : Nat) : Int)
    (a.1 / k.1, a.2.1 + j * k.2.1, a.2.2 + j * k.2.2)) (i, 0, 0)
  r.2

/-- The VS space code of a copy space (own scratchpad, pack scratchpad, A, C). -/
def copySpace (c : Nat) : Nat := c - 1

/-! Elements. -/

/-- Where an element goes. -/
inductive Dest where
  | mem (va : Nat)
  | chip (ps : List LPos)
  deriving DecidableEq, Repr

/-- The workgroups a copy writes to: its own, members of a pack multicast, or those of a team (R382). -/
inductive Cast where
  | own
  | pack (ms : List Nat)
  | team (ws : List Nat)
  deriving DecidableEq, Repr

/-- A local address in given workgroups, member bits ignored, or the first fault. -/
def State.castPos (s : State) (targets : List (Nat × Nat)) (sp la n : Nat) : Except Flt (List LPos) :=
  if la % n != 0 then .error ⟨cMisalign, n⟩
  else if fld la 20 4 != 0 then .error ⟨cBounds, la⟩
  else targets.foldl (fun acc t => match acc with
    | .error f => .error f
    | .ok ps => match s.viewPos t.1 t.2 sp (fld la 24 4) (fld la 0 20) true with
      | none => .error ⟨cBounds, la⟩
      | some p => .ok (ps ++ [p])) (.ok [])

/-- The cores and slots that a cast names. -/
def State.targets (s : State) (e : Eng) (c : Cast) : List (Nat × Nat) :=
  match c with
  | .own => [(e.core, e.wslot)]
  | .pack ms => ms.filterMap (fun m => s.memberAt e.act m)
  | .team ws => ws.filterMap (fun w => (s.residents.find? (fun r => r.2.2.grid == (s.wgOf e.act).grid && r.2.2.w == w)).map (fun r => (r.1, r.2.1)))

/-- The destination of an element of n bytes that is no W-buffer slot. -/
def State.destPos (s : State) (e : Eng) (d : CDesc) (cast : Cast) (t n : Nat) : Except EFlt Dest :=
  if d.dsp = 0 then
    if t % n != 0 then .error (EFlt.g ⟨cMisalign, n⟩ t) else .ok (.mem t)
  else
    let la := t % 2 ^ 32
    let r : Except Flt (List LPos) := match cast with
      | .own => match s.laddr e.act (copySpace d.dsp) la n true with
        | .error f => .error f
        | .ok p => .ok [p]
      | c => s.castPos (s.targets e c) (spaceOf (copySpace d.dsp)) (la % 2 ^ 28) n
    match r with
    | .error f => .error { flt := f, page := 2 ^ 60 + 2 ^ 50 + la / 4096 }
    | .ok ps => .ok (.chip ps)

/-- Writes an element of n bytes with their poison. -/
def State.putElem (s : State) (e : Eng) (d : CDesc) (keep : Bool) (dt : Dest) (n x poi : Nat) : State × Option EFlt :=
  match dt with
  | .mem va => let (m, f) := s.mem.writeN e.who e.asid va n x poi d.hint; ({ s with mem := m }, f.map EFlt.at')
  | .chip ps => (ps.foldl (fun s p => s.ocPutN p n x e.slot poi keep) s, none)

/-- Reads an element of 2^ESZ bytes: its number and their poison (R380). -/
def State.getElem (s : State) (e : Eng) (d : CDesc) (src : Nat) : State × Except EFlt (Nat × Nat) :=
  let n := 2 ^ d.esz
  if d.ssp = 0 then
    if src % n != 0 then (s, .error (EFlt.g ⟨cMisalign, n⟩ src))
    else match s.mem.readN e.who e.asid src n d.hint with
      | (m, .error f) => ({ s with mem := m }, .error (EFlt.at' f))
      | (m, .ok v) => ({ s with mem := m }, .ok v)
  else match s.laddr e.act (copySpace d.ssp) (src % 2 ^ 32) n with
    | .error f => (s, .error { flt := f, page := 2 ^ 60 + 2 ^ 50 + src % 2 ^ 32 / 4096 })
    | .ok p => let (s1, x, es) := s.ocGetN p n e.slot; (s1, .ok (x, poisonOf p es))

/-- Moves an element of 2^ESZ bytes (R380). -/
def State.moveElem (s : State) (e : Eng) (d : CDesc) (cast : Cast) (keep : Bool) (src dst : Nat) : State × Option EFlt :=
  match s.getElem e d src with
  | (s1, .error f) => (s1, some f)
  | (s1, .ok (x, poi)) => match s1.destPos e d cast dst (2 ^ d.esz) with
    | .error f => (s1, some f)
    | .ok dt => s1.putElem e d keep dt (2 ^ d.esz) x poi

/-- Bytes of a column's elements in a slot (R367): w-bit elements, dense or N:32. -/
def slotBytes (fmt spn : Nat) : Nat :=
  if spn = 0 then 4 * fmtW fmt else blockBytes fmt 2 (if spn = 1 then 16 else 8)

/-- A `.t5p` block as 8 bytes of `.t2`, and whether a reserved byte was met (08 R257). -/
def t5block (x : Nat) : Nat × Bool :=
  ((List.range 32).foldl (fun n e => n + fld (t5dec (x / 2 ^ (8 * (e / 5)) % 256)).1 (2 * (e % 5)) 2 * 2 ^ (2 * e)) 0,
   (List.range 7).any (fun b => (t5dec (x / 2 ^ (8 * b) % 256)).2))

/-- The poison of the bytes of such a block from that of its 7 bytes: a byte is poisoned when one that it comes from is. -/
def t5poison (p : Nat) : Nat := maskOf ((List.range 8).filter (fun i => fld p (8 * i / 10) ((8 * i + 7) / 10 + 1 - 8 * i / 10) != 0))

/-- Formats of B (08 R261). -/
def bFmt (f : Nat) : Bool := f == 1 || f == 2 || (11 ≤ f && f ≤ 17) || f == 19 || f == 20

/-- Moves one block of 32 elements into a W-buffer slot (R381). `page` is the format and geometry of the first element's
page. -/
def State.moveBlock (s : State) (e : Eng) (d : CDesc) (cast : Cast) (keep : Bool) (first : Option (Nat × Nat)) (i src : Nat) (t : Int) :
    State × Option (Nat × Nat) × Option EFlt :=
  match s.mem.hash (e.core / 64) e.asid src with
  | .error f => (s, first, some (EFlt.g f src))
  | .ok sl => match s.mem.translate sl e.asid src 1 e.who false false (cnt := false) with
    | (m, .error f) => ({ s with mem := m }, first, some (EFlt.g f src))
    | (m, .ok tr) =>
      let raw := (fld tr.raw 55 5, fld tr.raw 53 2)
      let s := { s with mem := m }.warnOf e.act (decCfg raw.1 raw.2).2.2
      let (fmt, geom) := ((decCfg raw.1 raw.2).1, (decCfg raw.1 raw.2).2.1)
      let fits := bFmt fmt && (geom == 2) == (d.spn != 0) && !(fmt == 20 && geom != 1)
      if !fits || (first.getD raw != raw) then (s, first, some (EFlt.g (engFlt 2 24) src))
      else
        let n := if fmt = 20 then 7 else slotBytes fmt d.spn
        let cb := if fmt = 20 then 8 else n
        let slotIx : Int := ((d.dst % 2 ^ 20 : Nat) : Int) + t
        let v : Wg := Tbl.get {} (s.core e.core).wgs e.wslot
        let view := fld d.dst 24 4
        let lim (g : Wg) : Nat := ((Tbl.get {} g.views (48 + view)).nfr + 1) * 4096
        let off := (slotIx * (cb + 1)).toNat
        let tg := s.targets e cast
        let oks := 0 ≤ slotIx && fld d.dst 20 4 == 0 && tg.all (fun c =>
          off + cb + 1 ≤ lim (Tbl.get {} (s.core c.1).wgs c.2) && (s.viewPos c.1 c.2 3 view off true).isSome)
        let bnd : EFlt := { flt := ⟨cBounds, d.dst % 2 ^ 32⟩, page := 2 ^ 60 + 2 ^ 51 + view }
        if !oks || (v.views.isEmpty && tg.isEmpty) then (s, some raw, some bnd)
        else
          let (m1, r) := s.mem.readN e.who e.asid src n d.hint
          let s1 := { s with mem := m1 }
          match r with
          | .error f => (s1, some raw, some (EFlt.at' f))
          | .ok (x, p) =>
            let (x', w) := if fmt = 20 then t5block x else (x, false)
            let p' := if fmt = 20 then t5poison p else p
            let s2 := s1.warnOf e.act (flagIf w wTernRsvd)
            let (m2, sc) := if d.scl = 0 then (s2.mem, Except.ok (127, 0)) else s2.mem.readN e.who e.asid (d.scl + i) 1 d.hint
            let s3 := { s2 with mem := m2 }
            match sc with
            | .error f => (s3, some raw, some (EFlt.at' f))
            | .ok (y, q) =>
              let ps := tg.filterMap (fun c => s3.viewPos c.1 c.2 3 view off true)
              (ps.foldl (fun s pos => s.ocPutN pos (cb + 1) (x' + y * 2 ^ (8 * cb)) e.slot (p' + q * 2 ^ cb) keep) s3, some raw, none)

/-- The die with which a team multicast's target was lost, if one was (13 R417). -/
def State.castLost (s : State) (e : Eng) (c : Cast) : Option Nat :=
  match c, s.gridAt (s.wgOf e.act).grid with
  | .team ws, some g => ws.findSome? (fun w => Tbl.find g.lost (w / 2 ^ g.desc.nlog))
  | _, _ => none

/-- Moves the elements from index i on; the first that fails ends the transfer (R379, R380). -/
def State.copyRun (e : Eng) (d : CDesc) (cast : Cast) (keep : Bool) : Nat → Nat → Option (Nat × Nat) → State → State × Nat × Option EFlt
  | 0, i, _, s => (s, i, none)
  | n + 1, i, first, s =>
    let o := d.offs i
    let src := (((d.src : Int) + o.1) % 2 ^ 64).toNat
    match s.castLost e cast with
    | some die => (s, i, some { flt := ⟨cDieLost, die⟩ })
    | none =>
    if d.dsp = 5 then
      match s.moveBlock e d cast keep first i src o.2 with
      | (s1, _, some f) => (s1, i, some f)
      | (s1, fg, none) => State.copyRun e d cast keep n (i + 1) fg s1
    else
      match s.moveElem e d cast keep src (((d.dst : Int) + o.2) % 2 ^ 64).toNat with
      | (s1, some f) => (s1, i, some f)
      | (s1, none) => State.copyRun e d cast keep n (i + 1) first s1

/-- The LIST of a team (06 R185). -/
def State.teamList (s : State) (e : Eng) (team : Nat) : State × Except EFlt (List Nat) :=
  let a := (s.desc e.act).teamt + 16 * team
  match s.mem.readMany e.who e.asid a 2 0 with
  | (m, .error f) => ({ s with mem := m }, .error (EFlt.at' f))
  | (m, .ok x) =>
    let lst := fld x 64 64
    (List.range (fld x 32 16)).foldl (fun (acc : State × Except EFlt (List Nat)) i => match acc.2 with
      | .error _ => acc
      | .ok ws => match acc.1.mem.readG e.who e.asid (lst + 4 * i) 4 0 with
        | (m, .error f) => ({ acc.1 with mem := m }, .error (EFlt.g f (lst + 4 * i)))
        | (m, .ok w) => ({ acc.1 with mem := m }, .ok (ws ++ [w]))) ({ s with mem := m }, .ok [])

/-- A whole copy of a workgroup under a descriptor: the elements moved, or the fault of its status (R379 to R382). -/
def State.copyGo (s : State) (e : Eng) (x : Nat) (refill : Bool) : State × Nat × Option EFlt :=
  match copyErr x false with
  | some off => (s, 0, some { flt := engFlt 2 off })
  | none =>
    let d := CDesc.parse x
    let keep := d.rfl || refill
    let s := s.warnOf e.act d.scopeWarn
    let wn (s : State) (w : W32) : State := s.warnOf e.act w
    if d.tm then
      let tw := (s.wgOf e.act).teams.toNat
      if !(s.desc e.act).cosched then (s, 0, some { flt := engFlt 2 5 })
      else if !bit tw (32 + d.tslot) then (wn s (flag wTeamNone), 0, none)
      else match s.teamList e (fld tw (8 * d.tslot) 8) with
        | (s1, .error f) => (s1, 0, some f)
        | (s1, .ok ws) => State.copyRun e d (.team ws) keep d.total 0 none s1
    else if d.mcast != 0 && d.dsp != 0 then
      let n := s.packSize e.act
      let ms := (List.range n).filter (fun m => bit d.mcast m)
      State.copyRun e d (.pack ms) keep d.total 0 none (wn s (flagIf (2 ^ n ≤ d.mcast) wMcastOut))
    else State.copyRun e d .own keep d.total 0 none (wn s (ignW (d.mcast != 0)))

/-- Reads n bytes at an aligned local address of the own scratchpad. -/
def State.localNum (s : State) (e : Eng) (la al n : Nat) : State × Except EFlt Nat :=
  match s.laddr e.act 0 la al with
  | .error f => (s, .error { flt := f, page := 2 ^ 60 + 2 ^ 50 + la / 4096 })
  | .ok p =>
    let g : Wg := Tbl.get {} (s.core e.core).wgs e.wslot
    if ((Tbl.get {} g.views p.view).nfr + 1) * 4096 < p.off + n then
      (s, .error { flt := ⟨cBounds, la⟩, page := 2 ^ 60 + 2 ^ 50 + la / 4096 })
    else match s.ocGetN p n e.slot with
      | (s1, _, f :: _) => (s1, .error { flt := f.flt, page := f.pos.page, cln := f.pos.cln })
      | (s1, x, []) => (s1, .ok x)

/-- Reads a descriptor of n bytes at a local address, which must be a multiple of 32 (R377, R385). -/
def State.localDesc (s : State) (e : Eng) (la n : Nat) : State × Except EFlt Nat := s.localNum e la 32 n

/-- Reads a descriptor of n bytes of global memory. -/
def State.globalDesc (s : State) (e : Eng) (va n : Nat) : State × Except EFlt Nat :=
  if va % 8 != 0 then (s, .error (EFlt.g ⟨cMisalign, 8⟩ va))
  else match s.mem.readMany e.who e.asid va (n / 8) 0 with
    | (m, .error f) => ({ s with mem := m }, .error (EFlt.at' f))
    | (m, .ok x) => ({ s with mem := m }, .ok x)

/-- The sectors of a space of a workgroup's view, in its front and shadow runs, that are poisoned under an owner slot. -/
def State.badSectors (s : State) (core : Nat) (g : Wg) (sp : Nat) (v : View) (slot : Nat) : List Nat :=
  ((Tbl.get [] s.mem.osec core).filter (fun e =>
    let f := e.1 / 128 - sp * 256 - g.alloc.getD sp 0
    e.1 / 2 ^ 15 == sp && e.2.tag == slot && e.2.pois != 0 && g.alloc.getD sp 0 ≤ e.1 / 128 % 256
      && ((v.front ≤ f && f ≤ v.front + v.nfr) || (v.shd && v.shadow ≤ f && f ≤ v.shadow + v.nfr)))).map (·.1)

/-- Sectors of a core's on-chip spaces as clean sectors of one repeated byte. -/
def State.painted (s : State) (core : Nat) (ks : List Nat) (b : Byte) : State :=
  { s with mem := ks.foldl (fun m k =>
      { (m.setOsec core k { m.osecAt core k with pois := 0, ecc := none }) with
        oc := Tbl.upd [] m.oc core (fun t => (List.range 32).foldl (fun t i => Tbl.set 0 t (32 * k + i) b) t) }) s.mem }

/-- Takes the poison off what a run has written clean as a whole: a sector, or an element of the C-buffer, whose bytes it leaves the same
whatever they were before (05 R154). -/
def State.cleanse (s : State) (core : Nat) (ks : List Nat) (a b : Mem) : State :=
  let same (i : Nat) : Bool := Tbl.get 0 (Tbl.get [] a.oc core) i == Tbl.get 0 (Tbl.get [] b.oc core) i
  { s with mem := ks.foldl (fun m k =>
      let o := m.osecAt core k
      let p := (a.osecAt core k).pois
      m.setOsec core k { o with pois :=
        if k / 2 ^ 15 = 2 then without o.pois (maskOf ((List.range 8).filter (fun e => !bit p e && (List.range 4).all (fun i => same (32 * k + 4 * e + i)))))
        else if p = 0 && (List.range 32).all (fun i => same (32 * k + i)) then 0 else o.pois }) s.mem }

/-- Refills a CLEAN view by running its RLD descriptor (01 R39; 05 R172). The run is one write: a sector that its elements cover together with
clean data is clean (log entry 61). -/
def State.refill (s : State) (e : Eng) (sp view : Nat) : State × Option EFlt :=
  let g : Wg := Tbl.get {} (s.core e.core).wgs e.wslot
  let v := Tbl.get {} g.views (sp * 16 + view)
  match s.globalDesc e v.rld.toNat 160 with
  | (s1, .error f) => (s1, some f)
  | (s1, .ok x) =>
    match s1.copyGo e x true with
    | (s2, _, some f) => (s2, some f)
    | (s2, _, none) =>
      let ks := s2.badSectors e.core g sp v e.slot
      if ks.isEmpty then (s2, none)
      else (s2.cleanse e.core ks ((s1.painted e.core ks 0).copyGo e x true).1.mem ((s1.painted e.core ks 255).copyGo e x true).1.mem, none)

/-! Status (R377, R383). -/

/-- The status word of an operation: kind, count, second choices, drops. -/
def statusWord (kind count second drop : Nat) : W64 :=
  BitVec.ofNat 64 (kind * 2 ^ 62 + min 0xFFFFFF count * 2 ^ 24 + min 0xFFF second * 2 ^ 12 + min 0xFFF drop)

/-- Writes a status to an arrival of an operation, which a program of a core's copy sequencer may have issued: a record of its own and
marks where it is poison (R150, R158, R375, R377). A program that has ended has no register left for it, and one of another workgroup that
the sequencer runs meanwhile has nothing to do with it. -/
def State.giveStatus (s : State) (core wslot : Nat) (o : CopyOp) (v : Arrival) (st : Except EFlt W64) : State :=
  let dest' : Actor := if o.seqr then .cseq core else v.act
  let put (s : State) (x : Val W64) : State := if o.seqr && (s.ctx (.cseq core)).wslot != wslot then s else (s.updCtx dest' (fun c => c.deliver v.hid [(32, [x])])).updCtx dest' Ctx.settle
  match v.a with
  | .bad p => put s (.bad p)
  | .ok _ => match st with
    | .ok w => put s (.ok w)
    | .error f =>
      let l := (lowest 32 v.mask).getD 0
      let (s1, t) := s.alloc v.act o.pc [{ lane := l, flt := f.flt, va := f.va, page := f.page, cln := f.cln }]
      let p := Tbl.get (mkPl f.flt.cause 1023) t l
      let s2 := s1.sinks v.act o.pc ((lanesOf v.mask).map (fun l => (l, p)))
      put (if o.seqr then s2.updWg core wslot (fun w => { w with cmark := true }) else s2) (.bad p)

end Sys2Proof.Machine
end

