-- ==== Sys2Proof/Machine/Service.lean ====
section
/-! DEFINITION. Commits and their services (05 R171 to R173; 04 R140 to R143): resolution of lanes, permits, the handler's
entry and end, refills, the request to swap the pack out, and the resumption of the lanes. -/

namespace Sys2Proof.Machine

/-- A poisoned lane is serviceable (R172). -/
def State.serviceable (s : State) (a : Actor) (l : Nat) : Bool :=
  let r := ((s.ctx a).ln l).rgn
  let q := (s.core (s.coreOf a)).entry (plIdx r.recp)
  r.opn && r.p && !r.nsv && plIdx r.recp != 1023 && r.rpl < 15 && q.live && q.serv

/-- The region state of a lane after a commit closed it; mode 2 is CMT.RL (R171). -/
def Rgn.close (r : Rgn) (mode : Nat) : Rgn :=
  if !r.p then { r with opn := false, recv := false, rpl := 0 }
  else if mode = 2 then { r with opn := false, p := false, nsv := false, orph := true, recv := false, rpl := 0 }
  else { r with opn := false, p := false, nsv := false, recv := true, rpl := 0 }

/-- The distinct region sequences of lanes. -/
def seqsOf (rg : Nat → Rgn) (ls : List Nat) : List Nat := ls.foldl (fun q l => if q.contains (rg l).seq then q else q ++ [(rg l).seq]) []

/-- Changes the region state of lanes of a context. -/
def Ctx.updRgn (c : Ctx) (ls : List Nat) (f : Rgn → Rgn) : Ctx := ls.foldl (fun c l => c.setLn l { c.ln l with rgn := f (c.ln l).rgn }) c

/-- Resolves the open regions of lanes: entries are released or discarded, and all but the lanes `sv` close (R171). -/
def State.resolve (s : State) (a : Actor) (mask mode sv : Nat) : State :=
  let rg (l : Nat) : Rgn := ((s.ctx a).ln l).rgn
  let ls := (lanesOf mask).filter (fun l => (rg l).opn)
  let s1 := s.resolveHeld a (s.homeSlot a) (maskOf (ls.filter (fun l => !(rg l).p))) (maskOf (ls.filter (fun l => (rg l).p))) (fun r => !r)
  let shut := ls.filter (fun l => !bit sv l)
  let s2 := s1.updCtx a (fun c => c.updRgn shut (fun r => r.close mode))
  (seqsOf rg shut).foldl (fun s q => s.closeSeq (s.homeActor a) q) s2

/-- The outcomes of a commit in their order: continue, replay, recovery (06 R190). -/
def Ctx.commitOuts (c : Ctx) (pc : W64) (cont replay recov : Nat) : List (W64 × Nat) :=
  [(pc, cont)] ++ byStart (lanesOf replay) (fun l => (c.ln l).rgn.start) ++ byStart (lanesOf recov) (fun l => (c.ln l).rgn.recov)
where
  byStart (ls : List Nat) (f : Nat → W64) : List (W64 × Nat) :=
    ls.foldl (fun os l => if os.any (fun o => o.1 == f l) then os.map (fun o => if o.1 == f l then (o.1, o.2 + 2 ^ l) else o)
      else os ++ [(f l, 2 ^ l)]) []

/-! The end of a service. -/

/-- Puts the outcomes of a serviced commit into the group, the first into the committing split's slot when that is free; in a halted pack they
halt (06 R208). -/
def Ctx.resume (c : Ctx) (v : Svc) (os : List (W64 × Nat)) : Ctx :=
  let c := { c with
    splits := c.splits.map (fun e => if e.2.wait == .service then (e.1, {}) else e)
    pool := c.pool.filter (fun e => e.wait != .service) }
  (os.filter (fun o => o.2 != 0)).foldl (fun c o =>
    let x : Split := { v.split with pc := o.1, mask := o.2, wait := .none, blk := none, also := [], yld := [], due := false, halted := c.hpack, brk := none }
    if (c.split v.slot).mask = 0 then c.setSplit v.slot x else c.placeSplit x) c

/-- The records whose REC of a lane outside the committing split names. -/
def State.namedOutside (s : State) (a : Actor) (mask i : Nat) : Bool :=
  (List.range 32).any (fun l => !bit mask l && (let r := s.rgnAt a l; r.recp != 0 && plIdx r.recp == i && (r.opn && r.p || r.recv || r.orph)))

/-- Ends a service: serviced records are freed, replaying lanes start over, lanes whose service failed branch to recovery
(R172). -/
def State.svcFinish (s : State) (a : Actor) : State :=
  match (s.ctx a).svc with
  | none => s
  | some v =>
    let c := s.ctx a
    let bad := maskOf ((lanesOf v.replay).filter (fun l => v.failed.contains (plIdx (c.ln l).rgn.recp)))
    let redo := without v.replay bad
    let all := v.cont ||| v.replay ||| v.recov
    let s1 := s.freeRecs (s.coreOf a) (fun i r => r.of c.wslot c.gid && v.recs.contains i && !v.failed.contains i && !s.namedOutside a all i)
    let s2 := s1.updCtx a (fun c =>
      let c := c.updRgn (lanesOf redo) (fun r => { r with p := false, nsv := false, recp := 0, rpl := r.rpl + 1, recv := false })
      c.updRgn (lanesOf bad) (fun r => r.close 0))
    let s3 := (seqsOf (fun l => (c.ln l).rgn) (lanesOf bad)).foldl (fun s q => s.closeSeq a q) s2
    s3.updCtx a (fun c => { (c.resume v (c.commitOuts v.pc v.cont redo (v.recov ||| bad))).tidy with svc := none, hit := [] })

/-- The storage and host records that a service still has to wait for. -/
def State.pageRecs (s : State) (a : Actor) (v : Svc) : List (Nat × Rec) :=
  (v.recs.map (fun i => (i, (s.core (s.coreOf a)).entry i))).filter (fun e =>
    e.2.live && !v.failed.contains e.1 && (e.2.cause == cPageStorage || e.2.cause == cPageHost))

/-- The in-lane stage ends and gives the permit back (R173); if a page must come from storage or the host, the pack is to be
swapped out (04 R140, R143), and with it every pack of a COSCHED grid (06 R187), else the lanes go on. -/
def State.inLaneDone (s : State) (a : Actor) : State :=
  match (s.ctx a).svc with
  | none => s
  | some v =>
    let cn := s.coreOf a
    let s1 := s.setCore cn { s.core cn with permits := (s.core cn).permits - b2n v.permit }
    if (s1.pageRecs a v).isEmpty then s1.svcFinish a
    else
      let w := s1.wgOf a
      let all := v.cont ||| v.replay ||| v.recov
      let s2 := s1.updCtx a (fun c =>
        let c := { c with
          splits := c.splits.map (fun (e : Nat × Split) => if e.2.wait == Wait.service then (e.1, {}) else e)
          svc := some { v with permit := false, stage := 1, handler := 0 }
          hit := [] }
        let x : Split := { v.split with pc := v.pc, mask := all, wait := .service, blk := none, also := [], yld := [], due := false, halted := c.hpack, brk := none }
        if (c.split v.slot).mask = 0 then c.setSplit v.slot x else c.placeSplit x)
      s2.updGrid w.grid (fun g => { g with packs := g.packs.map (fun p =>
        if p.base.isSome && (g.desc.cosched || (p.p * 2 ^ g.desc.nlog == w.first && p.die == cn / 64)) then { p with saving := true } else p) })

/-- The splits of the running handler of a group (04 R141). -/
def Split.inHandler (x : Split) : Bool := x.sup && x.ret.isNone && x.mask != 0

/-- A handler split has ended; with the last one the in-lane stage ends. -/
def State.handlerLeft (s : State) (a : Actor) : State :=
  match (s.ctx a).svc with
  | none => s
  | some v => if v.stage = 0 && v.handler = 0 then s.inLaneDone a else s

/-- A handler that faults ends: the lanes it serviced branch to recovery with the cause of its fault (04 R141). -/
def State.handlerFault (s : State) (a : Actor) : State :=
  match (s.ctx a).svc with
  | none => s
  | some v =>
    match (lanesOf v.handler).findSome? (fun l => Tbl.find (s.ctx a).hit l) with
    | none => s
    | some pl =>
      let ls := lanesOf (v.replay &&& v.entered)
      let s1 := s.updCtx a (fun c =>
        let c := c.updRgn ls (fun r => { r with recp := pl, p := true })
        let c := c.updRgn ls (fun r => r.close 0)
        { c with
          splits := c.splits.map (fun e => if e.2.inHandler then (e.1, {}) else e)
          pool := c.pool.filter (fun e => !e.inHandler)
          hit := []
          svc := some { v with replay := without v.replay v.entered, recov := v.recov ||| (v.replay &&& v.entered), handler := 0 } })
      s1.inLaneDone a

/-! The start of a service. -/

/-- The records that a commit services (R172). -/
def State.toService (s : State) (a : Actor) (mask sv : Nat) : List Nat :=
  let c := s.ctx a
  let seqs := seqsOf (fun l => (c.ln l).rgn) (lanesOf sv)
  let named (i : Nat) : Bool := (lanesOf sv).any (fun l => plIdx (c.ln l).rgn.recp == i)
  ((s.core (s.coreOf a)).side.filter (fun e => e.2.of c.wslot c.gid && !e.2.stale && e.2.serv && seqs.contains e.2.seq
    && (named e.1 || bit mask e.2.lane))).map (·.1)

/-- An engine that acts for a member of the actor's pack. -/
def State.engAt (s : State) (a : Actor) (mb : Nat) : Eng :=
  match (if mb = (s.wgOf a).member then none else s.memberAt a mb) with
  | none => s.engOf a false
  | some (c, w) => s.engOf (.split c ((Tbl.get ({} : Wg) (s.core c).wgs w).slots.headD 0) 0) false

/-- Refills the CLEAN views of the ECC_UE records, each in the member it lies in; where a refill faults, its records take its cause and detail
(R172). -/
def State.refills (s : State) (a : Actor) (recs : List Nat) : State × List Nat :=
  let cn := s.coreOf a
  let ecc := (recs.map (fun i => (i, (s.core cn).entry i))).filter (fun e => e.2.cause == cEccUe)
  let view (r : Rec) : Nat := r.mb * 64 + fld r.detail.toNat 52 2 * 16 + fld r.detail.toNat 48 4
  let views := ecc.foldl (fun vs e => if vs.contains (view e.2) then vs else vs ++ [view e.2]) ([] : List Nat)
  views.foldl (fun acc v =>
    match acc.1.refill (acc.1.engAt a (v / 64)) (v % 64 / 16) (v % 16) with
    | (s1, none) => (s1, acc.2)
    | (s1, some f) =>
      let mine := (ecc.filter (fun e => view e.2 == v)).map (·.1)
      (s1.setCore cn { s1.core cn with side := (s1.core cn).side.map (fun e =>
        if mine.contains e.1 then (e.1, { e.2 with cause := f.flt.cause, detail := BitVec.ofNat 64 f.flt.detail, serv := false }) else e) },
       acc.2 ++ mine)) (s, [])

/-- A commit with serviceable lanes holds its permit and starts the in-lane stage (04 R140, R141). -/
def State.startService (s : State) (a : Actor) (pc : W64) (mask sv : Nat) : State :=
  let cn := s.coreOf a
  let rg (l : Nat) : Rgn := ((s.ctx a).ln l).rgn
  let recs := s.toService a mask sv
  let poor := maskOf ((lanesOf mask).filter (fun l => (rg l).opn && (rg l).p && !bit sv l))
  let s1 := s.resolve a mask 1 sv
  let s2 := (s1.setCore cn { s1.core cn with permits := (s1.core cn).permits + 1 }).updCtx a (fun c => { c with kexp := 0 })
  let (s3, failed) := s2.refills a recs
  let hrecs := recs.filter (fun i => let r := (s3.core cn).entry i; r.cause == cPageMiss || r.cause == cFirstTouch)
  let c := s3.ctx a
  let enter := maskOf ((lanesOf mask).filter (fun l =>
    hrecs.any (fun i => ((s3.core cn).entry i).lane == l) || (bit sv l && hrecs.contains (plIdx (c.ln l).rgn.recp))))
  let sp := c.split a.slot
  let v : Svc :=
    { pc := pc
      cont := without (without mask sv) poor
      replay := sv
      recov := poor
      recs := recs
      handler := enter
      entered := enter
      slot := a.slot
      split := sp
      failed := failed }
  let x : Split := if enter = 0 then { sp with wait := .service }
    else { sp with pc := evenPc (s3.mem.svec c.asid), mask := enter, sup := true, ret := none, due := false }
  let s4 := s3.updCtx a (fun c => { c.setSplit a.slot x with svc := some v, hit := [] })
  if enter = 0 then s4.inLaneDone a else s4

/-- A commit of lanes of a split by its mode (0 CMT.BR, 1 CMT.SV, 2 CMT.RL), with the PC at which lanes continue; a commit that
finds no permit changes nothing but the back-off (R171, R173). -/
def State.commit (s : State) (a : Actor) (mode : Nat) (pc : W64) (mask : Nat) : State :=
  let rg (l : Nat) : Rgn := ((s.ctx a).ln l).rgn
  let sv := if mode = 1 then maskOf ((lanesOf mask).filter (fun l => s.serviceable a l)) else 0
  if sv != 0 then
    if 4 ≤ (s.core (s.coreOf a)).permits then s.updCtx a (fun c => { c with backoff := true, kexp := min 6 (c.kexp + 1) })
    else s.startService a pc mask sv
  else
    let recov := if mode = 2 then 0 else maskOf ((lanesOf mask).filter (fun l => (rg l).opn && (rg l).p))
    (s.resolve a mask mode 0).updCtx a (fun c => c.outcomes a.slot (c.commitOuts pc (without mask recov) 0 recov))

end Sys2Proof.Machine
end

