-- ==== Sys2Proof/Machine/Branch.lean ====
section
/-! DEFINITION. Branches, calls, loops, ejection, join points and exits (06 R190, R193 to R199, R203; 11 R344 to R347). -/

namespace Sys2Proof.Machine

/-- The target of a GB word: its address plus the offset in halfwords (R344). -/
def State.target (s : State) (off : Nat) : W64 := s.cur.pc + sext64 21 off * 2

/-- The executing split moves to an address. -/
def State.jump (s : State) (pc : W64) : State := (s.updSp (fun x => { x with pc := pc })).finish s.mask

/-- BRA: a poisoned q[c] is not taken and marks every active lane. -/
def execBra (c off : Nat) (s : State) : Out :=
  s.uni Legal.all [] (fun s =>
    match s.me.rq c with
    | .bad p => (s.sinkAll p).retire s.mask
    | .ok t => s.jump (if t then s.target off else s.cur.npc))

/-- Marks the lanes whose predicate or target is poisoned (05 R158). -/
def State.sinkLanes (s : State) (ps : List (Nat × Option Payload)) : State :=
  s.sinks s.cur.act s.cur.pc (ps.filterMap (fun e => e.2.map (fun p => (e.1, p))))

/-- The outcomes of a divergent event take their places, and the instruction ends (R190). -/
def State.divide (s : State) (os : List (W64 × Nat)) : State := (s.upd (fun c => c.outcomes s.cur.act.slot os)).finish s.mask

/-- The lanes whose predicate is true and not poisoned. -/
def State.takers (s : State) (p : Nat) : Nat := maskOf (s.active.filter (fun l => (s.me.ln l).pTrue p))

/-- The effect of BR: not taken, then taken. -/
def State.laneBranch (s : State) (c off : Nat) : State :=
  let t := s.takers c
  let s1 := s.sinkLanes (s.active.map (fun l => (l, ((s.me.ln l).pr c).pl?)))
  s1.divide [(s.cur.npc, without s.mask t), (s.target off, t)]

def execBr (c off : Nat) (s : State) : Out := s.uni Legal.lane [] (fun s => s.laneBranch c off)

/-! Ejection (R194, R195). -/

/-- Free threads of a die. -/
def State.freeThreads (s : State) (die : Nat) : List Nat :=
  (List.range Config.threads).filter (fun t => !(s.ctx (.thread die t)).on)

/-- The thread the next lane takes: of the Retriever core with the fewest busy threads, the lowest number first. -/
def State.pickThread (s : State) (die : Nat) : Option Nat :=
  let free := s.freeThreads die
  let room (r : Nat) : Nat := (free.filter (fun t => t / 8 == r)).length
  let best := (List.range 16).foldl (fun b r => if room b < room r then r else b) 0
  free.find? (fun t => t / 8 == best)

/-- Hands one lane over to a thread, at a PC. -/
def State.eject (s : State) (l : Nat) (pc : W64) : State :=
  let a := s.cur.act
  let die := s.dieOf a
  match s.pickThread die with
  | none => s
  | some t =>
    let c := s.me
    let x := c.ln l
    let v := (hsetRegs (s.desc a).hset).map (fun i => (i, x.rd i))
    let th : Ctx :=
      { on := true
        core := s.coreOf a
        wslot := c.wslot
        gid := c.gid
        asid := c.asid
        lanes := [(l, { x with v := v })]
        s := c.s
        q := c.q
        warn := c.warn
        fpx := c.fpx
        fpm := c.fpm
        splits := [(0, { pc := pc, mask := 2 ^ l, lc := s.sp.lc, join := s.sp.join })]
        home := s.homeSlot a
        lane := l
        jrec := s.sp.join
        queue := c.queue }
    (s.setCtx (.thread die t) th).upd (fun c => c.setLn l { c.ln l with life := .ejected t })

/-- BR.E ejects its minority when every condition of R194 holds, and else acts as BR. -/
def execBrE (c off : Nat) (s : State) : Out :=
  s.uni Legal.home [] (fun s =>
    let t := s.takers c
    let n := without s.mask t
    let nt := popN 32 t
    let nn := popN 32 n
    let minor := if nt < nn then t else n
    let k := min nt nn
    let ejt := (s.desc s.cur.act).ejt
    let fits := ejt != 0 && 1 ≤ k && k ≤ ejt && nt != nn && k ≤ (s.freeThreads (s.dieOf s.cur.act)).length && !s.sp.sup
    if fits && s.sp.join.isSome then
      let away := if nt < nn then s.target off else s.cur.npc
      let stay := if nt < nn then s.cur.npc else s.target off
      let s1 := s.sinkLanes (s.active.map (fun l => (l, ((s.me.ln l).pr c).pl?)))
      let s2 := (lanesOf minor).foldl (fun s l => s.eject l away) s1
      (s2.updSp (fun x => { x with pc := stay, mask := without x.mask minor })).finish s.mask
    else (s.warns (flagIf fits wEjectNoJoin)).laneBranch c off)

/-! Join points, calls, loops. -/

/-- JOINAT sets the split's join point (R198). -/
def execJoinat (c off : Nat) (s : State) : Out :=
  s.uni1 Legal.lane [] (fun s => (s.warns (ignW (c != 0))).updSp (fun x => { x with join := some (s.target off) }))

/-- CALL: the link goes to s62, or to e15 of a sequencer (12 R375). -/
def execCall (c off : Nat) (s : State) : Out :=
  s.uni Legal.all [] (fun s =>
    ((s.warns (ignW (c != 0))).upd (fun x => x.ws (if s.cur.act.isSeq then 15 else 62) (.ok s.cur.npc))).jump (s.target off))

/-- LOOP counts %lc down and branches on p[c], or on q[c] where there are no lanes (R345). There a poisoned q[c] marks as at a sink (R331), and
the loop goes on at the next instruction with %lc counted down, as R345's own words give it (00 R16). -/
def execLoop (c off : Nat) (s : State) : Out :=
  s.uni Legal.all [] (fun s =>
    if s.sp.lc = 0 then s.jump s.cur.npc
    else
      let s1 := s.updSp (fun x => { x with lc := x.lc - 1 })
      if s.cur.act.lanes then s1.laneBranch c off
      else match s.me.rq c with
        | .bad p => (s1.sinkAll p).jump s.cur.npc
        | .ok b => s1.jump (if b then s.target off else s.cur.npc))

/-- RET returns through s[a]; in a sequencer a = 62 names e15. -/
def execRet (y a z : Nat) (s : State) : Out :=
  let r := if s.cur.act.isSeq && a = 62 then 15 else a
  s.uni Legal.all [r] (fun s =>
    match s.me.rs r with
    | .bad p => ((s.warns (ignW (y != 0 || z != 0))).sinkAll p).retire s.mask
    | .ok w => (s.warns (ignW (y != 0 || z != 0) ||| flagIf (w % 2 != 0) wPcOdd)).jump (evenPc w))

/-- Outcomes by distinct target, in the order of their lowest lanes (R190). -/
def byTarget (ts : List (Nat × W64)) : List (W64 × Nat) :=
  ts.foldl (fun os e =>
    if os.any (fun o => o.1 == e.2) then os.map (fun o => if o.1 == e.2 then (o.1, o.2 + 2 ^ e.1) else o)
    else os ++ [(e.2, 2 ^ e.1)]) []

/-- BRX: each lane goes to the address in its pair (R346). -/
def execBrx (y a z : Nat) (s : State) : Out :=
  s.uni Legal.lane [] (fun s =>
    let r := alignReg 2 a
    let vals := s.active.map (fun l => (l, (s.me.ln l).rd2 r))
    let odd := vals.any (fun e => match e.2 with | .ok w => w % 2 != 0 | .bad _ => false)
    let s1 := s.warns (ignW (y != 0 || z != 0) ||| alignWarn 2 a ||| flagIf odd wPcOdd ||| s.unmapped [r, r + 1])
    let s2 := s1.sinkLanes (vals.map (fun e => (e.1, e.2.pl?)))
    s2.divide (byTarget (vals.map (fun e => (e.1, match e.2 with | .ok w => evenPc w | .bad _ => s.cur.npc)))))

/-! JOIN (R198, R199). -/

/-- A lane comes home at a PC: it joins the split that waits at the JOIN, the one in the lowest slot before one of the pool (log entry 28), or
forms a split of its own. -/
def State.rejoin (s : State) (a : Actor) (pc : W64) : State :=
  let t := s.ctx a
  let h : Actor := .split t.core t.home 0
  let j := t.jrec
  let sp := t.split 0
  let s1 := s.takeBack a .live
  let waits (x : Split) : Bool := match x.wait, j with | .join k, some i => k == i && x.mask != 0 | _, _ => false
  let bitl := 2 ^ t.lane
  let s2 := s1.updCtx h (fun c =>
    match (List.range 4).find? (fun k => waits (c.split k)) with
    | some k => c.setSplit k { c.split k with mask := (c.split k).mask + bitl }
    | none => match c.pool.findIdx? waits with
      | some i => { c with pool := listUpd c.pool i (fun x => { x with mask := x.mask + bitl }) }
      | none => (c.placeSplit { pc := pc, mask := bitl, lc := sp.lc, join := j }).tidy)
  s2.joinCheck h

def execJoin (z : Nat) (s : State) : Out :=
  s.uni Legal.lane [] (fun s =>
    let s1 := s.warns (ignW (z != 0))
    match s.cur.act with
    | .thread d t =>
      if s.me.jrec == some s.cur.pc then
        let s2 := s1.upd (fun c => (c.endWin (2 ^ c.lane)).settle)
        s2.rejoin (.thread d t) s.cur.npc
      else s1.retire s.mask
    | a =>
      if s.joinHeld a s.cur.pc then
        ((s1.updSp (fun x => { x with pc := s.cur.npc, wait := .join s.cur.pc })).finish s.mask).upd (fun c => c.yieldSlot a.slot)
      else s1.retire s.mask)

/-! EXIT, NOP, YIELD. -/

/-- A control program ends: HEAD of its queue advances and the thread is free (07 R211). -/
def State.endCtl (s : State) : State :=
  match s.cur.act with
  | .ctl d _ =>
    let q := s.me.queue
    let s2 := s.upd (fun _ => {})
    if s.me.fw then s2
    else s2.setDie d (let x := s2.die d; { x with sqd := Tbl.upd 0 x.sqd q (fun w =>
      let head := (fld w.toNat 20 20 + 1) % 2 ^ (fld w.toNat 80 4 + 4)
      BitVec.ofNat 128 (w.toNat - fld w.toNat 20 20 * 2 ^ 20 + head * 2 ^ 20)) })
  | _ => s

/-- Lanes of the executing split leave it and exit (R347). -/
def State.exitSplit (s : State) (a : Actor) (g mask : Nat) : State :=
  let s1 := s.upd (fun x => ((x.endWin mask).settle).setSplit a.slot { x.split a.slot with mask := without (x.split a.slot).mask mask, wait := .none })
  (s1.exitLanes a g mask).upd (fun x => if x.on then x.tidy else x)

/-- EXIT ends the active lanes, the control program, or the engine program (R347). -/
def execExit (z : Nat) (s : State) : Out :=
  s.uni Legal.all [] (fun s =>
    let s1 := s.warns (ignW (z != 0))
    match s.cur.act with
    | .split c g k =>
      let s4 := s1.exitSplit (.split c g k) g s.mask
      if s.sp.inHandler && s4.me.on then s4.handlerLeft (.split c g k) else s4
    | .thread d t =>
      let th := s.me
      let h : Actor := .split th.core th.home 0
      let s2 := (s1.upd (fun c => (c.endWin (2 ^ c.lane)).settle)).takeBack (.thread d t) .live
      s2.exitLanes h th.home (2 ^ th.lane)
    | .ctl _ _ => s1.endCtl
    | _ => s1.endSeq)

def execNop (z : Nat) (s : State) : Out := s.uni1 Legal.all [] (fun s => s.warns (ignW (z != 0)))

/-- YIELD: the split is not offered until every other ready split of the group has issued once (R346); the turn looks at which of the
others are ready. -/
def execYield (z : Nat) (s : State) : Out :=
  s.uni Legal.lane [] (fun s =>
    let k := s.cur.act.slot
    let others := (List.range 4).filter (fun j => j != k && (s.me.split j).mask != 0 && (s.me.split j).wait == .none && !(s.me.split j).halted)
    ((s.warns (ignW (z != 0))).updSp (fun x => { x with yld := others })).retire s.mask)

end Sys2Proof.Machine
end

