-- ==== Sys2Proof/Machine/MemOps.lean ====
section
/-! DEFINITION. The issue of memory instructions (10 R320 to R328; 11 R342, R343): operands, first checks, and the memory
instruction that then is in flight. -/

namespace Sys2Proof.Machine

/-! Lane forms. -/

/-- s[base] + sext(v[index]) (09 R272; 10 R320, R327). -/
def vmAddr (c : Ctx) (x : Lane) (base ix : Nat) : Except Payload Nat :=
  match firstBad [(c.rs base).pl?, (x.rd ix).pl?] with
  | some p => .error p
  | none => .ok ((c.rs base).getD 0 + (((x.rd ix).getD 0).signExtend 64)).toNat

/-- The even pair plus the sign-extended immediate (R320). -/
def viAddr (x : Lane) (r imm : Nat) : Except Payload Nat :=
  match x.rd2 (alignReg 2 r) with
  | .bad p => .error p
  | .ok w => .ok (w + sext64 9 imm).toNat

/-- A local address (R325). -/
def vsAddr (x : Lane) (r imm : Nat) : Except Payload Nat :=
  match x.rd r with
  | .bad p => .error p
  | .ok w => .ok (w + imm9 imm).toNat

/-- A lane's data operand as number, swap value and payload: the low bytes of a store, the operands of an atomic. -/
def laneData (i : MInfo) (x : Lane) : Nat × Nat × Option Payload :=
  let k := regsOf i.size
  match i.kind with
  | .store => let r := x.rdN i.d k; (r.2 % 2 ^ (8 * i.size), 0, r.1)
  | .atomic =>
    if i.op = 12 || i.op = 13 then
      let r := x.rdN i.d k
      let w := x.rdN (i.d + k) k
      (r.2, w.2, firstBad [r.1, w.1])
    else let r := x.rdN i.d k; (r.2, 0, r.1)
  | _ => (0, 0, none)

/-- What the issue of a lane gives (R321): a result at once, a poisoned address or datum that drops the access, or an
access. -/
inductive Start where
  | res (r : Res)
  | sink (p : Payload) (r : Option Res)
  | skip
  | acc (x : Acc)
  deriving DecidableEq, Repr

/-- The checks made before any memory is reached (R321, R328; 05 R158). -/
def startLane (i : MInfo) (l : Nat) (ad : Except Payload Nat) (dt : Nat × Nat × Option Payload) : Start :=
  match ad with
  | .error p => match i.kind with
    | .store => .sink p none
    | .atomic => .sink p (some (.bad p))
    | .pref => .skip
    | _ => .res (.bad p)
  | .ok ea =>
    match i.kind, dt.2.2 with
    | .atomic, some p => .sink p (some (.bad p))
    | _, _ =>
      if i.space.isNone && i.kind != .ldf && ea % i.size != 0 then (if i.kind == .pref then .skip else .res (gFault ⟨cMisalign, i.size⟩ ea))
      else if i.space.isNone && i.kind != .ldf && ea / 2 ^ 55 != 0 then (if i.kind == .pref then .skip else .res (gFault ⟨cBounds, 0⟩ ea))
      else .acc { lane := l, addr := ea, size := i.size, data := dt.1, aux := dt.2.1, bad := dt.2.2 }

/-- The registers a memory instruction holds for its result. -/
def MInfo.dest (i : MInfo) : List Nat :=
  match i.kind with
  | .store => []
  | .pref => []
  | .ldf => [i.d]
  | _ => if i.uni then [i.d] else (List.range (regsOf i.size)).map (i.d + ·)

/-- Addresses at which a store or WG-scope atomic probes: one for each page, one for each line of a bypass store (02 R444,
R52). -/
def probesOf (i : MInfo) (todo : List Acc) : List Nat :=
  if i.space.isSome || !(i.kind == .store || (i.kind == .atomic && i.scope == 0)) then []
  else
    let u := if i.kind == .store && i.hint == 3 then 128 else 65536
    todo.foldl (fun ps x => if ps.any (fun p => p / u == x.addr / u) then ps else ps ++ [x.addr]) []

/-- A memory instruction is in flight from its issue on: marks of dropped accesses, the held result, the accesses. -/
def State.startMem (s : State) (ins : Instr) (i : MInfo) (starts : List (Nat × Start)) (page : Nat := 0) (idx : Tbl Nat := []) : State :=
  let a := s.cur.act
  let g := s.marker a
  let own := if a.isSeq then (s.wgOf a).fmask else s.mask
  let s1 := starts.foldl (fun (s : State) (e : Nat × Start) => match e.2 with
    | .sink p _ => if i.uni then s.sinkAll p else s.sink g s.cur.pc e.1 p
    | _ => s) s
  let res : Tbl Res := starts.foldl (fun t e => match e.2 with
    | .res r => Tbl.put t (e.1 * 8 + if i.kind == .ldf then 7 else 0) r
    | .sink _ (some r) => Tbl.put t (e.1 * 8) r
    | _ => t) []
  let todo := starts.filterMap (fun e => match e.2 with | .acc x => some x | _ => none)
  let gives := starts.any (fun e => match e.2 with | .sink _ none => false | .skip => false | _ => true)
  let (c, hid) := if i.dest.isEmpty || !gives then (s1.me, 0)
    else s1.me.hold i.dest i.uni (if i.uni && !a.lanes then 0 else s.mask) i.la (if i.kind == .ldf then [i.d ^^^ 1] else [])
  let pr := if i.kind == .ldf then (if todo.isEmpty then [] else [page]) else probesOf i todo
  let o : MemOp :=
    { ins := ins
      pc := s.cur.pc
      word := s.cur.word
      mask := own
      todo := if i.kind == .ldf then [] else todo
      res := res
      probes := pr
      hid := hid
      mesh := a.isThread
      remote := i.space == some 1 && !todo.isEmpty
      probed := pr.isEmpty
      page := page
      idx := idx
      sup := s.sp.sup
      ord := c.memops.foldl (fun n e => max n e.2.ord) 0 + 1 }
  ((s1.setCtx a c).setOp a (some o)).memGo memFuel a

/-- The lane registers a memory instruction reads as data. -/
def MInfo.sources (i : MInfo) : List Nat :=
  match i.kind with
  | .store => (List.range (regsOf i.size)).map (i.d + ·)
  | .atomic => (List.range (regsOf i.size * if i.op = 12 || i.op = 13 then 2 else 1)).map (i.d + ·)
  | _ => []

/-- A lane memory instruction. -/
def State.laneMem (s : State) (ins : Instr) (reads : List Nat) (wn : W32) (ad : Ctx → Lane → Except Payload Nat) : Out :=
  let i := (Instr.minfo ins).getD {}
  s.laneSet (fun s =>
    let s := s.warns (wn ||| s.unmapped (reads ++ i.sources))
    s.startMem ins i (s.active.map (fun l => (l, startLane i l (ad s.me (s.me.ln l)) (laneData i (s.me.ln l))))))

/-- A VM form. -/
def State.vm (s : State) (ins : Instr) (d x base : Nat) (k : Nat) : Out :=
  s.laneMem ins [x] (alignWarn k d) (fun c y => vmAddr c y base x)

def execLdw (hint d x base la : Nat) (s : State) : Out := s.vm (.ldw hint d x base la) d x base 1
def execLdd (hint d x base la : Nat) (s : State) : Out := s.vm (.ldd hint d x base la) d x base 2
def execLdq (hint d x base la : Nat) (s : State) : Out := s.vm (.ldq hint d x base la) d x base 4
def execStw (hint d x base la : Nat) (s : State) : Out := s.vm (.stw hint d x base la) d x base 1
def execStd (hint d x base la : Nat) (s : State) : Out := s.vm (.std hint d x base la) d x base 2
def execStq (hint d x base la : Nat) (s : State) : Out := s.vm (.stq hint d x base la) d x base 4

/-- PREF asks for a line and writes nothing (R324). -/
def execPref (hint d x base la : Nat) (s : State) : Out :=
  s.laneMem (.pref hint d x base la) [x] (ignW (d != 0) ||| flagIf (hint == 3) wHintRsvd) (fun c y => vmAddr c y base x)

/-- LDF: the page by s[N], the element by v[M] read as natural (R323). -/
def execLdf (hint d x base la : Nat) (s : State) : Out :=
  let ins : Instr := .ldf hint d x base la
  let i := (Instr.minfo ins).getD {}
  s.laneSet (fun s =>
    let s := s.warns (s.unmapped [x])
    let page := ((s.me.rs base).getD 0).toNat / 65536 * 65536
    let at' (l : Nat) : Except Payload Nat := match firstBad [(s.me.rs base).pl?, ((s.me.ln l).rd x).pl?] with
      | some p => .error p
      | none => .ok page
    let idx : Tbl Nat := s.active.map (fun l => (l, (((s.me.ln l).rd x).getD 0).toNat))
    s.startMem ins i (s.active.map (fun l => (l,
      if page / 2 ^ 55 != 0 && (match at' l with | .ok _ => true | .error _ => false) then .res (gFault ⟨cBounds, 0⟩ page)
      else startLane i l (at' l) (0, 0, none)))) page idx)

/-- A VI form. -/
def State.vi (s : State) (ins : Instr) (r imm : Nat) : Out := s.laneMem ins [alignReg 2 r, alignReg 2 r + 1] (alignWarn 2 r) (fun _ y => viAddr y r imm)

def execLdbS (d a imm : Nat) (s : State) : Out := s.vi (.ldbS d a imm) a imm
def execLdbN (d a imm : Nat) (s : State) : Out := s.vi (.ldbN d a imm) a imm
def execLdhS (d a imm : Nat) (s : State) : Out := s.vi (.ldhS d a imm) a imm
def execLdhN (d a imm : Nat) (s : State) : Out := s.vi (.ldhN d a imm) a imm
def execStb (d a imm : Nat) (s : State) : Out := s.vi (.stb d a imm) a imm
def execSth (d a imm : Nat) (s : State) : Out := s.vi (.sth d a imm) a imm

/-- A VS form. -/
def State.vs (s : State) (ins : Instr) (d r imm k : Nat) : Out := s.laneMem ins [r] (alignWarn k d) (fun _ y => vsAddr y r imm)

def execLdlw (sp d a imm : Nat) (s : State) : Out := s.vs (.ldlw sp d a imm) d a imm 1
def execLdld (sp d a imm : Nat) (s : State) : Out := s.vs (.ldld sp d a imm) d a imm 2
def execLdlq (sp d a imm : Nat) (s : State) : Out := s.vs (.ldlq sp d a imm) d a imm 4
def execStlw (sp d a imm : Nat) (s : State) : Out := s.vs (.stlw sp d a imm) d a imm 1
def execStld (sp d a imm : Nat) (s : State) : Out := s.vs (.stld sp d a imm) d a imm 2
def execStlq (sp d a imm : Nat) (s : State) : Out := s.vs (.stlq sp d a imm) d a imm 4
def execLdlb (sp d a imm : Nat) (s : State) : Out := s.vs (.ldlb sp d a imm) d a imm 1
def execStlb (sp d a imm : Nat) (s : State) : Out := s.vs (.stlb sp d a imm) d a imm 1

/-- A VA form. -/
def State.va (s : State) (ins : Instr) (d x base k : Nat) : Out := s.laneMem ins [x] (alignWarn k d) (fun c y => vmAddr c y base x)

def execAtomAdd32 (d x scope base la : Nat) (s : State) : Out := s.va (.atomAdd32 d x scope base la) d x base 1
def execAtomAdd64 (d x scope base la : Nat) (s : State) : Out := s.va (.atomAdd64 d x scope base la) d x base 2
def execAtomAddf32 (d x scope base la : Nat) (s : State) : Out := s.va (.atomAddf32 d x scope base la) d x base 1
def execAtomMinS32 (d x scope base la : Nat) (s : State) : Out := s.va (.atomMinS32 d x scope base la) d x base 1
def execAtomMinN32 (d x scope base la : Nat) (s : State) : Out := s.va (.atomMinN32 d x scope base la) d x base 1
def execAtomMaxS32 (d x scope base la : Nat) (s : State) : Out := s.va (.atomMaxS32 d x scope base la) d x base 1
def execAtomMaxN32 (d x scope base la : Nat) (s : State) : Out := s.va (.atomMaxN32 d x scope base la) d x base 1
def execAtomAnd32 (d x scope base la : Nat) (s : State) : Out := s.va (.atomAnd32 d x scope base la) d x base 1
def execAtomOr32 (d x scope base la : Nat) (s : State) : Out := s.va (.atomOr32 d x scope base la) d x base 1
def execAtomXor32 (d x scope base la : Nat) (s : State) : Out := s.va (.atomXor32 d x scope base la) d x base 1
def execAtomXchg32 (d x scope base la : Nat) (s : State) : Out := s.va (.atomXchg32 d x scope base la) d x base 1
def execAtomXchg64 (d x scope base la : Nat) (s : State) : Out := s.va (.atomXchg64 d x scope base la) d x base 2
def execAtomCas32 (d x scope base la : Nat) (s : State) : Out := s.va (.atomCas32 d x scope base la) d x base 2
def execAtomCas64 (d x scope base la : Nat) (s : State) : Out := s.va (.atomCas64 d x scope base la) d x base 4
def execAtomIncN32 (d x scope base la : Nat) (s : State) : Out := s.va (.atomIncN32 d x scope base la) d x base 1
def execAtomAddbf16x2 (d x scope base la : Nat) (s : State) : Out := s.va (.atomAddbf16x2 d x scope base la) d x base 1

/-! Scalar forms (11 R342, R343). -/

/-- s[base] + sext(off7) × 8; a local address keeps 32 bits. -/
def gmAddr (c : Ctx) (base off : Nat) (i : MInfo) : Except Payload Nat :=
  match c.rs base with
  | .bad p => .error p
  | .ok w => let ea := (w + sext64 7 off * 8).toNat; .ok (if i.space.isSome then ea % 2 ^ 32 else ea)

/-- The data operands of a scalar form. -/
def gmData (c : Ctx) (i : MInfo) : Nat × Nat × Option Payload :=
  match i.kind with
  | .store => (((c.rs i.d).getD 0).toNat % 2 ^ (8 * i.size), 0, (c.rs i.d).pl?)
  | .atomic =>
    if i.op = 13 then (((c.rs i.d).getD 0).toNat, ((c.rs (i.d + 1)).getD 0).toNat, firstBad [(c.rs i.d).pl?, (c.rs (i.d + 1)).pl?])
    else (((c.rs i.d).getD 0).toNat, 0, (c.rs i.d).pl?)
  | _ => (0, 0, none)

/-- A result of a control core that the instructions of its window do not see yet (09 R283, R284). -/
def State.lateS (s : State) (d la : Nat) (v : Val W64) : State :=
  let (c, hid) := s.me.hold [d % 64] true 0 la
  s.setCtx s.cur.act (c.deliver hid [(32, [v])])

/-- A control core's access, at the home slice in one step (03 R82, R86): poison goes to s[d], of a store to s61 (R343). -/
def State.ctlMem (s : State) (i : MInfo) (st : Start) : State :=
  let who := s.who s.cur.act
  let asid := s.me.asid
  let bad (s : State) (f : Flt) (va : Nat) : State :=
    let (s1, p) := s.fault1 f va
    if i.kind == .store then s1.upd (fun c => c.ws 61 (.bad p)) else s1.lateS i.d i.la (.bad p)
  match st with
  | .res (.bad p) => s.lateS i.d i.la (.bad p)
  | .res (.fault f va _ _) => bad s f va
  | .acc x =>
    if i.space.isSome then bad s (if x.addr % i.size != 0 then ⟨cMisalign, i.size⟩ else ⟨cBounds, x.addr⟩) 0
    else match i.kind with
    | .store =>
      if x.bad.isSome then s
      else match s.mem.writeG who asid x.addr x.size x.data 0 i.hint with
        | (m, none) => { s with mem := m }
        | (m, some f) => bad { s with mem := m } f x.addr
    | .atomic => match s.mem.updG who asid x.addr x.size (fun old => atomNew i.op old x.data x.aux) with
      | (m, .ok old) => ({ s with mem := m }).lateS i.d i.la (.ok (BitVec.ofNat 64 old))
      | (m, .error f) => bad { s with mem := m } f x.addr
    | _ => match s.mem.readG who asid x.addr x.size i.hint with
      | (m, .ok n) => ({ s with mem := m }).lateS i.d i.la (.ok (BitVec.ofNat 64 n))
      | (m, .error f) => bad { s with mem := m } f x.addr
  | _ => s

/-- A GM form. -/
def State.gm (s : State) (ins : Instr) (regs : List Nat) (wn : W32) (base off : Nat) : Out :=
  let i := (Instr.minfo ins).getD {}
  s.uni1 Legal.all regs (fun s =>
    let s := s.warns wn
    -- a poisoned operand of a uniform atomic leaves s[d] as it is (R343)
    let st := match startLane i 32 (gmAddr s.me base off i) (gmData s.me i) with
      | .sink p _ => Start.sink p none
      | x => x
    if s.cur.act.isCtl then (s.ctlMem i st).noteShc s.cur.act else s.startMem ins i [(32, st)])

def execSldW (hint d base off la : Nat) (s : State) : Out := s.gm (.sldW hint d base off la) [d, base] 0 base off
def execSldD (hint d base off la : Nat) (s : State) : Out := s.gm (.sldD hint d base off la) [d, base] 0 base off
def execSstW (hint d base off la : Nat) (s : State) : Out := s.gm (.sstW hint d base off la) [d, base] 0 base off
def execSstD (hint d base off la : Nat) (s : State) : Out := s.gm (.sstD hint d base off la) [d, base] 0 base off
def execSatomAdd64 (hint d base off la : Nat) (s : State) : Out :=
  s.gm (.satomAdd64 hint d base off la) [d, base] (ignW (hint != 0)) base off
def execScas64 (hint d base off la : Nat) (s : State) : Out :=
  s.gm (.scas64 hint d base off la) [alignReg 2 d, alignReg 2 d + 1, base] (ignW (hint != 0) ||| alignWarn 2 d) base off
def execSldl (hint d base off la : Nat) (s : State) : Out := s.gm (.sldl hint d base off la) [d, base] 0 base off
def execSstl (hint d base off la : Nat) (s : State) : Out := s.gm (.sstl hint d base off la) [d, base] 0 base off

end Sys2Proof.Machine
end

