-- ==== Sys2Proof/Machine/MemEvents.lean ====
section
/-! DEFINITION. The events of the memory path (02 R49 to R71, R444; 03 R87, R89, R102; 04 R121, R122, R149): a request's arrival
at its home slice, walks, reclaims and replica invalidations with the requests that wait for them, answers, bounces. -/

namespace Sys2Proof.Machine

/-! Answers. -/

/-- The results of the accesses that an answered request carried. -/
def MemOp.settleAccs (o : MemOp) (accs : List Acc) (f : Acc → Res) : MemOp := accs.foldl (fun o x => o.done x (f x)) o

/-- A core has read or written bytes of a line at the slice: what its L1 has of the line but dirty bytes, and the fills on their way, may
be older, and no later load takes them for current (03 R90). -/
def State.expire (s : State) (a : Actor) (va : Nat) : State := { s with mem := s.mem.expire1 (s.coreOf a) (s.ctx a).asid (va / 128) }

/-- A load's or WG-scope atomic's access is answered without a line to keep (R52, R76; 03 R114). -/
def State.answerNow (s0 : State) (a : Actor) (o : MemOp) (x : Acc) (p : Resp) : State :=
  let o1 := { o with req := none }
  let s := { s0 with mem := s0.mem.unreserve1 (s0.coreOf a) (fun b => b == a) }
  match p.fault with
  | some f => (s.setOp a (some (o1.done x (gFault f x.addr)))).memGo memFuel a
  | none => let r := (s.expire a x.addr).direct a o1 x p; (r.1.setOp a (some (o1.done x r.2))).memGo memFuel a

/-- An answer arrives. Of a read it waits for its fill in the way that its line holds (R52); one that may leave no line, as every other
answer, is taken at once. -/
def State.respond (s0 : State) (a : Actor) (r : Req) (p : Resp) : State :=
  let s := s0.warnOf a (flagIf p.shc wShcRsvd)
  match s.opOf a with
  | none => s
  | some o =>
    let o1 := { o with req := none }
    match r.kind with
    | .read =>
      match o.todo with
      | x :: _ =>
        if o.info.hint = 3 || p.fault.isSome || p.peer then s.answerNow a o x p
        else match s.mem.reserve1 (s.coreOf a) (s.ctx a).asid (x.addr / 128) o.info.hint a with
          | (m, .full) => ({ s with mem := m }).answerNow a o x p
          | (m, _) => ({ s with mem := m }).updReq a (fun r => { r with st := .back p })
      | [] => s.setOp a (some o1)
    | .bypass =>
      let o2 := match p.fault with
        | some f => o1.settleAccs (o.todo.filter (fun x => x.addr / 128 == r.addr / 128)) (fun x => gFault f x.addr)
        | none => o1.settleAccs r.accs (fun _ => .num 0)
      let s1 := (s.setOp a (some { o2 with probes := o2.probes.tail })).expire a r.addr
      let g := s.marker a
      let s2 := if p.fault.isSome then s1 else
        s1.setCore (s.coreOf a) (r.accs.foldl (fun c x => c.unforward (s.homeSlot g) ⟨0, (s.ctx a).asid, x.addr⟩ x.size) (s1.core (s.coreOf a)))
      s2.memGo memFuel a
    | .probe =>
      match o.info.kind with
      | .ldf =>
        let s0 := match p.leaf with
          | some lf =>
            let (fmt, _, w) := decCfg lf.1 lf.2
            s.updCtx a (fun c => (c.warns (w ||| flagIf (fmtW fmt = 64 && o.info.d % 2 != 0) wRegAlign)).ldfKnown o.hid (ldfRegs fmt o.info.d))
          | none => s
        match p.fault with
        | some f => (s0.setOp a (some { o1 with
            probes := []
            probed := true
            fmt := p.leaf
            res := o.idx.foldl (fun t e => if (Tbl.find t (e.1 * 8 + 7)).isNone then Tbl.put t (e.1 * 8 + 7) (gFault f o.page) else t) o.res })).memGo memFuel a
        | none =>
          let (fmt, geom, _) := decCfg (p.leaf.getD (0, 0)).1 (p.leaf.getD (0, 0)).2
          let live := o.idx.filter (fun e => (Tbl.find o.res (e.1 * 8 + 7)).isNone)
          let fits (k : Nat) : Bool := let (n, x) := ldfIndex geom k; x < pageElems fmt geom n
          let o2 := { o1 with
            probes := []
            probed := true
            fmt := p.leaf
            todo := live.foldl (fun l e => if fits e.2 then l ++ ldfPieces o.page fmt geom e.1 e.2 else l) []
            res := live.foldl (fun t e => if fits e.2 then t else Tbl.put t (e.1 * 8 + 7) (gFault ⟨cBounds, 0⟩ o.page)) o.res }
          (s0.setOp a (some o2)).memGo memFuel a
      | _ =>
        let pg := r.addr / 65536
        let o2 := match p.fault with
          | some f => o1.settleAccs (o.todo.filter (fun x => x.addr / 65536 == pg)) (fun x => gFault f x.addr)
          | none => o1
        (s.setOp a (some { o2 with probes := o2.probes.tail, peers := if p.peer then o2.peers ++ [pg] else o2.peers })).memGo memFuel a
    | .atomic =>
      let o2 := o1.settleAccs r.accs (fun x => match p.fault with
        | some f => gFault (if f.cause == cInvalidOp then ⟨cInvalidOp, o.word⟩ else f) x.addr
        | none => (Tbl.get (.num 0) (p.old.map (fun e => (e.1, e.2))) x.lane))
      ((s.setOp a (some o2)).expire a r.addr).memGo memFuel a
    | .uncached => (s.setOp a (some (o1.settleAccs r.accs (fun x => match p.fault with | some f => gFault f x.addr | none => .num 0)))).memGo memFuel a

/-! Arrival. -/

/-- Whether a request was sent to a slice that is the line's home under its current MASK (R68). -/
def State.atHome (s : State) (sl asid : Nat) (r : Req) : Bool := homeIn (s.mem.slice sl).slhm (s.mem.dom asid) asid r.addr == some sl

/-- A generation of an ASID that stands before another: by less than half of the 256, counted round (04 R125, R126; log entry 63). -/
def genBefore (g k : Nat) : Bool := 0 < (k + 256 - g % 256) % 256 && (k + 256 - g % 256) % 256 < 128

/-- Whether a request may be served by the slice it was sent to: its home, with the generation of the request. -/
def State.current (s : State) (sl asid : Nat) (r : Req) : Bool := s.atHome sl asid r && (s.mem.slice sl).gen asid == r.gen

/-- Whether a slice answers a request with a bounce: it is not the line's home, or the request carries an older generation. A request of a
generation that the slice has yet to adopt waits there (04 R126; log entry 63). -/
def State.bounces (s : State) (sl asid : Nat) (r : Req) : Bool := !s.atHome sl asid r || genBefore r.gen ((s.mem.slice sl).gen asid)

/-- Adds a context to those that wait for a page. -/
def addWait (ws : List Walk) (asid gen va : Nat) (a : Actor) : List Walk :=
  let here (w : Walk) : Bool := w.asid == asid && w.page == pageOf va
  if ws.any here then ws.map (fun w => if here w then { w with waiters := w.waiters ++ [a] } else w)
  else ws ++ [⟨asid, gen, pageOf va, [a]⟩]

/-- A miss joins the walk of its page, starts one, or waits while 64 run (04 R121). -/
def Slice.miss (x : Slice) (asid va : Nat) (a : Actor) : Slice :=
  if x.walks.any (fun w => w.asid == asid && w.page == pageOf va) || x.walks.length < 64 then
    { x with walks := addWait x.walks asid (x.gen asid) va a }
  else { x with queue := x.queue ++ [a] }

/-- A request waits for a reclaim or an invalidation of its page (R60, R64). -/
def Slice.wait (x : Slice) (asid va : Nat) (a : Actor) : Slice := { x with waits := addWait x.waits asid (x.gen asid) va a }

/-- A request waits at a slice. -/
def State.park (s : State) (a : Actor) (sl : Nat) (f : Slice → Slice) : State :=
  ({ s with mem := s.mem.updSlice sl f }).updReq a (fun r => { r with st := .walking sl })

/-- A slice performs a request: its answer, or it has gone out (R49). -/
def State.serveReq (s : State) (a : Actor) (o : MemOp) (r : Req) (sl ev : Nat) : State :=
  match s.mem.serve (s.opWho a o) (s.ctx a).asid r o.info sl ev with
  | (m, .answer p) => ({ s with mem := { m with shc := s.mem.shc } }).respond a r p
  | (m, .out t accs) => ({ s with mem := { m with shc := s.mem.shc } }).updReq a (fun r => { r with st := .remote t, accs := accs })

/-- A request at its home slice: performed, answered, or waiting. `first` says that nothing it waited for is left. Until the owner has
acknowledged a reclaim its own requests are performed ahead of it; afterwards they wait for its end (R60). -/
def State.arrive (s : State) (a : Actor) (ev : Nat) (first : Bool) : State :=
  match s.opOf a with
  | none => s
  | some o => match o.req with
    | none => s
    | some r =>
      let asid := (s.ctx a).asid
      match r.sl, s.mem.hash (s.dieOf a) asid r.addr with
      | none, .error f => s.respond a r { fault := some f }
      | none, .ok _ => s.updReq a (fun q => s.newReq a q.kind q.addr q.hint q.accs)
      | some sl, _ =>
        let x := s.mem.slice sl
        let who := s.opWho a o
        let write : Bool := r.kind == .bypass || r.kind == .atomic || r.kind == .uncached
        if x.inRst || !s.current sl asid r || x.holds asid r.addr then s
        else match x.findEnt asid r.addr with
        | none => s.park a sl (fun x => x.miss asid r.addr a)
        | some e =>
          let mine := e.owner.isSome && e.owner == who.core
          if e.owner.isSome && !mine then
            s.park a sl (fun x => (if e.rcl.isSome then x else x.updEnt asid r.addr (fun e => { e with rcl := some who.core })).wait asid r.addr a)
          else if mine && e.rcl.isSome && e.acked then s.park a sl (fun x => x.wait asid r.addr a)
          else if e.rep && write then s.park a sl (fun x => (x.updEnt asid r.addr (fun e => { e with inval := true })).wait asid r.addr a)
          else if !first && !mine && (e.rcl.isSome || e.inval) && x.waits.any (fun w => w.asid == asid && w.page == pageOf r.addr) then s.park a sl (fun x => x.wait asid r.addr a)
          else s.serveReq a o r sl ev

/-- Whether what a request of a context waits for at a slice is still to come: a walk of its page, a place among the 64, the end of a
reclaim or of an invalidation. -/
def Slice.parks (x : Slice) (a : Actor) : Bool :=
  x.walks.any (fun w => w.waiters.contains a) || (x.queue.contains a && 64 ≤ x.walks.length)
    || x.waits.any (fun w => w.waiters.contains a && (match x.findEnt w.asid w.page with | some e => e.rcl.isSome || e.inval | none => false))

/-- Takes a context out of those that wait at a slice. -/
def Slice.unpark (x : Slice) (a : Actor) : Slice :=
  let out (w : Walk) : Walk := { w with waiters := w.waiters.filter (fun b => b != a) }
  { x with queue := x.queue.filter (fun b => b != a), waits := x.waits.map out }

/-- An event that brings a request of one kind to its slice, or on, where the entry that it waited for has left the TLB. -/
def State.arrival (s : State) (a : Actor) (ev : Nat) (k : ReqKind) : Out :=
  match s.opOf a with
  | some o => match o.req with
    | some r =>
      if r.kind != k then .next s
      else match r.st with
      | .sent => .next (s.arrive a ev false)
      | .walking sl =>
        if (s.mem.slice sl).parks a then .next s
        else
          let s1 := { s with mem := s.mem.updSlice sl (fun x => x.unpark a) }
          .next ((s1.updReq a (fun r => { r with st := .sent })).arrive a ev false)
      | _ => .next s
    | none => .next s
  | none => .next s

/-- Contexts whose waiting at a slice is over arrive again, in order. -/
def State.arriveAll (s : State) (sl ev : Nat) (ws : List Actor) (first : Bool) : State :=
  let s1 := ws.foldl (fun s a => s.updReq a (fun r => if r.st == .walking sl then { r with st := .sent } else r)) s
  ws.foldl (fun s a => match s.opOf a with
    | some { req := some r, .. } => if r.st == .sent && r.sl == some sl then s.arrive a ev first else s
    | _ => s) s1

/-- The contexts that wait for a page in a list of waits. -/
def waitersOf (ws : List Walk) (asid page : Nat) : List Actor :=
  match ws.find? (fun w => w.asid == asid && w.page == page) with | some w => w.waiters | none => []

/-- The requests that waited for a reclaim or an invalidation of a page are performed in their order of arrival. -/
def State.releaseWaiters (s : State) (sl asid page ev : Nat) : State :=
  let x := s.mem.slice sl
  ({ s with mem := s.mem.setSlice sl { x with waits := x.waits.filter (fun w => !(w.asid == asid && w.page == page)) } }).arriveAll sl ev
    (waitersOf x.waits asid page) true

/-- A walk that installs nothing counts all the same (04 R131). -/
def State.countWalk (s : State) (sl : Nat) : State :=
  { s with mem := s.mem.updSlice sl (fun x => { x with walkN := satAdd 0xFFFFFF x.walkN 1 }) }

/-- A walk is over: its place is free for the misses that wait for one, in their order of arrival (04 R121). -/
def State.endWalk (s : State) (sl asid page : Nat) : State × List Actor :=
  let x := s.mem.slice sl
  ({ s with mem := s.mem.setSlice sl { x with walks := x.walks.filter (fun w => !(w.asid == asid && w.page == page)), queue := [] } }, x.queue)

/-- A read request arrives (R49). -/
def execSliceReadMiss (a : Actor) (ev : Nat) (s : State) : Out := s.arrival a ev .read

/-- A store's probe arrives (R444); also the probe of a WG-scope atomic and of an LDF's page (log entry 17). -/
def execStoreTranslationProbe (a : Actor) (ev : Nat) (s : State) : Out := s.arrival a ev .probe

/-- A bypass store arrives with its probe (R52). -/
def execBypassStore (a : Actor) (ev : Nat) (s : State) : Out := s.arrival a ev .bypass

/-- An atomic request arrives (R71). -/
def execSliceAtomic (a : Actor) (ev : Nat) (s : State) : Out := s.arrival a ev .atomic

/-- All probes have returned: the store takes effect or is held, the atomic goes on in the L1 (R444). -/
def execProbeReturn (a : Actor) (s : State) : Out :=
  match s.opOf a with
  | some o =>
    if o.probes.isEmpty && o.req.isNone && !o.probed && !o.mesh then .next ((s.setOp a (some { o with probed := true })).memGo memFuel a)
    else .next s
  | none => .next s

/-- A fill merges into the line and completes the load at that instant (R52, R74; 03 R85). Where the line has left the L1, or an acquire
or a write-back has come between, the request goes again (03 R90). An access that waited for a way goes on as soon as one is free. -/
def execL1Fill (a : Actor) (s : State) : Out :=
  match s.opOf a with
  | none => .next s
  | some o =>
    match o.req, o.todo with
    | some { st := .back p, kind := .read, .. }, x :: _ =>
      let cn := s.coreOf a
      let asid := (s.ctx a).asid
      let o1 := { o with req := none }
      if o.info.hint = 3 || p.peer then .next (s.answerNow a o x p)
      else match s.mem.fill1 cn asid (x.addr / 128) (secMask x.addr x.size) a p with
        | (m1, true) =>
          match m1.look1 cn asid (x.addr / 128) with
          | (m2, some l) =>
            let (s2, r) := ({ s with mem := m2 }).tryLine a o1 x l true
            .next ((s2.setOp a (some (o1.done x r))).memGo memFuel a)
          | (m2, none) => .next ((({ s with mem := m2 }).setOp a (some o1)).memGo memFuel a)
        | (_, false) => .next ((s.setOp a (some o1)).memGo memFuel a)
    | some { st := .back _, .. }, _ => .next ((s.setOp a (some { o with req := none })).memGo memFuel a)
    | none, _ => if o.probed && !o.mesh && !o.remote then .next (s.memGo memFuel a) else .next s
    | _, _ => .next s

/-- A walk finishes: it installs a translation or faults, and the requests of its page are performed in order (04 R121,
R122). A walk of an older generation, of a held page (04 R126, R128) or into a larger translation that the slice has by then installs
nothing. -/
def execWalkComplete (a : Actor) (ev : Nat) (s : State) : Out :=
  match s.opOf a with
  | some { req := some r, sup := sp, .. } =>
    match r.st with
    | .walking sl =>
      let x := s.mem.slice sl
      let asid := (s.ctx a).asid
      let page := pageOf r.addr
      let lost (s : State) (w : Walk) : State :=
        let (s2, q) := s.countWalk sl |>.endWalk sl asid page
        (w.waiters.foldl (fun s b => s.updReq b (fun r => { r with st := .sent })) s2).arriveAll sl ev q false
      match x.walks.find? (fun w => w.asid == asid && w.page == page) with
      | none => .next s
      | some w =>
        if w.gen != x.gen asid || x.holds asid r.addr then .next (lost s w)
        else if (x.findEnt asid r.addr).isSome then
          let (s1, q) := s.countWalk sl |>.endWalk sl asid page
          .next ((s1.arriveAll sl ev w.waiters true).arriveAll sl ev q false)
        else
          let lead := w.waiters.headD a
          let wr : Bool := match s.opOf lead with
            | some { req := some q, .. } => q.kind == .bypass || q.kind == .atomic
            | _ => false
          match s.mem.walkInstall sl asid r.addr { s.who lead with sup := sp } wr ev with
          | (m, .ok _) =>
            let (s1, q) := ({ s with mem := m }).endWalk sl asid page
            .next ((s1.arriveAll sl ev w.waiters true).arriveAll sl ev q false)
          | (m, .error f) =>
            let (s1, q) := ({ s with mem := m }).endWalk sl asid page
            .next ((w.waiters.foldl (fun s b => match s.opOf b with
              | some { req := some q, .. } => if q.st == .walking sl then s.respond b q { fault := some f } else s
              | _ => s) s1).arriveAll sl ev q false)
    | _ => .next s
  | _ => .next s

/-! Write-back, reclaim, replicas. -/

/-- A full set of an L1 makes room: its least recently used line that is neither refused nor waiting for a fill leaves, and its dirty
bytes arrive at the home slice (R51, R52, R89). -/
def execWriteBack (core n : Nat) (s : State) : Out := .next { s with mem := (s.mem.room1 core n).1 }

/-- The reclaim reaches the owner's L1 (R60 step 3). -/
def execReclaim (sl asid page : Nat) (s : State) : Out :=
  match (s.mem.slice sl).findEnt asid page with
  | some e => match e.rcl, e.owner with
    | some _, some x =>
      if e.acked then .next s
      else .next { s with mem := (s.mem.reclaimL1 sl x e).updSlice sl (fun y => y.updEnt asid page (fun t => { t with acked := true })) }
    | _, _ => .next s
  | none => .next s

/-- A reclaim ends, and the held requests of its pages are performed in order (R60 steps 4, 5). -/
def State.reclaimDone (s : State) (sl x : Nat) (e : TEnt) (who : Option Nat) : State :=
  (List.range (2 ^ (e.leaf.size - 16))).foldl (fun s i =>
      if (s.mem.slice sl).waits.any (fun w => w.asid == e.asid && w.page == e.leaf.page + i * 65536) then
        s.releaseWaiters sl e.asid (e.leaf.page + i * 65536) 0 else s)
    { s with mem := s.mem.reclaimEnd sl (x / 64) e who }

/-- The acknowledgement of the owner ends the reclaim. -/
def execReclaimAck (sl asid page : Nat) (s : State) : Out :=
  match (s.mem.slice sl).findEnt asid page with
  | some e => match e.rcl, e.acked, e.owner with
    | some who, true, some x => .next (s.reclaimDone sl x e who)
    | _, _, _ => .next s
  | none => .next s

/-- A die drops its replicas of a page and acknowledges (R64). -/
def execReplicaInvalidate (sl asid page die : Nat) (s : State) : Out :=
  match (s.mem.slice sl).findEnt asid page with
  | some e =>
    if e.inval && bit e.repMask die then
      .next { s with mem := { (s.mem.updSlice sl (fun x => x.updEnt asid page (fun t => { t with repMask := without t.repMask (2 ^ die) }))) with
        dc := Tbl.upd [] s.mem.dc die (fun ls => ls.filter (fun l => !(l.ver.isNone && l.asid == asid && e.leaf.covers (l.line * 128)))) } }
    else .next s
  | none => .next s

/-- Every die has acknowledged: the page is in memory-side mode and the held write is performed (R64 steps 3, 4). -/
def execReplicaInvalidateAck (sl asid page : Nat) (s : State) : Out :=
  match (s.mem.slice sl).findEnt asid page with
  | some e =>
    if e.inval && e.repMask == 0 then
      let s1 := { s with mem := s.mem.updSlice sl (fun x => x.updEnt asid page (fun t =>
        { t with inval := false, rep := false, rrd := 0, rwr := 0 })) }
      .next (((s1.mem.slice sl).waits.filter (fun w => w.asid == asid && e.leaf.covers w.page)).foldl (fun s w => s.releaseWaiters sl asid w.page 0) s1)
    else .next s
  | none => .next s

/-! Bounces and replays (R68; 04 R126). -/

def execRequestBounce (a : Actor) (s : State) : Out :=
  match s.opOf a with
  | some { req := some r, .. } =>
    match r.st, r.sl with
    | .sent, some sl => .next (if s.bounces sl (s.ctx a).asid r then s.updReq a (fun r => { r with st := .bounced }) else s)
    | _, _ => .next s
  | _ => .next s

/-- The request is sent again under the copies its die then holds, once they differ from those it was sent under. -/
def execRequestReplay (a : Actor) (s : State) : Out :=
  match s.opOf a with
  | some ({ req := some r, .. }) =>
    if r.st != .bounced then .next s
    else
      let q := s.newReq a r.kind r.addr r.hint r.accs
      if q.epoch == r.epoch && q.gen == r.gen then .next s else .next (s.updReq a (fun _ => q))
  | _ => .next s

/-! Travelling accesses. -/

/-- An ejected lane's access arrives at its home core (03 R87). -/
def execRetrieverAccess (a : Actor) (s : State) : Out :=
  match s.opOf a with
  | some o => if o.mesh then .next ((s.setOp a (some { o with mesh := false })).memGo memFuel a) else .next s
  | none => .next s

/-- A pack-scratchpad access arrives at its target core and takes effect, after those that its group issued before it (03 R102). -/
def execRemoteScratchpadAccess (a : Actor) (s : State) : Out :=
  match s.opOf a with
  | some o => if o.remote && !o.mesh && (s.ctx a).first o then .next ((s.setOp a (some { o with remote := false })).memGo memFuel a) else .next s
  | none => .next s

/-! Completions from behind the host port and from peers (02 R71; 03 R114; 04 R149; 13 R408, R412, R414). -/

/-- The UALink port that a request took: a free value from 1 to 16 (log entry 21). -/
def State.uaPort (s : State) : Nat := s.mem.uaPort

/-- A line from behind the host port enters the home slice (02 R69; 03 R86). -/
def Mem.farFill (m : Mem) (sl die asid va hint : Nat) (t : Tr) (d : Tbl Byte) (p : Nat) : Mem :=
  if t.noLine hint || ((m.slice sl).findLine asid (va / 128)).isSome then m
  else m.lineInsert sl die ⟨asid, (m.slice sl).gen asid, va / 128, t.loc.line va, t.slot, 0, p, resHint hint t.raw, d, []⟩

/-- A request that went out is answered: data, poison or a fault. A read's answer carries the 128 bytes of its line, and above them, where
it is poisoned, the mask of the sectors that are, or 0 for all of them (05 R156); an atomic's the old content of its one location. -/
def State.remoteDone (s : State) (a : Actor) (kind value : Nat) (f : Flt) : State :=
  match s.opOf a with
  | some ({ ins := ins, req := some r, .. }) =>
    match r.st, r.sl with
    | .remote t, some sl =>
      let asid := (s.ctx a).asid
      let die := s.dieOf a
      let i := (Instr.minfo ins).getD {}
      let d := tblPut [] 0 128 value
      let p : Nat := if kind = 1 then (if fld value 1024 4 = 0 then 15 else fld value 1024 4) else 0
      let ans : Resp := { shc := 5 ≤ fld t.raw 49 3, slot := t.slot, peer := t.peer.isSome, cls := t.cls, rep := t.rep }
      if kind = 2 then s.respond a r { fault := some f }
      else match r.kind with
      | .read =>
        let m := if t.peer.isSome then s.mem.keepSealed die (t.line r.addr) d p else s.mem.farFill sl die asid r.addr r.hint t d p
        ({ s with mem := m.replicate sl die asid (r.addr / 128) t d p }).respond a r { ans with bytes := d, pois := p }
      | .atomic =>
        if i.scope = 3 || t.peer.isSome then
          ({ s with mem := s.mem.farDrop sl die asid r.addr }).respond a r { ans with old := r.accs.map (fun (x : Acc) =>
            (x.lane, if kind = 1 then gFault ⟨cPoisonMem, 0⟩ x.addr else Res.num (value % 2 ^ (8 * x.size)))) }
        else
          -- the atomic unit then works on the slice's cached line (02 R71)
          let (m, rs) := (s.mem.farFill sl die asid r.addr 0 t d p).atomUnit sl die asid t r.addr i.op r.accs
          ({ s with mem := m }).respond a r { ans with old := rs }
      | _ => s.respond a r { ans with fault := if kind = 1 then some ⟨cPoisonMem, 0⟩ else none }
    | _, _ => s
  | _ => s

/-- The fabric number of the peer that the request of a context went to, if it went to one. -/
def State.sentTo (s : State) (a : Actor) : Option Nat :=
  match s.opOf a with
  | some { req := some { st := .remote t, .. }, .. } => t.peer
  | _ => none

/-- The completion of a host or CXL access. A fault is REMOTE_FAULT of the host port. -/
def execCxlCompletion (a : Actor) (kind value : Nat) (s : State) : Out :=
  .next (if (s.sentTo a).isSome then s else s.remoteDone a kind value (remoteFlt false 0 0))

/-- The response of a peer to an uncached access (03 R114); a fault names the peer's fabric number and the port (05 R161). -/
def execPeerAccessCompletion (a : Actor) (kind value : Nat) (s : State) : Out :=
  .next (match s.sentTo a with | some fab => s.remoteDone a kind value (remoteFlt false fab s.uaPort) | none => s)

end Sys2Proof.Machine
end

