-- ==== Sys2Proof/Machine/Trans.lean ====
section
/-! DEFINITION. Translation management: harvest (04 R137, R138), generation broadcasts (04 R125 to R127), page invalidation and
holds (04 R128, R129), interleave domains (02 R65 to R67; 11 R362), with the events that end them. -/

namespace Sys2Proof.Machine

/-! Status registers. -/

/-- The instruction's status is the poison of a fault, with a record of its own. -/
def State.statusFault (s : State) (d : Nat) (f : Flt) (va : Nat := 0) : State :=
  let (s1, pl) := s.fault1 f va
  s1.upd (fun c => c.ws d (.bad pl))

/-- The registers that a blocking instruction writes at its completion. -/
def Blk.dests (b : Blk) : List Nat :=
  (match b with
  | .harv d => [d]
  | .tlbi d _ _ _ => [d]
  | .range d _ => [d]
  | .sealOpen d _ _ => [d]
  | .flush d _ _ _ => [d]
  | .hashsw d _ => [d]
  | .cstl _ _ => []
  | .waitev d _ _ => [d, d + 1]).filter (fun d => d % 64 != 0)

/-- The instruction holds its split until its completion. Where it stands in the window of an earlier result of its destination, its own write
stands (09 R285). -/
def State.block (s : State) (b : Blk) : State :=
  (s.upd (fun c => b.dests.foldl (fun c d => c.wawU (d % 64)) c)).updSp (fun x => { x with blk := some b })

/-- What an actor's split waits for first. -/
def State.blkOf (s : State) (a : Actor) : Option Blk := if (s.ctx a).on then ((s.ctx a).split a.slot).blk else none

/-- A blocking instruction completes with its status. -/
def State.unblock (s : State) (a : Actor) (b : Blk) (v : Val W64) : State :=
  s.updCtx a (fun c => (b.dests.foldl (fun c d => c.ws d v) c).freed a.slot b)

/-- Every actor whose split is held by an instruction that a test names, with that instruction. -/
def State.blocked (s : State) (f : Blk → Bool) : List (Actor × Blk) :=
  let of' (mk : Nat → Nat → Actor) (t : Tbl Ctx) : List (Actor × Blk) := t.flatMap (fun e =>
    if e.2.on then e.2.splits.flatMap (fun x =>
      if x.2.mask != 0 || e.2.lanes.isEmpty then (x.2.blks.filter f).map (fun b => (mk e.1 x.1, b)) else []) else [])
  of' (fun k i => .split (k / 32) (k % 32) i) s.groups ++ of' (fun k _ => .thread (k / 128) (k % 128)) s.threads
    ++ of' (fun k _ => .ctl (k / 8) (k % 8)) s.ctls

/-- Whether the executing program may name an ASID: a control program only its queue's own (11 R357, R362). -/
def State.mayName (s : State) (asid : Nat) : Bool := !s.cur.act.isCtl || s.me.fw || asid == s.me.asid

/-! Harvest. -/

/-- The code of a translation's size in a harvest record (04 R138). -/
def sizeCode (size : Nat) : Nat := if size = 16 then 0 else if size = 21 then 1 else if size = 29 then 2 else 3

/-- A harvest record (04 R138). -/
def harvRec (e : TEnt) (sl h : Nat) : Nat :=
  e.asid % 65536 * 2 ^ 112 + e.gen % 256 * 2 ^ 104 + sizeCode e.leaf.size * 2 ^ 102 + sl % 16 * 2 ^ 98 + b2n e.a * 2 ^ 97 + b2n e.d * 2 ^ 96
    + e.heat % 256 * 2 ^ 88 + h % 8 * 2 ^ 85 + e.leaf.page % 2 ^ 55 / 65536 * 65536

/-- The flush of an entry that stays: its state goes to the companion word and is cleared; the prescaler stays (04 R136). -/
def Mem.flushEnt (m : Mem) (sl : Nat) (e : TEnt) : Mem :=
  (m.flushCw e).updSlice sl (fun x => { x with tlb := x.tlb.map (fun t =>
    if t.asid == e.asid && t.gen == e.gen && t.leaf == e.leaf then { t with a := false, d := false, heat := 0 } else t) })

/-- One slice's harvest of one entry (04 R137). -/
def Mem.harvEnt (m : Mem) (sl slot desc nu base : Nat) (clr : Bool) (e : TEnt) : Mem :=
  let w := m.num slot (desc + 8) 8
  let widx := fld w 0 32
  if nu * 4096 ≤ widx then m.putNum slot (desc + 8) 8 ((fld w 32 32 + 1) % 2 ^ 32 * 2 ^ 32 + widx)
  else
    let at' := base + 16 * widx
    let r := harvRec e sl (min 4 (fld ((m.slice sl).heatCfg (m.dom e.asid)) 0 3))
    let m1 := if populated (at' + 15) then (m.putNum slot at' 8 r).putNum slot (at' + 8) 8 (r / 2 ^ 64) else m
    let m2 := m1.putNum slot (desc + 8) 8 (fld w 32 32 * 2 ^ 32 + (widx + 1) % 2 ^ 32)
    if clr then m2.flushEnt sl e else m2

/-- The key slot under which a harvest reaches its buffer: the owner slot of the named ASID or of the issuer (log entry 37). -/
def Mem.harvSlot (m : Mem) (issuer asid : Nat) : Nat :=
  if m.oslot issuer = m.oslot asid then m.oslot asid else if Config.harvestNamed then m.oslot asid else m.oslot issuer

/-- The harvest of an ASID by every slice, one slice after the other (log entry 57); or why the descriptor cannot be read. -/
def Mem.harvest (m : Mem) (issuer asid desc : Nat) (clr : Bool) : Mem × Option Flt :=
  let slot := m.harvSlot issuer asid
  if desc % 16 != 0 then (m, some ⟨cMisalign, 16⟩)
  else match m.tblEntry slot desc with
  | .error f => (m, some f)
  | .ok lo =>
    let nu := if fld lo 0 16 = 0 then 1 else fld lo 0 16
    let base := fld lo 16 40 * 65536
    ((List.range Config.slices).foldl (fun m sl =>
      ((m.slice sl).tlb.filter (fun e => e.asid == asid && (e.a || e.d || e.heat != 0))).foldl (fun m e => m.harvEnt sl slot desc nu base clr e) m) m, none)

/-- HARV (11 R357). -/
def execHarv (d a b clr z : Nat) (s : State) : Out :=
  s.privileged d (fun s =>
    let s1 := s.warns (ignW (z != 0))
    s1.sinkOps [(s.me.rs a).pl?, (s.me.rs b).pl?] (fun s1 =>
      let asid := ((s.me.rs b).getD 0).toNat % 65536
      if !s.mayName asid then (s1.statusFault d ⟨cProt, s.cur.word⟩).retire s.mask
      else match s1.mem.harvest s.me.asid asid (((s.me.rs a).getD 0).toNat % 2 ^ 56) (clr != 0) with
        | (m, some f) => (({ s1 with mem := m }).statusFault d f).retire s.mask
        | (m, none) => (({ s1 with mem := m }).block (.harv d)).retire s.mask))

/-- HARVEST_DONE: every slice has finished its walk. -/
def execHarvestDone (a : Actor) (s : State) : Out :=
  match s.blkOf a with
  | some (.harv d) => .next (s.unblock a (.harv d) (.ok 0))
  | _ => .next s

/-! Generation broadcast. -/

/-- What a slice does with an ASID whose generation it leaves (04 R125 step 3, R126): state to companion words, entries, walk
cache, directory and lines dropped, dirty ones counted, and one GENDROP event at its die. -/
def Mem.dropGen (m : Mem) (sl asid : Nat) : Mem :=
  let x := m.slice sl
  let m1 := (x.tlb.filter (fun e => e.asid == asid)).foldl (fun m e => m.flushCw e) m
  let n := (x.lines.filter (fun l => l.asid == asid && l.dirty != 0)).length
  let m2 := m1.updSlice sl (fun x => { x with
    lines := x.lines.filter (fun l => l.asid != asid)
    tlb := x.tlb.filter (fun e => e.asid != asid)
    wcache := x.wcache.filter (fun w => w.1 != asid)
    gendrop := satAdd 0xFFFFFF x.gendrop n })
  if n = 0 then m2 else m2.event (sl / 4) (evRec 7 0 asid 0 sl (sl / 4) false n)

/-- A receiver of a broadcast adopts the new generation (04 R125 steps 3, 4). -/
def Mem.adopt (m : Mem) (r asid g : Nat) : Mem :=
  if r < 16 then
    (m.dropGen r asid).updSlice r (fun x => { x with
      gens := Tbl.put x.gens asid g
      dir := x.dir.filter (fun d => !(d.asid == asid && d.gen != g)) })
  else
    { m with
      dgen := Tbl.upd [] m.dgen (r - 16) (fun t => Tbl.put t asid g)
      dc := Tbl.upd [] m.dc (r - 16) (fun ls => ls.filter (fun l => !(l.asid == asid && l.gen != g))) }

/-- Before a broadcast that wraps, every line of the ASID in every L1, die cache and slice is invalidated without write-back,
and dirty ones are counted (04 R127). -/
def Mem.wrapGen (m : Mem) (asid : Nat) : Mem :=
  let m1 := m.l1.foldl (fun m c =>
    let mine := c.2.filter (fun l => l.asid == asid)
    let homes := (mine.filter (fun l => l.dirty != 0)).filterMap (fun l => match m.hash (c.1 / 64) asid (l.line * 128) with
      | .ok sl => some sl
      | .error _ => none)
    { (m.setLines1 c.1 (c.2.filter (fun l => l.asid != asid))) with notices := m.notices ++ homes }) m
  let m2 := { m1 with dc := m1.dc.map (fun e => (e.1, e.2.filter (fun l => l.asid != asid))) }
  (List.range Config.slices).foldl (fun m sl => m.dropGen sl asid) m2

/-- TLBI.GEN raises the generation in the context entry and sends it out (04 R125 steps 1, 2). -/
def State.tlbiGen (s : State) (d asid : Nat) : State :=
  match s.mem.ctxWord asid 1 with
  | .error f => s.statusFault d f
  | .ok w =>
    let g := (fld w 56 8 + 1) % 256
    let m1 := s.mem.putNum 0 (s.mem.ctxb * 65536 + asid * 32 + 8) 8 (w % 2 ^ 56 + g * 2 ^ 56)
    let m2 := if g = 0 then m1.wrapGen asid else m1
    { (s.block (.tlbi d asid true g)) with mem := m2, bcasts := s.bcasts ++ [⟨asid, g, List.range 20⟩] }

/-- GEN_BROADCAST_RECEIVE. -/
def execGenBroadcastReceive (asid r : Nat) (s : State) : Out :=
  match s.bcasts.find? (fun b => b.asid == asid) with
  | none => .next s
  | some b =>
    if !b.left.contains r then .next s
    else .next { s with
      mem := s.mem.adopt r asid b.gen
      bcasts := s.bcasts.map (fun c => if c == b then { c with left := c.left.filter (· != r) } else c) }

/-- GEN_BROADCAST_DONE: every receiver has acknowledged the oldest broadcast of the ASID. -/
def execGenBroadcastDone (asid : Nat) (s : State) : Out :=
  match s.bcasts.find? (fun b => b.asid == asid) with
  | none => .next s
  | some b =>
    if !b.left.isEmpty then .next s
    else
      let s1 := { s with bcasts := s.bcasts.filter (fun c => c != b) }
      .next ((s1.blocked (fun x => match x with | .tlbi _ i true g => i == asid && g == b.gen | _ => false)).foldl (fun s e =>
        s.unblock e.1 e.2 (.ok 0)) s1)

/-- DROP_NOTICE (04 R126). -/
def execDropNotice (sl : Nat) (s : State) : Out :=
  if s.mem.notices.contains sl then
    .next { s with mem := { (s.mem.updSlice sl (fun x => { x with gendrop := satAdd 0xFFFFFF x.gendrop 1 })) with notices := s.mem.notices.erase sl } }
  else .next s

/-! Page invalidation. -/

/-- The translation of an address that the directories name: its first byte and size; a 64 KiB page where none does. -/
def Mem.dirPage (m : Mem) (asid va : Nat) : Nat × Nat :=
  match (List.range Config.slices).findSome? (fun h => (m.slice h).dir.find? (fun d => d.asid == asid && d.page ≤ va && va < d.page + 2 ^ d.size)) with
  | some d => (d.page, d.size)
  | none => (va / 65536 * 65536, 16)

/-- The slices that the directory names for a page. -/
def Mem.dirNames (m : Mem) (asid page : Nat) : List Nat :=
  match homeOf 0xFFFF asid page with
  | none => []
  | some h => (List.range 16).filter (fun i => (m.slice h).dir.any (fun d => d.asid == asid && d.page == page && bit d.mask i))

/-- A page form starts (04 R128 step 1, R129). A form that finds the page's invalidation under way joins it. -/
def State.tlbiPage (s : State) (d asid va : Nat) (hold : Bool) : State :=
  if va / 2 ^ 55 != 0 then s.statusFault d ⟨cBounds, 0⟩
  else
    let (page, size) := s.mem.dirPage asid va
    let homes := if hold then (List.range 16).filter (fun i => bit (Tbl.get 0 (s.mem.slice i).slhm (s.mem.dom asid)).toNat i) else []
    let named := s.mem.dirNames asid page
    let left := named ++ homes.filter (fun i => !named.contains i)
    let s1 := s.block (.tlbi d asid false page)
    let here (i : Inval) : Bool := i.asid == asid && i.page == page
    if s.invals.any here then
      { s1 with invals := s.invals.map (fun i => if here i then
          { i with left := i.left ++ left.filter (fun x => !i.left.contains x), hold := i.hold || hold, size := max i.size size } else i) }
    else { s1 with invals := s.invals ++ [⟨asid, page, size, left, hold⟩] }

/-- A release frees the hold on the page of an address at every slice (04 R129). -/
def Mem.release129 (m : Mem) (asid va : Nat) : Mem :=
  (List.range Config.slices).foldl (fun m sl => m.updSlice sl (fun x => { x with held := x.held.filter (fun h =>
    !(h.sticky && h.asid == asid && h.page ≤ va && va < h.page + 2 ^ h.size)) })) m

/-- A TLBI of any form (11 R357). -/
def State.tlbi (s : State) (d a b z : Nat) (k : State → Nat → Nat → State) : Out :=
  s.privileged d (fun s =>
    let s1 := s.warns (ignW (z != 0))
    s1.sinkOps [(s.me.rs a).pl?, (s.me.rs b).pl?] (fun s1 =>
      let asid := ((s.me.rs a).getD 0).toNat % 65536
      (if !s.mayName asid then s1.statusFault d ⟨cProt, s.cur.word⟩ else k s1 asid ((s.me.rs b).getD 0).toNat).retire s.mask))

def execTlbiGen (d a b _form z : Nat) (s : State) : Out := s.tlbi d a b z (fun s asid _ => s.tlbiGen d asid)
def execTlbiPage (d a b _form z : Nat) (s : State) : Out := s.tlbi d a b z (fun s asid va => s.tlbiPage d asid va false)
def execTlbiHold (d a b _form z : Nat) (s : State) : Out := s.tlbi d a b z (fun s asid va => s.tlbiPage d asid va true)
def execTlbiRel (d a b _form z : Nat) (s : State) : Out :=
  s.tlbi d a b z (fun s asid va => ({ s with mem := s.mem.release129 asid va }).upd (fun c => c.ws d (.ok 0)))

/-- PAGE_INVALIDATE_RECEIVE: a slice reclaims, writes back and drops the page, and holds its requests from now on; a hold
waits while 16 pages are held (04 R128 step 2, R129), and every form waits until a broadcast of the ASID has completed (R130). -/
def execPageInvalidateReceive (sl asid page : Nat) (s : State) : Out :=
  match s.invals.find? (fun i => i.asid == asid && i.page == page && i.left.contains sl) with
  | none => .next s
  | some i =>
    if s.bcasts.any (fun b => b.asid == asid) then .next s
    else
    let x := s.mem.slice sl
    let mine (h : HeldPage) : Bool := h.asid == asid && h.page == page
    if i.hold && 16 ≤ (x.held.filter (fun h => h.sticky && !mine h)).length then .next s
    else
      let m1 := match x.findEnt asid page with
        | some e => s.mem.evictEnt sl (sl / 4) e
        | none => s.mem
      let m2 := m1.updSlice sl (fun x => { x with held := x.held.filter (fun h => !mine h)
        ++ [⟨asid, page, i.size, i.hold || x.held.any (fun h => mine h && h.sticky)⟩] })
      .next { s with
        mem := m2
        invals := s.invals.map (fun j => if j == i then { j with left := j.left.filter (· != sl) } else j) }

/-- PAGE_INVALIDATION_DONE: every acknowledgement is in, a broadcast of the ASID has completed (04 R130), and requests that no hold holds
proceed (04 R128 steps 3, 4). -/
def execPageInvalidationDone (asid page : Nat) (s : State) : Out :=
  match s.invals.find? (fun i => i.asid == asid && i.page == page) with
  | none => .next s
  | some i =>
    if !i.left.isEmpty || s.bcasts.any (fun b => b.asid == asid) then .next s
    else
      let m := (List.range Config.slices).foldl (fun (m : Mem) sl => m.updSlice sl (fun x => { x with
        held := x.held.filter (fun h => h.sticky || !(h.asid == asid && h.page == page))
        dir := x.dir.filter (fun d => !(d.asid == asid && d.page == page && d.mask == 0)) })) s.mem
      let s1 := { s with mem := m, invals := s.invals.filter (fun j => j != i) }
      .next ((s1.blocked (fun x => match x with | .tlbi _ k false p => k == asid && p == page | _ => false)).foldl (fun s e =>
        s.unblock e.1 e.2 (.ok 0)) s1)

/-! Interleave domains. -/

/-- Changes the SLHM register of a domain in every copy: slices, compute dies, management function (02 R66, R67). -/
def State.setSlhm (s : State) (dom : Nat) (f : W32 → W32) : State :=
  let u (t : Tbl W32) : Tbl W32 := Tbl.upd 0 t dom f
  let m1 := (List.range Config.slices).foldl (fun (m : Mem) i => m.updSlice i (fun x => { x with slhm := u x.slhm })) s.mem
  let m2 := (List.range Config.dies).foldl (fun (m : Mem) d => { m with dslhm := Tbl.upd [] m.dslhm d u }) m1
  { s with mem := m2, mf := { s.mf with slhm := u s.mf.slhm } }

/-- The word of an SLHM register from its fields (02 R66). -/
def slhmWord (en : Bool) (epoch : Nat) (sw : Bool) (mask : Nat) : W32 :=
  BitVec.ofNat 32 (b2n en * 2 ^ 31 + epoch % 16 * 2 ^ 24 + b2n sw * 2 ^ 16 + mask % 2 ^ 16)

/-- HASHSW (11 R362) sets SW in every copy; the rest of the switch is its completion. -/
def execHashsw (d a z : Nat) (s : State) : Out :=
  s.privileged d (fun s =>
    let s1 := s.warns (ignW (z != 0))
    s1.sinkOps [(s.me.rs a).pl?] (fun s1 =>
      let v := ((s.me.rs a).getD 0).toNat
      let dom := fld v 0 4
      let mask := fld v 16 16
      let r := (Tbl.get 0 s.mf.slhm dom).toNat
      let give (x : W64) : State := (s1.upd (fun c => c.ws d (.ok x))).retire s.mask
      if s.cur.act.isCtl && !s.me.fw && dom != s.mem.dom s.me.asid then (s1.statusFault d ⟨cProt, s.cur.word⟩).retire s.mask
      else if mask = 0 || !bit r 31 then give 2
      else if bit r 16 then give 1
      else
        let s2 := (s1.block (.hashsw d dom)).setSlhm dom (fun w => w ||| 0x10000)
        ({ s2 with switches := s2.switches ++ [(dom, mask)] }).retire s.mask))

/-- Steps 2 and 3 of a switch at one slice of the old mask (02 R67): private entries are reclaimed, replicated ones return to
memory-side mode, and lines whose home changes are written back and leave. -/
def Mem.switchSlice (m : Mem) (sl dom mask : Nat) : Mem :=
  let inDom (asid : Nat) : Bool := m.dom asid == dom
  let m1 := ((m.slice sl).tlb.filter (fun e => inDom e.asid && e.owner.isSome)).foldl (fun m e => m.reclaim sl e none) m
  let m2 := ((m1.slice sl).tlb.filter (fun e => inDom e.asid && e.rep)).foldl (fun m e => m.unreplicate sl e) m1
  ((m2.slice sl).lines.filter (fun l => inDom l.asid && homeOf mask l.asid (l.line * 128) != some sl)).foldl
    (fun m l => m.lineDrop sl (sl / 4) l true) m2

/-- DOMAIN_SWITCH_DONE: the slices of the old mask give up what moves; MASK, EPOCH and SW are written, and the HASHSW
completes (02 R67 steps 2 to 4). -/
def execDomainSwitchDone (dom : Nat) (s : State) : Out :=
  match s.switches.find? (fun x => x.1 == dom) with
  | none => .next s
  | some (_, mask) =>
    let old := (Tbl.get 0 s.mf.slhm dom).toNat
    let m := (List.range Config.slices).foldl (fun (m : Mem) sl => if bit old sl then m.switchSlice sl dom mask else m) s.mem
    let s1 := ({ s with mem := m, switches := s.switches.filter (fun x => x.1 != dom) }).setSlhm dom (fun w =>
      slhmWord (bit w.toNat 31) (fld w.toNat 24 4 + 1) false mask)
    .next ((s1.blocked (fun x => match x with | .hashsw _ i => i == dom | _ => false)).foldl (fun s e => s.unblock e.1 e.2 (.ok 0)) s1)

/-- SLHM_WRITE: EN is written; MASK only while EN is 0 (02 R66). Every copy follows the master. -/
def execSlhmWrite (dom value : Nat) (s : State) : Out :=
  .next (s.setSlhm dom (fun w => slhmWord (bit value 31) (fld w.toNat 24 4) (bit w.toNat 16)
    (if bit w.toNat 31 then fld w.toNat 0 16 else fld value 0 16)))

/-- SLHC_WRITE: the heat configuration of a domain in every slice (04 R134). -/
def execSlhcWrite (dom value : Nat) (s : State) : Out :=
  let w : W32 := BitVec.ofNat 32 (b2n (bit value 31) * 2 ^ 31 + fld value 18 2 * 2 ^ 18 + fld value 0 3)
  let m := (List.range Config.slices).foldl (fun (m : Mem) i => m.updSlice i (fun x => { x with slhc := Tbl.put x.slhc dom w })) s.mem
  .next { s with mem := m, mf := { s.mf with slhc := Tbl.put s.mf.slhc dom w } }

/-! Slice status registers (02 R77; 04 R131). -/

/-- SLCS as read. -/
def Slice.slcs (x : Slice) : Nat :=
  x.spills * 2 ^ 40 + x.refused * 2 ^ 16 + min 8192 x.spill.length * 4 + b2n (8192 ≤ x.spill.length) * 2

/-- SLTS as read. -/
def Slice.slts (x : Slice) : Nat :=
  x.gendrop * 2 ^ 40 + x.walkN * 2 ^ 16 + (x.held.filter (·.sticky)).length * 2 ^ 8 + x.walks.length * 2

def execSlcsClr (sl : Nat) (s : State) : Out := .next { s with mem := s.mem.updSlice sl (fun x => { x with spills := 0, refused := 0 }) }
def execSltsClr (sl : Nat) (s : State) : Out := .next { s with mem := s.mem.updSlice sl (fun x => { x with gendrop := 0, walkN := 0 }) }

end Sys2Proof.Machine
end

