-- ==== Sys2Proof/Machine/Range.lean ====
section
/-! DEFINITION. Range operations (02 R73), sealed buffers (03 R115; 11 R358; 13 R412), events from software (11 R359), page
write-back to a drive (11 R361) and the compression metadata command (02 R75, R79). -/

namespace Sys2Proof.Machine

/-! CWB and CINV. -/

/-- A range operation: the issuing core's L1, then at slice level every slice; a control core has no L1. -/
def State.rangeOp (s : State) (asid lo hi : Nat) (slice inv discard : Bool) : State × List Nat :=
  let cn := s.coreOf s.cur.act
  let (m1, r) := if s.cur.act.isCtl then (s.mem, []) else s.mem.range1 cn asid lo hi inv discard
  let m2 := if slice then m1.rangeS (s.dieOf s.cur.act) asid lo hi inv discard else m1
  ({ s with mem := m2 }, r)

/-- CWB and CINV (11 R357): a refused write-back gives COMPRESS_SPILL at completion. -/
def State.range (s : State) (d a b lvl : Nat) (inv discard : Bool) (w : W32) : Out :=
  s.uni Legal.noSeq [] (fun s =>
    let s1 := s.warns w
    s1.sinkOps [(s.me.rs a).pl?, (s.me.rs b).pl?] (fun s1 =>
      let lo := ((s.me.rs a).getD 0).toNat
      let n := ((s.me.rs b).getD 0).toNat
      if n = 0 then (s1.upd (fun c => c.ws d (.ok 0))).retire s.mask
      else if 2 ^ 55 ≤ lo || 2 ^ 55 < lo + n then (s1.statusFault d ⟨cBounds, 0⟩).retire s.mask
      else
        let (s2, r) := s1.rangeOp s.me.asid lo (lo + n) (lvl != 0) inv discard
        match r with
        | [] => (s2.block (.range d (.ok 0))).retire s.mask
        | sl :: _ =>
          let (s3, p) := s2.fault1 ⟨cCompressSpill, sl⟩
          (s3.block (.range d (.bad p))).retire s.mask))

def execCwb (d a b lvl z : Nat) (s : State) : Out := s.range d a b lvl false false (ignW (z != 0))
def execCinv (d a b lvl mode z : Nat) (s : State) : Out := s.range d a b lvl true (mode != 0) (ignW (z != 0))

/-- RANGE_OPERATION_DONE. -/
def execRangeOperationDone (a : Actor) (s : State) : Out :=
  match s.blkOf a with
  | some (.range d v) => .next (s.unblock a (.range d v) v)
  | _ => .next s

/-! Sealed buffers. -/

/-- A message to every peer port: 512 a sealed pair, 513 its retire. -/
def State.tellAll (s : State) (kind buf ver : Nat) : State := s.send [{ kind := kind, addr := buf, data := ver }]

/-- The status of a seal operation: version and result. -/
def sealStatus (ver r : Nat) : W64 := BitVec.ofNat 64 (ver % 65536 * 65536 + r)

/-- SEAL.CLOSE with base, length and buffer: the new table and the status. -/
def sealClose (t : List Seal) (asid base len buf : Nat) : List Seal × Nat × Nat :=
  match t.find? (fun e => e.asid == asid && e.buf == buf) with
  | some e =>
    if e.sealed then (t, e.ver, 2)
    else
      let v := (e.ver + 1) % 65536
      (t.map (fun x => if x.asid == asid && x.buf == buf then ⟨asid, base, len, buf, v, true⟩ else x), v, 0)
  | none => if 1024 ≤ t.length then (t, 0, 1) else (t ++ [⟨asid, base, len, buf, 1, true⟩], 1, 0)

def execSealClose (d a b _op z : Nat) (s : State) : Out :=
  s.uni Legal.noSeq [] (fun s =>
    let s1 := s.warns (ignW (z != 0))
    s1.sinkOps [(s.me.rs a).pl?, (s.me.rs b).pl?] (fun s1 =>
      let base := ((s.me.rs a).getD 0).toNat
      let v := ((s.me.rs b).getD 0).toNat
      if base % 65536 != 0 || fld v 0 16 = 0 then (s1.statusFault d ⟨cBounds, 0⟩).retire s.mask
      else
        let r := sealClose s.mem.seals s.me.asid base (fld v 0 16) (fld v 16 16)
        let s2 := { s1 with mem := { s1.mem with seals := r.1 } }
        let s3 := if r.2.2 = 0 then s2.tellAll 512 (fld v 16 16) r.2.1 else s2
        (s3.upd (fun c => c.ws d (.ok (sealStatus r.2.1 r.2.2)))).retire s.mask))

/-- SEAL.OPEN retires the version at the peers and waits for them. -/
def execSealOpen (d a b _op z : Nat) (s : State) : Out :=
  s.uni Legal.noSeq [] (fun s =>
    let s1 := s.warns (ignW (z != 0))
    s1.sinkOps [(s.me.rs a).pl?, (s.me.rs b).pl?] (fun s1 =>
      let buf := fld ((s.me.rs b).getD 0).toNat 16 16
      let give (x : W64) : State := (s1.upd (fun c => c.ws d (.ok x))).retire s.mask
      match s.mem.seals.findIdx? (fun e => e.asid == s.me.asid && e.buf == buf) with
      | none => give (sealStatus 0 3)
      | some i => match s.mem.seals[i]? with
        | some e =>
          if !e.sealed then give (sealStatus e.ver 2)
          else ((s1.tellAll 513 buf e.ver).block (.sealOpen d i s.cur.pc)).retire s.mask
        | none => give (sealStatus 0 3)))

/-- SEAL_RETIRE_ACK: every peer has acknowledged, and the entry is OPEN. -/
def execSealRetireAck (a : Actor) (s : State) : Out :=
  match s.blkOf a with
  | some (.sealOpen d i pc) =>
    let v := match s.mem.seals[i]? with | some e => e.ver | none => 0
    .next (({ s with mem := { s.mem with seals := listUpd s.mem.seals i (fun e => { e with sealed := false }) } }).unblock a (.sealOpen d i pc)
      (.ok (sealStatus v 0)))
  | _ => .next s

/-- SEAL_VERSION_NOTICE: every compute die holds the pair from now on; an older version of the buffer is replaced. -/
def execSealVersionNotice (dev buf ver : Nat) (s : State) : Out :=
  let old := s.mem.vers.filter (fun v => !(v.2.1 == dev && v.2.2.1 == buf))
  .next { s with mem := { s.mem with vers := old ++ (List.range Config.dies).map (fun d => (d, dev, buf, ver)) } }

/-- Whether a read that an agent of a die has sent to a buffer of a peer device is on its way. -/
def State.readsBuf (s : State) (die dev buf : Nat) : Bool :=
  s.actors.any (fun a => s.dieOf a == die && (match s.opOf a with
    | some { req := some { kind := .read, st := .remote { peer := some fab, loc := .far _ addr, .. }, .. }, .. } =>
      fab == dev && Config.sealBuf fab addr == some buf
    | _ => false))

/-- The retires that a die acknowledges (514), now that its reads of the buffer have completed (R115; R412). -/
def State.ackRetires (s : State) : State :=
  s.mem.retires.foldl (fun s r => if s.readsBuf r.1 r.2.1 r.2.2.1 then s
    else ({ s with mem := { s.mem with retires := s.mem.retires.filter (· != r) } }).send [{ kind := 514, addr := r.2.1 * 65536 + r.2.2.1, data := r.2.2.2 }]) s

/-- SEAL_RETIRE: the die invalidates its lines of the version and holds it no longer; it acknowledges at once, or as soon as its reads of the
buffer have completed (R115; R412). -/
def execSealRetire (die dev buf ver : Nat) (s : State) : Out :=
  .next ({ s with mem := { s.mem with
    vers := s.mem.vers.filter (fun v => v != (die, dev, buf, ver))
    dc := Tbl.upd [] s.mem.dc die (fun ls => ls.filter (fun l => l.ver != some (dev, buf, ver)))
    retires := s.mem.retires.filter (· != (die, dev, buf, ver)) ++ [(die, dev, buf, ver)] } } : State).ackRetires

/-! EVT. -/

def execEvt (y a z : Nat) (s : State) : Out :=
  s.uni1 Legal.all [a] (fun s =>
    let s1 := s.warns (ignW (y != 0 || z != 0))
    match s.me.rs a with
    | .bad p => s1.sinkAll p
    | .ok v =>
      let die := s.dieOf s.cur.act
      let (src, cc) := match s.cur.act with | .ctl _ t => (t, true) | x => (s.coreOf x, false)
      s1.event die (evRec 10 (v.toNat % 256) s.me.asid 0 src die cc v.toNat))

/-! FLUSHST. -/

/-- The page of an address for a write to its drive: the fault unless its leaf is KIND HBM (11 R361). -/
def Mem.flushLeaf (m : Mem) (asid va : Nat) : Except Flt Leaf :=
  match m.walk (fun _ _ => none) asid va with
  | .error f => .error (if f.cause ≤ cPageHost then ⟨cPageMiss, f.detail⟩ else f)
  | .ok (l, _) => if fld l.raw 60 3 = 1 then .ok l else .error ⟨cPageMiss, l.raw⟩

/-- The NVMe commands that move a page of an ASID, none of them sent yet: as many as the largest transfer asks for, in the queue pair that the
page and the ASID select (13 R415; log entry 11). -/
def Port.cmdsFor (q : Port) (asid page : Nat) : NvmeCmds :=
  { nsid := q.nsid.toNat, pair := (page / 65536 % 65536 ^^^ asid) % q.qp, todo := if q.mdts = 0 then 1 else 16 / 2 ^ min 4 q.mdts }

/-- Sends the commands for which their queue pair has room: a queue of a depth holds one command less (13 R415; log entry 11). -/
def Port.submit (q : Port) : Port :=
  let load (t : Tbl Nat) (c : NvmeCmds) : Tbl Nat := Tbl.upd 0 t c.pair (· + c.sent)
  let t0 := (q.table.map Fetch.cmds ++ q.flushes.map Flush.cmds).foldl load []
  let go (t : Tbl Nat) (c : NvmeCmds) : Tbl Nat × NvmeCmds :=
    let n := min c.todo (max 1 (q.depth - 1) - Tbl.get 0 t c.pair)
    (Tbl.upd 0 t c.pair (· + n), { c with todo := c.todo - n, sent := c.sent + n })
  let (ts, t1) := q.table.foldl (fun (acc : List Fetch × Tbl Nat) f =>
    let (t, c) := go acc.2 f.cmds
    (acc.1 ++ [{ f with cmds := c }], t)) ([], t0)
  let (fs, _) := q.flushes.foldl (fun (acc : List Flush × Tbl Nat) f =>
    let (t, c) := go acc.2 f.cmds
    (acc.1 ++ [{ f with cmds := c }], t)) ([], t1)
  { q with table := ts, flushes := fs }

def execFlushst (d a b fua z : Nat) (s : State) : Out :=
  s.privileged d (fun s =>
    let s1 := s.warns (ignW (z != 0))
    s1.sinkOps [(s.me.rs a).pl?, (s.me.rs b).pl?] (fun s1 =>
      let va := ((s.me.rs a).getD 0).toNat
      let v := ((s.me.rs b).getD 0).toNat
      let page := va / 65536 * 65536
      let p := fld v 40 3
      if va / 2 ^ 55 != 0 then (s1.statusFault d ⟨cBounds, 0⟩ va).retire s.mask
      else match s1.mem.flushLeaf s.me.asid va with
      | .error f => (s1.statusFault d f va).retire s.mask
      | .ok _ =>
        let (s2, _) := s1.rangeOp s.me.asid page (page + 65536) true false false
        if !(s2.port p).ready then (s2.upd (fun c => c.ws d (.ok 0xFFFF))).retire s.mask
        else
          let pt := s2.port p
          let s3 := s2.setPort p ({ pt with flushes := pt.flushes ++ [⟨s.cur.act, s.me.asid, page, fld v 0 37, fua != 0, pt.cmdsFor s.me.asid page⟩] } : Port).submit
          (s3.block (.flush d p s.me.asid page)).retire s.mask))

/-! CMCMD (02 R79). -/

/-- The command's fields go into the register; a command over one that runs is ignored and noted in MFES. -/
def State.cmcmd (s : State) (op value : Nat) : State :=
  if s.mf.cmBusy then { s with mf := { s.mf with mfes := s.mf.mfes ||| 8 } }
  else
    let stk := fld value 58 4
    let blk := fld value 54 4
    let nu := fld value 52 2
    let ub := fld value 26 26
    let rc := fld value 3 23
    let f := { s.mf with cmStk := stk, cmBlk := blk, cmNu := nu, cmUbase := ub, cmRec := rc }
    let at' := Mem.blkWordAt stk rc blk s.mem
    let badRec := s.mem.cmtLen stk ≤ rc
    if op = 1 then
      if badRec || 64000000000 < (ub + nu + 1) * 1024 then { s with mf := { f with cmErr := true } }
      else
        let w := s.mem.num 0 at' 8
        let m := s.mem.putNum 0 at' 8 (nu * 2 ^ 62 + b2n (bit w 61) * 2 ^ 61 + 2 ^ 60 + ub)
        { s with mem := m, mf := { f with cmErr := false, cmBusy := true } }
    else if op = 2 then
      if badRec then { s with mf := { f with cmErr := true } }
      else
        let w := s.mem.num 0 at' 8
        { s with mf := { f with cmErr := false, cmNu := fld w 62 2, cmUbase := fld w 0 26, cmSpl := bit w 61 } }
    else { s with mf := f }

def execCmcmdSet (value : Nat) (s : State) : Out := .next (s.cmcmd 1 value)
def execCmcmdQuery (value : Nat) (s : State) : Out := .next (s.cmcmd 2 value)

/-- The pinned lines of a block that fit its units are written into them (02 R75, R79). -/
def Mem.unspill (m : Mem) (k : Nat) : Mem :=
  let w := m.num 0 (Mem.blkWordAt (k / 2 ^ 27) (k / 16 % 2 ^ 23) (k % 16) m) 8
  let m1 := (List.range Config.slices).foldl (fun (m : Mem) i =>
    ((m.slice i).spill.filter (fun p => blkKey p.stack p.crec p.blk == k)).foldl (fun (m : Mem) p =>
      let m := { m with ctr := m.ctr + 1 }
      if Config.compressFits m.ctr k (fld w 62 2 + 1) then
        (m.lineStore p.slot (.blk k p.off) p.data (2 ^ 128 - 1) p.pois).updSlice i (fun x => { x with spill := x.spill.filter (fun q => q != p) })
      else m) m) m
  if m1.pinned k then m1 else m1.setSpl k false

/-- CMCMD_SET_DONE. -/
def execCmcmdSetDone (s : State) : Out :=
  if !s.mf.cmBusy then .next s
  else
    let k := blkKey s.mf.cmStk s.mf.cmRec s.mf.cmBlk
    let m := s.mem.unspill k
    let w := m.num 0 (Mem.blkWordAt s.mf.cmStk s.mf.cmRec s.mf.cmBlk m) 8
    .next { s with mem := m, mf := { s.mf with cmBusy := false, cmSpl := bit w 61 } }

/-- CMCMD as read. -/
def Mf.cmcmdWord (f : Mf) : Nat :=
  f.cmStk * 2 ^ 58 + f.cmBlk * 2 ^ 54 + f.cmNu * 2 ^ 52 + f.cmUbase * 2 ^ 26 + f.cmRec * 8 + b2n f.cmErr * 4 + b2n f.cmSpl * 2 + b2n f.cmBusy

end Sys2Proof.Machine
end

