-- ==== Sys2Proof/Machine/Events.lean ====
section
/-! DEFINITION. The event queue of a die with its spill ring, the host notification ring, and WAITEV (07 R212 to R216; 11 R360;
13 R399). -/

namespace Sys2Proof.Machine

/-! Host notifications. -/

/-- Whether an event type is copied to the host, and whether its source holds it (07 R216). -/
def evHost (t : Nat) : Bool := [1, 2, 4, 5, 6, 7, 11].contains t
def evHeldType (t : Nat) : Bool := [1, 2, 3, 4, 9].contains t

/-- The entries of the notification ring of HNR: 2^(LSZ + 6), as many as its 20-bit indices name. -/
def hnrSize (w : Nat) : Nat := min (2 ^ (fld w 72 4 + 6)) (2 ^ 20)

/-- Sets NOTIFYDROP. -/
def State.notifyDrop (s : State) : State := { s with mf := { s.mf with mfes := s.mf.mfes ||| 1 } }

/-- The MSI-X table entry of a vector of a function: address, data and, in bit 96, its mask bit, which is set at reset (13 R401; log entry 66). -/
def Mf.msixAt (f : Mf) (fn vec : Nat) : BitVec 128 := Tbl.get (BitVec.ofNat 128 (2 ^ 96)) f.msix (fn * 256 + vec)

/-- Sends an MSI-X vector of a function; a masked one becomes pending (13 R401; log entry 66). -/
def State.interrupt (s : State) (fn vec : Nat) : State :=
  let e := s.mf.msixAt fn vec
  if e.getLsbD 96 then { s with mf := { s.mf with pba := s.mf.pba.filter (· != fn * 256 + vec) ++ [fn * 256 + vec] } }
  else s.send [{ kind := 3, addr := fn, data := vec, mask := fld e.toNat 0 64, aux := fld e.toNat 64 32 }]

/-- Copies a record to the host ring and signals it; without room or EN it is dropped (13 R399). Message 2 is the write to host memory. -/
def State.notifyHost (s : State) (die : Nat) (r : BitVec 128) : State :=
  let d := s.die die
  let w := d.hnr.toNat
  let n := hnrSize w
  let tail := fld w 0 20 % n
  if !bit w 63 || (tail + 1) % n == fld w 20 20 % n then s.notifyDrop
  else
    let base := fld w 76 52 * 4096
    let s1 := s.setDie die { d with hnr := BitVec.ofNat 128 (w - fld w 0 20 + (tail + 1) % n) }
    (s1.send [{ kind := 2, addr := base + 16 * tail, data := r.toNat, size := 16 }]).interrupt (die + 1) (fld w 64 8)

/-! The queue. -/

/-- Records in the spill ring: its indices run freely modulo 2^24 (log entry 36). -/
def Die.ringLen (d : Die) : Nat := (d.evW + 2 ^ 24 - d.evR) % 2 ^ 24
def Die.ringSize (d : Die) : Nat := 2 ^ (d.evLsz + 8)
def Die.ringAt (d : Die) (i : Nat) : Nat := d.evBase * 4096 + 16 * (i % d.ringSize)

/-- Stores a record in the spill ring, under slot 0; one whose place lies outside populated HBM is lost (log entry 67). -/
def State.ringPut (s : State) (die : Nat) (r : BitVec 128) : State :=
  let d := s.die die
  let at' := d.ringAt d.evW
  let m := if populated (at' + 15) then (s.mem.putNum 0 at' 8 r.toNat).putNum 0 (at' + 8) 8 (r.toNat / 2 ^ 64) else s.mem
  ({ s with mem := m }).setDie die { d with evW := (d.evW + 1) % 2 ^ 24 }

/-- Moves records from the ring to the chip while there is room, oldest first. -/
def State.ringMove : Nat → State → Nat → State
  | 0, s, _ => s
  | n + 1, s, die =>
    let d := s.die die
    if d.ringLen = 0 || 256 ≤ d.evOn.length then s
    else
      let at' := d.ringAt d.evR
      let r := BitVec.ofNat 128 (s.mem.num 0 at' 8 + 2 ^ 64 * s.mem.num 0 (at' + 8) 8)
      ringMove n (s.setDie die { d with evOn := d.evOn ++ [r], evR := (d.evR + 1) % 2 ^ 24 }) die

/-- The WAITEV that waits longest on a die: its thread and destination (11 R360). -/
def State.waiter (s : State) (die : Nat) : Option (Nat × Nat) :=
  ((List.range 8).foldl (fun (b : Option (Nat × Nat × Nat)) t => match s.blkOf (.ctl die t), b with
    | some (.waitev d o _), none => some (t, d, o)
    | some (.waitev d o _), some x => if o < x.2.2 then some (t, d, o) else b
    | _, _ => b) none).map (fun x => (x.1, x.2.1))

/-- Gives a pair of status registers a record. -/
def State.giveRec (s : State) (a : Actor) (d : Nat) (r : BitVec 128) : State :=
  s.updCtx a (fun c =>
    let c1 := (c.ws d (.ok (r.setWidth 64))).ws (d + 1) (.ok ((r >>> 64).setWidth 64))
    c1.setSplit a.slot ((c1.split a.slot).heldBy []))

/-- Records on chip go to the threads that wait for them, in the order of their WAITEV. -/
def State.serveEv : Nat → State → Nat → State
  | 0, s, _ => s
  | n + 1, s, die =>
    match (s.die die).evOn, s.waiter die with
    | r :: rs, some (t, d) =>
      let s1 := s.setDie die { s.die die with evOn := rs }
      serveEv n ((s1.giveRec (.ctl die t) d r).ringMove 256 die) die
    | _, _ => s

/-- Puts a record into the queue of a die, if there is room. -/
def State.insertEv (s : State) (die : Nat) (r : BitVec 128) : Option State :=
  let d := s.die die
  let placed : Option State :=
    if d.evOn.length < 256 && d.ringLen == 0 then some (s.setDie die { d with evOn := d.evOn ++ [r] })
    else if d.ringLen < d.ringSize then some (s.ringPut die r)
    else none
  placed.map (fun s1 =>
    let s2 := if evHost (r.toNat / 2 ^ 120) then s1.notifyHost die r else s1
    (s2.ringMove 256 die).serveEv 8 die)

/-- The records offered to a die in order, taken one at a time. -/
def takeOffer (die : Nat) (l : List (Nat × BitVec 128)) : Option (BitVec 128 × List (Nat × BitVec 128)) :=
  match l with
  | [] => none
  | (d, r) :: t => if d = die then some (r, t) else (takeOffer die t).map (fun x => (x.1, (d, r) :: x.2))

/-- EVENT_INSERT: a record that a source holds goes first, then the oldest offered; a full queue leaves a held type with its
source and drops another (07 R214). -/
def execEventInsert (die : Nat) (s : State) : Out :=
  let d := s.die die
  match d.evHeld with
  | r :: rs => match s.insertEv die r with
    | some s1 => .next (s1.setDie die { s1.die die with evHeld := rs })
    | none => match takeOffer die s.mem.offer with
      | none => .next s
      | some (q, l) => .next (refuse { s with mem := { s.mem with offer := l } } die q)
  | [] => match takeOffer die s.mem.offer with
    | none => .next s
    | some (q, l) =>
      let s1 := { s with mem := { s.mem with offer := l } }
      match s1.insertEv die q with
      | some s2 => .next s2
      | none => .next (refuse s1 die q)
where
  refuse (s : State) (die : Nat) (q : BitVec 128) : State :=
    let d := s.die die
    if evHeldType (q.toNat / 2 ^ 120) then s.setDie die { d with evHeld := d.evHeld ++ [q] }
    else s.setDie die { d with evDrop := satAdd 0x7FFFFF d.evDrop 1 }

/-! WAITEV. -/

/-- WAITEV; an ejected lane is recalled before it (06 R201). -/
def execWaitev (d a z : Nat) (s : State) : Out :=
  if s.cur.act.isThread then .next s.recallMe else
  s.ctlOnly (fun s =>
    let s1 := s.warns (ignW (z != 0) ||| alignWarn 2 d)
    let r := alignReg 2 d
    let die := s.dieOf s.cur.act
    s1.sinkOps [(s.me.rs a).pl?] (fun s1 =>
      let x := s1.die die
      let s2 := s1.setDie die { x with waitN := x.waitN + 1 }
      ((s2.block (.waitev r x.waitN ((s.me.rs a).getD 0).toNat)).retire s.mask).serveEv 8 die))

/-- WAITEV_TIMEOUT: the limit elapses, and both registers receive 0. -/
def execWaitevTimeout (die t : Nat) (s : State) : Out :=
  match s.blkOf (.ctl die t) with
  | some (.waitev d _ lim) => if lim = 0 then .next s else .next (s.giveRec (.ctl die t) d 0)
  | _ => .next s

/-- EVQ as read (07 R213). -/
def Die.evq (d : Die) : Nat :=
  d.evBase * 2 ^ 84 + d.evLsz * 2 ^ 80 + d.evDrop * 2 ^ 57 + d.evOn.length * 2 ^ 48 + d.evW * 2 ^ 24 + d.evR

/-- Software writes BASE, only while the queue is empty, and LSZ (07 R213). -/
def Die.setEvq (d : Die) (w : Nat) : Die :=
  { d with
    evBase := if d.evOn.isEmpty && d.ringLen == 0 then fld w 84 44 else d.evBase
    evLsz := fld w 80 4 }

end Sys2Proof.Machine
end

