-- ==== Sys2Proof/Machine/Region.lean ====
section
/-! DEFINITION. Region instructions (05 R165, R168, R171 to R173; 11 R348 to R351), supervisor calls and breakpoints (11 R355,
R356; 06 R206 to R208), and the fate of encodings that are no instruction (09 R294). -/

namespace Sys2Proof.Machine

/-! Regions. -/

/-- The group's SEQ counter rises; when it wraps, the group's live records become stale (R164, R165). -/
def State.nextSeq (s : State) (h : Actor) : State × Nat :=
  let c := s.ctx h
  let q := (c.seq + 1) % 65536
  let s1 := s.updCtx h (fun c => { c with seq := q })
  let cn := s.coreOf h
  (if q = 0 then s1.setCore cn { s1.core cn with side := (s1.core cn).side.map (fun e =>
      if e.2.of c.wslot c.gid then (e.1, { e.2 with stale := true }) else e) } else s1, q)

/-- Opens a region in each active lane; an open one is first resolved as CMT.RL resolves it (R165). -/
def State.openRegion (s : State) (kind : Bool) (off : Nat) : State :=
  let a := s.cur.act
  let nested := maskOf (s.active.filter (fun l => ((s.ctx a).ln l).rgn.opn))
  let s1 := (s.resolve a nested 2 0).warns (flagIf (nested != 0) wRgnNest)
  let (s2, q) := s1.nextSeq (s.homeActor a)
  s2.updCtx a (fun c => c.updRgn s.active (fun r => { r with
    opn := true
    kind := kind
    p := false
    nsv := false
    rpl := 0
    recp := 0
    seq := q
    start := s.cur.npc
    recov := s.target off }))

def execRgnI (c off : Nat) (s : State) : Out :=
  s.uni1 Legal.lane [] (fun s => (s.warns (ignW (c != 0))).openRegion false off)

def execRgnH (c off : Nat) (s : State) : Out :=
  s.uni1 Legal.lane [] (fun s => (s.warns (ignW (c != 0))).openRegion true off)

/-- A commit instruction (R348): its held results are written before it, and lanes without a region only set the warning. -/
def State.cmt (s : State) (mode z : Nat) : Out :=
  s.uni Legal.homeUser [] (fun s =>
    let a := s.cur.act
    let none? := s.active.any (fun l => !((s.ctx a).ln l).rgn.opn)
    (((s.warns (ignW (z != 0) ||| flagIf none? wCmtNoRegion)).upd (fun c => (c.endWin s.mask).settle)).commit a mode s.cur.npc s.mask).finish s.mask)

def execCmtBr (z : Nat) (s : State) : Out := s.cmt 0 z
def execCmtSv (z : Nat) (s : State) : Out := s.cmt 1 z
def execCmtRl (z : Nat) (s : State) : Out := s.cmt 2 z

/-! Reading and clearing poison. -/

/-- The payload of a poisoned value as a number, or 0. -/
def Val.payload {α : Type} (v : Val α) : Nat := match v.pl? with | some p => p.toNat | none => 0

/-- PCHK tests without taking the poison in (R349); with U = 1 bits A[6] and E[6] must be 0. -/
def execPchk (u p y a pl e z : Nat) (s : State) : Out :=
  let w := ignW (y != 0 || z != 0 || (pl = 0 && e != 0) || (u != 0 && (64 ≤ a || 64 ≤ e)))
  if u != 0 then
    s.uni1 Legal.noSeq [] (fun s => (s.warns w).upd (fun c =>
      let v := c.rs a
      let c1 := c.wq p (.ok v.pl?.isSome)
      if pl = 0 then c1 else c1.ws e (.ok (BitVec.ofNat 64 (Val.payload v)))))
  else
    s.uni1 Legal.lane [] (fun s => (s.warns (w ||| s.unmapped [a])).upd (fun c => s.active.foldl (fun c l =>
      let v := (c.ln l).rd a
      let c1 := c.wp l p (.ok v.pl?.isSome)
      if pl = 0 then c1 else c1.wv l e (.ok (BitVec.ofNat 32 (Val.payload v)))) c))

/-- Clears the poisoned lane registers among `rs`. -/
def Ctx.clearV (c : Ctx) (l : Nat) (rs : List Nat) : Ctx :=
  rs.foldl (fun c r => if ((c.ln l).rd r).pl?.isSome then c.wv l r (.ok 0) else c) c

/-- Clears the poisoned predicates of a lane. -/
def Ctx.clearP (c : Ctx) (l : Nat) : Ctx :=
  (List.range 8).foldl (fun c r => if ((c.ln l).pr r).pl?.isSome then c.wp l r (.ok false) else c) c

/-- Clears the poisoned uniform predicates. -/
def Ctx.clearQ (c : Ctx) : Ctx := (List.range 8).foldl (fun c r => if (c.rq r).pl?.isSome then c.wq r (.ok false) else c) c

/-- Clears the poisoned uniform registers. -/
def Ctx.clearS (c : Ctx) : Ctx := (List.range 64).foldl (fun c r => if (c.rs r).pl?.isSome then c.ws r (.ok 0) else c) c

/-- The state that PCLR clears for its lanes: reserve entries, ORPH, RECV, REC outside a region, their OUT records and those the
cleared REC name, and OVF (R168, R350). -/
def State.clearState (s : State) (mask : Nat) : State :=
  let a := s.cur.act
  let c := s.ctx a
  let h := s.homeActor a
  let recs := ((lanesOf mask).filter (fun l => !(c.ln l).rgn.opn && (c.ln l).rgn.recp != 0)).map (fun l => plIdx (c.ln l).rgn.recp)
  let s1 := s.resolveHeld a (s.homeSlot a) 0 mask (fun r => r)
  let s2 := s1.freeRecs (s.coreOf a) (fun i r => r.of c.wslot c.gid && ((r.out && bit mask r.lane) || recs.contains i))
  let s3 := s2.updCtx a (fun c => c.updRgn (lanesOf mask) (fun r =>
    { r with orph := false, recv := false, recp := if r.opn then r.recp else 0 }))
  s3.updCtx h (fun c => { c with ovf := false })

def execPclr (f n q sx z : Nat) (s : State) : Out :=
  s.uni1 Legal.lane [] (fun s =>
    let rs := (List.range n).map (fun i => (f + i) % 128)
    ((s.warns (ignW (z != 0))).clearState s.mask).upd (fun c =>
      let c := s.active.foldl (fun c l => let c := c.clearV l rs; if q = 0 then c else c.clearP l) c
      let c := if q = 0 then c else c.clearQ
      if sx = 0 then c else c.clearS))

/-- A record as its 256 bits (R160). -/
def Rec.bits (r : Rec) : Nat :=
  r.pc.toNat * 2 ^ 192 + r.detail.toNat * 2 ^ 128 + r.va % 2 ^ 55 * 2 ^ 73 + r.asid % 2 ^ 16 * 2 ^ 57 + r.seq % 2 ^ 16 * 2 ^ 41
    + r.chain % 2 ^ 10 * 2 ^ 31 + r.cause % 2 ^ 6 * 2 ^ 25 + r.lane % 32 * 2 ^ 20 + r.group % 32 * 2 ^ 15 + r.wgs % 4 * 2 ^ 13
    + b2n r.noprev * 2 ^ 12 + b2n r.serv * 2 ^ 11 + b2n r.live * 2 ^ 10 + b2n r.stale * 2 ^ 9 + b2n r.out * 2 ^ 8

/-- SIDE reads word k of a record; in user mode only of the group's own workgroup slot (R351). -/
def execSide (d a k z : Nat) (s : State) : Out :=
  s.uni1 Legal.lane [] (fun s =>
    let i := match s.me.rs a with | .ok w => w.toNat % 1024 | .bad p => plIdx p
    let r := (s.core (s.coreOf s.cur.act)).entry i
    let x := if !s.sp.sup && r.wgs != s.me.wslot then 0 else fld r.bits (64 * k) 64
    (s.warns (ignW (z != 0))).upd (fun c => c.ws d (.ok (BitVec.ofNat 64 x))))

/-! Supervisor calls. -/

/-- SVC enters supervisor mode at SVEC + 0x40 and records the next instruction as the return (R355). -/
def execSvc (z : Nat) (s : State) : Out :=
  s.uni Legal.homeUser [] (fun s =>
    let a := s.cur.act
    let s1 := (s.warns (ignW (z != 0))).upd (fun c => (c.endWin s.mask).settle)
    (s1.enterSup a.slot a (s.mem.svec s.me.asid + 0x40) (some s.cur.npc)).finish s.mask)

/-- SRET returns a split to its supervisor return, or ends its part of a handler (R355; 04 R141). -/
def execSret (z : Nat) (s : State) : Out :=
  s.uni Legal.lane [] (fun s =>
    let a := s.cur.act
    let s1 := s.warns (ignW (z != 0))
    if !s.sp.sup then (s1.faultAll ⟨cInvalidOp, s.cur.word⟩).retire s.mask
    else match s.sp.ret, s.me.svc with
      | some r, _ => (s1.leaveSup a.slot a r).finish s.mask
      | none, none => (s1.faultAll ⟨cInvalidOp, s.cur.word⟩).retire s.mask
      | none, some _ =>
        let s2 := s1.upd (fun c => { c.setSplit a.slot {} with svc := c.svc.map (fun v => { v with handler := without v.handler s.mask }) })
        (s2.handlerLeft a).finish s.mask)

/-! Breakpoints. -/

/-- Halts every split of a group and recalls its ejected lanes, which then halt (R208). -/
def State.haltGroup (s : State) (h : Actor) : State :=
  let s1 := s.updCtx h (fun c =>
    { c with
      hpack := true
      splits := c.splits.map (fun e => (e.1, if e.2.mask = 0 then e.2 else { e.2 with halted := true }))
      pool := c.pool.map (fun e => { e with halted := true }) })
  (List.range 32).foldl (fun s l => match ((s.ctx h).ln l).life with
    | .ejected t => s.updCtx (.thread (s.dieOf h) t) (fun c => { c with timedOut := true })
    | _ => s) s1

/-- BRK halts the split, or the pack, when debug is enabled (R206 to R208). -/
def execBrk (z : Nat) (s : State) : Out :=
  s.uni Legal.home [] (fun s =>
    let a := s.cur.act
    let d := s.die (s.dieOf a)
    let s1 := s.warns (ignW (z != 0))
    if !d.dbgEn then s1.retire s.mask
    else
      let s2 := (s1.updSp (fun x => { x with halted := true, brk := some s.cur.npc })).setDie (s.dieOf a) { d with halted := true }
      let w := s.wgOf a
      let s3 := if d.haltPack then
          (s2.packWgs w.grid w.first (s.dieOf a)).foldl (fun s r => (s.groupsOf r.1 r.2.2).foldl (fun s g => s.haltGroup (.split r.1 g.1 0)) s) s2
        else s2
      s3.finish s.mask)

/-! What is no instruction. -/

/-- An unassigned word or dictionary halfword, with its detail (R294). -/
def execUnassignedEncoding (detail : Nat) (s : State) : Out := .next (s.unassigned detail)

end Sys2Proof.Machine
end

