-- ==== Sys2Proof/WellFormed.lean ====
section
/-! DEFINITION. Which terms of the instruction type are instructions of the machine: every field within its width (09
R277, R278), selector fields at the values of their row (09 R288 to R293), and the operands of event rows within the
counts of the module (00 R2, 06 R194, 07 R209, R210). -/

namespace Sys2Proof

/-- The actor exists in the module: 256 cores of 32 group slots and 4 split slots, 4 dies of 128 Retriever threads and
8 control-core threads (00 R2; 06 R190, R194; 07 R209, R226). -/
def Actor.wf : Actor → Bool
  | .split c g k => decide (c < 256) && decide (g < 32) && decide (k < 4)
  | .thread d t => decide (d < 4) && decide (t < 128)
  | .ctl d t => decide (d < 4) && decide (t < 8)
  | .mseq c => decide (c < 256)
  | .cseq c => decide (c < 256)

/-- `v` is one of the values a selector field takes in a row. -/
def selOk (vs : List Nat) (v : Nat) : Bool := vs.contains v

/-- The check of one term. -/
def Instr.wf : Instr → Bool
  | .iadd d a b m => decide (d < 128) && decide (a < 128) && decide (b < 128) && decide (m < 4)
  | .isub d a b m => decide (d < 128) && decide (a < 128) && decide (b < 128) && decide (m < 4)
  | .imul d a b m => decide (d < 128) && decide (a < 128) && decide (b < 128) && decide (m < 4)
  | .imulh d a b m => decide (d < 128) && decide (a < 128) && decide (b < 128) && decide (m < 4)
  | .imad d a b m => decide (d < 128) && decide (a < 128) && decide (b < 128) && decide (m < 4)
  | .imin d a b m => decide (d < 128) && decide (a < 128) && decide (b < 128) && decide (m < 4)
  | .imax d a b m => decide (d < 128) && decide (a < 128) && decide (b < 128) && decide (m < 4)
  | .iabs d a b m => decide (d < 128) && decide (a < 128) && decide (b < 128) && decide (m < 4)
  | .and32 d a b m => decide (d < 128) && decide (a < 128) && decide (b < 128) && decide (m < 4)
  | .or32 d a b m => decide (d < 128) && decide (a < 128) && decide (b < 128) && decide (m < 4)
  | .xor32 d a b m => decide (d < 128) && decide (a < 128) && decide (b < 128) && decide (m < 4)
  | .andn d a b m => decide (d < 128) && decide (a < 128) && decide (b < 128) && decide (m < 4)
  | .shl d a b m => decide (d < 128) && decide (a < 128) && decide (b < 128) && decide (m < 4)
  | .shr d a b m => decide (d < 128) && decide (a < 128) && decide (b < 128) && decide (m < 4)
  | .sar d a b m => decide (d < 128) && decide (a < 128) && decide (b < 128) && decide (m < 4)
  | .rot d a b m => decide (d < 128) && decide (a < 128) && decide (b < 128) && decide (m < 4)
  | .popc d a b m => decide (d < 128) && decide (a < 128) && decide (b < 128) && decide (m < 4)
  | .clz d a b m => decide (d < 128) && decide (a < 128) && decide (b < 128) && decide (m < 4)
  | .brev d a b m => decide (d < 128) && decide (a < 128) && decide (b < 128) && decide (m < 4)
  | .bfx d a b m => decide (d < 128) && decide (a < 128) && decide (b < 128) && decide (m < 4)
  | .bfi d a b m => decide (d < 128) && decide (a < 128) && decide (b < 128) && decide (m < 4)
  | .bysel d a b m => decide (d < 128) && decide (a < 128) && decide (b < 128) && decide (m < 4)
  | .addc d a b m => decide (d < 128) && decide (a < 128) && decide (b < 128) && decide (m < 4)
  | .sad d a b m => decide (d < 128) && decide (a < 128) && decide (b < 128) && decide (m < 4)
  | .isetLt d a b m => decide (d < 128) && decide (a < 128) && decide (b < 128) && decide (m < 4)
  | .isetLe d a b m => decide (d < 128) && decide (a < 128) && decide (b < 128) && decide (m < 4)
  | .isetEq d a b m => decide (d < 128) && decide (a < 128) && decide (b < 128) && decide (m < 4)
  | .isetNe d a b m => decide (d < 128) && decide (a < 128) && decide (b < 128) && decide (m < 4)
  | .sel d a b m => decide (d < 128) && decide (a < 128) && decide (b < 128) && decide (m < 4)
  | .plop d a b m => decide (d < 128) && decide (a < 128) && decide (b < 128) && decide (m < 4)
  | .mov d a b m => decide (d < 128) && decide (a < 128) && decide (b < 128) && decide (m < 4) && selOk [0, 3] m
  | .bcast d a b m => decide (d < 128) && decide (a < 128) && decide (b < 128) && decide (m < 4) && selOk [1] m
  | .getl d a b m => decide (d < 128) && decide (a < 128) && decide (b < 128) && decide (m < 4) && selOk [2] m
  | .shfl d a b m => decide (d < 128) && decide (a < 128) && decide (b < 128) && decide (m < 4)
  | .fadd d a b m => decide (d < 128) && decide (a < 128) && decide (b < 128) && decide (m < 4)
  | .fsub d a b m => decide (d < 128) && decide (a < 128) && decide (b < 128) && decide (m < 4)
  | .fmul d a b m => decide (d < 128) && decide (a < 128) && decide (b < 128) && decide (m < 4)
  | .ffma d a b m => decide (d < 128) && decide (a < 128) && decide (b < 128) && decide (m < 4)
  | .fmin d a b m => decide (d < 128) && decide (a < 128) && decide (b < 128) && decide (m < 4)
  | .fmax d a b m => decide (d < 128) && decide (a < 128) && decide (b < 128) && decide (m < 4)
  | .fsetLt d a b m => decide (d < 128) && decide (a < 128) && decide (b < 128) && decide (m < 4)
  | .fsetLe d a b m => decide (d < 128) && decide (a < 128) && decide (b < 128) && decide (m < 4)
  | .fsetEq d a b m => decide (d < 128) && decide (a < 128) && decide (b < 128) && decide (m < 4)
  | .fsetNe d a b m => decide (d < 128) && decide (a < 128) && decide (b < 128) && decide (m < 4)
  | .frcp d a b m => decide (d < 128) && decide (a < 128) && decide (b < 128) && decide (m < 4)
  | .frsq d a b m => decide (d < 128) && decide (a < 128) && decide (b < 128) && decide (m < 4)
  | .fsqrt d a b m => decide (d < 128) && decide (a < 128) && decide (b < 128) && decide (m < 4)
  | .fexp2 d a b m => decide (d < 128) && decide (a < 128) && decide (b < 128) && decide (m < 4)
  | .flog2 d a b m => decide (d < 128) && decide (a < 128) && decide (b < 128) && decide (m < 4)
  | .fsin d a b m => decide (d < 128) && decide (a < 128) && decide (b < 128) && decide (m < 4)
  | .fcos d a b m => decide (d < 128) && decide (a < 128) && decide (b < 128) && decide (m < 4)
  | .ftanh d a b m => decide (d < 128) && decide (a < 128) && decide (b < 128) && decide (m < 4)
  | .fclass d a b m => decide (d < 128) && decide (a < 128) && decide (b < 128) && decide (m < 4)
  | .dadd d a b m => decide (d < 128) && decide (a < 128) && decide (b < 128) && decide (m < 4)
  | .dmul d a b m => decide (d < 128) && decide (a < 128) && decide (b < 128) && decide (m < 4)
  | .dfma d a b m => decide (d < 128) && decide (a < 128) && decide (b < 128) && decide (m < 4)
  | .dmin d a b m => decide (d < 128) && decide (a < 128) && decide (b < 128) && decide (m < 4) && selOk [0, 2] m
  | .dmax d a b m => decide (d < 128) && decide (a < 128) && decide (b < 128) && decide (m < 4) && selOk [1, 3] m
  | .dset d a b m => decide (d < 128) && decide (a < 128) && decide (b < 128) && decide (m < 4)
  | .hadd2 d a b m => decide (d < 128) && decide (a < 128) && decide (b < 128) && decide (m < 4)
  | .hsub2 d a b m => decide (d < 128) && decide (a < 128) && decide (b < 128) && decide (m < 4)
  | .hmul2 d a b m => decide (d < 128) && decide (a < 128) && decide (b < 128) && decide (m < 4)
  | .hfma2 d a b m => decide (d < 128) && decide (a < 128) && decide (b < 128) && decide (m < 4)
  | .hmax2 d a b m => decide (d < 128) && decide (a < 128) && decide (b < 128) && decide (m < 4)
  | .maxd2 d a b m => decide (d < 128) && decide (a < 128) && decide (b < 128) && decide (m < 4)
  | .cvt d a b m => decide (d < 128) && decide (a < 128) && decide (b < 128) && decide (m < 4)
  | .cvtxPack d a b m => decide (d < 128) && decide (a < 128) && decide (b < 128) && decide (m < 4) && selOk [0] m
  | .cvtxUnpack d a b m => decide (d < 128) && decide (a < 128) && decide (b < 128) && decide (m < 4) && selOk [1] m
  | .cvtxDecode d a b m => decide (d < 128) && decide (a < 128) && decide (b < 128) && decide (m < 4) && selOk [2] m
  | .cvtxEncode d a b m => decide (d < 128) && decide (a < 128) && decide (b < 128) && decide (m < 4) && selOk [3] m
  | .iaddi d a imm => decide (d < 128) && decide (a < 128) && decide (imm < 512)
  | .imuli d a imm => decide (d < 128) && decide (a < 128) && decide (imm < 512)
  | .andi d a imm => decide (d < 128) && decide (a < 128) && decide (imm < 512)
  | .ori d a imm => decide (d < 128) && decide (a < 128) && decide (imm < 512)
  | .xori d a imm => decide (d < 128) && decide (a < 128) && decide (imm < 512)
  | .shli d a imm => decide (d < 128) && decide (a < 128) && decide (imm < 512)
  | .shri d a imm => decide (d < 128) && decide (a < 128) && decide (imm < 512)
  | .sari d a imm => decide (d < 128) && decide (a < 128) && decide (imm < 512)
  | .isetiLt d a imm => decide (d < 128) && decide (a < 128) && decide (imm < 512)
  | .isetiLe d a imm => decide (d < 128) && decide (a < 128) && decide (imm < 512)
  | .isetiEq d a imm => decide (d < 128) && decide (a < 128) && decide (imm < 512)
  | .isetiNe d a imm => decide (d < 128) && decide (a < 128) && decide (imm < 512)
  | .isetiLtn d a imm => decide (d < 128) && decide (a < 128) && decide (imm < 512)
  | .isetiLen d a imm => decide (d < 128) && decide (a < 128) && decide (imm < 512)
  | .movi d a imm => decide (d < 128) && decide (a < 128) && decide (imm < 512)
  | .movhi d a imm => decide (d < 128) && decide (a < 128) && decide (imm < 512)
  | .ldbS d a imm => decide (d < 128) && decide (a < 128) && decide (imm < 512)
  | .ldbN d a imm => decide (d < 128) && decide (a < 128) && decide (imm < 512)
  | .ldhS d a imm => decide (d < 128) && decide (a < 128) && decide (imm < 512)
  | .ldhN d a imm => decide (d < 128) && decide (a < 128) && decide (imm < 512)
  | .stb d a imm => decide (d < 128) && decide (a < 128) && decide (imm < 512)
  | .sth d a imm => decide (d < 128) && decide (a < 128) && decide (imm < 512)
  | .shfli d a imm => decide (d < 128) && decide (a < 128) && decide (imm < 512)
  | .bfxi d a imm => decide (d < 128) && decide (a < 128) && decide (imm < 512)
  | .ldw hint d x base la => decide (hint < 4) && decide (d < 128) && decide (x < 128) && decide (base < 64) && decide (la < 16)
  | .ldd hint d x base la => decide (hint < 4) && decide (d < 128) && decide (x < 128) && decide (base < 64) && decide (la < 16)
  | .ldq hint d x base la => decide (hint < 4) && decide (d < 128) && decide (x < 128) && decide (base < 64) && decide (la < 16)
  | .ldf hint d x base la => decide (hint < 4) && decide (d < 128) && decide (x < 128) && decide (base < 64) && decide (la < 16)
  | .stw hint d x base la => decide (hint < 4) && decide (d < 128) && decide (x < 128) && decide (base < 64) && decide (la < 16)
  | .std hint d x base la => decide (hint < 4) && decide (d < 128) && decide (x < 128) && decide (base < 64) && decide (la < 16)
  | .stq hint d x base la => decide (hint < 4) && decide (d < 128) && decide (x < 128) && decide (base < 64) && decide (la < 16)
  | .pref hint d x base la => decide (hint < 4) && decide (d < 128) && decide (x < 128) && decide (base < 64) && decide (la < 16)
  | .ldlw sp d a imm => decide (sp < 4) && decide (d < 128) && decide (a < 128) && decide (imm < 512)
  | .ldld sp d a imm => decide (sp < 4) && decide (d < 128) && decide (a < 128) && decide (imm < 512)
  | .ldlq sp d a imm => decide (sp < 4) && decide (d < 128) && decide (a < 128) && decide (imm < 512)
  | .stlw sp d a imm => decide (sp < 4) && decide (d < 128) && decide (a < 128) && decide (imm < 512)
  | .stld sp d a imm => decide (sp < 4) && decide (d < 128) && decide (a < 128) && decide (imm < 512)
  | .stlq sp d a imm => decide (sp < 4) && decide (d < 128) && decide (a < 128) && decide (imm < 512)
  | .ldlb sp d a imm => decide (sp < 4) && decide (d < 128) && decide (a < 128) && decide (imm < 512)
  | .stlb sp d a imm => decide (sp < 4) && decide (d < 128) && decide (a < 128) && decide (imm < 512)
  | .atomAdd32 d x scope base la => decide (d < 128) && decide (x < 128) && decide (scope < 4) && decide (base < 16) && decide (la < 16)
  | .atomAdd64 d x scope base la => decide (d < 128) && decide (x < 128) && decide (scope < 4) && decide (base < 16) && decide (la < 16)
  | .atomAddf32 d x scope base la => decide (d < 128) && decide (x < 128) && decide (scope < 4) && decide (base < 16) && decide (la < 16)
  | .atomMinS32 d x scope base la => decide (d < 128) && decide (x < 128) && decide (scope < 4) && decide (base < 16) && decide (la < 16)
  | .atomMinN32 d x scope base la => decide (d < 128) && decide (x < 128) && decide (scope < 4) && decide (base < 16) && decide (la < 16)
  | .atomMaxS32 d x scope base la => decide (d < 128) && decide (x < 128) && decide (scope < 4) && decide (base < 16) && decide (la < 16)
  | .atomMaxN32 d x scope base la => decide (d < 128) && decide (x < 128) && decide (scope < 4) && decide (base < 16) && decide (la < 16)
  | .atomAnd32 d x scope base la => decide (d < 128) && decide (x < 128) && decide (scope < 4) && decide (base < 16) && decide (la < 16)
  | .atomOr32 d x scope base la => decide (d < 128) && decide (x < 128) && decide (scope < 4) && decide (base < 16) && decide (la < 16)
  | .atomXor32 d x scope base la => decide (d < 128) && decide (x < 128) && decide (scope < 4) && decide (base < 16) && decide (la < 16)
  | .atomXchg32 d x scope base la => decide (d < 128) && decide (x < 128) && decide (scope < 4) && decide (base < 16) && decide (la < 16)
  | .atomXchg64 d x scope base la => decide (d < 128) && decide (x < 128) && decide (scope < 4) && decide (base < 16) && decide (la < 16)
  | .atomCas32 d x scope base la => decide (d < 128) && decide (x < 128) && decide (scope < 4) && decide (base < 16) && decide (la < 16)
  | .atomCas64 d x scope base la => decide (d < 128) && decide (x < 128) && decide (scope < 4) && decide (base < 16) && decide (la < 16)
  | .atomIncN32 d x scope base la => decide (d < 128) && decide (x < 128) && decide (scope < 4) && decide (base < 16) && decide (la < 16)
  | .atomAddbf16x2 d x scope base la => decide (d < 128) && decide (x < 128) && decide (scope < 4) && decide (base < 16) && decide (la < 16)
  | .sadd d a b g m => decide (d < 64) && decide (a < 64) && decide (b < 64) && decide (g < 4) && decide (m < 4)
  | .ssub d a b g m => decide (d < 64) && decide (a < 64) && decide (b < 64) && decide (g < 4) && decide (m < 4)
  | .smul d a b g m => decide (d < 64) && decide (a < 64) && decide (b < 64) && decide (g < 4) && decide (m < 4)
  | .smulh d a b g m => decide (d < 64) && decide (a < 64) && decide (b < 64) && decide (g < 4) && decide (m < 4)
  | .sdiv d a b g m => decide (d < 64) && decide (a < 64) && decide (b < 64) && decide (g < 4) && decide (m < 4)
  | .srem d a b g m => decide (d < 64) && decide (a < 64) && decide (b < 64) && decide (g < 4) && decide (m < 4)
  | .sand d a b g m => decide (d < 64) && decide (a < 64) && decide (b < 64) && decide (g < 4) && decide (m < 4)
  | .sor d a b g m => decide (d < 64) && decide (a < 64) && decide (b < 64) && decide (g < 4) && decide (m < 4)
  | .sxor d a b g m => decide (d < 64) && decide (a < 64) && decide (b < 64) && decide (g < 4) && decide (m < 4)
  | .sshl d a b g m => decide (d < 64) && decide (a < 64) && decide (b < 64) && decide (g < 4) && decide (m < 4)
  | .sshr d a b g m => decide (d < 64) && decide (a < 64) && decide (b < 64) && decide (g < 4) && decide (m < 4)
  | .ssar d a b g m => decide (d < 64) && decide (a < 64) && decide (b < 64) && decide (g < 4) && decide (m < 4)
  | .smin d a b g m => decide (d < 64) && decide (a < 64) && decide (b < 64) && decide (g < 4) && decide (m < 4)
  | .smax d a b g m => decide (d < 64) && decide (a < 64) && decide (b < 64) && decide (g < 4) && decide (m < 4)
  | .ssetLt d a b g m => decide (d < 64) && decide (a < 64) && decide (b < 64) && decide (g < 4) && decide (m < 4)
  | .ssetLe d a b g m => decide (d < 64) && decide (a < 64) && decide (b < 64) && decide (g < 4) && decide (m < 4)
  | .ssetEq d a b g m => decide (d < 64) && decide (a < 64) && decide (b < 64) && decide (g < 4) && decide (m < 4)
  | .ssetNe d a b g m => decide (d < 64) && decide (a < 64) && decide (b < 64) && decide (g < 4) && decide (m < 4)
  | .ssel d a b g m => decide (d < 64) && decide (a < 64) && decide (b < 64) && decide (g < 4) && decide (m < 4)
  | .qlop d a b g m => decide (d < 64) && decide (a < 64) && decide (b < 64) && decide (g < 4) && decide (m < 4)
  | .spopc d a b g m => decide (d < 64) && decide (a < 64) && decide (b < 64) && decide (g < 4) && decide (m < 4)
  | .sclz d a b g m => decide (d < 64) && decide (a < 64) && decide (b < 64) && decide (g < 4) && decide (m < 4)
  | .smov d a b g m => decide (d < 64) && decide (a < 64) && decide (b < 64) && decide (g < 4) && decide (m < 4)
  | .vtou d a b g m => decide (d < 64) && decide (a < 64) && decide (b < 64) && decide (g < 4) && decide (m < 4)
  | .vote d a b g m => decide (d < 64) && decide (a < 64) && decide (b < 64) && decide (g < 4) && decide (m < 4)
  | .redx d a b g m => decide (d < 64) && decide (a < 64) && decide (b < 64) && decide (g < 4) && decide (m < 4)
  | .gets d a b g m => decide (d < 64) && decide (a < 64) && decide (b < 64) && decide (g < 4) && decide (m < 4)
  | .puts d a b g m => decide (d < 64) && decide (a < 64) && decide (b < 64) && decide (g < 4) && decide (m < 4)
  | .saddc d a b g m => decide (d < 64) && decide (a < 64) && decide (b < 64) && decide (g < 4) && decide (m < 4)
  | .saddi d a imm => decide (d < 64) && decide (a < 64) && decide (imm < 1024)
  | .sandi d a imm => decide (d < 64) && decide (a < 64) && decide (imm < 1024)
  | .sori d a imm => decide (d < 64) && decide (a < 64) && decide (imm < 1024)
  | .sxori d a imm => decide (d < 64) && decide (a < 64) && decide (imm < 1024)
  | .sshli d a imm => decide (d < 64) && decide (a < 64) && decide (imm < 1024)
  | .sshri d a imm => decide (d < 64) && decide (a < 64) && decide (imm < 1024)
  | .ssari d a imm => decide (d < 64) && decide (a < 64) && decide (imm < 1024)
  | .ssetiLt d a imm => decide (d < 64) && decide (a < 64) && decide (imm < 1024)
  | .ssetiEq d a imm => decide (d < 64) && decide (a < 64) && decide (imm < 1024)
  | .ssetiLtn d a imm => decide (d < 64) && decide (a < 64) && decide (imm < 1024)
  | .smuli d a imm => decide (d < 64) && decide (a < 64) && decide (imm < 1024)
  | .smovi d imm => decide (d < 64) && decide (imm < 262144)
  | .shi18 d imm => decide (d < 64) && decide (imm < 262144)
  | .sadr d imm => decide (d < 64) && decide (imm < 262144)
  | .bra c off => decide (c < 8) && decide (off < 2097152)
  | .br c off => decide (c < 8) && decide (off < 2097152)
  | .brE c off => decide (c < 8) && decide (off < 2097152)
  | .joinat c off => decide (c < 8) && decide (off < 2097152)
  | .call c off => decide (c < 8) && decide (off < 2097152)
  | .loop c off => decide (c < 8) && decide (off < 2097152)
  | .rgnI c off => decide (c < 8) && decide (off < 2097152)
  | .rgnH c off => decide (c < 8) && decide (off < 2097152)
  | .mmaQ a view se acc sat sp z la => decide (a < 128) && decide (view < 16) && decide (se < 4) && decide (acc < 2) && decide (sat < 2) && decide (sp < 4) && decide (z < 4) && decide (la < 16)
  | .mmaPk y a view se acc sat sp z la => decide (y < 2) && decide (a < 64) && decide (view < 16) && decide (se < 4) && decide (acc < 2) && decide (sat < 2) && decide (sp < 4) && decide (z < 4) && decide (la < 16)
  | .mzero y a b z la => decide (y < 2) && decide (a < 64) && decide (b < 64) && decide (z < 64) && decide (la < 16)
  | .cpy y d a z la => decide (y < 2) && decide (d < 64) && decide (a < 64) && decide (z < 64) && decide (la < 16)
  | .cpyr y d a b la => decide (y < 2) && decide (d < 64) && decide (a < 64) && decide (b < 64) && decide (la < 16)
  | .dispSend y d a z mode la => decide (y < 2) && decide (d < 64) && decide (a < 64) && decide (z < 16) && decide (mode < 4) && decide (la < 16) && selOk [0, 3] mode
  | .dispOpen y d a z mode la => decide (y < 2) && decide (d < 64) && decide (a < 64) && decide (z < 16) && decide (mode < 4) && decide (la < 16) && selOk [1] mode
  | .dispClose y d a z mode la => decide (y < 2) && decide (d < 64) && decide (a < 64) && decide (z < 16) && decide (mode < 4) && decide (la < 16) && selOk [2] mode
  | .cstl y mask sp z => decide (y < 2) && decide (mask < 65536) && decide (sp < 4) && decide (z < 16)
  | .fork y a b z => decide (y < 128) && decide (a < 64) && decide (b < 64) && decide (z < 16)
  | .rdv y d z la => decide (y < 2) && decide (d < 64) && decide (z < 4096) && decide (la < 16)
  | .xch d a b la => decide (d < 128) && decide (a < 128) && decide (b < 32) && decide (la < 16)
  | .join z => decide (z < 4194304)
  | .ret y a z => decide (y < 64) && decide (a < 64) && decide (z < 1024)
  | .brx y a z => decide (y < 32) && decide (a < 128) && decide (z < 1024)
  | .exit z => decide (z < 4194304)
  | .nop z => decide (z < 4194304)
  | .yield z => decide (z < 4194304)
  | .cmtBr z => decide (z < 4194304)
  | .cmtSv z => decide (z < 4194304)
  | .cmtRl z => decide (z < 4194304)
  | .pchk u p y a pl e z => decide (u < 2) && decide (p < 8) && decide (y < 2) && decide (a < 128) && decide (pl < 2) && decide (e < 128) && decide (z < 4)
  | .pclr f n q sx z => decide (f < 128) && decide (n < 32) && decide (q < 2) && decide (sx < 2) && decide (z < 256)
  | .side d a k z => decide (d < 64) && decide (a < 64) && decide (k < 4) && decide (z < 256)
  | .bar kind act slot z => decide (kind < 4) && decide (act < 4) && decide (slot < 4) && decide (z < 65536)
  | .fenceAcq scope kind z => decide (scope < 8) && decide (kind < 4) && decide (z < 131072) && selOk [0] kind
  | .fenceRel scope kind z => decide (scope < 8) && decide (kind < 4) && decide (z < 131072) && selOk [1] kind
  | .fenceAr scope kind z => decide (scope < 8) && decide (kind < 4) && decide (z < 131072) && selOk [2, 3] kind
  | .trig z => decide (z < 4194304)
  | .tready y a z => decide (y < 64) && decide (a < 64) && decide (z < 1024)
  | .twait y a z => decide (y < 64) && decide (a < 64) && decide (z < 1024)
  | .svc z => decide (z < 4194304)
  | .sret z => decide (z < 4194304)
  | .brk z => decide (z < 4194304)
  | .harv d a b clr z => decide (d < 64) && decide (a < 64) && decide (b < 64) && decide (clr < 2) && decide (z < 8)
  | .tlbiGen d a b form z => decide (d < 64) && decide (a < 64) && decide (b < 64) && decide (form < 4) && decide (z < 4) && selOk [0] form
  | .tlbiPage d a b form z => decide (d < 64) && decide (a < 64) && decide (b < 64) && decide (form < 4) && decide (z < 4) && selOk [1] form
  | .tlbiHold d a b form z => decide (d < 64) && decide (a < 64) && decide (b < 64) && decide (form < 4) && decide (z < 4) && selOk [2] form
  | .tlbiRel d a b form z => decide (d < 64) && decide (a < 64) && decide (b < 64) && decide (form < 4) && decide (z < 4) && selOk [3] form
  | .cwb d a b lvl z => decide (d < 64) && decide (a < 64) && decide (b < 64) && decide (lvl < 2) && decide (z < 8)
  | .cinv d a b lvl mode z => decide (d < 64) && decide (a < 64) && decide (b < 64) && decide (lvl < 2) && decide (mode < 2) && decide (z < 4)
  | .sealClose d a b op z => decide (d < 64) && decide (a < 64) && decide (b < 64) && decide (op < 2) && decide (z < 8) && selOk [0] op
  | .sealOpen d a b op z => decide (d < 64) && decide (a < 64) && decide (b < 64) && decide (op < 2) && decide (z < 8) && selOk [1] op
  | .evt y a z => decide (y < 64) && decide (a < 64) && decide (z < 1024)
  | .waitev d a z => decide (d < 64) && decide (a < 64) && decide (z < 1024)
  | .launch d a z => decide (d < 64) && decide (a < 64) && decide (z < 1024)
  | .vacateSave d a b mode z => decide (d < 64) && decide (a < 64) && decide (b < 64) && decide (mode < 4) && decide (z < 4) && selOk [0, 3] mode
  | .vacateOpen d a b mode z => decide (d < 64) && decide (a < 64) && decide (b < 64) && decide (mode < 4) && decide (z < 4) && selOk [1] mode
  | .vacateKill d a b mode z => decide (d < 64) && decide (a < 64) && decide (b < 64) && decide (mode < 4) && decide (z < 4) && selOk [2] mode
  | .dict d a b z => decide (d < 64) && decide (a < 64) && decide (b < 64) && decide (z < 16)
  | .flushst d a b fua z => decide (d < 64) && decide (a < 64) && decide (b < 64) && decide (fua < 2) && decide (z < 8)
  | .hashsw d a z => decide (d < 64) && decide (a < 64) && decide (z < 1024)
  | .sldW hint d base off la => decide (hint < 4) && decide (d < 64) && decide (base < 64) && decide (off < 128) && decide (la < 16)
  | .sldD hint d base off la => decide (hint < 4) && decide (d < 64) && decide (base < 64) && decide (off < 128) && decide (la < 16)
  | .sstW hint d base off la => decide (hint < 4) && decide (d < 64) && decide (base < 64) && decide (off < 128) && decide (la < 16)
  | .sstD hint d base off la => decide (hint < 4) && decide (d < 64) && decide (base < 64) && decide (off < 128) && decide (la < 16)
  | .satomAdd64 hint d base off la => decide (hint < 4) && decide (d < 64) && decide (base < 64) && decide (off < 128) && decide (la < 16)
  | .scas64 hint d base off la => decide (hint < 4) && decide (d < 64) && decide (base < 64) && decide (off < 128) && decide (la < 16)
  | .sldl hint d base off la => decide (hint < 4) && decide (d < 64) && decide (base < 64) && decide (off < 128) && decide (la < 16)
  | .sstl hint d base off la => decide (hint < 4) && decide (d < 64) && decide (base < 64) && decide (off < 128) && decide (la < 16)
  | .dictionaryCode rb index => decide (rb < 4) && decide (index < 1024)
  | .unassignedEncoding detail => decide (detail < 4294967296)
  | .instructionFetchFault => true
  | .registerWrite fn off _ value => (decide (fn < 5) || (decide (8 ≤ fn) && decide (fn < 13))) && decide (off < 1048576) && decide (value < 18446744073709551616)
  | .storeTranslationProbe a _ => a.wf
  | .probeReturn a => a.wf
  | .l1Fill a => a.wf
  | .sliceReadMiss a _ => a.wf
  | .walkComplete a _ => a.wf
  | .writeBack core _ => decide (core < 256)
  | .bypassStore a _ => a.wf
  | .sliceAtomic a _ => a.wf
  | .reclaim sl asid page => decide (sl < 16) && decide (asid < 65536) && decide (page < 549755813888)
  | .reclaimAck sl asid page => decide (sl < 16) && decide (asid < 65536) && decide (page < 549755813888)
  | .replicaInvalidate sl asid page die => decide (sl < 16) && decide (asid < 65536) && decide (page < 549755813888) && decide (die < 4)
  | .replicaInvalidateAck sl asid page => decide (sl < 16) && decide (asid < 65536) && decide (page < 549755813888)
  | .requestBounce a => a.wf
  | .requestReplay a => a.wf
  | .remoteScratchpadAccess a => a.wf
  | .retrieverAccess a => a.wf
  | .genBroadcastReceive asid r => decide (asid < 65536) && decide (r < 20)
  | .genBroadcastDone asid => decide (asid < 65536)
  | .dropNotice sl => decide (sl < 16)
  | .pageInvalidateReceive sl asid page => decide (sl < 16) && decide (asid < 65536) && decide (page < 549755813888)
  | .pageInvalidationDone asid page => decide (asid < 65536) && decide (page < 549755813888)
  | .harvestDone a => a.wf
  | .rangeOperationDone a => a.wf
  | .domainSwitchDone dom => decide (dom < 16)
  | .slcsClr sl => decide (sl < 16)
  | .sltsClr sl => decide (sl < 16)
  | .cmcmdSet value => decide (value < 18446744073709551616)
  | .cmcmdQuery value => decide (value < 18446744073709551616)
  | .cmcmdSetDone => true
  | .slhmWrite dom value => decide (dom < 16) && decide (value < 4294967296)
  | .slhcWrite dom value => decide (dom < 16) && decide (value < 4294967296)
  | .commitBackoffExpiry core slot => decide (core < 256) && decide (slot < 32)
  | .fetchRequestIntake port => decide (port < 8)
  | .nvmeCommandComplete port _ _ => decide (port < 8)
  | .nvmeCommandTimeout port _ => decide (port < 8)
  | .storageLinkUp port lbs ident => decide (port < 8) && decide (lbs < 16) && decide (ident < 1099511627776)
  | .storageLinkDown port => decide (port < 8)
  | .frdbServiced die token => decide (die < 4) && decide (token < 65536)
  | .frdbFail die token => decide (die < 4) && decide (token < 65536)
  | .handOverDone die t => decide (die < 4) && decide (t < 128)
  | .rejoinTimeout die t => decide (die < 4) && decide (t < 128)
  | .recallComplete die t => decide (die < 4) && decide (t < 128)
  | .powerTokenGrant die => decide (die < 4)
  | .matrixPassComplete core => decide (core < 256)
  | .copyComplete core wg _ => decide (core < 256) && decide (wg < 4)
  | .cpyrAck core wg _ fault => decide (core < 256) && decide (wg < 4) && decide (fault < 2)
  | .dispatchDeliver core wg _ answer => decide (core < 256) && decide (wg < 4) && decide (answer < 3)
  | .dispatchDone core wg _ => decide (core < 256) && decide (wg < 4)
  | .peerTimeout a => a.wf
  | .xchTimeout core slot => decide (core < 256) && decide (slot < 32)
  | .castling a => a.wf
  | .rdvComplete core wg => decide (core < 256) && decide (wg < 4)
  | .tileFlagNotify die => decide (die < 4)
  | .packPlace die => decide (die < 4)
  | .packSaveComplete die => decide (die < 4)
  | .quantumExpiry die q => decide (die < 4) && decide (q < 64)
  | .gridCompletion die => decide (die < 4)
  | .submissionTake die => decide (die < 4)
  | .eventInsert die => decide (die < 4)
  | .waitevTimeout die t => decide (die < 4) && decide (t < 8)
  | .dbgctlResume die => decide (die < 4)
  | .dbgctlHaltedClear die => decide (die < 4)
  | .kscmdLoad slot => decide (slot < 4096)
  | .kscmdRevoke slot => decide (slot < 4096)
  | .keySlotOpDone => true
  | .mfesClear value => decide (value < 4294967296)
  | .almLock => true
  | .almClear value => decide (value < 4294967296)
  | .securityAlarm src => decide (src < 5)
  | .dbggoGo die => decide (die < 4)
  | .debugUnlockResult ok => decide (ok < 2)
  | .drstGo die => decide (die < 4)
  | .functionLevelReset die => decide (die < 4)
  | .bdrstReset sl => decide (sl < 16)
  | .ctxbWrite value => decide (value < 18446744073709551616)
  | .peerbWrite value => decide (value < 18446744073709551616)
  | .fabnWrite value => decide (value < 4294967296)
  | .moduleColdReset ok ctxb peerb fab => decide (ok < 2) && decide (ctxb < 1099511627776) && decide (peerb < 1099511627776) && decide (fab < 1024)
  | .thermalLimit die lvl tmax => decide (die < 4) && decide (lvl < 3) && decide (tmax < 256)
  | .thermalRecover die lvl => decide (die < 4) && decide (lvl < 2)
  | .spdmRequest die code => decide (die < 4) && decide (code < 256)
  | .keyProgram die slot => decide (die < 4) && decide (slot < 4096)
  | .lockInterface die => decide (die < 4)
  | .stopInterface die => decide (die < 4)
  | .hostBar2Read die off _ => decide (die < 4) && decide (off < 68719476736)
  | .hostBar2Write die off _ _ ep => decide (die < 4) && decide (off < 68719476736) && decide (ep < 2)
  | .peerRequest fab rasid cmd addr _ _ => decide (fab < 1024) && decide (rasid < 65536) && decide (cmd % 8 < 5) && decide (cmd < 65536) && decide (addr < 18446744073709551616)
  | .cxlCompletion a kind _ => a.wf && decide (kind < 3)
  | .sealVersionNotice dev buf ver => decide (dev < 1024) && decide (buf < 65536) && decide (ver < 65536)
  | .sealRetire die dev buf ver => decide (die < 4) && decide (dev < 1024) && decide (buf < 65536) && decide (ver < 65536)
  | .sealRetireAck a => a.wf
  | .startInterface die => decide (die < 4)
  | .ualinkPortsTrain => true
  | .peerAccessCompletion a kind _ => a.wf && decide (kind < 3)
  | .dieResetComplete die => decide (die < 4)
  | .baseDieResetComplete sl => decide (sl < 16)
  | .uncorrectableEccError sp core addr syn => decide (sp < 5) && decide (core < 256) && decide (addr < 72057594037927936) && decide (syn < 256)

/-- A well-formed instruction. -/
abbrev Instr.WellFormed (x : Instr) : Prop := x.wf = true

/-- The rows that are read from an instruction stream; the other rows are events of the device. -/
def Instr.inStream : Instr → Bool
  | .iadd _ _ _ _ => true
  | .isub _ _ _ _ => true
  | .imul _ _ _ _ => true
  | .imulh _ _ _ _ => true
  | .imad _ _ _ _ => true
  | .imin _ _ _ _ => true
  | .imax _ _ _ _ => true
  | .iabs _ _ _ _ => true
  | .and32 _ _ _ _ => true
  | .or32 _ _ _ _ => true
  | .xor32 _ _ _ _ => true
  | .andn _ _ _ _ => true
  | .shl _ _ _ _ => true
  | .shr _ _ _ _ => true
  | .sar _ _ _ _ => true
  | .rot _ _ _ _ => true
  | .popc _ _ _ _ => true
  | .clz _ _ _ _ => true
  | .brev _ _ _ _ => true
  | .bfx _ _ _ _ => true
  | .bfi _ _ _ _ => true
  | .bysel _ _ _ _ => true
  | .addc _ _ _ _ => true
  | .sad _ _ _ _ => true
  | .isetLt _ _ _ _ => true
  | .isetLe _ _ _ _ => true
  | .isetEq _ _ _ _ => true
  | .isetNe _ _ _ _ => true
  | .sel _ _ _ _ => true
  | .plop _ _ _ _ => true
  | .mov _ _ _ _ => true
  | .bcast _ _ _ _ => true
  | .getl _ _ _ _ => true
  | .shfl _ _ _ _ => true
  | .fadd _ _ _ _ => true
  | .fsub _ _ _ _ => true
  | .fmul _ _ _ _ => true
  | .ffma _ _ _ _ => true
  | .fmin _ _ _ _ => true
  | .fmax _ _ _ _ => true
  | .fsetLt _ _ _ _ => true
  | .fsetLe _ _ _ _ => true
  | .fsetEq _ _ _ _ => true
  | .fsetNe _ _ _ _ => true
  | .frcp _ _ _ _ => true
  | .frsq _ _ _ _ => true
  | .fsqrt _ _ _ _ => true
  | .fexp2 _ _ _ _ => true
  | .flog2 _ _ _ _ => true
  | .fsin _ _ _ _ => true
  | .fcos _ _ _ _ => true
  | .ftanh _ _ _ _ => true
  | .fclass _ _ _ _ => true
  | .dadd _ _ _ _ => true
  | .dmul _ _ _ _ => true
  | .dfma _ _ _ _ => true
  | .dmin _ _ _ _ => true
  | .dmax _ _ _ _ => true
  | .dset _ _ _ _ => true
  | .hadd2 _ _ _ _ => true
  | .hsub2 _ _ _ _ => true
  | .hmul2 _ _ _ _ => true
  | .hfma2 _ _ _ _ => true
  | .hmax2 _ _ _ _ => true
  | .maxd2 _ _ _ _ => true
  | .cvt _ _ _ _ => true
  | .cvtxPack _ _ _ _ => true
  | .cvtxUnpack _ _ _ _ => true
  | .cvtxDecode _ _ _ _ => true
  | .cvtxEncode _ _ _ _ => true
  | .iaddi _ _ _ => true
  | .imuli _ _ _ => true
  | .andi _ _ _ => true
  | .ori _ _ _ => true
  | .xori _ _ _ => true
  | .shli _ _ _ => true
  | .shri _ _ _ => true
  | .sari _ _ _ => true
  | .isetiLt _ _ _ => true
  | .isetiLe _ _ _ => true
  | .isetiEq _ _ _ => true
  | .isetiNe _ _ _ => true
  | .isetiLtn _ _ _ => true
  | .isetiLen _ _ _ => true
  | .movi _ _ _ => true
  | .movhi _ _ _ => true
  | .ldbS _ _ _ => true
  | .ldbN _ _ _ => true
  | .ldhS _ _ _ => true
  | .ldhN _ _ _ => true
  | .stb _ _ _ => true
  | .sth _ _ _ => true
  | .shfli _ _ _ => true
  | .bfxi _ _ _ => true
  | .ldw _ _ _ _ _ => true
  | .ldd _ _ _ _ _ => true
  | .ldq _ _ _ _ _ => true
  | .ldf _ _ _ _ _ => true
  | .stw _ _ _ _ _ => true
  | .std _ _ _ _ _ => true
  | .stq _ _ _ _ _ => true
  | .pref _ _ _ _ _ => true
  | .ldlw _ _ _ _ => true
  | .ldld _ _ _ _ => true
  | .ldlq _ _ _ _ => true
  | .stlw _ _ _ _ => true
  | .stld _ _ _ _ => true
  | .stlq _ _ _ _ => true
  | .ldlb _ _ _ _ => true
  | .stlb _ _ _ _ => true
  | .atomAdd32 _ _ _ _ _ => true
  | .atomAdd64 _ _ _ _ _ => true
  | .atomAddf32 _ _ _ _ _ => true
  | .atomMinS32 _ _ _ _ _ => true
  | .atomMinN32 _ _ _ _ _ => true
  | .atomMaxS32 _ _ _ _ _ => true
  | .atomMaxN32 _ _ _ _ _ => true
  | .atomAnd32 _ _ _ _ _ => true
  | .atomOr32 _ _ _ _ _ => true
  | .atomXor32 _ _ _ _ _ => true
  | .atomXchg32 _ _ _ _ _ => true
  | .atomXchg64 _ _ _ _ _ => true
  | .atomCas32 _ _ _ _ _ => true
  | .atomCas64 _ _ _ _ _ => true
  | .atomIncN32 _ _ _ _ _ => true
  | .atomAddbf16x2 _ _ _ _ _ => true
  | .sadd _ _ _ _ _ => true
  | .ssub _ _ _ _ _ => true
  | .smul _ _ _ _ _ => true
  | .smulh _ _ _ _ _ => true
  | .sdiv _ _ _ _ _ => true
  | .srem _ _ _ _ _ => true
  | .sand _ _ _ _ _ => true
  | .sor _ _ _ _ _ => true
  | .sxor _ _ _ _ _ => true
  | .sshl _ _ _ _ _ => true
  | .sshr _ _ _ _ _ => true
  | .ssar _ _ _ _ _ => true
  | .smin _ _ _ _ _ => true
  | .smax _ _ _ _ _ => true
  | .ssetLt _ _ _ _ _ => true
  | .ssetLe _ _ _ _ _ => true
  | .ssetEq _ _ _ _ _ => true
  | .ssetNe _ _ _ _ _ => true
  | .ssel _ _ _ _ _ => true
  | .qlop _ _ _ _ _ => true
  | .spopc _ _ _ _ _ => true
  | .sclz _ _ _ _ _ => true
  | .smov _ _ _ _ _ => true
  | .vtou _ _ _ _ _ => true
  | .vote _ _ _ _ _ => true
  | .redx _ _ _ _ _ => true
  | .gets _ _ _ _ _ => true
  | .puts _ _ _ _ _ => true
  | .saddc _ _ _ _ _ => true
  | .saddi _ _ _ => true
  | .sandi _ _ _ => true
  | .sori _ _ _ => true
  | .sxori _ _ _ => true
  | .sshli _ _ _ => true
  | .sshri _ _ _ => true
  | .ssari _ _ _ => true
  | .ssetiLt _ _ _ => true
  | .ssetiEq _ _ _ => true
  | .ssetiLtn _ _ _ => true
  | .smuli _ _ _ => true
  | .smovi _ _ => true
  | .shi18 _ _ => true
  | .sadr _ _ => true
  | .bra _ _ => true
  | .br _ _ => true
  | .brE _ _ => true
  | .joinat _ _ => true
  | .call _ _ => true
  | .loop _ _ => true
  | .rgnI _ _ => true
  | .rgnH _ _ => true
  | .mmaQ _ _ _ _ _ _ _ _ => true
  | .mmaPk _ _ _ _ _ _ _ _ _ => true
  | .mzero _ _ _ _ _ => true
  | .cpy _ _ _ _ _ => true
  | .cpyr _ _ _ _ _ => true
  | .dispSend _ _ _ _ _ _ => true
  | .dispOpen _ _ _ _ _ _ => true
  | .dispClose _ _ _ _ _ _ => true
  | .cstl _ _ _ _ => true
  | .fork _ _ _ _ => true
  | .rdv _ _ _ _ => true
  | .xch _ _ _ _ => true
  | .join _ => true
  | .ret _ _ _ => true
  | .brx _ _ _ => true
  | .exit _ => true
  | .nop _ => true
  | .yield _ => true
  | .cmtBr _ => true
  | .cmtSv _ => true
  | .cmtRl _ => true
  | .pchk _ _ _ _ _ _ _ => true
  | .pclr _ _ _ _ _ => true
  | .side _ _ _ _ => true
  | .bar _ _ _ _ => true
  | .fenceAcq _ _ _ => true
  | .fenceRel _ _ _ => true
  | .fenceAr _ _ _ => true
  | .trig _ => true
  | .tready _ _ _ => true
  | .twait _ _ _ => true
  | .svc _ => true
  | .sret _ => true
  | .brk _ => true
  | .harv _ _ _ _ _ => true
  | .tlbiGen _ _ _ _ _ => true
  | .tlbiPage _ _ _ _ _ => true
  | .tlbiHold _ _ _ _ _ => true
  | .tlbiRel _ _ _ _ _ => true
  | .cwb _ _ _ _ _ => true
  | .cinv _ _ _ _ _ _ => true
  | .sealClose _ _ _ _ _ => true
  | .sealOpen _ _ _ _ _ => true
  | .evt _ _ _ => true
  | .waitev _ _ _ => true
  | .launch _ _ _ => true
  | .vacateSave _ _ _ _ _ => true
  | .vacateOpen _ _ _ _ _ => true
  | .vacateKill _ _ _ _ _ => true
  | .dict _ _ _ _ => true
  | .flushst _ _ _ _ _ => true
  | .hashsw _ _ _ => true
  | .sldW _ _ _ _ _ => true
  | .sldD _ _ _ _ _ => true
  | .sstW _ _ _ _ _ => true
  | .sstD _ _ _ _ _ => true
  | .satomAdd64 _ _ _ _ _ => true
  | .scas64 _ _ _ _ _ => true
  | .sldl _ _ _ _ _ => true
  | .sstl _ _ _ _ _ => true
  | .dictionaryCode _ _ => true
  | .unassignedEncoding _ => false
  | .instructionFetchFault => false
  | .registerWrite _ _ _ _ => false
  | .storeTranslationProbe _ _ => false
  | .probeReturn _ => false
  | .l1Fill _ => false
  | .sliceReadMiss _ _ => false
  | .walkComplete _ _ => false
  | .writeBack _ _ => false
  | .bypassStore _ _ => false
  | .sliceAtomic _ _ => false
  | .reclaim _ _ _ => false
  | .reclaimAck _ _ _ => false
  | .replicaInvalidate _ _ _ _ => false
  | .replicaInvalidateAck _ _ _ => false
  | .requestBounce _ => false
  | .requestReplay _ => false
  | .remoteScratchpadAccess _ => false
  | .retrieverAccess _ => false
  | .genBroadcastReceive _ _ => false
  | .genBroadcastDone _ => false
  | .dropNotice _ => false
  | .pageInvalidateReceive _ _ _ => false
  | .pageInvalidationDone _ _ => false
  | .harvestDone _ => false
  | .rangeOperationDone _ => false
  | .domainSwitchDone _ => false
  | .slcsClr _ => false
  | .sltsClr _ => false
  | .cmcmdSet _ => false
  | .cmcmdQuery _ => false
  | .cmcmdSetDone => false
  | .slhmWrite _ _ => false
  | .slhcWrite _ _ => false
  | .commitBackoffExpiry _ _ => false
  | .fetchRequestIntake _ => false
  | .nvmeCommandComplete _ _ _ => false
  | .nvmeCommandTimeout _ _ => false
  | .storageLinkUp _ _ _ => false
  | .storageLinkDown _ => false
  | .frdbServiced _ _ => false
  | .frdbFail _ _ => false
  | .handOverDone _ _ => false
  | .rejoinTimeout _ _ => false
  | .recallComplete _ _ => false
  | .powerTokenGrant _ => false
  | .matrixPassComplete _ => false
  | .copyComplete _ _ _ => false
  | .cpyrAck _ _ _ _ => false
  | .dispatchDeliver _ _ _ _ => false
  | .dispatchDone _ _ _ => false
  | .peerTimeout _ => false
  | .xchTimeout _ _ => false
  | .castling _ => false
  | .rdvComplete _ _ => false
  | .tileFlagNotify _ => false
  | .packPlace _ => false
  | .packSaveComplete _ => false
  | .quantumExpiry _ _ => false
  | .gridCompletion _ => false
  | .submissionTake _ => false
  | .eventInsert _ => false
  | .waitevTimeout _ _ => false
  | .dbgctlResume _ => false
  | .dbgctlHaltedClear _ => false
  | .kscmdLoad _ => false
  | .kscmdRevoke _ => false
  | .keySlotOpDone => false
  | .mfesClear _ => false
  | .almLock => false
  | .almClear _ => false
  | .securityAlarm _ => false
  | .dbggoGo _ => false
  | .debugUnlockResult _ => false
  | .drstGo _ => false
  | .functionLevelReset _ => false
  | .bdrstReset _ => false
  | .ctxbWrite _ => false
  | .peerbWrite _ => false
  | .fabnWrite _ => false
  | .moduleColdReset _ _ _ _ => false
  | .thermalLimit _ _ _ => false
  | .thermalRecover _ _ => false
  | .spdmRequest _ _ => false
  | .keyProgram _ _ => false
  | .lockInterface _ => false
  | .stopInterface _ => false
  | .hostBar2Read _ _ _ => false
  | .hostBar2Write _ _ _ _ _ => false
  | .peerRequest _ _ _ _ _ _ => false
  | .cxlCompletion _ _ _ => false
  | .sealVersionNotice _ _ _ => false
  | .sealRetire _ _ _ _ => false
  | .sealRetireAck _ => false
  | .startInterface _ => false
  | .ualinkPortsTrain => false
  | .peerAccessCompletion _ _ _ => false
  | .dieResetComplete _ => false
  | .baseDieResetComplete _ => false
  | .uncorrectableEccError _ _ _ _ => false

end Sys2Proof
end

