-- ==== Sys2Proof/Decode.lean ====
section
/-! DEFINITION. Decoding of the instruction stream (09 R277 to R282, R288 to R295) and the encoder. A 32-bit word is a
number whose bit 31 is the top bit of the halfword at the lower address (00 R7). Unassigned encodings are rejected by
name; what executing one does is the meaning of the row UNASSIGNED_ENCODING (09 R294). -/

namespace Sys2Proof

/-- Why a bit pattern is no instruction. -/
inductive DecodeError where
  /-- a 32-bit word with an unassigned opcode (09 R290, R292, R293) -/
  | unassigned (w : Nat)
  /-- a word with bits [31:28] = 1111, which is never a 32-bit word (09 R278); only a dictionary entry can hold one -/
  | notAWord (w : Nat)
  /-- fewer halfwords than the instruction has -/
  | short
  deriving DecidableEq, Repr

/-- Bits `[lo + n - 1 : lo]` of a word. -/
def bits (w lo n : Nat) : Nat := w / 2 ^ lo % 2 ^ n

/-- Format VR: the row that the opcode, bits [28:23], names. -/
def decodeVR (w : Nat) : Except DecodeError Instr :=
  match bits w 23 6 with
  | 0 => .ok (.iadd (bits w 16 7) (bits w 9 7) (bits w 2 7) (bits w 0 2))
  | 1 => .ok (.isub (bits w 16 7) (bits w 9 7) (bits w 2 7) (bits w 0 2))
  | 2 => .ok (.imul (bits w 16 7) (bits w 9 7) (bits w 2 7) (bits w 0 2))
  | 3 => .ok (.imulh (bits w 16 7) (bits w 9 7) (bits w 2 7) (bits w 0 2))
  | 4 => .ok (.imad (bits w 16 7) (bits w 9 7) (bits w 2 7) (bits w 0 2))
  | 5 => .ok (.imin (bits w 16 7) (bits w 9 7) (bits w 2 7) (bits w 0 2))
  | 6 => .ok (.imax (bits w 16 7) (bits w 9 7) (bits w 2 7) (bits w 0 2))
  | 7 => .ok (.iabs (bits w 16 7) (bits w 9 7) (bits w 2 7) (bits w 0 2))
  | 8 => .ok (.and32 (bits w 16 7) (bits w 9 7) (bits w 2 7) (bits w 0 2))
  | 9 => .ok (.or32 (bits w 16 7) (bits w 9 7) (bits w 2 7) (bits w 0 2))
  | 10 => .ok (.xor32 (bits w 16 7) (bits w 9 7) (bits w 2 7) (bits w 0 2))
  | 11 => .ok (.andn (bits w 16 7) (bits w 9 7) (bits w 2 7) (bits w 0 2))
  | 12 => .ok (.shl (bits w 16 7) (bits w 9 7) (bits w 2 7) (bits w 0 2))
  | 13 => .ok (.shr (bits w 16 7) (bits w 9 7) (bits w 2 7) (bits w 0 2))
  | 14 => .ok (.sar (bits w 16 7) (bits w 9 7) (bits w 2 7) (bits w 0 2))
  | 15 => .ok (.rot (bits w 16 7) (bits w 9 7) (bits w 2 7) (bits w 0 2))
  | 16 => .ok (.popc (bits w 16 7) (bits w 9 7) (bits w 2 7) (bits w 0 2))
  | 17 => .ok (.clz (bits w 16 7) (bits w 9 7) (bits w 2 7) (bits w 0 2))
  | 18 => .ok (.brev (bits w 16 7) (bits w 9 7) (bits w 2 7) (bits w 0 2))
  | 19 => .ok (.bfx (bits w 16 7) (bits w 9 7) (bits w 2 7) (bits w 0 2))
  | 20 => .ok (.bfi (bits w 16 7) (bits w 9 7) (bits w 2 7) (bits w 0 2))
  | 21 => .ok (.bysel (bits w 16 7) (bits w 9 7) (bits w 2 7) (bits w 0 2))
  | 22 => .ok (.addc (bits w 16 7) (bits w 9 7) (bits w 2 7) (bits w 0 2))
  | 23 => .ok (.sad (bits w 16 7) (bits w 9 7) (bits w 2 7) (bits w 0 2))
  | 24 => .ok (.isetLt (bits w 16 7) (bits w 9 7) (bits w 2 7) (bits w 0 2))
  | 25 => .ok (.isetLe (bits w 16 7) (bits w 9 7) (bits w 2 7) (bits w 0 2))
  | 26 => .ok (.isetEq (bits w 16 7) (bits w 9 7) (bits w 2 7) (bits w 0 2))
  | 27 => .ok (.isetNe (bits w 16 7) (bits w 9 7) (bits w 2 7) (bits w 0 2))
  | 28 => .ok (.sel (bits w 16 7) (bits w 9 7) (bits w 2 7) (bits w 0 2))
  | 29 => .ok (.plop (bits w 16 7) (bits w 9 7) (bits w 2 7) (bits w 0 2))
  | 30 =>
    match bits w 0 2 with
    | 1 => .ok (.bcast (bits w 16 7) (bits w 9 7) (bits w 2 7) (bits w 0 2))
    | 2 => .ok (.getl (bits w 16 7) (bits w 9 7) (bits w 2 7) (bits w 0 2))
    | _ => .ok (.mov (bits w 16 7) (bits w 9 7) (bits w 2 7) (bits w 0 2))
  | 31 => .ok (.shfl (bits w 16 7) (bits w 9 7) (bits w 2 7) (bits w 0 2))
  | 32 => .ok (.fadd (bits w 16 7) (bits w 9 7) (bits w 2 7) (bits w 0 2))
  | 33 => .ok (.fsub (bits w 16 7) (bits w 9 7) (bits w 2 7) (bits w 0 2))
  | 34 => .ok (.fmul (bits w 16 7) (bits w 9 7) (bits w 2 7) (bits w 0 2))
  | 35 => .ok (.ffma (bits w 16 7) (bits w 9 7) (bits w 2 7) (bits w 0 2))
  | 36 => .ok (.fmin (bits w 16 7) (bits w 9 7) (bits w 2 7) (bits w 0 2))
  | 37 => .ok (.fmax (bits w 16 7) (bits w 9 7) (bits w 2 7) (bits w 0 2))
  | 38 => .ok (.fsetLt (bits w 16 7) (bits w 9 7) (bits w 2 7) (bits w 0 2))
  | 39 => .ok (.fsetLe (bits w 16 7) (bits w 9 7) (bits w 2 7) (bits w 0 2))
  | 40 => .ok (.fsetEq (bits w 16 7) (bits w 9 7) (bits w 2 7) (bits w 0 2))
  | 41 => .ok (.fsetNe (bits w 16 7) (bits w 9 7) (bits w 2 7) (bits w 0 2))
  | 42 => .ok (.frcp (bits w 16 7) (bits w 9 7) (bits w 2 7) (bits w 0 2))
  | 43 => .ok (.frsq (bits w 16 7) (bits w 9 7) (bits w 2 7) (bits w 0 2))
  | 44 => .ok (.fsqrt (bits w 16 7) (bits w 9 7) (bits w 2 7) (bits w 0 2))
  | 45 => .ok (.fexp2 (bits w 16 7) (bits w 9 7) (bits w 2 7) (bits w 0 2))
  | 46 => .ok (.flog2 (bits w 16 7) (bits w 9 7) (bits w 2 7) (bits w 0 2))
  | 47 => .ok (.fsin (bits w 16 7) (bits w 9 7) (bits w 2 7) (bits w 0 2))
  | 48 => .ok (.fcos (bits w 16 7) (bits w 9 7) (bits w 2 7) (bits w 0 2))
  | 49 => .ok (.ftanh (bits w 16 7) (bits w 9 7) (bits w 2 7) (bits w 0 2))
  | 50 => .ok (.fclass (bits w 16 7) (bits w 9 7) (bits w 2 7) (bits w 0 2))
  | 51 => .ok (.dadd (bits w 16 7) (bits w 9 7) (bits w 2 7) (bits w 0 2))
  | 52 => .ok (.dmul (bits w 16 7) (bits w 9 7) (bits w 2 7) (bits w 0 2))
  | 53 => .ok (.dfma (bits w 16 7) (bits w 9 7) (bits w 2 7) (bits w 0 2))
  | 54 =>
    match bits w 0 2 with
    | 1 => .ok (.dmax (bits w 16 7) (bits w 9 7) (bits w 2 7) (bits w 0 2))
    | 3 => .ok (.dmax (bits w 16 7) (bits w 9 7) (bits w 2 7) (bits w 0 2))
    | _ => .ok (.dmin (bits w 16 7) (bits w 9 7) (bits w 2 7) (bits w 0 2))
  | 55 => .ok (.dset (bits w 16 7) (bits w 9 7) (bits w 2 7) (bits w 0 2))
  | 56 => .ok (.hadd2 (bits w 16 7) (bits w 9 7) (bits w 2 7) (bits w 0 2))
  | 57 => .ok (.hsub2 (bits w 16 7) (bits w 9 7) (bits w 2 7) (bits w 0 2))
  | 58 => .ok (.hmul2 (bits w 16 7) (bits w 9 7) (bits w 2 7) (bits w 0 2))
  | 59 => .ok (.hfma2 (bits w 16 7) (bits w 9 7) (bits w 2 7) (bits w 0 2))
  | 60 => .ok (.hmax2 (bits w 16 7) (bits w 9 7) (bits w 2 7) (bits w 0 2))
  | 61 => .ok (.maxd2 (bits w 16 7) (bits w 9 7) (bits w 2 7) (bits w 0 2))
  | 62 => .ok (.cvt (bits w 16 7) (bits w 9 7) (bits w 2 7) (bits w 0 2))
  | _ =>
    match bits w 0 2 with
    | 1 => .ok (.cvtxUnpack (bits w 16 7) (bits w 9 7) (bits w 2 7) (bits w 0 2))
    | 2 => .ok (.cvtxDecode (bits w 16 7) (bits w 9 7) (bits w 2 7) (bits w 0 2))
    | 3 => .ok (.cvtxEncode (bits w 16 7) (bits w 9 7) (bits w 2 7) (bits w 0 2))
    | _ => .ok (.cvtxPack (bits w 16 7) (bits w 9 7) (bits w 2 7) (bits w 0 2))

/-- Format VI: the row that the opcode, bits [28:23], names. -/
def decodeVI (w : Nat) : Except DecodeError Instr :=
  match bits w 23 6 with
  | 0 => .ok (.iaddi (bits w 16 7) (bits w 9 7) (bits w 0 9))
  | 1 => .ok (.imuli (bits w 16 7) (bits w 9 7) (bits w 0 9))
  | 2 => .ok (.andi (bits w 16 7) (bits w 9 7) (bits w 0 9))
  | 3 => .ok (.ori (bits w 16 7) (bits w 9 7) (bits w 0 9))
  | 4 => .ok (.xori (bits w 16 7) (bits w 9 7) (bits w 0 9))
  | 5 => .ok (.shli (bits w 16 7) (bits w 9 7) (bits w 0 9))
  | 6 => .ok (.shri (bits w 16 7) (bits w 9 7) (bits w 0 9))
  | 7 => .ok (.sari (bits w 16 7) (bits w 9 7) (bits w 0 9))
  | 8 => .ok (.isetiLt (bits w 16 7) (bits w 9 7) (bits w 0 9))
  | 9 => .ok (.isetiLe (bits w 16 7) (bits w 9 7) (bits w 0 9))
  | 10 => .ok (.isetiEq (bits w 16 7) (bits w 9 7) (bits w 0 9))
  | 11 => .ok (.isetiNe (bits w 16 7) (bits w 9 7) (bits w 0 9))
  | 12 => .ok (.isetiLtn (bits w 16 7) (bits w 9 7) (bits w 0 9))
  | 13 => .ok (.isetiLen (bits w 16 7) (bits w 9 7) (bits w 0 9))
  | 14 => .ok (.movi (bits w 16 7) (bits w 9 7) (bits w 0 9))
  | 15 => .ok (.movhi (bits w 16 7) (bits w 9 7) (bits w 0 9))
  | 16 => .ok (.ldbS (bits w 16 7) (bits w 9 7) (bits w 0 9))
  | 17 => .ok (.ldbN (bits w 16 7) (bits w 9 7) (bits w 0 9))
  | 18 => .ok (.ldhS (bits w 16 7) (bits w 9 7) (bits w 0 9))
  | 19 => .ok (.ldhN (bits w 16 7) (bits w 9 7) (bits w 0 9))
  | 20 => .ok (.stb (bits w 16 7) (bits w 9 7) (bits w 0 9))
  | 21 => .ok (.sth (bits w 16 7) (bits w 9 7) (bits w 0 9))
  | 22 => .ok (.shfli (bits w 16 7) (bits w 9 7) (bits w 0 9))
  | 23 => .ok (.bfxi (bits w 16 7) (bits w 9 7) (bits w 0 9))
  | _ => .error (.unassigned w)

/-- Format VM: the row that the opcode, bits [28:26], names. -/
def decodeVM (w : Nat) : Except DecodeError Instr :=
  match bits w 26 3 with
  | 0 => .ok (.ldw (bits w 24 2) (bits w 17 7) (bits w 10 7) (bits w 4 6) (bits w 0 4))
  | 1 => .ok (.ldd (bits w 24 2) (bits w 17 7) (bits w 10 7) (bits w 4 6) (bits w 0 4))
  | 2 => .ok (.ldq (bits w 24 2) (bits w 17 7) (bits w 10 7) (bits w 4 6) (bits w 0 4))
  | 3 => .ok (.ldf (bits w 24 2) (bits w 17 7) (bits w 10 7) (bits w 4 6) (bits w 0 4))
  | 4 => .ok (.stw (bits w 24 2) (bits w 17 7) (bits w 10 7) (bits w 4 6) (bits w 0 4))
  | 5 => .ok (.std (bits w 24 2) (bits w 17 7) (bits w 10 7) (bits w 4 6) (bits w 0 4))
  | 6 => .ok (.stq (bits w 24 2) (bits w 17 7) (bits w 10 7) (bits w 4 6) (bits w 0 4))
  | _ => .ok (.pref (bits w 24 2) (bits w 17 7) (bits w 10 7) (bits w 4 6) (bits w 0 4))

/-- Format VS: the row that the opcode, bits [27:25], names. -/
def decodeVS (w : Nat) : Except DecodeError Instr :=
  match bits w 25 3 with
  | 0 => .ok (.ldlw (bits w 23 2) (bits w 16 7) (bits w 9 7) (bits w 0 9))
  | 1 => .ok (.ldld (bits w 23 2) (bits w 16 7) (bits w 9 7) (bits w 0 9))
  | 2 => .ok (.ldlq (bits w 23 2) (bits w 16 7) (bits w 9 7) (bits w 0 9))
  | 3 => .ok (.stlw (bits w 23 2) (bits w 16 7) (bits w 9 7) (bits w 0 9))
  | 4 => .ok (.stld (bits w 23 2) (bits w 16 7) (bits w 9 7) (bits w 0 9))
  | 5 => .ok (.stlq (bits w 23 2) (bits w 16 7) (bits w 9 7) (bits w 0 9))
  | 6 => .ok (.ldlb (bits w 23 2) (bits w 16 7) (bits w 9 7) (bits w 0 9))
  | _ => .ok (.stlb (bits w 23 2) (bits w 16 7) (bits w 9 7) (bits w 0 9))

/-- Format VA: the row that the opcode, bits [27:24], names. -/
def decodeVA (w : Nat) : Except DecodeError Instr :=
  match bits w 24 4 with
  | 0 => .ok (.atomAdd32 (bits w 17 7) (bits w 10 7) (bits w 8 2) (bits w 4 4) (bits w 0 4))
  | 1 => .ok (.atomAdd64 (bits w 17 7) (bits w 10 7) (bits w 8 2) (bits w 4 4) (bits w 0 4))
  | 2 => .ok (.atomAddf32 (bits w 17 7) (bits w 10 7) (bits w 8 2) (bits w 4 4) (bits w 0 4))
  | 3 => .ok (.atomMinS32 (bits w 17 7) (bits w 10 7) (bits w 8 2) (bits w 4 4) (bits w 0 4))
  | 4 => .ok (.atomMinN32 (bits w 17 7) (bits w 10 7) (bits w 8 2) (bits w 4 4) (bits w 0 4))
  | 5 => .ok (.atomMaxS32 (bits w 17 7) (bits w 10 7) (bits w 8 2) (bits w 4 4) (bits w 0 4))
  | 6 => .ok (.atomMaxN32 (bits w 17 7) (bits w 10 7) (bits w 8 2) (bits w 4 4) (bits w 0 4))
  | 7 => .ok (.atomAnd32 (bits w 17 7) (bits w 10 7) (bits w 8 2) (bits w 4 4) (bits w 0 4))
  | 8 => .ok (.atomOr32 (bits w 17 7) (bits w 10 7) (bits w 8 2) (bits w 4 4) (bits w 0 4))
  | 9 => .ok (.atomXor32 (bits w 17 7) (bits w 10 7) (bits w 8 2) (bits w 4 4) (bits w 0 4))
  | 10 => .ok (.atomXchg32 (bits w 17 7) (bits w 10 7) (bits w 8 2) (bits w 4 4) (bits w 0 4))
  | 11 => .ok (.atomXchg64 (bits w 17 7) (bits w 10 7) (bits w 8 2) (bits w 4 4) (bits w 0 4))
  | 12 => .ok (.atomCas32 (bits w 17 7) (bits w 10 7) (bits w 8 2) (bits w 4 4) (bits w 0 4))
  | 13 => .ok (.atomCas64 (bits w 17 7) (bits w 10 7) (bits w 8 2) (bits w 4 4) (bits w 0 4))
  | 14 => .ok (.atomIncN32 (bits w 17 7) (bits w 10 7) (bits w 8 2) (bits w 4 4) (bits w 0 4))
  | _ => .ok (.atomAddbf16x2 (bits w 17 7) (bits w 10 7) (bits w 8 2) (bits w 4 4) (bits w 0 4))

/-- Format GR: the row that the opcode, bits [27:22], names. -/
def decodeGR (w : Nat) : Except DecodeError Instr :=
  match bits w 22 6 with
  | 0 => .ok (.sadd (bits w 16 6) (bits w 10 6) (bits w 4 6) (bits w 2 2) (bits w 0 2))
  | 1 => .ok (.ssub (bits w 16 6) (bits w 10 6) (bits w 4 6) (bits w 2 2) (bits w 0 2))
  | 2 => .ok (.smul (bits w 16 6) (bits w 10 6) (bits w 4 6) (bits w 2 2) (bits w 0 2))
  | 3 => .ok (.smulh (bits w 16 6) (bits w 10 6) (bits w 4 6) (bits w 2 2) (bits w 0 2))
  | 4 => .ok (.sdiv (bits w 16 6) (bits w 10 6) (bits w 4 6) (bits w 2 2) (bits w 0 2))
  | 5 => .ok (.srem (bits w 16 6) (bits w 10 6) (bits w 4 6) (bits w 2 2) (bits w 0 2))
  | 6 => .ok (.sand (bits w 16 6) (bits w 10 6) (bits w 4 6) (bits w 2 2) (bits w 0 2))
  | 7 => .ok (.sor (bits w 16 6) (bits w 10 6) (bits w 4 6) (bits w 2 2) (bits w 0 2))
  | 8 => .ok (.sxor (bits w 16 6) (bits w 10 6) (bits w 4 6) (bits w 2 2) (bits w 0 2))
  | 9 => .ok (.sshl (bits w 16 6) (bits w 10 6) (bits w 4 6) (bits w 2 2) (bits w 0 2))
  | 10 => .ok (.sshr (bits w 16 6) (bits w 10 6) (bits w 4 6) (bits w 2 2) (bits w 0 2))
  | 11 => .ok (.ssar (bits w 16 6) (bits w 10 6) (bits w 4 6) (bits w 2 2) (bits w 0 2))
  | 12 => .ok (.smin (bits w 16 6) (bits w 10 6) (bits w 4 6) (bits w 2 2) (bits w 0 2))
  | 13 => .ok (.smax (bits w 16 6) (bits w 10 6) (bits w 4 6) (bits w 2 2) (bits w 0 2))
  | 14 => .ok (.ssetLt (bits w 16 6) (bits w 10 6) (bits w 4 6) (bits w 2 2) (bits w 0 2))
  | 15 => .ok (.ssetLe (bits w 16 6) (bits w 10 6) (bits w 4 6) (bits w 2 2) (bits w 0 2))
  | 16 => .ok (.ssetEq (bits w 16 6) (bits w 10 6) (bits w 4 6) (bits w 2 2) (bits w 0 2))
  | 17 => .ok (.ssetNe (bits w 16 6) (bits w 10 6) (bits w 4 6) (bits w 2 2) (bits w 0 2))
  | 18 => .ok (.ssel (bits w 16 6) (bits w 10 6) (bits w 4 6) (bits w 2 2) (bits w 0 2))
  | 19 => .ok (.qlop (bits w 16 6) (bits w 10 6) (bits w 4 6) (bits w 2 2) (bits w 0 2))
  | 20 => .ok (.spopc (bits w 16 6) (bits w 10 6) (bits w 4 6) (bits w 2 2) (bits w 0 2))
  | 21 => .ok (.sclz (bits w 16 6) (bits w 10 6) (bits w 4 6) (bits w 2 2) (bits w 0 2))
  | 22 => .ok (.smov (bits w 16 6) (bits w 10 6) (bits w 4 6) (bits w 2 2) (bits w 0 2))
  | 23 => .ok (.vtou (bits w 16 6) (bits w 10 6) (bits w 4 6) (bits w 2 2) (bits w 0 2))
  | 24 => .ok (.vote (bits w 16 6) (bits w 10 6) (bits w 4 6) (bits w 2 2) (bits w 0 2))
  | 25 => .ok (.redx (bits w 16 6) (bits w 10 6) (bits w 4 6) (bits w 2 2) (bits w 0 2))
  | 26 => .ok (.gets (bits w 16 6) (bits w 10 6) (bits w 4 6) (bits w 2 2) (bits w 0 2))
  | 27 => .ok (.puts (bits w 16 6) (bits w 10 6) (bits w 4 6) (bits w 2 2) (bits w 0 2))
  | 28 => .ok (.saddc (bits w 16 6) (bits w 10 6) (bits w 4 6) (bits w 2 2) (bits w 0 2))
  | _ => .error (.unassigned w)

/-- Format GI: the row that the opcode, bits [27:22], names. -/
def decodeGI (w : Nat) : Except DecodeError Instr :=
  match bits w 22 6 with
  | 0 => .ok (.saddi (bits w 16 6) (bits w 10 6) (bits w 0 10))
  | 1 => .ok (.sandi (bits w 16 6) (bits w 10 6) (bits w 0 10))
  | 2 => .ok (.sori (bits w 16 6) (bits w 10 6) (bits w 0 10))
  | 3 => .ok (.sxori (bits w 16 6) (bits w 10 6) (bits w 0 10))
  | 4 => .ok (.sshli (bits w 16 6) (bits w 10 6) (bits w 0 10))
  | 5 => .ok (.sshri (bits w 16 6) (bits w 10 6) (bits w 0 10))
  | 6 => .ok (.ssari (bits w 16 6) (bits w 10 6) (bits w 0 10))
  | 7 => .ok (.ssetiLt (bits w 16 6) (bits w 10 6) (bits w 0 10))
  | 8 => .ok (.ssetiEq (bits w 16 6) (bits w 10 6) (bits w 0 10))
  | 9 => .ok (.ssetiLtn (bits w 16 6) (bits w 10 6) (bits w 0 10))
  | 10 => .ok (.smuli (bits w 16 6) (bits w 10 6) (bits w 0 10))
  | _ => .error (.unassigned w)

/-- Format GL: the row that the opcode, bits [27:24], names. -/
def decodeGL (w : Nat) : Except DecodeError Instr :=
  match bits w 24 4 with
  | 0 => .ok (.smovi (bits w 18 6) (bits w 0 18))
  | 1 => .ok (.shi18 (bits w 18 6) (bits w 0 18))
  | 2 => .ok (.sadr (bits w 18 6) (bits w 0 18))
  | _ => .error (.unassigned w)

/-- Format GB: the row that the opcode, bits [27:24], names. -/
def decodeGB (w : Nat) : Except DecodeError Instr :=
  match bits w 24 4 with
  | 0 => .ok (.bra (bits w 21 3) (bits w 0 21))
  | 1 => .ok (.br (bits w 21 3) (bits w 0 21))
  | 2 => .ok (.brE (bits w 21 3) (bits w 0 21))
  | 3 => .ok (.joinat (bits w 21 3) (bits w 0 21))
  | 4 => .ok (.call (bits w 21 3) (bits w 0 21))
  | 5 => .ok (.loop (bits w 21 3) (bits w 0 21))
  | 6 => .ok (.rgnI (bits w 21 3) (bits w 0 21))
  | 7 => .ok (.rgnH (bits w 21 3) (bits w 0 21))
  | _ => .error (.unassigned w)

/-- Format GX: the row that the opcode, bits [27:23], names. -/
def decodeGX (w : Nat) : Except DecodeError Instr :=
  match bits w 23 5 with
  | 0 => .ok (.mmaQ (bits w 16 7) (bits w 12 4) (bits w 10 2) (bits w 9 1) (bits w 8 1) (bits w 6 2) (bits w 4 2) (bits w 0 4))
  | 1 => .ok (.mmaPk (bits w 22 1) (bits w 16 6) (bits w 12 4) (bits w 10 2) (bits w 9 1) (bits w 8 1) (bits w 6 2) (bits w 4 2) (bits w 0 4))
  | 2 => .ok (.mzero (bits w 22 1) (bits w 16 6) (bits w 10 6) (bits w 4 6) (bits w 0 4))
  | 3 => .ok (.cpy (bits w 22 1) (bits w 16 6) (bits w 10 6) (bits w 4 6) (bits w 0 4))
  | 4 => .ok (.cpyr (bits w 22 1) (bits w 16 6) (bits w 10 6) (bits w 4 6) (bits w 0 4))
  | 5 =>
    match bits w 4 2 with
    | 1 => .ok (.dispOpen (bits w 22 1) (bits w 16 6) (bits w 10 6) (bits w 6 4) (bits w 4 2) (bits w 0 4))
    | 2 => .ok (.dispClose (bits w 22 1) (bits w 16 6) (bits w 10 6) (bits w 6 4) (bits w 4 2) (bits w 0 4))
    | _ => .ok (.dispSend (bits w 22 1) (bits w 16 6) (bits w 10 6) (bits w 6 4) (bits w 4 2) (bits w 0 4))
  | 6 => .ok (.cstl (bits w 22 1) (bits w 6 16) (bits w 4 2) (bits w 0 4))
  | 7 => .ok (.fork (bits w 16 7) (bits w 10 6) (bits w 4 6) (bits w 0 4))
  | 8 => .ok (.rdv (bits w 22 1) (bits w 16 6) (bits w 4 12) (bits w 0 4))
  | 9 => .ok (.xch (bits w 16 7) (bits w 9 7) (bits w 4 5) (bits w 0 4))
  | _ => .error (.unassigned w)

/-- Format GS: the row that the opcode, bits [27:22], names. -/
def decodeGS (w : Nat) : Except DecodeError Instr :=
  match bits w 22 6 with
  | 0 => .ok (.join (bits w 0 22))
  | 1 => .ok (.ret (bits w 16 6) (bits w 10 6) (bits w 0 10))
  | 2 => .ok (.brx (bits w 17 5) (bits w 10 7) (bits w 0 10))
  | 3 => .ok (.exit (bits w 0 22))
  | 4 => .ok (.nop (bits w 0 22))
  | 5 => .ok (.yield (bits w 0 22))
  | 6 => .ok (.cmtBr (bits w 0 22))
  | 7 => .ok (.cmtSv (bits w 0 22))
  | 8 => .ok (.cmtRl (bits w 0 22))
  | 9 => .ok (.pchk (bits w 21 1) (bits w 18 3) (bits w 17 1) (bits w 10 7) (bits w 9 1) (bits w 2 7) (bits w 0 2))
  | 10 => .ok (.pclr (bits w 15 7) (bits w 10 5) (bits w 9 1) (bits w 8 1) (bits w 0 8))
  | 11 => .ok (.side (bits w 16 6) (bits w 10 6) (bits w 8 2) (bits w 0 8))
  | 12 => .ok (.bar (bits w 20 2) (bits w 18 2) (bits w 16 2) (bits w 0 16))
  | 13 =>
    match bits w 17 2 with
    | 1 => .ok (.fenceRel (bits w 19 3) (bits w 17 2) (bits w 0 17))
    | 2 => .ok (.fenceAr (bits w 19 3) (bits w 17 2) (bits w 0 17))
    | 3 => .ok (.fenceAr (bits w 19 3) (bits w 17 2) (bits w 0 17))
    | _ => .ok (.fenceAcq (bits w 19 3) (bits w 17 2) (bits w 0 17))
  | 14 => .ok (.trig (bits w 0 22))
  | 15 => .ok (.tready (bits w 16 6) (bits w 10 6) (bits w 0 10))
  | 16 => .ok (.twait (bits w 16 6) (bits w 10 6) (bits w 0 10))
  | 17 => .ok (.svc (bits w 0 22))
  | 18 => .ok (.sret (bits w 0 22))
  | 19 => .ok (.brk (bits w 0 22))
  | 20 => .ok (.harv (bits w 16 6) (bits w 10 6) (bits w 4 6) (bits w 3 1) (bits w 0 3))
  | 21 =>
    match bits w 2 2 with
    | 1 => .ok (.tlbiPage (bits w 16 6) (bits w 10 6) (bits w 4 6) (bits w 2 2) (bits w 0 2))
    | 2 => .ok (.tlbiHold (bits w 16 6) (bits w 10 6) (bits w 4 6) (bits w 2 2) (bits w 0 2))
    | 3 => .ok (.tlbiRel (bits w 16 6) (bits w 10 6) (bits w 4 6) (bits w 2 2) (bits w 0 2))
    | _ => .ok (.tlbiGen (bits w 16 6) (bits w 10 6) (bits w 4 6) (bits w 2 2) (bits w 0 2))
  | 22 => .ok (.cwb (bits w 16 6) (bits w 10 6) (bits w 4 6) (bits w 3 1) (bits w 0 3))
  | 23 => .ok (.cinv (bits w 16 6) (bits w 10 6) (bits w 4 6) (bits w 3 1) (bits w 2 1) (bits w 0 2))
  | 24 =>
    match bits w 3 1 with
    | 1 => .ok (.sealOpen (bits w 16 6) (bits w 10 6) (bits w 4 6) (bits w 3 1) (bits w 0 3))
    | _ => .ok (.sealClose (bits w 16 6) (bits w 10 6) (bits w 4 6) (bits w 3 1) (bits w 0 3))
  | 25 => .ok (.evt (bits w 16 6) (bits w 10 6) (bits w 0 10))
  | 26 => .ok (.waitev (bits w 16 6) (bits w 10 6) (bits w 0 10))
  | 27 => .ok (.launch (bits w 16 6) (bits w 10 6) (bits w 0 10))
  | 28 =>
    match bits w 2 2 with
    | 1 => .ok (.vacateOpen (bits w 16 6) (bits w 10 6) (bits w 4 6) (bits w 2 2) (bits w 0 2))
    | 2 => .ok (.vacateKill (bits w 16 6) (bits w 10 6) (bits w 4 6) (bits w 2 2) (bits w 0 2))
    | _ => .ok (.vacateSave (bits w 16 6) (bits w 10 6) (bits w 4 6) (bits w 2 2) (bits w 0 2))
  | 29 => .ok (.dict (bits w 16 6) (bits w 10 6) (bits w 4 6) (bits w 0 4))
  | 30 => .ok (.flushst (bits w 16 6) (bits w 10 6) (bits w 4 6) (bits w 3 1) (bits w 0 3))
  | 31 => .ok (.hashsw (bits w 16 6) (bits w 10 6) (bits w 0 10))
  | _ => .error (.unassigned w)

/-- Format GM: the row that the opcode, bits [27:25], names. -/
def decodeGM (w : Nat) : Except DecodeError Instr :=
  match bits w 25 3 with
  | 0 => .ok (.sldW (bits w 23 2) (bits w 17 6) (bits w 11 6) (bits w 4 7) (bits w 0 4))
  | 1 => .ok (.sldD (bits w 23 2) (bits w 17 6) (bits w 11 6) (bits w 4 7) (bits w 0 4))
  | 2 => .ok (.sstW (bits w 23 2) (bits w 17 6) (bits w 11 6) (bits w 4 7) (bits w 0 4))
  | 3 => .ok (.sstD (bits w 23 2) (bits w 17 6) (bits w 11 6) (bits w 4 7) (bits w 0 4))
  | 4 => .ok (.satomAdd64 (bits w 23 2) (bits w 17 6) (bits w 11 6) (bits w 4 7) (bits w 0 4))
  | 5 => .ok (.scas64 (bits w 23 2) (bits w 17 6) (bits w 11 6) (bits w 4 7) (bits w 0 4))
  | 6 => .ok (.sldl (bits w 23 2) (bits w 17 6) (bits w 11 6) (bits w 4 7) (bits w 0 4))
  | _ => .ok (.sstl (bits w 23 2) (bits w 17 6) (bits w 11 6) (bits w 4 7) (bits w 0 4))

/-- A 32-bit word (09 R277, R278): the format by its top bits. -/
def decodeWord (w : Nat) : Except DecodeError Instr :=
  match bits w 28 4 with
  | 0 | 1 => decodeVR w
  | 2 | 3 => decodeVI w
  | 4 | 5 => decodeVM w
  | 6 => decodeVS w
  | 7 => decodeVA w
  | 8 => decodeGR w
  | 9 => decodeGI w
  | 10 => decodeGL w
  | 11 => decodeGB w
  | 12 => decodeGX w
  | 13 => decodeGS w
  | 14 => decodeGM w
  | _ => .error (.notAWord w)

/-- A halfword at an instruction start is a dictionary code when its bits [15:12] are 1111 (09 R280). -/
def isCode (h : Nat) : Bool := bits h 12 4 == 15

/-- One instruction from the halfwords at the PC, with its length in bytes (09 R280). -/
def decode : List Nat → Except DecodeError (Instr × Nat)
  | [] => .error .short
  | h :: rest =>
    if isCode h then .ok (.dictionaryCode (bits h 10 2) (bits h 0 10), 2)
    else match rest with
      | [] => .error .short
      | h2 :: _ =>
        match decodeWord (h * 65536 + h2) with
        | .ok x => .ok (x, 4)
        | .error e => .error e

/-- The halfwords in which the instruction stream holds an instruction of `nbits` bits, upper half first (00 R7). -/
def halfwords (nbits w : Nat) : List Nat :=
  if nbits ≤ 16 then [w % 65536, 0] else [w / 65536 % 65536, w % 65536]

/-- The instruction this decoder reads from an instruction of `nbits` bits that is the number `w`. -/
def decodeTableWord (nbits w : Nat) : Option Instr :=
  match decode (halfwords nbits w) with
  | .ok (x, _) => some x
  | .error _ => none

/-- The word of a well-formed stream instruction (09 R277 to R279, R288 to R293); event rows have none. -/
def encode : Instr → Option Nat
  | .iadd d a b m => some (0 + d * 65536 + a * 512 + b * 4 + m)
  | .isub d a b m => some (8388608 + d * 65536 + a * 512 + b * 4 + m)
  | .imul d a b m => some (16777216 + d * 65536 + a * 512 + b * 4 + m)
  | .imulh d a b m => some (25165824 + d * 65536 + a * 512 + b * 4 + m)
  | .imad d a b m => some (33554432 + d * 65536 + a * 512 + b * 4 + m)
  | .imin d a b m => some (41943040 + d * 65536 + a * 512 + b * 4 + m)
  | .imax d a b m => some (50331648 + d * 65536 + a * 512 + b * 4 + m)
  | .iabs d a b m => some (58720256 + d * 65536 + a * 512 + b * 4 + m)
  | .and32 d a b m => some (67108864 + d * 65536 + a * 512 + b * 4 + m)
  | .or32 d a b m => some (75497472 + d * 65536 + a * 512 + b * 4 + m)
  | .xor32 d a b m => some (83886080 + d * 65536 + a * 512 + b * 4 + m)
  | .andn d a b m => some (92274688 + d * 65536 + a * 512 + b * 4 + m)
  | .shl d a b m => some (100663296 + d * 65536 + a * 512 + b * 4 + m)
  | .shr d a b m => some (109051904 + d * 65536 + a * 512 + b * 4 + m)
  | .sar d a b m => some (117440512 + d * 65536 + a * 512 + b * 4 + m)
  | .rot d a b m => some (125829120 + d * 65536 + a * 512 + b * 4 + m)
  | .popc d a b m => some (134217728 + d * 65536 + a * 512 + b * 4 + m)
  | .clz d a b m => some (142606336 + d * 65536 + a * 512 + b * 4 + m)
  | .brev d a b m => some (150994944 + d * 65536 + a * 512 + b * 4 + m)
  | .bfx d a b m => some (159383552 + d * 65536 + a * 512 + b * 4 + m)
  | .bfi d a b m => some (167772160 + d * 65536 + a * 512 + b * 4 + m)
  | .bysel d a b m => some (176160768 + d * 65536 + a * 512 + b * 4 + m)
  | .addc d a b m => some (184549376 + d * 65536 + a * 512 + b * 4 + m)
  | .sad d a b m => some (192937984 + d * 65536 + a * 512 + b * 4 + m)
  | .isetLt d a b m => some (201326592 + d * 65536 + a * 512 + b * 4 + m)
  | .isetLe d a b m => some (209715200 + d * 65536 + a * 512 + b * 4 + m)
  | .isetEq d a b m => some (218103808 + d * 65536 + a * 512 + b * 4 + m)
  | .isetNe d a b m => some (226492416 + d * 65536 + a * 512 + b * 4 + m)
  | .sel d a b m => some (234881024 + d * 65536 + a * 512 + b * 4 + m)
  | .plop d a b m => some (243269632 + d * 65536 + a * 512 + b * 4 + m)
  | .mov d a b m => some (251658240 + d * 65536 + a * 512 + b * 4 + m)
  | .bcast d a b m => some (251658240 + d * 65536 + a * 512 + b * 4 + m)
  | .getl d a b m => some (251658240 + d * 65536 + a * 512 + b * 4 + m)
  | .shfl d a b m => some (260046848 + d * 65536 + a * 512 + b * 4 + m)
  | .fadd d a b m => some (268435456 + d * 65536 + a * 512 + b * 4 + m)
  | .fsub d a b m => some (276824064 + d * 65536 + a * 512 + b * 4 + m)
  | .fmul d a b m => some (285212672 + d * 65536 + a * 512 + b * 4 + m)
  | .ffma d a b m => some (293601280 + d * 65536 + a * 512 + b * 4 + m)
  | .fmin d a b m => some (301989888 + d * 65536 + a * 512 + b * 4 + m)
  | .fmax d a b m => some (310378496 + d * 65536 + a * 512 + b * 4 + m)
  | .fsetLt d a b m => some (318767104 + d * 65536 + a * 512 + b * 4 + m)
  | .fsetLe d a b m => some (327155712 + d * 65536 + a * 512 + b * 4 + m)
  | .fsetEq d a b m => some (335544320 + d * 65536 + a * 512 + b * 4 + m)
  | .fsetNe d a b m => some (343932928 + d * 65536 + a * 512 + b * 4 + m)
  | .frcp d a b m => some (352321536 + d * 65536 + a * 512 + b * 4 + m)
  | .frsq d a b m => some (360710144 + d * 65536 + a * 512 + b * 4 + m)
  | .fsqrt d a b m => some (369098752 + d * 65536 + a * 512 + b * 4 + m)
  | .fexp2 d a b m => some (377487360 + d * 65536 + a * 512 + b * 4 + m)
  | .flog2 d a b m => some (385875968 + d * 65536 + a * 512 + b * 4 + m)
  | .fsin d a b m => some (394264576 + d * 65536 + a * 512 + b * 4 + m)
  | .fcos d a b m => some (402653184 + d * 65536 + a * 512 + b * 4 + m)
  | .ftanh d a b m => some (411041792 + d * 65536 + a * 512 + b * 4 + m)
  | .fclass d a b m => some (419430400 + d * 65536 + a * 512 + b * 4 + m)
  | .dadd d a b m => some (427819008 + d * 65536 + a * 512 + b * 4 + m)
  | .dmul d a b m => some (436207616 + d * 65536 + a * 512 + b * 4 + m)
  | .dfma d a b m => some (444596224 + d * 65536 + a * 512 + b * 4 + m)
  | .dmin d a b m => some (452984832 + d * 65536 + a * 512 + b * 4 + m)
  | .dmax d a b m => some (452984832 + d * 65536 + a * 512 + b * 4 + m)
  | .dset d a b m => some (461373440 + d * 65536 + a * 512 + b * 4 + m)
  | .hadd2 d a b m => some (469762048 + d * 65536 + a * 512 + b * 4 + m)
  | .hsub2 d a b m => some (478150656 + d * 65536 + a * 512 + b * 4 + m)
  | .hmul2 d a b m => some (486539264 + d * 65536 + a * 512 + b * 4 + m)
  | .hfma2 d a b m => some (494927872 + d * 65536 + a * 512 + b * 4 + m)
  | .hmax2 d a b m => some (503316480 + d * 65536 + a * 512 + b * 4 + m)
  | .maxd2 d a b m => some (511705088 + d * 65536 + a * 512 + b * 4 + m)
  | .cvt d a b m => some (520093696 + d * 65536 + a * 512 + b * 4 + m)
  | .cvtxPack d a b m => some (528482304 + d * 65536 + a * 512 + b * 4 + m)
  | .cvtxUnpack d a b m => some (528482304 + d * 65536 + a * 512 + b * 4 + m)
  | .cvtxDecode d a b m => some (528482304 + d * 65536 + a * 512 + b * 4 + m)
  | .cvtxEncode d a b m => some (528482304 + d * 65536 + a * 512 + b * 4 + m)
  | .iaddi d a imm => some (536870912 + d * 65536 + a * 512 + imm)
  | .imuli d a imm => some (545259520 + d * 65536 + a * 512 + imm)
  | .andi d a imm => some (553648128 + d * 65536 + a * 512 + imm)
  | .ori d a imm => some (562036736 + d * 65536 + a * 512 + imm)
  | .xori d a imm => some (570425344 + d * 65536 + a * 512 + imm)
  | .shli d a imm => some (578813952 + d * 65536 + a * 512 + imm)
  | .shri d a imm => some (587202560 + d * 65536 + a * 512 + imm)
  | .sari d a imm => some (595591168 + d * 65536 + a * 512 + imm)
  | .isetiLt d a imm => some (603979776 + d * 65536 + a * 512 + imm)
  | .isetiLe d a imm => some (612368384 + d * 65536 + a * 512 + imm)
  | .isetiEq d a imm => some (620756992 + d * 65536 + a * 512 + imm)
  | .isetiNe d a imm => some (629145600 + d * 65536 + a * 512 + imm)
  | .isetiLtn d a imm => some (637534208 + d * 65536 + a * 512 + imm)
  | .isetiLen d a imm => some (645922816 + d * 65536 + a * 512 + imm)
  | .movi d a imm => some (654311424 + d * 65536 + a * 512 + imm)
  | .movhi d a imm => some (662700032 + d * 65536 + a * 512 + imm)
  | .ldbS d a imm => some (671088640 + d * 65536 + a * 512 + imm)
  | .ldbN d a imm => some (679477248 + d * 65536 + a * 512 + imm)
  | .ldhS d a imm => some (687865856 + d * 65536 + a * 512 + imm)
  | .ldhN d a imm => some (696254464 + d * 65536 + a * 512 + imm)
  | .stb d a imm => some (704643072 + d * 65536 + a * 512 + imm)
  | .sth d a imm => some (713031680 + d * 65536 + a * 512 + imm)
  | .shfli d a imm => some (721420288 + d * 65536 + a * 512 + imm)
  | .bfxi d a imm => some (729808896 + d * 65536 + a * 512 + imm)
  | .ldw hint d x base la => some (1073741824 + hint * 16777216 + d * 131072 + x * 1024 + base * 16 + la)
  | .ldd hint d x base la => some (1140850688 + hint * 16777216 + d * 131072 + x * 1024 + base * 16 + la)
  | .ldq hint d x base la => some (1207959552 + hint * 16777216 + d * 131072 + x * 1024 + base * 16 + la)
  | .ldf hint d x base la => some (1275068416 + hint * 16777216 + d * 131072 + x * 1024 + base * 16 + la)
  | .stw hint d x base la => some (1342177280 + hint * 16777216 + d * 131072 + x * 1024 + base * 16 + la)
  | .std hint d x base la => some (1409286144 + hint * 16777216 + d * 131072 + x * 1024 + base * 16 + la)
  | .stq hint d x base la => some (1476395008 + hint * 16777216 + d * 131072 + x * 1024 + base * 16 + la)
  | .pref hint d x base la => some (1543503872 + hint * 16777216 + d * 131072 + x * 1024 + base * 16 + la)
  | .ldlw sp d a imm => some (1610612736 + sp * 8388608 + d * 65536 + a * 512 + imm)
  | .ldld sp d a imm => some (1644167168 + sp * 8388608 + d * 65536 + a * 512 + imm)
  | .ldlq sp d a imm => some (1677721600 + sp * 8388608 + d * 65536 + a * 512 + imm)
  | .stlw sp d a imm => some (1711276032 + sp * 8388608 + d * 65536 + a * 512 + imm)
  | .stld sp d a imm => some (1744830464 + sp * 8388608 + d * 65536 + a * 512 + imm)
  | .stlq sp d a imm => some (1778384896 + sp * 8388608 + d * 65536 + a * 512 + imm)
  | .ldlb sp d a imm => some (1811939328 + sp * 8388608 + d * 65536 + a * 512 + imm)
  | .stlb sp d a imm => some (1845493760 + sp * 8388608 + d * 65536 + a * 512 + imm)
  | .atomAdd32 d x scope base la => some (1879048192 + d * 131072 + x * 1024 + scope * 256 + base * 16 + la)
  | .atomAdd64 d x scope base la => some (1895825408 + d * 131072 + x * 1024 + scope * 256 + base * 16 + la)
  | .atomAddf32 d x scope base la => some (1912602624 + d * 131072 + x * 1024 + scope * 256 + base * 16 + la)
  | .atomMinS32 d x scope base la => some (1929379840 + d * 131072 + x * 1024 + scope * 256 + base * 16 + la)
  | .atomMinN32 d x scope base la => some (1946157056 + d * 131072 + x * 1024 + scope * 256 + base * 16 + la)
  | .atomMaxS32 d x scope base la => some (1962934272 + d * 131072 + x * 1024 + scope * 256 + base * 16 + la)
  | .atomMaxN32 d x scope base la => some (1979711488 + d * 131072 + x * 1024 + scope * 256 + base * 16 + la)
  | .atomAnd32 d x scope base la => some (1996488704 + d * 131072 + x * 1024 + scope * 256 + base * 16 + la)
  | .atomOr32 d x scope base la => some (2013265920 + d * 131072 + x * 1024 + scope * 256 + base * 16 + la)
  | .atomXor32 d x scope base la => some (2030043136 + d * 131072 + x * 1024 + scope * 256 + base * 16 + la)
  | .atomXchg32 d x scope base la => some (2046820352 + d * 131072 + x * 1024 + scope * 256 + base * 16 + la)
  | .atomXchg64 d x scope base la => some (2063597568 + d * 131072 + x * 1024 + scope * 256 + base * 16 + la)
  | .atomCas32 d x scope base la => some (2080374784 + d * 131072 + x * 1024 + scope * 256 + base * 16 + la)
  | .atomCas64 d x scope base la => some (2097152000 + d * 131072 + x * 1024 + scope * 256 + base * 16 + la)
  | .atomIncN32 d x scope base la => some (2113929216 + d * 131072 + x * 1024 + scope * 256 + base * 16 + la)
  | .atomAddbf16x2 d x scope base la => some (2130706432 + d * 131072 + x * 1024 + scope * 256 + base * 16 + la)
  | .sadd d a b g m => some (2147483648 + d * 65536 + a * 1024 + b * 16 + g * 4 + m)
  | .ssub d a b g m => some (2151677952 + d * 65536 + a * 1024 + b * 16 + g * 4 + m)
  | .smul d a b g m => some (2155872256 + d * 65536 + a * 1024 + b * 16 + g * 4 + m)
  | .smulh d a b g m => some (2160066560 + d * 65536 + a * 1024 + b * 16 + g * 4 + m)
  | .sdiv d a b g m => some (2164260864 + d * 65536 + a * 1024 + b * 16 + g * 4 + m)
  | .srem d a b g m => some (2168455168 + d * 65536 + a * 1024 + b * 16 + g * 4 + m)
  | .sand d a b g m => some (2172649472 + d * 65536 + a * 1024 + b * 16 + g * 4 + m)
  | .sor d a b g m => some (2176843776 + d * 65536 + a * 1024 + b * 16 + g * 4 + m)
  | .sxor d a b g m => some (2181038080 + d * 65536 + a * 1024 + b * 16 + g * 4 + m)
  | .sshl d a b g m => some (2185232384 + d * 65536 + a * 1024 + b * 16 + g * 4 + m)
  | .sshr d a b g m => some (2189426688 + d * 65536 + a * 1024 + b * 16 + g * 4 + m)
  | .ssar d a b g m => some (2193620992 + d * 65536 + a * 1024 + b * 16 + g * 4 + m)
  | .smin d a b g m => some (2197815296 + d * 65536 + a * 1024 + b * 16 + g * 4 + m)
  | .smax d a b g m => some (2202009600 + d * 65536 + a * 1024 + b * 16 + g * 4 + m)
  | .ssetLt d a b g m => some (2206203904 + d * 65536 + a * 1024 + b * 16 + g * 4 + m)
  | .ssetLe d a b g m => some (2210398208 + d * 65536 + a * 1024 + b * 16 + g * 4 + m)
  | .ssetEq d a b g m => some (2214592512 + d * 65536 + a * 1024 + b * 16 + g * 4 + m)
  | .ssetNe d a b g m => some (2218786816 + d * 65536 + a * 1024 + b * 16 + g * 4 + m)
  | .ssel d a b g m => some (2222981120 + d * 65536 + a * 1024 + b * 16 + g * 4 + m)
  | .qlop d a b g m => some (2227175424 + d * 65536 + a * 1024 + b * 16 + g * 4 + m)
  | .spopc d a b g m => some (2231369728 + d * 65536 + a * 1024 + b * 16 + g * 4 + m)
  | .sclz d a b g m => some (2235564032 + d * 65536 + a * 1024 + b * 16 + g * 4 + m)
  | .smov d a b g m => some (2239758336 + d * 65536 + a * 1024 + b * 16 + g * 4 + m)
  | .vtou d a b g m => some (2243952640 + d * 65536 + a * 1024 + b * 16 + g * 4 + m)
  | .vote d a b g m => some (2248146944 + d * 65536 + a * 1024 + b * 16 + g * 4 + m)
  | .redx d a b g m => some (2252341248 + d * 65536 + a * 1024 + b * 16 + g * 4 + m)
  | .gets d a b g m => some (2256535552 + d * 65536 + a * 1024 + b * 16 + g * 4 + m)
  | .puts d a b g m => some (2260729856 + d * 65536 + a * 1024 + b * 16 + g * 4 + m)
  | .saddc d a b g m => some (2264924160 + d * 65536 + a * 1024 + b * 16 + g * 4 + m)
  | .saddi d a imm => some (2415919104 + d * 65536 + a * 1024 + imm)
  | .sandi d a imm => some (2420113408 + d * 65536 + a * 1024 + imm)
  | .sori d a imm => some (2424307712 + d * 65536 + a * 1024 + imm)
  | .sxori d a imm => some (2428502016 + d * 65536 + a * 1024 + imm)
  | .sshli d a imm => some (2432696320 + d * 65536 + a * 1024 + imm)
  | .sshri d a imm => some (2436890624 + d * 65536 + a * 1024 + imm)
  | .ssari d a imm => some (2441084928 + d * 65536 + a * 1024 + imm)
  | .ssetiLt d a imm => some (2445279232 + d * 65536 + a * 1024 + imm)
  | .ssetiEq d a imm => some (2449473536 + d * 65536 + a * 1024 + imm)
  | .ssetiLtn d a imm => some (2453667840 + d * 65536 + a * 1024 + imm)
  | .smuli d a imm => some (2457862144 + d * 65536 + a * 1024 + imm)
  | .smovi d imm => some (2684354560 + d * 262144 + imm)
  | .shi18 d imm => some (2701131776 + d * 262144 + imm)
  | .sadr d imm => some (2717908992 + d * 262144 + imm)
  | .bra c off => some (2952790016 + c * 2097152 + off)
  | .br c off => some (2969567232 + c * 2097152 + off)
  | .brE c off => some (2986344448 + c * 2097152 + off)
  | .joinat c off => some (3003121664 + c * 2097152 + off)
  | .call c off => some (3019898880 + c * 2097152 + off)
  | .loop c off => some (3036676096 + c * 2097152 + off)
  | .rgnI c off => some (3053453312 + c * 2097152 + off)
  | .rgnH c off => some (3070230528 + c * 2097152 + off)
  | .mmaQ a view se acc sat sp z la => some (3221225472 + a * 65536 + view * 4096 + se * 1024 + acc * 512 + sat * 256 + sp * 64 + z * 16 + la)
  | .mmaPk y a view se acc sat sp z la => some (3229614080 + y * 4194304 + a * 65536 + view * 4096 + se * 1024 + acc * 512 + sat * 256 + sp * 64 + z * 16 + la)
  | .mzero y a b z la => some (3238002688 + y * 4194304 + a * 65536 + b * 1024 + z * 16 + la)
  | .cpy y d a z la => some (3246391296 + y * 4194304 + d * 65536 + a * 1024 + z * 16 + la)
  | .cpyr y d a b la => some (3254779904 + y * 4194304 + d * 65536 + a * 1024 + b * 16 + la)
  | .dispSend y d a z mode la => some (3263168512 + y * 4194304 + d * 65536 + a * 1024 + z * 64 + mode * 16 + la)
  | .dispOpen y d a z mode la => some (3263168512 + y * 4194304 + d * 65536 + a * 1024 + z * 64 + mode * 16 + la)
  | .dispClose y d a z mode la => some (3263168512 + y * 4194304 + d * 65536 + a * 1024 + z * 64 + mode * 16 + la)
  | .cstl y mask sp z => some (3271557120 + y * 4194304 + mask * 64 + sp * 16 + z)
  | .fork y a b z => some (3279945728 + y * 65536 + a * 1024 + b * 16 + z)
  | .rdv y d z la => some (3288334336 + y * 4194304 + d * 65536 + z * 16 + la)
  | .xch d a b la => some (3296722944 + d * 65536 + a * 512 + b * 16 + la)
  | .join z => some (3489660928 + z)
  | .ret y a z => some (3493855232 + y * 65536 + a * 1024 + z)
  | .brx y a z => some (3498049536 + y * 131072 + a * 1024 + z)
  | .exit z => some (3502243840 + z)
  | .nop z => some (3506438144 + z)
  | .yield z => some (3510632448 + z)
  | .cmtBr z => some (3514826752 + z)
  | .cmtSv z => some (3519021056 + z)
  | .cmtRl z => some (3523215360 + z)
  | .pchk u p y a pl e z => some (3527409664 + u * 2097152 + p * 262144 + y * 131072 + a * 1024 + pl * 512 + e * 4 + z)
  | .pclr f n q sx z => some (3531603968 + f * 32768 + n * 1024 + q * 512 + sx * 256 + z)
  | .side d a k z => some (3535798272 + d * 65536 + a * 1024 + k * 256 + z)
  | .bar kind act slot z => some (3539992576 + kind * 1048576 + act * 262144 + slot * 65536 + z)
  | .fenceAcq scope kind z => some (3544186880 + scope * 524288 + kind * 131072 + z)
  | .fenceRel scope kind z => some (3544186880 + scope * 524288 + kind * 131072 + z)
  | .fenceAr scope kind z => some (3544186880 + scope * 524288 + kind * 131072 + z)
  | .trig z => some (3548381184 + z)
  | .tready y a z => some (3552575488 + y * 65536 + a * 1024 + z)
  | .twait y a z => some (3556769792 + y * 65536 + a * 1024 + z)
  | .svc z => some (3560964096 + z)
  | .sret z => some (3565158400 + z)
  | .brk z => some (3569352704 + z)
  | .harv d a b clr z => some (3573547008 + d * 65536 + a * 1024 + b * 16 + clr * 8 + z)
  | .tlbiGen d a b form z => some (3577741312 + d * 65536 + a * 1024 + b * 16 + form * 4 + z)
  | .tlbiPage d a b form z => some (3577741312 + d * 65536 + a * 1024 + b * 16 + form * 4 + z)
  | .tlbiHold d a b form z => some (3577741312 + d * 65536 + a * 1024 + b * 16 + form * 4 + z)
  | .tlbiRel d a b form z => some (3577741312 + d * 65536 + a * 1024 + b * 16 + form * 4 + z)
  | .cwb d a b lvl z => some (3581935616 + d * 65536 + a * 1024 + b * 16 + lvl * 8 + z)
  | .cinv d a b lvl mode z => some (3586129920 + d * 65536 + a * 1024 + b * 16 + lvl * 8 + mode * 4 + z)
  | .sealClose d a b op z => some (3590324224 + d * 65536 + a * 1024 + b * 16 + op * 8 + z)
  | .sealOpen d a b op z => some (3590324224 + d * 65536 + a * 1024 + b * 16 + op * 8 + z)
  | .evt y a z => some (3594518528 + y * 65536 + a * 1024 + z)
  | .waitev d a z => some (3598712832 + d * 65536 + a * 1024 + z)
  | .launch d a z => some (3602907136 + d * 65536 + a * 1024 + z)
  | .vacateSave d a b mode z => some (3607101440 + d * 65536 + a * 1024 + b * 16 + mode * 4 + z)
  | .vacateOpen d a b mode z => some (3607101440 + d * 65536 + a * 1024 + b * 16 + mode * 4 + z)
  | .vacateKill d a b mode z => some (3607101440 + d * 65536 + a * 1024 + b * 16 + mode * 4 + z)
  | .dict d a b z => some (3611295744 + d * 65536 + a * 1024 + b * 16 + z)
  | .flushst d a b fua z => some (3615490048 + d * 65536 + a * 1024 + b * 16 + fua * 8 + z)
  | .hashsw d a z => some (3619684352 + d * 65536 + a * 1024 + z)
  | .sldW hint d base off la => some (3758096384 + hint * 8388608 + d * 131072 + base * 2048 + off * 16 + la)
  | .sldD hint d base off la => some (3791650816 + hint * 8388608 + d * 131072 + base * 2048 + off * 16 + la)
  | .sstW hint d base off la => some (3825205248 + hint * 8388608 + d * 131072 + base * 2048 + off * 16 + la)
  | .sstD hint d base off la => some (3858759680 + hint * 8388608 + d * 131072 + base * 2048 + off * 16 + la)
  | .satomAdd64 hint d base off la => some (3892314112 + hint * 8388608 + d * 131072 + base * 2048 + off * 16 + la)
  | .scas64 hint d base off la => some (3925868544 + hint * 8388608 + d * 131072 + base * 2048 + off * 16 + la)
  | .sldl hint d base off la => some (3959422976 + hint * 8388608 + d * 131072 + base * 2048 + off * 16 + la)
  | .sstl hint d base off la => some (3992977408 + hint * 8388608 + d * 131072 + base * 2048 + off * 16 + la)
  | .dictionaryCode rb index => some (61440 + rb * 1024 + index)
  | .unassignedEncoding _ => none
  | .instructionFetchFault => none
  | .registerWrite _ _ _ _ => none
  | .storeTranslationProbe _ _ => none
  | .probeReturn _ => none
  | .l1Fill _ => none
  | .sliceReadMiss _ _ => none
  | .walkComplete _ _ => none
  | .writeBack _ _ => none
  | .bypassStore _ _ => none
  | .sliceAtomic _ _ => none
  | .reclaim _ _ _ => none
  | .reclaimAck _ _ _ => none
  | .replicaInvalidate _ _ _ _ => none
  | .replicaInvalidateAck _ _ _ => none
  | .requestBounce _ => none
  | .requestReplay _ => none
  | .remoteScratchpadAccess _ => none
  | .retrieverAccess _ => none
  | .genBroadcastReceive _ _ => none
  | .genBroadcastDone _ => none
  | .dropNotice _ => none
  | .pageInvalidateReceive _ _ _ => none
  | .pageInvalidationDone _ _ => none
  | .harvestDone _ => none
  | .rangeOperationDone _ => none
  | .domainSwitchDone _ => none
  | .slcsClr _ => none
  | .sltsClr _ => none
  | .cmcmdSet _ => none
  | .cmcmdQuery _ => none
  | .cmcmdSetDone => none
  | .slhmWrite _ _ => none
  | .slhcWrite _ _ => none
  | .commitBackoffExpiry _ _ => none
  | .fetchRequestIntake _ => none
  | .nvmeCommandComplete _ _ _ => none
  | .nvmeCommandTimeout _ _ => none
  | .storageLinkUp _ _ _ => none
  | .storageLinkDown _ => none
  | .frdbServiced _ _ => none
  | .frdbFail _ _ => none
  | .handOverDone _ _ => none
  | .rejoinTimeout _ _ => none
  | .recallComplete _ _ => none
  | .powerTokenGrant _ => none
  | .matrixPassComplete _ => none
  | .copyComplete _ _ _ => none
  | .cpyrAck _ _ _ _ => none
  | .dispatchDeliver _ _ _ _ => none
  | .dispatchDone _ _ _ => none
  | .peerTimeout _ => none
  | .xchTimeout _ _ => none
  | .castling _ => none
  | .rdvComplete _ _ => none
  | .tileFlagNotify _ => none
  | .packPlace _ => none
  | .packSaveComplete _ => none
  | .quantumExpiry _ _ => none
  | .gridCompletion _ => none
  | .submissionTake _ => none
  | .eventInsert _ => none
  | .waitevTimeout _ _ => none
  | .dbgctlResume _ => none
  | .dbgctlHaltedClear _ => none
  | .kscmdLoad _ => none
  | .kscmdRevoke _ => none
  | .keySlotOpDone => none
  | .mfesClear _ => none
  | .almLock => none
  | .almClear _ => none
  | .securityAlarm _ => none
  | .dbggoGo _ => none
  | .debugUnlockResult _ => none
  | .drstGo _ => none
  | .functionLevelReset _ => none
  | .bdrstReset _ => none
  | .ctxbWrite _ => none
  | .peerbWrite _ => none
  | .fabnWrite _ => none
  | .moduleColdReset _ _ _ _ => none
  | .thermalLimit _ _ _ => none
  | .thermalRecover _ _ => none
  | .spdmRequest _ _ => none
  | .keyProgram _ _ => none
  | .lockInterface _ => none
  | .stopInterface _ => none
  | .hostBar2Read _ _ _ => none
  | .hostBar2Write _ _ _ _ _ => none
  | .peerRequest _ _ _ _ _ _ => none
  | .cxlCompletion _ _ _ => none
  | .sealVersionNotice _ _ _ => none
  | .sealRetire _ _ _ _ => none
  | .sealRetireAck _ => none
  | .startInterface _ => none
  | .ualinkPortsTrain => none
  | .peerAccessCompletion _ _ _ => none
  | .dieResetComplete _ => none
  | .baseDieResetComplete _ => none
  | .uncorrectableEccError _ _ _ _ => none

/-- The length in bits of a stream instruction. -/
def encodedBits : Instr → Nat
  | .dictionaryCode _ _ => 16
  | _ => 32

end Sys2Proof
end

