-- ==== Sys2Proof/Machine/Uses.lean ====
section
/-! DEFINITION. What an instruction names: the lane register fields that a dictionary code rebases (09 R282), and the lane and
uniform registers it reads or writes, by which held results make it wait (09 R284; 07 R228). -/

namespace Sys2Proof

/-- n registers from r on, the number read as a multiple of n (09 R279). -/
def span (n r : Nat) : List Nat := (List.range n).map (r - r % n + ·)

/-- n registers from r on. -/
def run (n r : Nat) : List Nat := (List.range n).map (r + ·)

/-- The lane register fields of an instruction moved by a function (R282). -/
def Instr.mapV (f : Nat → Nat) : Instr → Instr
  | .iadd d a b m => .iadd (f d) (f a) (f b) m
  | .isub d a b m => .isub (f d) (f a) (f b) m
  | .imul d a b m => .imul (f d) (f a) (f b) m
  | .imulh d a b m => .imulh (f d) (f a) (f b) m
  | .imad d a b m => .imad (f d) (f a) (f b) m
  | .imin d a b m => .imin (f d) (f a) (f b) m
  | .imax d a b m => .imax (f d) (f a) (f b) m
  | .iabs d a b m => .iabs (f d) (f a) (f b) m
  | .and32 d a b m => .and32 (f d) (f a) (f b) m
  | .or32 d a b m => .or32 (f d) (f a) (f b) m
  | .xor32 d a b m => .xor32 (f d) (f a) (f b) m
  | .andn d a b m => .andn (f d) (f a) (f b) m
  | .shl d a b m => .shl (f d) (f a) (f b) m
  | .shr d a b m => .shr (f d) (f a) (f b) m
  | .sar d a b m => .sar (f d) (f a) (f b) m
  | .rot d a b m => .rot (f d) (f a) (f b) m
  | .popc d a b m => .popc (f d) (f a) b m
  | .clz d a b m => .clz (f d) (f a) b m
  | .brev d a b m => .brev (f d) (f a) b m
  | .bfx d a b m => .bfx (f d) (f a) (f b) m
  | .bfi d a b m => .bfi (f d) (f a) (f b) m
  | .bysel d a b m => .bysel (f d) (f a) (f b) m
  | .addc d a b m => .addc (f d) (f a) (f b) m
  | .sad d a b m => .sad (f d) (f a) (f b) m
  | .isetLt d a b m => .isetLt d (f a) (f b) m
  | .isetLe d a b m => .isetLe d (f a) (f b) m
  | .isetEq d a b m => .isetEq d (f a) (f b) m
  | .isetNe d a b m => .isetNe d (f a) (f b) m
  | .sel d a b m => .sel (f d) (f a) (f b) m
  | .mov d a b m => .mov (f d) (f a) b m
  | .bcast d a b m => .bcast (f d) (f a) b m
  | .getl d a b m => .getl (f d) a b m
  | .shfl d a b m => .shfl (f d) (f a) (f b) m
  | .fadd d a b m => .fadd (f d) (f a) (f b) m
  | .fsub d a b m => .fsub (f d) (f a) (f b) m
  | .fmul d a b m => .fmul (f d) (f a) (f b) m
  | .ffma d a b m => .ffma (f d) (f a) (f b) m
  | .fmin d a b m => .fmin (f d) (f a) (f b) m
  | .fmax d a b m => .fmax (f d) (f a) (f b) m
  | .fsetLt d a b m => .fsetLt d (f a) (f b) m
  | .fsetLe d a b m => .fsetLe d (f a) (f b) m
  | .fsetEq d a b m => .fsetEq d (f a) (f b) m
  | .fsetNe d a b m => .fsetNe d (f a) (f b) m
  | .frcp d a b m => .frcp (f d) (f a) b m
  | .frsq d a b m => .frsq (f d) (f a) b m
  | .fsqrt d a b m => .fsqrt (f d) (f a) b m
  | .fexp2 d a b m => .fexp2 (f d) (f a) b m
  | .flog2 d a b m => .flog2 (f d) (f a) b m
  | .fsin d a b m => .fsin (f d) (f a) b m
  | .fcos d a b m => .fcos (f d) (f a) b m
  | .ftanh d a b m => .ftanh (f d) (f a) b m
  | .fclass d a b m => .fclass (f d) (f a) b m
  | .dadd d a b m => .dadd (f d) (f a) (f b) m
  | .dmul d a b m => .dmul (f d) (f a) (f b) m
  | .dfma d a b m => .dfma (f d) (f a) (f b) m
  | .dmin d a b m => .dmin (f d) (f a) (f b) m
  | .dmax d a b m => .dmax (f d) (f a) (f b) m
  | .dset d a b m => .dset d (f a) (f b) m
  | .hadd2 d a b m => .hadd2 (f d) (f a) (f b) m
  | .hsub2 d a b m => .hsub2 (f d) (f a) (f b) m
  | .hmul2 d a b m => .hmul2 (f d) (f a) (f b) m
  | .hfma2 d a b m => .hfma2 (f d) (f a) (f b) m
  | .hmax2 d a b m => .hmax2 (f d) (f a) (f b) m
  | .maxd2 d a b m => .maxd2 (f d) (f a) (f b) m
  | .cvt d a b m => .cvt (f d) (f a) b m
  | .cvtxPack d a b m => .cvtxPack (f d) (f a) b m
  | .cvtxUnpack d a b m => .cvtxUnpack (f d) (f a) b m
  | .cvtxDecode d a b m => .cvtxDecode (f d) (f a) b m
  | .cvtxEncode d a b m => .cvtxEncode (f d) (f a) b m
  | .iaddi d a imm => .iaddi (f d) (f a) imm
  | .imuli d a imm => .imuli (f d) (f a) imm
  | .andi d a imm => .andi (f d) (f a) imm
  | .ori d a imm => .ori (f d) (f a) imm
  | .xori d a imm => .xori (f d) (f a) imm
  | .shli d a imm => .shli (f d) (f a) imm
  | .shri d a imm => .shri (f d) (f a) imm
  | .sari d a imm => .sari (f d) (f a) imm
  | .isetiLt d a imm => .isetiLt d (f a) imm
  | .isetiLe d a imm => .isetiLe d (f a) imm
  | .isetiEq d a imm => .isetiEq d (f a) imm
  | .isetiNe d a imm => .isetiNe d (f a) imm
  | .isetiLtn d a imm => .isetiLtn d (f a) imm
  | .isetiLen d a imm => .isetiLen d (f a) imm
  | .movi d a imm => .movi (f d) a imm
  | .movhi d a imm => .movhi (f d) a imm
  | .ldbS d a imm => .ldbS (f d) (f a) imm
  | .ldbN d a imm => .ldbN (f d) (f a) imm
  | .ldhS d a imm => .ldhS (f d) (f a) imm
  | .ldhN d a imm => .ldhN (f d) (f a) imm
  | .stb d a imm => .stb (f d) (f a) imm
  | .sth d a imm => .sth (f d) (f a) imm
  | .shfli d a imm => .shfli (f d) (f a) imm
  | .bfxi d a imm => .bfxi (f d) (f a) imm
  | .ldw hint d x base la => .ldw hint (f d) (f x) base la
  | .ldd hint d x base la => .ldd hint (f d) (f x) base la
  | .ldq hint d x base la => .ldq hint (f d) (f x) base la
  | .ldf hint d x base la => .ldf hint (f d) (f x) base la
  | .stw hint d x base la => .stw hint (f d) (f x) base la
  | .std hint d x base la => .std hint (f d) (f x) base la
  | .stq hint d x base la => .stq hint (f d) (f x) base la
  | .pref hint d x base la => .pref hint d (f x) base la
  | .ldlw sp d a imm => .ldlw sp (f d) (f a) imm
  | .ldld sp d a imm => .ldld sp (f d) (f a) imm
  | .ldlq sp d a imm => .ldlq sp (f d) (f a) imm
  | .stlw sp d a imm => .stlw sp (f d) (f a) imm
  | .stld sp d a imm => .stld sp (f d) (f a) imm
  | .stlq sp d a imm => .stlq sp (f d) (f a) imm
  | .ldlb sp d a imm => .ldlb sp (f d) (f a) imm
  | .stlb sp d a imm => .stlb sp (f d) (f a) imm
  | .atomAdd32 d x scope base la => .atomAdd32 (f d) (f x) scope base la
  | .atomAdd64 d x scope base la => .atomAdd64 (f d) (f x) scope base la
  | .atomAddf32 d x scope base la => .atomAddf32 (f d) (f x) scope base la
  | .atomMinS32 d x scope base la => .atomMinS32 (f d) (f x) scope base la
  | .atomMinN32 d x scope base la => .atomMinN32 (f d) (f x) scope base la
  | .atomMaxS32 d x scope base la => .atomMaxS32 (f d) (f x) scope base la
  | .atomMaxN32 d x scope base la => .atomMaxN32 (f d) (f x) scope base la
  | .atomAnd32 d x scope base la => .atomAnd32 (f d) (f x) scope base la
  | .atomOr32 d x scope base la => .atomOr32 (f d) (f x) scope base la
  | .atomXor32 d x scope base la => .atomXor32 (f d) (f x) scope base la
  | .atomXchg32 d x scope base la => .atomXchg32 (f d) (f x) scope base la
  | .atomXchg64 d x scope base la => .atomXchg64 (f d) (f x) scope base la
  | .atomCas32 d x scope base la => .atomCas32 (f d) (f x) scope base la
  | .atomCas64 d x scope base la => .atomCas64 (f d) (f x) scope base la
  | .atomIncN32 d x scope base la => .atomIncN32 (f d) (f x) scope base la
  | .atomAddbf16x2 d x scope base la => .atomAddbf16x2 (f d) (f x) scope base la
  | i => i

/-- A dictionary entry under a rebase field: lane register numbers grow by 8 × RB modulo 128 (R282). -/
def Instr.rebase (rb : Nat) (i : Instr) : Instr := i.mapV (fun r => (r + 8 * rb) % 128)

/-- The lane registers an instruction reads or writes. -/
def Instr.laneRegs : Instr → List Nat
  | .iadd d a b _ => [d, a, b]
  | .isub d a b _ => [d, a, b]
  | .imul d a b _ => [d, a, b]
  | .imulh d a b _ => [d, a, b]
  | .imad d a b _ => [d, a, b]
  | .imin d a b _ => [d, a, b]
  | .imax d a b _ => [d, a, b]
  | .iabs d a b _ => [d, a, b]
  | .and32 d a b _ => [d, a, b]
  | .or32 d a b _ => [d, a, b]
  | .xor32 d a b _ => [d, a, b]
  | .andn d a b _ => [d, a, b]
  | .shl d a b _ => [d, a, b]
  | .shr d a b _ => [d, a, b]
  | .sar d a b _ => [d, a, b]
  | .rot d a b _ => [d, a, b]
  | .popc d a _ _ => [d, a]
  | .clz d a _ _ => [d, a]
  | .brev d a _ _ => [d, a]
  | .bfx d a b _ => [d, a, b]
  | .bfi d a b _ => [d, a, b]
  | .bysel d a b _ => [d, a, b]
  | .addc d a b _ => [d, a, b]
  | .sad d a b _ => [d, a, b]
  | .isetLt _ a b _ => [a, b]
  | .isetLe _ a b _ => [a, b]
  | .isetEq _ a b _ => [a, b]
  | .isetNe _ a b _ => [a, b]
  | .sel d a b _ => [d, a, b]
  | .mov d a _ _ => [d, a]
  | .bcast d a _ _ => [d, a]
  | .getl d _ _ _ => [d]
  | .shfl d a b _ => [d, a, b]
  | .fadd d a b _ => [d, a, b]
  | .fsub d a b _ => [d, a, b]
  | .fmul d a b _ => [d, a, b]
  | .ffma d a b _ => [d, a, b]
  | .fmin d a b _ => [d, a, b]
  | .fmax d a b _ => [d, a, b]
  | .fsetLt _ a b _ => [a, b]
  | .fsetLe _ a b _ => [a, b]
  | .fsetEq _ a b _ => [a, b]
  | .fsetNe _ a b _ => [a, b]
  | .frcp d a _ _ => [d, a]
  | .frsq d a _ _ => [d, a]
  | .fsqrt d a _ _ => [d, a]
  | .fexp2 d a _ _ => [d, a]
  | .flog2 d a _ _ => [d, a]
  | .fsin d a _ _ => [d, a]
  | .fcos d a _ _ => [d, a]
  | .ftanh d a _ _ => [d, a]
  | .fclass d a _ _ => [d, a]
  | .dadd d a b _ => span 2 d ++ span 2 a ++ span 2 b
  | .dmul d a b _ => span 2 d ++ span 2 a ++ span 2 b
  | .dfma d a b _ => span 2 d ++ span 2 a ++ span 2 b
  | .dmin d a b _ => span 2 d ++ span 2 a ++ span 2 b
  | .dmax d a b _ => span 2 d ++ span 2 a ++ span 2 b
  | .dset _ a b _ => span 2 a ++ span 2 b
  | .hadd2 d a b _ => [d, a, b]
  | .hsub2 d a b _ => [d, a, b]
  | .hmul2 d a b _ => [d, a, b]
  | .hfma2 d a b _ => [d, a, b]
  | .hmax2 d a b _ => [d, a, b]
  | .maxd2 d a b _ => [d, a, b]
  | .cvt d a _ _ => span 2 d ++ span 2 a
  | .cvtxPack d a _ _ => span 16 d ++ span 16 a
  | .cvtxUnpack d a _ _ => span 16 d ++ span 16 a
  | .cvtxDecode d a _ _ => span 16 d ++ span 16 a
  | .cvtxEncode d a _ _ => span 16 d ++ span 16 a
  | .iaddi d a _ => [d, a]
  | .imuli d a _ => [d, a]
  | .andi d a _ => [d, a]
  | .ori d a _ => [d, a]
  | .xori d a _ => [d, a]
  | .shli d a _ => [d, a]
  | .shri d a _ => [d, a]
  | .sari d a _ => [d, a]
  | .isetiLt _ a _ => [a]
  | .isetiLe _ a _ => [a]
  | .isetiEq _ a _ => [a]
  | .isetiNe _ a _ => [a]
  | .isetiLtn _ a _ => [a]
  | .isetiLen _ a _ => [a]
  | .movi d _ _ => [d]
  | .movhi d _ _ => [d]
  | .ldbS d a _ => [d] ++ span 2 a
  | .ldbN d a _ => [d] ++ span 2 a
  | .ldhS d a _ => [d] ++ span 2 a
  | .ldhN d a _ => [d] ++ span 2 a
  | .stb d a _ => [d] ++ span 2 a
  | .sth d a _ => [d] ++ span 2 a
  | .shfli d a _ => [d, a]
  | .bfxi d a _ => [d, a]
  | .ldw _ d x _ _ => span 1 d ++ [x]
  | .ldd _ d x _ _ => span 2 d ++ [x]
  | .ldq _ d x _ _ => span 4 d ++ [x]
  | .ldf _ d x _ _ => span 2 d ++ [x]
  | .stw _ d x _ _ => span 1 d ++ [x]
  | .std _ d x _ _ => span 2 d ++ [x]
  | .stq _ d x _ _ => span 4 d ++ [x]
  | .pref _ _ x _ _ => [x]
  | .ldlw _ d a _ => span 1 d ++ [a]
  | .ldld _ d a _ => span 2 d ++ [a]
  | .ldlq _ d a _ => span 4 d ++ [a]
  | .stlw _ d a _ => span 1 d ++ [a]
  | .stld _ d a _ => span 2 d ++ [a]
  | .stlq _ d a _ => span 4 d ++ [a]
  | .ldlb _ d a _ => span 1 d ++ [a]
  | .stlb _ d a _ => span 1 d ++ [a]
  | .atomAdd32 d x _ _ _ => span 1 d ++ [x]
  | .atomAdd64 d x _ _ _ => span 2 d ++ [x]
  | .atomAddf32 d x _ _ _ => span 1 d ++ [x]
  | .atomMinS32 d x _ _ _ => span 1 d ++ [x]
  | .atomMinN32 d x _ _ _ => span 1 d ++ [x]
  | .atomMaxS32 d x _ _ _ => span 1 d ++ [x]
  | .atomMaxN32 d x _ _ _ => span 1 d ++ [x]
  | .atomAnd32 d x _ _ _ => span 1 d ++ [x]
  | .atomOr32 d x _ _ _ => span 1 d ++ [x]
  | .atomXor32 d x _ _ _ => span 1 d ++ [x]
  | .atomXchg32 d x _ _ _ => span 1 d ++ [x]
  | .atomXchg64 d x _ _ _ => span 2 d ++ [x]
  | .atomCas32 d x _ _ _ => span 2 d ++ [x]
  | .atomCas64 d x _ _ _ => span 4 d ++ [x]
  | .atomIncN32 d x _ _ _ => span 1 d ++ [x]
  | .atomAddbf16x2 d x _ _ _ => span 1 d ++ [x]
  | .vtou _ a _ _ _ => [a]
  | .redx _ a _ _ _ => [a]
  | .mmaQ a _ _ _ _ _ _ _ => span 4 a
  | .xch d a _ _ => [d, a]
  | .brx _ a _ => span 2 a
  | .pchk u _ _ a _ e _ => (if u = 0 then [a, e] else [])
  | .pclr f n _ _ _ => (run n f)
  | _ => []

/-- The uniform registers an instruction reads or writes. -/
def Instr.uniRegs : Instr → List Nat
  | .ldw _ _ _ base _ => [base]
  | .ldd _ _ _ base _ => [base]
  | .ldq _ _ _ base _ => [base]
  | .ldf _ _ _ base _ => [base]
  | .stw _ _ _ base _ => [base]
  | .std _ _ _ base _ => [base]
  | .stq _ _ _ base _ => [base]
  | .pref _ _ _ base _ => [base]
  | .atomAdd32 _ _ _ base _ => [base]
  | .atomAdd64 _ _ _ base _ => [base]
  | .atomAddf32 _ _ _ base _ => [base]
  | .atomMinS32 _ _ _ base _ => [base]
  | .atomMinN32 _ _ _ base _ => [base]
  | .atomMaxS32 _ _ _ base _ => [base]
  | .atomMaxN32 _ _ _ base _ => [base]
  | .atomAnd32 _ _ _ base _ => [base]
  | .atomOr32 _ _ _ base _ => [base]
  | .atomXor32 _ _ _ base _ => [base]
  | .atomXchg32 _ _ _ base _ => [base]
  | .atomXchg64 _ _ _ base _ => [base]
  | .atomCas32 _ _ _ base _ => [base]
  | .atomCas64 _ _ _ base _ => [base]
  | .atomIncN32 _ _ _ base _ => [base]
  | .atomAddbf16x2 _ _ _ base _ => [base]
  | .sadd d a b _ _ => [d, a, b]
  | .ssub d a b _ _ => [d, a, b]
  | .smul d a b _ _ => [d, a, b]
  | .smulh d a b _ _ => [d, a, b]
  | .sdiv d a b _ _ => [d, a, b]
  | .srem d a b _ _ => [d, a, b]
  | .sand d a b _ _ => [d, a, b]
  | .sor d a b _ _ => [d, a, b]
  | .sxor d a b _ _ => [d, a, b]
  | .sshl d a b _ _ => [d, a, b]
  | .sshr d a b _ _ => [d, a, b]
  | .ssar d a b _ _ => [d, a, b]
  | .smin d a b _ _ => [d, a, b]
  | .smax d a b _ _ => [d, a, b]
  | .ssetLt _ a b _ _ => [a, b]
  | .ssetLe _ a b _ _ => [a, b]
  | .ssetEq _ a b _ _ => [a, b]
  | .ssetNe _ a b _ _ => [a, b]
  | .ssel d a b _ _ => [d, a, b]
  | .spopc d a _ _ _ => [d, a]
  | .sclz d a _ _ _ => [d, a]
  | .smov d a _ _ _ => [d, a]
  | .vtou d _ _ _ _ => [d]
  | .vote d _ _ _ _ => [d]
  | .redx d _ _ _ _ => [d]
  | .gets d _ _ _ _ => [d]
  | .puts _ a _ _ _ => [a]
  | .saddc d a b _ _ => [d, a, b]
  | .saddi d a _ => [d, a]
  | .sandi d a _ => [d, a]
  | .sori d a _ => [d, a]
  | .sxori d a _ => [d, a]
  | .sshli d a _ => [d, a]
  | .sshri d a _ => [d, a]
  | .ssari d a _ => [d, a]
  | .ssetiLt _ a _ => [a]
  | .ssetiEq _ a _ => [a]
  | .ssetiLtn _ a _ => [a]
  | .smuli d a _ => [d, a]
  | .smovi d _ => [d]
  | .shi18 d _ => [d]
  | .sadr d _ => [d]
  | .call _ _ => [15, 62]
  | .mmaPk _ a _ _ _ _ _ _ _ => span 4 a
  | .mzero _ a b _ _ => [a, b]
  | .cpy _ d a _ _ => [d, a]
  | .cpyr _ d a b _ => [d, a] ++ span 2 b
  | .dispSend _ d a _ _ _ => [d, a]
  | .dispOpen _ d a _ _ _ => [d, a]
  | .dispClose _ d a _ _ _ => [d, a]
  | .fork _ a b _ => [a, b] ++ run 15 1
  | .rdv _ d _ _ => [d]
  | .xch _ _ b _ => [b]
  | .ret _ a _ => [a, 15]
  | .pchk u _ _ a _ e _ => (if u = 0 then [] else [a, e])
  | .pclr _ _ _ sx _ => (if sx = 0 then [] else run 63 1)
  | .side d a _ _ => [d, a]
  | .tready _ a _ => [a]
  | .twait _ a _ => [a]
  | .harv d a b _ _ => [d, a, b]
  | .tlbiGen d a b _ _ => [d, a, b]
  | .tlbiPage d a b _ _ => [d, a, b]
  | .tlbiHold d a b _ _ => [d, a, b]
  | .tlbiRel d a b _ _ => [d, a, b]
  | .cwb d a b _ _ => [d, a, b]
  | .cinv d a b _ _ _ => [d, a, b]
  | .sealClose d a b _ _ => [d, a, b]
  | .sealOpen d a b _ _ => [d, a, b]
  | .evt _ a _ => [a]
  | .waitev d a _ => [d, a]
  | .launch d a _ => [d, a]
  | .vacateSave d a b _ _ => [d, a, b]
  | .vacateOpen d a b _ _ => [d, a, b]
  | .vacateKill d a b _ _ => [d, a, b]
  | .dict d a b _ => [d, a, b]
  | .flushst d a b _ _ => [d, a, b]
  | .hashsw d a _ => [d, a]
  | .sldW _ d base _ _ => span 1 d ++ [base]
  | .sldD _ d base _ _ => span 1 d ++ [base]
  | .sstW _ d base _ _ => span 1 d ++ [base]
  | .sstD _ d base _ _ => span 1 d ++ [base]
  | .satomAdd64 _ d base _ _ => span 1 d ++ [base]
  | .scas64 _ d base _ _ => span 2 d ++ [base]
  | .sldl _ d base _ _ => span 1 d ++ [base]
  | .sstl _ d base _ _ => span 1 d ++ [base]
  | _ => []

end Sys2Proof
end

