-- ==== Sys2Proof/Machine/Fetch.lean ====
section
/-! DEFINITION. Instruction fetch (01 R20, R28; 09 R280 to R282): the halfwords at a PC, the fault of a fetch, dictionary codes. -/

namespace Sys2Proof.Machine

/-- The halfword at an address, read at the home slice as an access of the need of a fetch (01 R28). -/
def Mem.fetchHalf (m : Mem) (who : Who) (asid va : Nat) : Mem × Except Flt Nat :=
  match m.readP who asid va 2 0 (need := 4) with
  | (m1, .ok (h, none)) => (m1, .ok h)
  | (m1, .ok (_, some f)) => (m1, .error f)
  | (m1, .error f) => (m1, .error f)

/-- What lies at a PC: a fault with its address, a dictionary code, or a 32-bit word (09 R280). -/
inductive Got where
  | fault (f : Flt) (va : Nat)
  | code (h : Nat)
  | word (w : Nat)
  deriving DecidableEq, Repr

/-- The fetch of an actor at a PC; a walk, a line and an error that it meets stay (04 R122; 05 R154). -/
def State.fetch (s : State) (a : Actor) (pc : W64) : State × Got :=
  let who := s.who a
  let asid := (s.ctx a).asid
  match s.mem.fetchHalf who asid pc.toNat with
  | (m, .error f) => (({ s with mem := m }).noteShc a, .fault f pc.toNat)
  | (m, .ok h) =>
    if isCode h then (({ s with mem := m }).noteShc a, .code h)
    else match m.fetchHalf who asid (pc + 2).toNat with
      | (m1, .error f) => (({ s with mem := m1 }).noteShc a, .fault f (pc + 2).toNat)
      | (m1, .ok l) => (({ s with mem := m1 }).noteShc a, .word (h * 65536 + l))

/-! Dictionary codes (09 R282, R294). -/

/-- The word of an entry of the dictionary that an actor's codes use; none for a control core, an index beyond DCNT, or an entry
loaded as unreadable. -/
def State.dictEntry (s : State) (a : Actor) (idx : Nat) : Option Nat :=
  if a.isCtl then none
  else match (s.core (s.coreOf a)).dict with
    | none => none
    | some d => if d.dcnt ≤ idx then none else ((Tbl.get none d.words idx).map BitVec.toNat)

/-- What a code executes: its rebased entry, or the detail of its fate under R294. -/
def State.expand (s : State) (a : Actor) (rb idx : Nat) : Except Nat Instr :=
  match s.dictEntry a idx with
  | none => .error (61440 + rb * 1024 + idx)
  | some w => if isCode (w / 65536) then .error w
    else match decodeWord w with
      | .error _ => .error w
      | .ok i => .ok (i.rebase rb)

/-- DICTIONARY_CODE: the rebased entry is executed next, at the address of the code. -/
def execDictionaryCode (rb index : Nat) (s : State) : Out :=
  match s.expand s.cur.act rb index with
  | .error d => .next (s.unassigned d)
  | .ok i => .next { s with next := some i, cur := { s.cur with word := (encode i).getD 0 } }

/-! Fetch faults (01 R28). -/

/-- The lanes of the executing split whose fetch failed resolve at the fetch PC as by CMT.SV; those without an open region end as
by EXIT. A commit without a permit is tried again after its back-off. -/
def State.fetchCommit (s : State) (g : Nat) : State :=
  let a := s.cur.act
  let bare := maskOf (s.active.filter (fun l => !((s.me.ln l).rgn.opn)))
  let s1 := s.updSp (fun x => { x with due := false })
  let s2 := if bare = 0 then s1 else s1.exitSplit a g bare
  let rest := without s.mask bare
  if rest = 0 then s2
  else
    let s3 := (s2.upd (fun c => (c.endWin rest).settle)).commit a 1 s.cur.pc rest
    s3.upd (fun c =>
      let c1 := if c.backoff then c.setSplit a.slot { c.split a.slot with due := true } else c
      c1.tidy)

/-- INSTRUCTION_FETCH_FAULT. -/
def execInstructionFetchFault (s : State) : Out :=
  let a := s.cur.act
  let s := s.leaveTokens a
  if s.sp.due then (match a with | .split _ g _ => .next (s.fetchCommit g) | _ => .next s)
  else match s.fetch a s.cur.pc with
  | (s0, .fault f va) =>
    match a with
    | .ctl _ _ => .next s0.endCtl
    | .thread _ _ => .next s0.recallMe
    | .split _ g _ =>
      let (s1, p) := s0.fault1 f va
      let s2 := s1.sinkAll p
      if s.sp.inHandler then .next (s2.handlerFault a) else .next (s2.fetchCommit g)
    | _ => .next (s0.faultAll f va).endSeq
  | _ => .next s

end Sys2Proof.Machine
end

