-- ==== Sys2Proof/Machine/Matrix.lean ====
section
/-! DEFINITION. Matrix passes (08 R263 to R269; 12 R365 to R373): how an instruction forms its passes, power tokens (07 R230,
R231), the arithmetic of a pass and its completion, MZERO. -/

namespace Sys2Proof.Machine

/-! Format pairs (R263, R267). -/

/-- Significand width of a format as an array operand. -/
def sigW (f : Nat) : Nat :=
  match f with
  | 1 => 8 | 2 => 8 | 11 => 11 | 12 => 8 | 13 => 4 | 14 => 3 | 15 => 3 | 16 => 4 | 17 => 2 | 19 => 2 | _ => 0

/-- The floating-point operand formats. -/
def fpArr (f : Nat) : Bool := 11 ≤ f && f ≤ 17

/-- The integer operand formats. -/
def intArr (f : Nat) : Bool := f == 1 || f == 2

/-- Whether a pair of A and B is listed, with a sparse B only where R259 admits it. -/
def pairOk (af bf spn : Nat) : Bool :=
  ((fpArr af && (fpArr bf || bf == 19)) || (intArr af && (intArr bf || bf == 19))) && (spn == 0 || sparseFmt bf)

/-- Array cycles of a pass, and the tokens it takes (R230). -/
def passCycles (af bf : Nat) : Nat := max 4 ((sigW af + 1) / 2 * ((sigW bf + 1) / 2))
def passTokens (af bf : Nat) : Nat := match passCycles af bf with | 4 => 4 | 8 => 3 | _ => 2

/-! Slots and rows (R367). -/

/-- Element bytes of a column of one k-block (R367). -/
def colBytes (bf spn : Nat) : Nat := if spn = 0 then 4 * fmtW bf else blockBytes bf 2 spn

/-! Forming passes. -/

/-- The key of a frame that a local address names in a space. -/
def laKey (sc la : Nat) : Nat := 2 ^ 60 + 2 ^ 50 + (sc * 2 ^ 32 + la) / 4096

/-- A fault of a local address, and one of a W-buffer view. -/
def EFlt.l (f : Flt) (sc la : Nat) : EFlt := { flt := f, page := laKey sc la }
def EFlt.w (view : Nat) : EFlt := { flt := ⟨cBounds, view⟩, page := 2 ^ 60 + 2 ^ 51 + view }

/-- A local address of n bytes with elements of k bytes: the position of its first byte; beyond the view it is BOUNDS (R369). -/
def State.localRun (s : State) (a : Actor) (sc la k n : Nat) : Except EFlt LPos :=
  match s.laddr a sc la k with
  | .error f => .error (EFlt.l f sc la)
  | .ok p =>
    let v := Tbl.get {} (s.wgOf a).views (p.sp * 16 + p.view)
    if (v.nfr + 1) * 4096 < p.off + n then .error (EFlt.l ⟨cBounds, la⟩ sc la) else .ok p

/-- A row's A position in the row owner's A-buffer (R372): the same view and offset there. -/
def State.rowOwner (s : State) (a : Actor) (owner la n : Nat) : Except EFlt LPos :=
  match s.memberAt a owner with
  | none => .error (EFlt.l ⟨cBounds, la⟩ 2 la)
  | some (c, w) =>
    let v := Tbl.get {} (Tbl.get ({} : Wg) (s.core c).wgs w).views (16 + fld la 24 4)
    if fld la 20 4 != 0 || fld la 28 4 != 0 || (v.nfr + 1) * 4096 < fld la 0 20 + n then .error (EFlt.l ⟨cBounds, la⟩ 2 la)
    else match s.viewPos c w 1 (fld la 24 4) (fld la 0 20) false with
      | none => .error (EFlt.l ⟨cBounds, la⟩ 2 la)
      | some p => .ok p

/-- The checks of a row's addresses in their order (R369). -/
def State.rowAt (s : State) (a : Actor) (owner : Option Nat) (cla ala nc na : Nat) : Except EFlt (LPos × LPos) :=
  if cla % 4 != 0 then .error (EFlt.l ⟨cMisalign, 4⟩ 3 cla)
  else if ala % 8 != 0 then .error (EFlt.l ⟨cMisalign, 8⟩ 2 ala)
  else match s.localRun a 3 cla 4 nc with
    | .error f => .error f
    | .ok c =>
      let r := match owner with
        | none => s.localRun a 2 ala 1 na
        | some o => s.rowOwner a o ala na
      match r with
      | .error f => .error f
      | .ok p => .ok (c, p)

/-- The pass that a word describes, without rows; a listed pair is asked for before the W view (log entry 22). -/
def State.passOf (s : State) (a : Actor) (view sp word sel : Nat) (acc sat : Bool) : Except EFlt Pass :=
  let spn := if sp = 1 then 16 else if sp = 2 then 8 else 0
  let af := pwAf word
  let bf := pwBf word
  let v := Tbl.get {} (s.wgOf a).views (48 + view)
  let nk := nkOf spn
  if !pairOk af bf spn then .error { flt := engFlt 1 0 }
  else if !v.en || 256 < pwCb word + pwN word
      || (v.nfr + 1) * 4096 < ((pwKb word + nk - 1) * 256 + pwCb word + pwN word) * (colBytes bf spn + 1) then
    .error (EFlt.w view)
  else match s.viewPos (s.coreOf a) (s.ctx a).wslot 3 view 0 false with
    | none => .error (EFlt.w view)
    | some w => .ok { rows := [], word := word, nk := nk, spn := spn, sel := sel, acc := acc, sat := sat && intArr af, w := w
                      tokens := passTokens af bf }

/-- What an instruction forms: marks by poisoned operands, faults of lanes, passes, warnings. -/
structure Formed where
  marks : List (Nat × Payload) := []
  faults : List LFlt := []
  passes : List Pass := []
  warn : W32 := 0
  deriving DecidableEq, Repr

/-- Warnings of a pass word and a saturate flag (R296, R366). -/
def passWarn (word : Nat) (sat : Bool) : W32 := ignW (pwRsvd word || (sat && fpArr (pwAf word)))

/-- Adds a row to the pass with its key, or opens that pass (R368). -/
def addRow (ps : List Pass) (p : Pass) (r : MRow) : List Pass :=
  if ps.any (fun q => q.word == p.word) then ps.map (fun q => if q.word == p.word then { q with rows := q.rows ++ [r] } else q)
  else ps ++ [{ p with rows := [r] }]

/-- One quarter of an MMA.Q (R368, R369): each active lane is marked or gives a row. -/
def State.formQuarter (s : State) (a : Actor) (ra view sp sel : Nat) (acc sat : Bool) (f : Formed) (ls : List Nat) : Formed :=
  match ls with
  | [] => f
  | lead :: _ =>
    let c := s.ctx a
    let wordv := (c.ln lead).rd (ra + 2)
    let plan : Except (Except Payload EFlt) Pass := match wordv with
      | .bad p => .error (.error p)
      | .ok w => match s.passOf a view sp w.toNat sel acc sat with
        | .error e => .error (.ok e)
        | .ok p => .ok p
    let spn := if sp = 1 then 16 else if sp = 2 then 8 else 0
    let (nc, na) := match wordv with | .bad _ => (4, 1) | .ok w => (4 * pwN w.toNat, max 1 (aBytes w.toNat spn))
    let wn := match wordv with | .bad _ => 0 | .ok w => passWarn w.toNat sat
    ls.foldl (fun f l =>
      let x := c.ln l
      match firstBad [(x.rd ra).pl?, (x.rd (ra + 1)).pl?, (x.rd (ra + 3)).pl?] with
      | some p => { f with marks := f.marks ++ [(l, p)] }
      | none =>
        match s.rowAt a none ((x.rd ra).getD 0).toNat ((x.rd (ra + 1)).getD 0).toNat nc na with
        | .error e => { f with faults := f.faults ++ [{ lane := l, flt := e.flt, page := e.page }] }
        | .ok (cp, ap) => match plan with
          | .error (.error p) => { f with marks := f.marks ++ [(l, p)] }
          | .error (.ok e) => { f with faults := f.faults ++ [{ lane := l, flt := e.flt, page := e.page }] }
          | .ok p => { f with passes := addRow f.passes p ⟨l, cp, ap, ((x.rd (ra + 3)).getD 0).toNat⟩ })
      { f with warn := f.warn ||| wn }

/-- The passes of an MMA.Q of a split (R365, R368). -/
def State.formQ (s : State) (a : Actor) (mask ra view sp sel : Nat) (acc sat : Bool) : Formed :=
  (List.range 4).foldl (fun f q =>
    s.formQuarter a (alignReg 4 ra) view sp sel acc sat f ((lanesOf mask).filter (fun l => l / 8 == q))) {}

/-- The scales of the block form, one number of 32 words; the read of their table may meet an error (R371; 05 R155). -/
def State.blockScales (s : State) (a : Actor) (x : Nat) : State × Except EFlt Nat :=
  if bit x 63 then (s, .ok (ofBytes (List.replicate 128 0x7F)))
  else match s.localRun a 2 (x % 2 ^ 32) 1 128 with
    | .error e => (s, .error e)
    | .ok q => match s.ocGetN q 128 (s.owner a) with
      | (s1, _, f :: _) => (s1, .error { flt := f.flt, page := f.pos.page, cln := f.pos.cln })
      | (s1, n, []) => (s1, .ok n)

/-- The one pass of the block form over four uniform registers (R371): the warnings of its operands (R296, R366), and its rows and scales or
the first fault. -/
def State.formBlock (s : State) (a : Actor) (owner : Option Nat) (ra view sp sel : Nat) (acc sat : Bool) :
    State × W32 × Except (Except Payload EFlt) Pass :=
  let c := s.ctx a
  let x (i : Nat) : Nat := ((c.rs (ra + i)).getD 0).toNat
  let word := x 2 % 2 ^ 32
  let wn := passWarn word sat ||| ignW (!bit (x 3) 63 && fld (x 3) 32 31 != 0)
  match firstBad ((List.range 4).map (fun i => (c.rs (ra + i)).pl?)), s.passOf a view sp word sel acc sat with
  | some p, _ => (s, 0, .error (.error p))
  | none, .error e => (s, wn, .error (.ok e))
  | none, .ok p =>
    let na := aBytes word p.spn
    match s.blockScales a (x 3) with
    | (s1, .error e) => (s1, wn, .error (.ok e))
    | (s1, .ok sc) =>
      let row (rs : Except EFlt (List MRow)) (r : Nat) : Except EFlt (List MRow) := match rs with
        | .error e => .error e
        | .ok rs => match s.rowAt a owner ((x 0 + 1024 * r) % 2 ^ 32) ((x 1 + r * na) % 2 ^ 32) (4 * pwN word) na with
          | .error e => .error e
          | .ok (cp, ap) => .ok (rs ++ [⟨r, cp, ap, fld sc (32 * r) 32⟩])
      match (List.range 32).foldl row (.ok []) with
      | .error e => (s1, wn, .error (.ok e))
      | .ok rs => (s1, wn, .ok { p with rows := rs })

/-- Puts an operation into the core's order of issue (R370). -/
def State.issueMat (s : State) (a : Actor) (mask : Nat) (whole : Bool) (ps : List Pass) : State :=
  if ps.isEmpty then s
  else
    let cn := s.coreOf a
    let o : MatOp :=
      { act := s.marker a
        wslot := (s.ctx a).wslot
        mask := mask
        whole := whole
        owner := s.owner a
        pc := s.cur.pc
        word := s.cur.word
        passes := ps
        seqr := a.isSeq }
    s.setCore cn { s.core cn with mq := (s.core cn).mq ++ [o] }

/-- The tokens of a list of passes (07 R230). -/
def passSum (ps : List Pass) : Nat := ps.foldl (fun n p => n + p.tokens) 0

/-- The grant of an instruction that issues is spent on its passes; tokens that it no longer needs go back (log entry 58). -/
def State.spend (s : State) (ps : List Pass) : State :=
  let c := s.me
  let die := s.dieOf s.cur.act
  let d := s.die die
  let s1 := if c.tok == .granted then s.setDie die { d with used := d.used - (c.tokN - passSum ps) } else s
  s1.upd (fun c => { c with tok := .none, tokN := 0 })

/-- Marks the lanes on whose behalf a block form runs with a fault of an operand (R371, R375). -/
def State.markBlock (s : State) (e : Except Payload EFlt) : State :=
  match e with
  | .error p => s.sinkAll p
  | .ok f =>
    let l := (lowest 32 s.faultMask).getD 0
    let (s1, t) := s.alloc s.cur.act s.cur.pc [{ lane := l, flt := f.flt, va := f.va, page := f.page, cln := f.cln }]
    s1.sinkAll (Tbl.get (mkPl f.flt.cause 1023) t l)

/-- Warnings of the fields of a matrix instruction (R296, R363). -/
def mmaWarn (sp z : Nat) : W32 := ignW (z != 0) ||| flagIf (sp == 3) wModRsvd

/-- MMA.Q: the passes of a split's quarters, or the block form of a matrix sequencer (R365 to R371, R375). -/
def execMmaQ (a view se acc sat sp z _la : Nat) (s : State) : Out :=
  match s.cur.act with
  | .mseq c =>
    if 16 ≤ alignReg 4 a then .next (s.unassigned s.cur.word)
    else
      let s1 := s.warns (mmaWarn sp z ||| alignWarn 4 a)
      match s1.formBlock (.mseq c) none (alignReg 4 a) view sp se (acc != 0) (sat != 0) with
      | (s2, w, .error e) => .next ((((s2.warns w).spend []).markBlock e).retire 0)
      | (s2, w, .ok p) => .next ((((s2.warns w).spend [p]).issueMat (.mseq c) s.faultMask true [p]).retire 0)
  | .cseq _ => .next (s.unassigned s.cur.word)
  | act => s.uni Legal.home [] (fun s =>
    let f := s.formQ act s.mask a view sp se (acc != 0) (sat != 0)
    let s1 := (s.warns (mmaWarn sp z ||| alignWarn 4 a ||| f.warn)).spend f.passes
    let s2 := s1.sinks act s.cur.pc f.marks
    let (s3, t) := if f.faults.isEmpty then (s2, []) else s2.alloc act s.cur.pc f.faults
    let s4 := s3.sinks act s.cur.pc (f.faults.map (fun e => (e.lane, Tbl.get 0 t e.lane)))
    (s4.issueMat act s.mask false f.passes).retire s.mask)

/-! The collective pass of a pack (R372). -/

/-- Blocks across the columns of a pack of n members. -/
def packCols (n : Nat) : Nat := match n with | 1 => 1 | 2 => 2 | 4 => 2 | 8 => 4 | _ => 4

/-- The member from whose A-buffer a member reads. -/
def rowOwnerOf (n m : Nat) : Nat := m / packCols n * packCols n

/-- The kind under which a group's executions of MMA.PK are counted. -/
def pkKind : Nat := 3

/-- The pass that a group's MMA.PK forms. -/
def State.formPk (s : State) (a : Actor) (ra view sp sel : Nat) (acc sat : Bool) :
    State × W32 × Except (Except Payload EFlt) Pass :=
  s.formBlock a (some (rowOwnerOf (s.packSize a) (s.wgOf a).member)) ra view sp sel acc sat

/-- The slot of the group's split that has reached an instruction, the one that asked for its tokens if it still has. -/
def Ctx.slotAt (c : Ctx) (pc : W64) : Option Nat :=
  (c.tokSlot :: List.range 4).find? (fun k => (c.split k).mask != 0 && (c.split k).pc == pc && (c.split k).wait == .none)

/-- The part of one member in a collective pass: it forms its pass or is marked (R371, R372). -/
def State.pkOne (s0 : State) (e : PkArr) : State :=
  match e.ins, e.cur.act, (s0.ctx e.cur.act).slotAt e.cur.pc with
  | .mmaPk y a view se acc sat sp z _, .split c g _, some j =>
    let s := { s0 with cur := { e.cur with act := .split c g j } }
    let act := s.cur.act
    let s1 := ((s.warns (mmaWarn sp z ||| ignW (y != 0) ||| alignWarn 4 a)).upd (fun c => { c with counts := Tbl.put c.counts pkKind e.k })).updWg
      (s.coreOf act) s.me.wslot (fun w => { w with pkN := max w.pkN e.k, pk := w.pk.filter (fun x => x.k != e.k) })
    match s1.formPk act (alignReg 4 a) view sp se (acc != 0) (sat != 0) with
    | (s2, wn, .error f) => (((s2.warns wn).spend []).markBlock f).retire s.mask
    | (s2, wn, .ok p) => (((s2.warns wn).spend [p]).issueMat act s.mask true [p]).retire s.mask
  | _, _, _ => s0

/-- MMA.PK: the first group of its workgroup to reach the k-th one arrives for the workgroup; once granted, the parts of all members of
the pack issue at once. A later group's k-th does nothing (R372). -/
def execMmaPk (y a view se acc sat sp z la : Nat) (s : State) : Out :=
  s.uni Legal.home [] (fun s =>
    let act := s.cur.act
    let k := Tbl.get 0 s.me.counts pkKind + 1
    let w := s.wgOf act
    let one : PkArr := ⟨k, 0, .mmaPk y a view se acc sat sp z la, s.cur⟩
    match w.pk.find? (fun e => e.k == k && e.cur.act.base == act.base) with
    | none =>
      if k ≤ w.pkN then
        ((s.warns (mmaWarn sp z ||| ignW (y != 0) ||| alignWarn 4 a)).upd (fun c => { c with counts := Tbl.put c.counts pkKind k })).retire s.mask
      else s.pkOne one
    | some e =>
      let es := (s.packWgs w.grid w.first (s.dieOf act)).flatMap (fun m => m.2.2.pk.filter (fun x => x.k == k))
      { ((es.filter (fun x => x.cur.act.base != act.base && (s.ctx x.cur.act).tok == .granted)).foldl State.pkOne (s.pkOne { e with cur := s.cur })) with
        cur := s.cur })

/-! MZERO (R373). -/

/-- The elements an MZERO clears: nothing, a fault, or its pass. -/
def State.formZero (s : State) (a : Actor) (ra rb : Nat) : Except EFlt (Option Pass) :=
  let c := s.ctx a
  let la := ((c.rs ra).getD 0).toNat % 2 ^ 32
  let n := ((c.rs rb).getD 0).toNat
  if n = 0 then .ok none
  else if la % 4 != 0 then .error (EFlt.l ⟨cMisalign, 4⟩ 3 la)
  else match s.localRun a 3 la 4 (4 * n) with
    | .error e => .error e
    | .ok p => .ok (some { rows := [⟨0, p, p, 0⟩], w := p, tokens := 1, zero := some n })

/-- MZERO of a group or of a matrix sequencer. -/
def execMzero (y a b z _la : Nat) (s : State) : Out :=
  let go (s : State) : State :=
    let s1 := s.warns (ignW (y != 0 || z != 0))
    s1.sinkOps [(s.me.rs a).pl?, (s.me.rs b).pl?] (fun s1 =>
      match s.formZero s.cur.act a b with
      | .ok none => (s1.spend []).retire s.mask
      | .ok (some p) => ((s1.spend [p]).issueMat s.cur.act s.faultMask true [p]).retire s.mask
      | .error e => ((s1.spend []).markBlock (.ok e)).retire s.mask)
  match s.cur.act with
  | .mseq _ => if seqRegs [a, b] then .next (go s) else .next (s.unassigned s.cur.word)
  | .cseq _ => .next (s.unassigned s.cur.word)
  | _ => s.uni Legal.home [] go

/-! Arithmetic (R264 to R268). -/

/-- An operand of the floating-point path with its exponent ex(). -/
structure El where
  v : FV
  ex : Int
  deriving DecidableEq, Repr

/-- A code of a floating-point or ternary format as an operand. -/
def elOf (f c : Nat) : El :=
  match fmtF f with
  | some F => match F.dec c with
    | .fin n m e => ⟨.fin n m e, e + F.fb⟩
    | v => ⟨v, 0⟩
  | none => let t := t2val c; ⟨.fin (t < 0) t.natAbs 0, 0⟩

/-- A product of a block: not a number, infinite, zero, or exact with its exponent. -/
inductive Prod2 where
  | nan
  | inf (neg : Bool)
  | zero
  | num (neg : Bool) (m : Nat) (e E : Int)
  deriving DecidableEq, Repr

/-- One product under the block's scale exponent. -/
def prodOf (x y : El) (sc : Int) : Prod2 :=
  match x.v, y.v with
  | .nan _ _, _ => .nan
  | _, .nan _ _ => .nan
  | .inf p, .inf q => .inf (p != q)
  | .inf p, .fin q m _ => if m = 0 then .nan else .inf (p != q)
  | .fin p m _, .inf q => if m = 0 then .nan else .inf (p != q)
  | .fin p m e, .fin q n f => if m = 0 || n = 0 then .zero else .num (p != q) (m * n) (e + f + sc) (x.ex + y.ex + sc)

/-- The largest exponent of a block's products. -/
def emaxOf (ps : List Prod2) : Option Int :=
  ps.foldl (fun a p => match p, a with
    | .num _ _ _ E, none => some E
    | .num _ _ _ E, some b => some (max b E)
    | _, a => a) none

/-- m · 2^e truncated to a multiple of 2^q, in units of 2^q. -/
def truncAt (m : Nat) (e q : Int) : Nat := if q ≤ e then m * 2 ^ (e - q).toNat else m / 2 ^ (q - e).toNat

/-- The sum of one k-block as an FP32 code (R264). -/
def blockSum (xs ys : List El) (sa sb : Nat) : Nat :=
  let sc : Int := (sa : Int) + sb - 254
  let ps := (xs.zip ys).map (fun p => prodOf p.1 p.2 sc)
  let pinf := ps.contains (.inf false)
  let ninf := ps.contains (.inf true)
  if sa = 255 || sb = 255 || ps.contains .nan || (pinf && ninf) then 0x7FC00000
  else if pinf then 0x7F800000
  else if ninf then 0xFF800000
  else match emaxOf ps with
    | none => 0
    | some E =>
      let q := E - 24
      let S : Int := ps.foldl (fun a p => match p with
        | .num n m e _ => if n then a - truncAt m e q else a + truncAt m e q
        | _ => a) 0
      if S = 0 then 0 else (Fmt.f32.round 0 (S < 0) S.natAbs q).code

/-- C + block sum, an exact zero being +0 (R265). -/
def accF (c b : Nat) : Nat :=
  let r := (Fmt.f32.add 0 (Fmt.f32.dec c) (Fmt.f32.dec b)).code
  if r % 2 ^ 31 = 0 then 0 else r

/-- The integer value of a code of an integer or ternary format. -/
def intVal (f c : Nat) : Int := if f = 1 then toS 8 c else if f = 2 then c else t2val c

/-- C + the sum of the block's products, wrapped or saturated (R268). -/
def accI (sat : Bool) (c : Nat) (xs ys : List Int) : Nat :=
  let t : Int := toS 32 c + (xs.zip ys).foldl (fun a p => a + p.1 * p.2) 0
  if sat then lowBits 32 (max (-(2 : Int) ^ 31) (min ((2 : Int) ^ 31 - 1) t)) else lowBits 32 t

/-- A row's A data: codes by k-block with the scale of each, or lost. -/
abbrev ARow := Option (List (List Nat × Nat))

/-- A column's B data: codes by k-block with the scale of each, or lost. -/
abbrev BCol := Option (List (List Nat × Nat))

/-- The new value of a C element from its old one (R264, R266, R268). -/
def cellOf (p : Pass) (c : Nat) (a b : List (List Nat × Nat)) : Nat :=
  let af := pwAf p.word
  let bf := pwBf p.word
  (a.zip b).foldl (fun c k =>
    if intArr af then accI p.sat c (k.1.1.map (intVal af)) (k.2.1.map (intVal bf))
    else accF c (blockSum (k.1.1.map (elOf af)) (k.2.1.map (elOf bf)) k.1.2 k.2.2)) c

/-! The completion of a pass (R159, R269, R370). -/

/-- What a completing pass has lost: cause and detail, the key of the view frame, whether the view is CLEAN, the lanes it marks. -/
structure Lost where
  flt : Flt
  page : Nat
  cln : Bool
  lanes : Nat
  deriving DecidableEq, Repr

/-- Adds a loss to the records of the pass, one for each cause and view frame. -/
def addLost (ls : List Lost) (x : Lost) : List Lost :=
  if ls.any (fun y => y.flt.cause == x.flt.cause && y.page == x.page) then
    ls.map (fun y => if y.flt.cause == x.flt.cause && y.page == x.page then { y with lanes := y.lanes ||| x.lanes } else y)
  else ls ++ [x]

/-- The lanes that a lost output of a row marks: its quarter, or the whole operation. -/
def MatOp.lanesOf (o : MatOp) (l : Nat) : Nat := if o.whole then o.mask else o.mask &&& ones (l / 8 * 8) 8

/-- The sectors whose error a pass has detected, each with its syndrome: to the pass, which reads a sector once, they stay so (05 R155). -/
abbrev Detected := Tbl Nat

/-- What a pass reads of one sector, or of a part of it: each byte gives its old value or its new one where an engine has written the sector
since (R370; log entry 59), and an error of the sector counts where a byte read has met it. -/
def State.passSec (s : State) (o : MatOp) (det : Detected) (p : LPos) (n : Nat) : State × Nat × List OcErr × Detected :=
  let mix := o.old.filter (fun e => e.1 == p.core && e.2.1 == p.sp && p.byte ≤ e.2.2.1 && e.2.2.1 < p.byte + n)
  let pick (b : Nat) : Option ((Nat × Nat) ⊕ Byte) :=
    let vs := (mix.filter (fun e => e.2.2.1 == b)).map (fun e => e.2.2.2)
    vs[Config.passByte s.mem.ctr b % (vs.length + 1)]?
  let picks := (List.range n).map (fun i => pick (p.byte + i))
  let key := (p.core * 4 + p.sp) * 2 ^ 20 + p.byte / 32
  let (m, y, e0) := if picks.all Option.isSome then (s.mem, 0, none) else s.mem.ocRead p.core p.sp p.byte n o.owner
  let e1 := match e0, Tbl.find det key with
    | some (_, _), some syn => some (cEccUe, syn)
    | e, _ => e
  let errs := e1.toList ++ picks.filterMap (fun k => match k with | some (.inl e) => some e | _ => none)
  let bs := (picks.zip (toBytes n y)).map (fun k => match k.1 with | some (.inr b) => b | some (.inl _) => 0 | none => k.2)
  ({ s with mem := m }, ofBytes bs, errs.map (fun e => ⟨p, n, ⟨e.1, p.detail e.2⟩⟩), match e1 with
    | some (c, syn) => if c == cEccUe then Tbl.put det key syn else det
    | none => det)

/-- What a pass reads of an operand: the number and the errors it met. -/
def State.passGet (s : State) (o : MatOp) (det : Detected) (p : LPos) (n : Nat) : State × Nat × List OcErr × Detected :=
  (sectorsOf p.byte n).foldl (fun (acc : State × Nat × List OcErr × Detected) e =>
    let (s1, y, es, d) := acc.1.passSec o acc.2.2.2 (p.add (e.1 - p.byte)) e.2
    (s1, acc.2.1 + y * 2 ^ (8 * (e.1 - p.byte)), acc.2.2.1 ++ es, d)) (s, 0, [], det)

/-- Adds the errors of a read that lanes lose by. -/
def addLosses (ls : List Lost) (es : List OcErr) (lanes : Nat) : List Lost :=
  es.foldl (fun ls e => addLost ls ⟨e.flt, e.pos.page, e.pos.cln, lanes⟩) ls

/-- Reads the A rows of a pass. -/
def State.readA (s : State) (o : MatOp) (p : Pass) : State × List (MRow × ARow) × List Lost × Detected :=
  let w := fmtW (pwAf p.word)
  p.rows.foldl (fun (acc : State × List (MRow × ARow) × List Lost × Detected) r =>
    let (s1, x, es, d) := acc.1.passGet o acc.2.2.2 r.a (aBytes p.word p.spn)
    let blks := (List.range p.nk).map (fun j =>
      ((List.range 32).map (fun e => fld x (w * (32 * j + e)) w), fld r.scale (8 * ((p.sel + j) % 4)) 8))
    (s1, acc.2.1 ++ [(r, if es.isEmpty then some blks else none)], addLosses acc.2.2.1 es (o.lanesOf r.lane), d)) (s, [], [], [])

/-- The codes of one slot of B, with whether a ternary code is reserved and whether a sparse slot was dropped (R260, R367). -/
def slotCodes (bf spn x : Nat) : List Nat × W32 :=
  let w := fmtW bf
  if spn = 0 then
    let cs := (List.range 32).map (fun e => fld x (w * e) w)
    (cs, flagIf (bf == 19 && cs.contains 2) wTernRsvd)
  else
    let cs := (List.range 32).map (fun e => match (sparseSlot bf spn x e).1 with | some i => fld x (i * w) w | none => 0)
    (cs, flagIf (sparseSlot bf spn x 0).2 wSparseDup ||| flagIf (bf == 19 && cs.contains 2) wTernRsvd)

/-- Reads the columns of B of a pass. -/
def State.readB (s : State) (o : MatOp) (det : Detected) (p : Pass) : State × List BCol × List Lost × W32 :=
  let bf := pwBf p.word
  let cb := colBytes bf p.spn
  let all := p.rows.foldl (fun m r => m ||| o.lanesOf r.lane) 0
  let r := (List.range (pwN p.word)).foldl (fun (acc : State × List BCol × List Lost × W32 × Detected) c =>
    let col := (List.range p.nk).foldl (fun (a : State × Option (List (List Nat × Nat)) × List Lost × W32 × Detected) j =>
      let (s1, x, es, d) := a.1.passGet o a.2.2.2.2 (p.w.add (((pwKb p.word + j) * 256 + pwCb p.word + c) * (cb + 1))) (cb + 1)
      if es.isEmpty then
        let sc := slotCodes bf p.spn (x % 2 ^ (8 * cb))
        (s1, a.2.1.map (fun l => l ++ [(sc.1, x / 2 ^ (8 * cb))]), a.2.2.1, a.2.2.2.1 ||| sc.2, d)
      else (s1, none, addLosses a.2.2.1 es all, a.2.2.2.1, d)) (acc.1, some [], acc.2.2.1, acc.2.2.2)
    (col.1, acc.2.1 ++ [col.2.1], col.2.2)) (s, [], [], 0, det)
  (r.1, r.2.1, r.2.2.1, r.2.2.2.1)

/-- Writes one C element of a row: `seen` says that an earlier row of the pass has written it (R368). Only an element that is accumulated
into is read; the write of one without its neighbours merges into the sector (05 R154). -/
def State.putCell (s : State) (o : MatOp) (p : Pass) (r : MRow) (c : Nat) (a : ARow) (b : BCol) (seen : Bool) : State :=
  let byte := r.c.byte + 4 * c
  let (m, old, err) := if p.acc || seen then s.mem.ocRead r.c.core 2 byte 4 o.owner else (s.mem, 0, none)
  let s1 := { s with mem := m }
  match a, b with
  | some x, some y =>
    if err.isSome then s1
    else s1.ocPut r.c.core r.c.wslot 2 byte 4 (cellOf p old x y) o.owner false false
  | _, _ => s1.ocPut r.c.core r.c.wslot 2 byte 4 old o.owner true false

/-- Writes the outputs of a pass in row order. -/
def State.putRows (s : State) (o : MatOp) (p : Pass) (rows : List (MRow × ARow)) (cols : List BCol) : State :=
  (rows.foldl (fun (acc : State × List Nat) ra =>
    let s1 := (cols.zip (List.range cols.length)).foldl (fun s cb =>
      s.putCell o p ra.1 cb.2 ra.2 cb.1 (acc.2.any (fun b => b ≤ ra.1.c.byte + 4 * cb.2 && ra.1.c.byte + 4 * cb.2 < b + 4 * pwN p.word))) acc.1
    (s1, acc.2 ++ [ra.1.c.byte])) (s, [])).1

/-- Marks lanes of the issuer, and the program when a matrix sequencer issued the pass (R375). -/
def State.markMat (s : State) (o : MatOp) (core : Nat) (ls : List Lost) : State :=
  if ls.isEmpty then s
  else
    let low (x : Lost) : Nat := (lowest 32 x.lanes).getD 0
    let (s1, t) := s.alloc o.act o.pc (ls.map (fun x => { lane := low x, flt := x.flt, page := x.page, cln := x.cln }))
    let s2 := s1.sinks o.act o.pc ((ls.zip t).flatMap (fun e => (Machine.lanesOf e.1.lanes).map (fun l => (l, e.2.2))))
    if o.seqr then s2.updWg core o.wslot (fun w => { w with mmark := true }) else s2

/-- Clears n C elements from a row's first, and their poison: an error that the first writes meet in a sector poisons the others there only
(05 R154). -/
def State.zeroRow (s : State) (o : MatOp) (r : MRow) (n : Nat) : State :=
  let one (s : State) (e : Nat) : State := s.ocPut r.c.core r.c.wslot 2 (r.c.byte + 4 * e) 4 0 o.owner false false
  (List.range n).foldl one ((List.range n).foldl one s)

/-- The head pass of a core's matrix operations completes: its outputs are written, its losses recorded, its tokens returned
(R370). What it writes for a workgroup that has exited meanwhile is dropped with the rest (07 R243). -/
def State.passDone (s : State) (core : Nat) (o : MatOp) (p : Pass) : State :=
  let s1 := match p.zero with
    | some n => match p.rows with
      | r :: _ => s.zeroRow o r n
      | [] => s
    | none =>
      let (sa, rows, la, det) := s.readA o p
      let (sb, cols, lb, w) := sa.readB o det p
      let sc := sb.putRows o p rows cols
      (sc.warnOf o.act w).markMat o core (lb.foldl addLost la)
  let d := s1.die (core / 64)
  let s2 := s1.setDie (core / 64) { d with used := d.used - p.tokens }
  if (Tbl.get ({} : Wg) (s2.core core).wgs o.wslot).done then s2.dropTyped core o.wslot else s2

/-- MATRIX_PASS_COMPLETE: the oldest pass of the core. -/
def execMatrixPassComplete (core : Nat) (s : State) : Out :=
  match (s.core core).mq with
  | [] => .next s
  | o :: r =>
    match o.passes with
    | [] => .next (s.setCore core { s.core core with mq := r })
    | p :: ps =>
      let s1 := s.setCore core { s.core core with mq := if ps.isEmpty then r else { o with passes := ps } :: r }
      .next (s1.passDone core o p)

/-! Power tokens (07 R230, R231). -/

/-- The size that a written POOL acts as (R231). -/
def poolOf (n : Nat) : Nat := max 64 n

/-- Tokens and requests: the head request is granted when the free tokens cover it; the other members of an MMA.PK with it
(R372). -/
def State.grant (s : State) (die : Nat) : State :=
  let d := s.die die
  match d.ptq with
  | [] => s
  | (a, n) :: r =>
    if d.used + n ≤ poolOf d.pool then
      let s1 := s.setDie die { d with ptq := r, used := d.used + n }
      let w := s.wgOf a
      let ok (c : Ctx) : Ctx := if c.tok == .asked then { c with tok := .granted } else c
      match w.pk.find? (fun e => e.cur.act.base == a.base) with
      | some e =>
        (s1.packWgs w.grid w.first die).foldl (fun s m => (m.2.2.pk.filter (fun f => f.k == e.k)).foldl (fun s f => s.updCtx f.cur.act ok) s) s1
      | none => s1.updCtx a ok
    else s

def execPowerTokenGrant (die : Nat) (s : State) : Out := .next (s.grant die)

/-- Enters a request at the end of the die's queue of 64; with the queue full it is not entered (R230). -/
def State.askTokens (s : State) (a : Actor) (n : Nat) : State :=
  let d := s.die (s.dieOf a)
  if 64 ≤ d.ptq.length then s
  else (s.setDie (s.dieOf a) { d with ptq := d.ptq ++ [(a, n)] }).updCtx a (fun c => { c with tok := .asked, tokN := n, tokSlot := a.slot })

end Sys2Proof.Machine
end

