-- ==== Sys2Proof/Machine/Gx.lean ====
section
/-! DEFINITION. Copies, peer copies, dispatch, castling, engine programs and exchanges (12 R374 to R393; 03 R104, R106, R107;
07 R232, R240): the instructions, and the events by which they complete. -/

namespace Sys2Proof.Machine

/-- A peer handle of an ASID, resolved (13 R411). -/
def State.peerOf (s : State) (asid h : Nat) : Peer := s.mem.peerOf asid h

/-- The poison of the 32-byte sectors of a payload from that of its bytes (05 R156). -/
def sectorPoison (addr n poi : Nat) : Nat :=
  maskOf ((List.range ((addr % 32 + n + 31) / 32)).filter (fun i => fld (poi * 2 ^ (addr % 32)) (32 * i) 32 != 0))

/-- The poisoned bytes of n bytes at an address whose poison is given by sector. -/
def bytePoison (addr n poi : Nat) : Nat := maskOf ((List.range n).filter (fun b => bit poi ((addr % 32 + b) / 32)))

/-- A message to a peer: its number, its ASID and address there, the bytes with the poison of their sectors (05 R156). `op` is 0 for
a write and 1 for an atomic add of the number to what is there (03 R107). -/
def State.tell (s : State) (fab rasid addr data size poi : Nat) (op : Nat := 0) : State :=
  s.send [{ kind := 256 + fab, addr := rasid * 2 ^ 64 + addr, data := data, size := size, mask := 2 ^ size - 1, aux := op, poi := poi }]

/-! Collective operations (R377). -/

/-- Legality of a copy, peer copy or dispatch: groups and the copy sequencer; an ejected lane is recalled. -/
def Legal.copy : Legal := { ctl := false, thread := false }

/-- Whether the copy queue of a core has no shared entry free (07 R240). -/
def State.sharedFull (s : State) (core : Nat) : Bool :=
  12 ≤ ((s.core core).wgs.foldl (fun n w => n + (w.2.ops.filter (fun o => !o.reserved)).length) 0)

/-- An arrival at the executing context's next episode of a kind; a poisoned operand is a sink of the group, which arrives all the
same (R331, R377). -/
def State.arriveOp (s : State) (ins : Instr) (kind d la : Nat) (ops : List (Option Payload)) (a b b1 : W64) : State :=
  let act := s.cur.act
  let seqr := act.isSeq
  let s1 := match firstBad ops with | some p => s.sinkAll p | none => s
  let (c, hid) := s1.me.hold [d % 64] true (if seqr then 0 else s.mask) la
  let k := Tbl.get 0 c.counts kind + 1
  let s2 := s1.setCtx act (if seqr then c else { c with counts := Tbl.put c.counts kind k })
  let v : Arrival :=
    { act := s.marker act
      a := match firstBad ops with | some p => .bad p | none => .ok a
      b := b
      b1 := b1
      mask := s.faultMask
      hid := hid
      sup := s.sp.sup }
  let cn := s.coreOf act
  let full := s.sharedFull cn
  let same (o : CopyOp) : Bool := !seqr && !o.seqr && o.kind == kind && o.epi == k
  (s2.updWg cn s.me.wslot (fun w =>
    { w with ops := if w.ops.any same then w.ops.map (fun o => if same o then { o with arr := o.arr ++ [v] } else o)
      else w.ops ++ [{ ins := ins, kind := kind, epi := k, pc := s.cur.pc, word := s.cur.word, arr := [v], reserved := full, seqr := seqr }] })).retire s.mask

/-- A collective instruction where it is legal; the matrix sequencer has none (R375). -/
def State.copyInstr (s : State) (regs : List Nat) (k : State → State) : Out :=
  match s.cur.act with
  | .mseq _ => .next (s.unassigned s.cur.word)
  | _ => s.uni Legal.copy regs k

def execCpy (y d a z la : Nat) (s : State) : Out :=
  s.copyInstr [d, a] (fun s =>
    (s.warns (ignW (y != 0 || z != 0))).arriveOp (.cpy y d a z la) 0 d la [(s.me.rs a).pl?] ((s.me.rs a).getD 0) 0 0)

def execCpyr (y d a b la : Nat) (s : State) : Out :=
  let b0 := alignReg 2 b
  s.copyInstr [d, a, b0, b0 + 1] (fun s =>
    (s.warns (ignW (y != 0) ||| alignWarn 2 b)).arriveOp (.cpyr y d a b la) 1 d la [(s.me.rs a).pl?, (s.me.rs b0).pl?, (s.me.rs (b0 + 1)).pl?]
      ((s.me.rs a).getD 0) ((s.me.rs b0).getD 0) ((s.me.rs (b0 + 1)).getD 0))

/-- A DISP of any mode. -/
def State.disp (s : State) (ins : Instr) (y d a z la : Nat) : Out :=
  s.copyInstr [d, a] (fun s =>
    (s.warns (ignW (y != 0 || z != 0))).arriveOp ins 2 d la [(s.me.rs a).pl?] ((s.me.rs a).getD 0) 0 0)

def execDispSend (y d a z mode la : Nat) (s : State) : Out := s.disp (.dispSend y d a z mode la) y d a z la
def execDispOpen (y d a z mode la : Nat) (s : State) : Out := s.disp (.dispOpen y d a z mode la) y d a z la
def execDispClose (y d a z mode la : Nat) (s : State) : Out := s.disp (.dispClose y d a z mode la) y d a z la

/-! Completion of an episode. -/

/-- Operation n of a workgroup. -/
def State.opAt (s : State) (core wg n : Nat) : Option CopyOp := (Tbl.get ({} : Wg) (s.core core).wgs wg).ops[n]?

/-- An episode is whole when every group that has not exited has arrived. -/
def State.opWhole (s : State) (core wg : Nat) (o : CopyOp) : Bool :=
  o.seqr || (s.groupsOf core (Tbl.get {} (s.core core).wgs wg)).all (fun g => o.arr.any (fun v => match v.act with
    | .split _ k _ => k == g.1
    | _ => false))

/-- The arrival whose descriptor counts: of the lowest `%gid` among those with clean operands. -/
def State.opLead (s : State) (o : CopyOp) : Option Arrival :=
  o.arr.foldl (fun (b : Option Arrival) v => match v.a, b with
    | .bad _, b => b
    | .ok _, none => some v
    | .ok _, some x => if (s.ctx v.act).gid < (s.ctx x.act).gid then some v else some x) none

/-- Changes operation n of a workgroup. -/
def State.setOpAt (s : State) (core wg n : Nat) (o : CopyOp) : State :=
  s.updWg core wg (fun w => { w with ops := listUpd w.ops n (fun _ => o) })

/-- Ends an operation: its entry is free, and every arrival receives the status; a group that named another clean address
receives ENGINE_FAULT (R377). -/
def State.endOp (s : State) (core wg n : Nat) (o : CopyOp) (lead : Option Arrival) (st : Except EFlt W64) : State :=
  let s0 := match lead with | some l => s.noteShc l.act | none => s
  let s1 := s0.updWg core wg (fun w => { w with ops := listDel w.ops n })
  let eng := if o.kind = 2 then 3 else 2
  o.arr.foldl (fun s v => s.giveStatus core wg o v (match v.a, lead with
    | .ok x, some l => if Val.ok x == l.a then st else .error { flt := engFlt eng 0 }
    | _, _ => st)) s1

/-- The engine that acts for an arrival. -/
def State.opEng (s : State) (v : Arrival) : Eng := s.engOf v.act v.sup

/-- The local address that an arrival names. -/
def Arrival.la (v : Arrival) : Nat := (v.a.getD 0).toNat % 2 ^ 32

/-- COPY_COMPLETE: a CPY reads its descriptor, moves its elements and writes its status (R377 to R383). -/
def execCopyComplete (core wg n : Nat) (s : State) : Out :=
  match s.opAt core wg n with
  | none => .next s
  | some o =>
    if o.kind != 0 || !s.opWhole core wg o then .next s
    else match s.opLead o with
    | none => .next (s.endOp core wg n o none (.ok 0))
    | some v =>
      let e := s.opEng v
      match s.localDesc e v.la 160 with
      | (s1, .error f) => .next (s1.endOp core wg n o (some v) (.error f))
      | (s1, .ok x) =>
        match s1.copyGo e x false with
        | (s2, _, some f) => .next (s2.endOp core wg n o (some v) (.error f))
        | (s2, k, none) => .next (s2.endOp core wg n o (some v) (.ok (statusWord 0 k 0 0)))

/-! Peer copies (R384; 03 R107). -/

/-- Moves the elements of a peer copy from index i on. -/
def State.peerRun (e : Eng) (d : CDesc) (p : Peer) : Nat → Nat → State → State × Nat × Option EFlt
  | 0, i, s => (s, i, none)
  | n + 1, i, s =>
    let o := d.offs i
    match s.getElem e d (((d.src : Int) + o.1) % 2 ^ 64).toNat with
    | (s1, .error f) => (s1, i, some f)
    | (s1, .ok (x, poi)) =>
      let t := (((d.dst : Int) + o.2) % 2 ^ 64).toNat
      match p with
      | .dev fab rasid =>
        if t % 2 ^ d.esz != 0 then (s1, i, some (EFlt.g ⟨cMisalign, 2 ^ d.esz⟩ t))
        else State.peerRun e d p n (i + 1) (s1.tell fab rasid t x (2 ^ d.esz) (sectorPoison t (2 ^ d.esz) poi))
      | _ => match s1.destPos e d .own t (2 ^ d.esz) with
        | .error f => (s1, i, some f)
        | .ok dt => match s1.putElem e d false dt (2 ^ d.esz) x poi with
          | (s2, some f) => (s2, i, some f)
          | (s2, none) => State.peerRun e d p n (i + 1) s2

/-- The barrier word is incremented after the data (R107, R384). -/
def State.peerBarrier (s : State) (e : Eng) (p : Peer) (va : Nat) : State × Option EFlt :=
  if va = 0 then (s, none)
  else if va % 8 != 0 then (s, some (EFlt.g ⟨cMisalign, 8⟩ va))
  else match p with
    | .dev fab rasid => (s.tell fab rasid va 1 8 0 1, none)
    | _ => match s.mem.updG e.who e.asid va 8 (fun x => (x + 1) % 2 ^ 64) with
      | (m, .ok _) => ({ s with mem := m }, none)
      | (m, .error f) => ({ s with mem := m }, some (EFlt.g f va))

/-- A peer copy of an arrival: elements and barrier, or the fault of its status. `answer` is what a peer device answers to the data; a
fault or its silence leaves the barrier as it is. -/
def State.peerCopy (s : State) (v : Arrival) (answer : Nat → Option Flt) : State × Except EFlt W64 :=
  let e := s.opEng v
  match s.localDesc e v.la 160 with
  | (s1, .error f) => (s1, .error f)
  | (s1, .ok x) =>
    match copyErr x true, s1.peerOf e.asid (v.b.toNat % 65536) with
    | some off, _ => (s1, .error { flt := engFlt 2 off })
    | none, .invalid => (s1, .error { flt := engFlt 2 0 })
    | none, p =>
      let d := CDesc.parse x
      match State.peerRun e d p d.total 0 (s1.warnOf e.act d.scopeWarn) with
      | (s2, _, some f) => (s2, .error f)
      | (s2, k, none) => match (match p with | .dev fab _ => answer fab | _ => none) with
        | some f => (s2, .error { flt := f })
        | none => match s2.peerBarrier e p v.b1.toNat with
          | (s3, some f) => (s3, .error f)
          | (s3, none) => (s3, .ok (statusWord 1 k 0 0))

/-- Ends a peer copy under the peer's answer. -/
def State.endPeer (s : State) (core wg n : Nat) (o : CopyOp) (answer : Nat → Option Flt) : State :=
  match s.opLead o with
  | none => s.endOp core wg n o none (.ok 0)
  | some v => let (s1, st) := s.peerCopy v answer; s1.endOp core wg n o (some v) st

/-- CPYR_ACK: the peer has taken data and barrier increment (0), or answers with a fault (1). -/
def execCpyrAck (core wg n fault : Nat) (s : State) : Out :=
  match s.opAt core wg n with
  | none => .next s
  | some o =>
    if o.kind != 1 || !s.opWhole core wg o then .next s
    else .next (s.endPeer core wg n o (fun fab => if fault = 0 then none else some (remoteFlt false fab s.uaPort)))

/-! Dispatch (R385 to R389). -/

/-- The byte offset of the header field that is an error (R385). -/
def dispErr (x : Nat) : Option Nat :=
  if fld x 112 16 < 1 || 64 < fld x 112 16 then some 14
  else if fld x 96 16 % 32 != 0 || 4064 < fld x 96 16 then some 12
  else if 1 < fld x 93 3 then some 11
  else if fld x 0 93 != 0 then some 0
  else none

/-- The send list of destination i. -/
def State.dispList (s : State) (e : Eng) (ta i ls : Nat) : Nat → Nat → State × Except EFlt (List (Nat × Nat × Nat × Nat))
  | 0, _ => (s, .ok [])
  | n + 1, j => match s.localNum e ((ls + 8 * j) % 2 ^ 32) 8 8 with
    | (s1, .error f) => (s1, .error f)
    | (s1, .ok y) =>
      if fld y 32 8 != 0 then (s1, .error { flt := engFlt 3 ((ls + 8 * j + 4 + 2 ^ 32 - ta) % 2 ^ 24) })
      else match State.dispList s1 e ta i ls n (j + 1) with
        | (s2, .error f) => (s2, .error f)
        | (s2, .ok r) => (s2, .ok ((i, fld y 48 16, fld y 40 8, fld y 0 32) :: r))

/-- The checks of a SEND before any token is sent, and what it will send (R385, R386). -/
def State.dispParse (s : State) (e : Eng) (ta : Nat) : State × Except EFlt Disp :=
  match s.localDesc e ta 32 with
  | (s1, .error f) => (s1, .error f)
  | (s1, .ok x) => match dispErr x with
    | some off => (s1, .error { flt := engFlt 3 off })
    | none =>
      let d0 : Disp := { tsrc := fld x 192 64, tstr := fld x 128 64, ndst := fld x 112 16, tsz := fld x 96 16, tsp := fld x 93 3, dests := [], sends := [] }
      (List.range d0.ndst).foldl (fun (acc : State × Except EFlt Disp) i => match acc.2 with
        | .error _ => acc
        | .ok d => match acc.1.localNum e ((ta + 32 + 16 * i) % 2 ^ 32) 16 16 with
          | (s2, .error f) => (s2, .error f)
          | (s2, .ok y) =>
            if fld y 96 8 != 0 then (s2, .error { flt := engFlt 3 (32 + 16 * i + 12) })
            else if fld y 32 32 != 0 then (s2, .error { flt := engFlt 3 (32 + 16 * i + 4) })
            else match s2.dispList e ta i (fld y 0 32) (fld y 64 32) 0 with
              | (s3, .error f) => (s3, .error f)
              | (s3, .ok l) => (s3, .ok { d with dests := d.dests ++ [(fld y 112 16, fld y 104 8)], sends := d.sends ++ l })) (s1, .ok d0)

/-- A token's payload with the poison of its bytes. -/
def State.payload (s : State) (e : Eng) (d : Disp) (tok : Nat) : State × Except EFlt (Nat × Nat) :=
  let at' := (d.tsrc + tok * d.tstr) % 2 ^ 64
  if d.tsz = 0 then (s, .ok (0, 0))
  else if d.tsp = 0 then
    match s.mem.readN e.who e.asid at' d.tsz 0 with
    | (m, .error f) => ({ s with mem := m }, .error (EFlt.at' f))
    | (m, .ok v) => ({ s with mem := m }, .ok v)
  else
    let bad (f : Flt) : EFlt := { flt := f, page := 2 ^ 60 + 2 ^ 50 + at' % 2 ^ 32 / 4096 }
    match s.laddr e.act 0 (at' % 2 ^ 32) 1 with
    | .error f => (s, .error (bad f))
    | .ok p =>
      let v := Tbl.get {} (s.wgOf e.act).views p.view
      if (v.nfr + 1) * 4096 < p.off + d.tsz then (s, .error (bad ⟨cBounds, at' % 2 ^ 32⟩))
      else let (s1, x, es) := s.ocGetN p d.tsz e.slot; (s1, .ok (x, poisonOf p es))

/-- The slot header (R389). -/
def slotHdr (fab tok tag ch tsz w : Nat) : Nat :=
  fab % 65536 * 2 ^ 240 + tok * 2 ^ 224 + tag * 2 ^ 192 + ch * 2 ^ 184 + tsz * 2 ^ 160 + w % 2 ^ 32 * 2 ^ 128

/-- What became of a token. -/
inductive Sent where
  | delivered
  | refused
  | dropped
  | fault (f : EFlt)
  deriving DecidableEq, Repr

/-- A delivery into a buffer of this device, from here or from a peer: claim, slot, done word (R387; 03 R108). Header and payload come with the
poison of their bytes, and each sector of the slot takes its own (05 R155, R156). -/
def State.claimSlot (s : State) (who : Who) (asid buf hdr pay tsz poi : Nat) : State × Sent :=
  match Tbl.find s.bufs buf with
  | none => (s, .refused)
  | some b =>
    if b.asid != asid || b.slot < 32 + tsz || b.claim = b.cap then (s, .refused)
    else
      let va := (b.base + b.claim * b.slot) % 2 ^ 64
      let s1 := { s with bufs := Tbl.put s.bufs buf { b with claim := b.claim + 1 } }
      match s1.mem.writeN who b.asid va 32 hdr (poi % 2 ^ 32) 0 with
      | (m, some f) => ({ s1 with mem := m }, .fault (EFlt.at' f))
      | (m1, none) => match m1.writeN who b.asid (va + 32) tsz pay (poi / 2 ^ 32) 0 with
        | (m, some f) => ({ s1 with mem := m }, .fault (EFlt.at' f))
        | (m2, none) => match m2.updG who b.asid b.donea 8 (fun x => (x + 1) % 2 ^ 64) with
          | (m, .error f) => ({ s1 with mem := m }, .fault (EFlt.g f b.donea))
          | (m, .ok _) => ({ s1 with mem := m }, .delivered)

/-- The next token: (first choice, its entry). -/
def Disp.next (d : Disp) : Option (Bool × Nat × Nat × Nat × Nat) :=
  match d.sends, d.retry with
  | x :: _, _ => some (true, x)
  | [], x :: _ => some (false, x)
  | [], [] => none

/-- A token leaves its list with its outcome (R387). -/
def Disp.count (d : Disp) (first : Bool) (x : Nat × Nat × Nat × Nat) (r : Sent) : Disp :=
  let d1 := if first then { d with sends := d.sends.tail } else { d with retry := d.retry.tail }
  match r with
  | .fault f => { d1 with stop := some f }
  | .delivered => if first then { d1 with first := d1.first + 1 } else { d1 with second := d1.second + 1 }
  | .dropped => { d1 with drop := d1.drop + 1 }
  | .refused =>
    if first && x.2.2.1 != 0xFF then { d1 with retry := d1.retry ++ [(x.2.2.1, x.2)] } else { d1 with drop := d1.drop + 1 }

/-- Sends the next token of a dispatch; `answer` is a peer's: 0 delivered, 1 refused, else a fault (07 R242). A token for an invalid
handle is dropped (13 R411), as is one whose ALT is no destination. -/
def State.sendToken (s : State) (v : Arrival) (d : Disp) (first : Bool) (x : Nat × Nat × Nat × Nat) (answer : Nat) : State × Disp :=
  let e := s.opEng v
  match d.dests[x.1]? with
  | none => (s, d.count first x .dropped)
  | some (h, buf) => match s.payload e d x.2.1 with
    | (s1, .error f) => (s1, d.count first x (.fault f))
    | (s1, .ok (pay, poi)) =>
      let hdr := slotHdr s.mf.fabn x.2.1 x.2.2.2 (b2n (!first)) d.tsz (s.wgOf v.act).w
      match s1.peerOf e.asid h with
      | .invalid => (s1, d.count first x .dropped)
      | .self => let (s2, r) := s1.claimSlot e.who e.asid buf hdr pay d.tsz (poi * 2 ^ 32); (s2, d.count first x r)
      | .dev fab rasid =>
        let s2 := s1.tell fab rasid (2 ^ 72 + buf) (hdr + pay * 2 ^ 256) (32 + d.tsz) (sectorPoison 0 (32 + d.tsz) (poi * 2 ^ 32))
        (s2, d.count first x (if answer = 0 then .delivered else if answer = 1 then .refused else .fault { flt := remoteFlt false fab s.uaPort }))

/-- A SEND makes its checks once, at its first event. -/
def State.dispStart (s : State) (v : Arrival) (o : CopyOp) : State × CopyOp :=
  match o.disp with
  | some _ => (s, o)
  | none => match s.dispParse (s.opEng v) v.la with
    | (s1, .ok d) => (s1, { o with disp := some d })
    | (s1, .error f) => (s1, { o with disp := some { tsrc := 0, tstr := 0, ndst := 0, tsz := 0, tsp := 0, dests := [], sends := [], stop := some f } })

/-- Whether an operation is a SEND that does something. -/
def CopyOp.isSend (o : CopyOp) : Bool := match o.ins with | .dispSend _ _ _ _ 0 _ => true | _ => false

/-- DISPATCH_DELIVER: the next token of a SEND reaches its receiver. -/
def execDispatchDeliver (core wg n refused : Nat) (s : State) : Out :=
  match s.opAt core wg n with
  | none => .next s
  | some o =>
    if !o.isSend || !s.opWhole core wg o then .next s
    else match s.opLead o with
    | none => .next s
    | some v =>
      let (s1, o1) := s.dispStart v o
      match o1.disp with
      | none => .next s
      | some d => match d.stop, d.next with
        | none, some (first, x) =>
          let (s2, d2) := s1.sendToken v d first x refused
          .next ((s2.setOpAt core wg n { o1 with disp := some d2 }).noteShc v.act)
        | _, _ => .next ((s1.setOpAt core wg n o1).noteShc v.act)

/-- OPEN of a receive buffer (R388). -/
def State.bufOpen (s : State) (v : Arrival) : State × Except EFlt W64 :=
  let e := s.opEng v
  match s.localDesc e v.la 32 with
  | (s1, .error f) => (s1, .error f)
  | (s1, .ok x) =>
    let b := fld x 72 8
    if fld x 0 72 != 0 || (Tbl.find s.bufs b).isSome then (s1, .error { flt := engFlt 3 0 })
    else ({ s1 with bufs := Tbl.put s1.bufs b { asid := e.asid, base := fld x 192 64, donea := fld x 128 64, cap := fld x 96 32, slot := fld x 80 16 } },
      .ok (statusWord 3 0 0 0))

/-- CLOSE of a receive buffer (R388). -/
def State.bufClose (s : State) (v : Arrival) : State × Except EFlt W64 :=
  let b := (v.a.getD 0).toNat % 256
  match Tbl.find s.bufs b with
  | some x =>
    if x.asid = (s.opEng v).asid then ({ s with bufs := Tbl.del s.bufs b }, .ok (statusWord 3 x.claim 0 0))
    else (s, .error { flt := engFlt 3 0 })
  | none => (s, .error { flt := engFlt 3 0 })

/-- DISPATCH_DONE: every token has been dealt with and the status is written; an OPEN or CLOSE is performed. -/
def execDispatchDone (core wg n : Nat) (s : State) : Out :=
  match s.opAt core wg n with
  | none => .next s
  | some o =>
    if o.kind != 2 || !s.opWhole core wg o then .next s
    else match s.opLead o with
    | none => .next (s.endOp core wg n o none (.ok 0))
    | some v =>
      match o.ins with
      | .dispOpen _ _ _ _ _ _ => let (s1, st) := s.bufOpen v; .next (s1.endOp core wg n o (some v) st)
      | .dispClose _ _ _ _ _ _ => let (s1, st) := s.bufClose v; .next (s1.endOp core wg n o (some v) st)
      | _ =>
        if !o.isSend then .next (s.endOp core wg n o (some v) (.error { flt := engFlt 3 0 }))
        else
          let (s1, o1) := s.dispStart v o
          match o1.disp with
          | none => .next s
          | some d => match d.stop, d.next with
            | some f, _ => .next (s1.endOp core wg n o1 (some v) (.error f))
            | none, some _ => .next ((s1.setOpAt core wg n o1).noteShc v.act)
            | none, none => .next (s1.endOp core wg n o1 (some v) (.ok (statusWord 2 d.first d.second d.drop)))

/-! Castling (R390; 03 R104). -/

/-- CSTL waits for its castling cycle. -/
def execCstl (y mask sp z : Nat) (s : State) : Out :=
  s.uni Legal.copy [] (fun s =>
    ((s.warns (ignW (y != 0 || z != 0))).updSp (fun x => { x with blk := some (.cstl sp mask) })).retire s.mask)

/-- FRONT and SHADOW exchange in one view. -/
def View.castle (v : View) : View := { v with front := v.shadow, shadow := v.front, flip := !v.flip }

/-- Whether a group has arrived at an operation. -/
def CopyOp.byGroup (o : CopyOp) (a : Actor) : Bool := o.arr.any (fun v => match v.act, a with
  | .split _ k _, .split _ g _ => k == g
  | _, _ => false)

/-- CASTLING: once the engine operations that the workgroup, or the group of the CSTL, has issued are done, the named shadowed views
castle (03 R104). -/
def execCastling (a : Actor) (s : State) : Out :=
  match (s.ctx a).on, ((s.ctx a).split a.slot).blk with
  | true, some (.cstl sp mask) =>
    let cn := s.coreOf a
    let w := s.wgOf a
    if w.ops.any (fun o => s.opWhole cn (s.ctx a).wslot o || o.byGroup a) then .next s
    else
      let named (i : Nat) : Bool := bit mask i
      let ok (i : Nat) : Bool := let v := Tbl.get {} w.views (sp * 16 + i); v.en && v.shd
      let skip := (List.range 16).any (fun i => named i && !ok i)
      let s1 := s.updWg cn (s.ctx a).wslot (fun w => { w with views := (List.range 16).foldl (fun t i =>
        if named i && ok i then Tbl.upd {} t (sp * 16 + i) View.castle else t) w.views })
      .next ((s1.warnOf a (ignW skip)).updCtx a (fun c => c.freed a.slot (.cstl sp mask)))
  | _, _ => .next s

/-! Engine programs (R374 to R376). -/

/-- Whether a core's sequencers run no program. -/
def State.seqIdle (s : State) (core : Nat) : Bool := !(s.ctx (.mseq core)).on && !(s.ctx (.cseq core)).on

/-- The context an engine program starts with; the number of its held results goes on from that of the program before it. -/
def Ctx.program (c : Ctx) (core : Nat) (pc : W64) (before : Ctx) : Ctx :=
  { on := true
    core := core
    wslot := c.wslot
    gid := c.gid
    asid := c.asid
    s := (List.range 15).map (fun i => (i + 1, c.rs (i + 1)))
    splits := [(0, { pc := evenPc pc })]
    hid := before.hid
    queue := c.queue }

/-- FORK starts the sequencers whose PC is not 0; while one of the core runs, it does nothing yet (R374). -/
def execFork (y a b z : Nat) (s : State) : Out :=
  s.uni Legal.home [] (fun s =>
    match s.cur.act with
    | .split c g _ =>
      if !s.seqIdle c then s
      else
        let s1 := s.warns (ignW (y != 0 || z != 0))
        s1.sinkOps [(s.me.rs a).pl?, (s.me.rs b).pl?] (fun s1 =>
          let pm := (s.me.rs a).getD 0
          let pc := (s.me.rs b).getD 0
          let s2 := if pm = 0 then s1 else s1.setCtx (.mseq c) (s.me.program c pm (s.ctx (.mseq c)))
          let s3 := if pc = 0 then s2 else s2.setCtx (.cseq c) (s.me.program c pc (s.ctx (.cseq c)))
          (s3.updWg c s.me.wslot (fun w => { w with mrun := w.mrun || pm != 0, crun := w.crun || pc != 0, forker := g, fmask := s.mask })).retire s.mask)
    | _ => s)

/-- Whether programs of a workgroup, or operations they issued, are outstanding (R376). -/
def State.seqBusy (s : State) (core wg : Nat) : Bool :=
  let w : Wg := Tbl.get {} (s.core core).wgs wg
  w.mrun || w.crun || w.ops.any (·.seqr) || (s.core core).mq.any (fun o => o.wslot == wg && o.seqr)

/-- The bits that RDV reports. -/
def Wg.marks (w : Wg) : W64 := BitVec.ofNat 64 (b2n w.mmark + 2 * b2n w.cmark)

/-- Writes the bits to the RDVs that wait, and starts counting anew. -/
def State.rdvGive (s : State) (core wg : Nat) : State :=
  let w : Wg := Tbl.get {} (s.core core).wgs wg
  let s1 := w.rdv.foldl (fun s e => s.updCtx (.split core e.1 0) (fun c => (c.deliver e.2 [(32, [.ok w.marks])]).settle)) s
  s1.updWg core wg (fun w => { w with rdv := [], mmark := false, cmark := false })

/-- RDV (R376). -/
def execRdv (y d z la : Nat) (s : State) : Out :=
  s.uni Legal.home [] (fun s =>
    match s.cur.act with
    | .split c g _ =>
      let s1 := s.warns (ignW (y != 0 || z != 0))
      let (x, hid) := s1.me.hold [d % 64] true s.mask la
      let s2 := (s1.setCtx s.cur.act x).updWg c s.me.wslot (fun w => { w with rdv := w.rdv ++ [(g, hid)] })
      (if s.seqBusy c s.me.wslot then s2 else s2.rdvGive c s.me.wslot).retire s.mask
    | _ => s)

/-- RDV_COMPLETE: both sequencers have ended, and so has what they issued; the RDVs that wait receive their bits. -/
def execRdvComplete (core wg : Nat) (s : State) : Out :=
  .next (if s.seqBusy core wg || (Tbl.get ({} : Wg) (s.core core).wgs wg).rdv.isEmpty then s else s.rdvGive core wg)

/-! Exchanges (R391 to R393). -/

/-- The resident group that a pack, member and group number name in a grid: its core and slot. -/
def State.groupNamed (s : State) (grid p m g : Nat) : Option (Nat × Nat) :=
  match s.gridAt grid with
  | none => none
  | some x =>
    match s.residents.find? (fun r => r.2.2.grid == grid && r.2.2.w == p * 2 ^ x.desc.nlog + m && !r.2.2.done) with
    | none => none
    | some r => match r.2.2.slots[g]? with
      | some k => if (s.ctx (.split r.1 k 0)).on then some (r.1, k) else none
      | none => none

/-- Whether a grid has such a group at all. -/
def Desc.hasGroup (d : Desc) (p m g : Nat) : Bool := m < 2 ^ d.nlog && p * 2 ^ d.nlog + m < d.w && g < d.groups

/-- Gives the active lanes of an exchange a poison of one cause (R391, R393). -/
def State.xchPoison (s : State) (a : Actor) (x : Xch) (f : Flt) : State :=
  let (s1, t) := s.alloc a x.pc ((lanesOf x.mask).map (fun l => { lane := l, flt := f }))
  s1.updCtx a (fun c => ({ c with xch := c.xch.filter (fun y => y.hid != x.hid) }.deliver x.hid
    ((lanesOf x.mask).map (fun l => (l, [.bad (Tbl.get (mkPl f.cause 1023) t l)])))).settle)

/-- One side of a met pair receives the other's values; poison from another core gets a record here (R392). -/
def State.xchGive (s : State) (a : Actor) (x y : Xch) (far : Bool) : State :=
  let ls := lanesOf (x.mask &&& y.mask)
  let val (l : Nat) : Val W32 := Tbl.get (.ok 0) y.vals l
  let bads := ls.filterMap (fun l => if far then (val l).pl?.map (fun p => ({ lane := l, flt := ⟨plCause p, p.toNat⟩, page := 2 ^ 61 + p.toNat } : LFlt)) else none)
  let (s1, t) := if bads.isEmpty then (s, []) else s.alloc a x.pc bads
  s1.updCtx a (fun c => ({ c with xch := c.xch.filter (fun z => z.hid != x.hid) }.deliver x.hid
    (ls.map (fun l => (l, [match val l with
      | .ok w => .ok (w.setWidth 64)
      | .bad p => .bad (if far then Tbl.get p t l else p)])))).settle)

/-- Whether an exchange is the one that a group of workgroup w, of packs of n, with a group number waits for under its number k. -/
def Xch.names (y : Xch) (w n gid k : Nat) : Bool := y.pack == w / n && y.member == w % n && y.gid == gid && y.k == k

/-- Pairs an exchange with its partner's if that has been issued; a partner lost with its die ends it with DIE_LOST (13 R417). -/
def State.xchMeet (s : State) (core slot : Nat) (x : Xch) : State :=
  let a : Actor := .split core slot 0
  let w := s.wgOf a
  match s.gridAt w.grid with
  | none => s
  | some g =>
    let n := 2 ^ g.desc.nlog
    match Tbl.find g.lost x.pack with
    | some die => s.xchPoison a x ⟨cDieLost, die⟩
    | none => match s.groupNamed w.grid x.pack x.member x.gid with
    | none => s
    | some (c2, k2) =>
      let b : Actor := .split c2 k2 0
      match (s.ctx b).xch.find? (fun y => y.names w.w n (s.ctx a).gid x.k) with
      | none => s
      | some y =>
        if c2 = core && k2 = slot then s.xchGive a x x false
        else (s.xchGive a x y (c2 != core)).xchGive b y x (c2 != core)

/-- The exchanges of a group look for their partners again: its pack is back on its cores, or packs are lost. -/
def State.xchAgain (s : State) (core slot : Nat) : State :=
  let open' (s : State) : List Xch := (s.ctx (.split core slot 0)).xch
  (open' s).foldl (fun s x => if (open' s).any (fun y => y.hid == x.hid) then s.xchMeet core slot x else s) s

/-- Whether the partner of an exchange has issued its own, and waits with its saved pack (R393). -/
def State.xchSaved (s : State) (core slot : Nat) (x : Xch) : Bool :=
  let w := s.wgOf (.split core slot 0)
  match s.gridAt w.grid with
  | none => false
  | some g =>
    let n := 2 ^ g.desc.nlog
    g.packs.any (fun p => p.saved.any (fun v => v.wg.w == x.pack * n + x.member && v.groups.any (fun c =>
      c.2.gid == x.gid && c.2.xch.any (fun y => y.names w.w n (s.ctx (.split core slot 0)).gid x.k))))

/-- XCH (R391). -/
def execXch (d a b la : Nat) (s : State) : Out :=
  s.uni Legal.home [] (fun s =>
    match s.cur.act, s.me.rs b with
    | .split _ _ _, .bad p => (s.sinkAll p).retire s.mask
    | .split c g k, .ok w =>
      let p := fld w.toNat 32 32
      let m := fld w.toNat 28 4
      let gd := fld w.toNat 23 5
      let key := (p * 16 + m) * 32 + gd
      let n := Tbl.get 0 s.me.xchN key + 1
      let (cx, hid) := s.me.hold [d % 128] false s.mask la
      let x : Xch := { pack := p, member := m, gid := gd, k := n, mask := s.mask, hid := hid, pc := s.cur.pc
                       vals := s.active.map (fun l => (l, (s.me.ln l).rd a)) }
      let s1 := s.setCtx (.split c g k) { cx with xch := cx.xch ++ [x] }
      if !(s.desc s.cur.act).hasGroup p m gd then (s1.xchPoison s.cur.act x ⟨cBounds, 0⟩).retire s.mask
      else ((s1.upd (fun c => { c with xchN := Tbl.put c.xchN key n })).xchMeet c g x).retire s.mask
    | _, _ => s)

/-- XCH_TIMEOUT: the oldest exchange of a group whose partner has not issued its own. -/
def execXchTimeout (core slot : Nat) (s : State) : Out :=
  match (s.ctx (.split core slot 0)).xch.find? (fun x => !s.xchSaved core slot x) with
  | none => .next s
  | some x => .next (s.xchPoison (.split core slot 0) x ⟨cRemoteTimeout, 0⟩)

end Sys2Proof.Machine
end

