-- ==== Sys2Proof/Machine/Launch.lean ====
section
/-! DEFINITION. Launch descriptors and their validation (07 R217 to R220; 06 R185 to R187), the room on cores (06 R182, R184;
01 R35), dictionaries (07 R224, R225), LAUNCH and DICT (11 R360). -/

namespace Sys2Proof.Machine

/-! Descriptors. -/

/-- The fields of a launch descriptor (07 R217). -/
def Desc.parse (x at' : Nat) : Desc :=
  { saveb := fld x 960 64
    udata := fld x 896 64
    ptags := [fld x 880 16, fld x 864 16, fld x 848 16, fld x 832 16]
    tcnt := fld x 800 32
    texp := fld x 784 16
    tsh := fld x 778 6
    tflag := fld x 704 64
    hset := fld x 576 128
    dicta := fld x 512 64
    privb := fld x 448 64
    memb := fld x 384 64
    teamt := fld x 320 64
    viewt := fld x 256 64
    frames := [fld x 248 8, fld x 240 8, fld x 232 8, fld x 223 9]
    dcnt := fld x 212 11
    psz := fld x 196 16
    t := fld x 181 11
    nlog := fld x 178 3
    dmask := fld x 174 4
    depm := fld x 172 2
    ejt := fld x 168 4
    rjt := fld x 164 4
    regs := fld x 156 8
    cosched := bit x 155
    qcap := fld x 146 9
    w := fld x 96 32
    asid := fld x 80 16
    gtag := fld x 64 16
    entry := BitVec.ofNat 64 (fld x 0 64)
    addr := at' }

/-- Whether a reserved field of a descriptor is not 0. -/
def descRsvd (x : Nat) : Bool := fld x 1024 1024 != 0 || fld x 768 10 != 0 || fld x 192 4 != 0 || fld x 128 18 != 0

/-- Frames of the four spaces of a core (01 R33). -/
def spaceFrames (sp : Nat) : Nat := if sp = 3 then 256 else 64

/-- The quarantine capacity of a group of a grid (05 R168). -/
def Desc.cap (d : Desc) : Nat := if d.qcap = 0 then 16 else d.qcap

/-- The kernel of a grid (07 R218). -/
def Desc.kernel (d : Desc) : Nat × W64 × Nat := (d.asid, d.entry, d.dicta)

/-- The view that a word of the view table describes (01 R36). -/
def View.parse (x : Nat) : View :=
  { rld := BitVec.ofNat 64 (fld x 64 64)
    en := bit x 63
    shd := bit x 62
    cln := bit x 61
    nfr := fld x 48 8
    front := fld x 32 8
    shadow := fld x 16 8 }

/-- Whether the runs of a view lie in an allocation of n frames (01 R36). -/
def View.fits (v : View) (n : Nat) : Bool := !v.en || (v.front + v.nfr < n && (!v.shd || v.shadow + v.nfr < n))

/-- The dies that a grid names. -/
def Desc.dies (d : Desc) : List Nat := (List.range 4).filter (fun i => bit d.dmask i)

/-! Room on cores. -/

/-- The resident workgroups of a core with the descriptors of their grids. -/
def State.tenants (s : State) (core : Nat) : List (Wg × Desc) :=
  (s.core core).wgs.map (fun w => (w.2, match s.gridAt w.2.grid with | some g => g.desc | none => {}))

/-- The lowest run of n free frames of a space (01 R35). -/
def State.freeRun (s : State) (core sp n : Nat) : Option Nat :=
  let used := (s.tenants core).map (fun w => (w.1.alloc.getD sp 0, w.2.frames.getD sp 0))
  (List.range (spaceFrames sp + 1 - n)).find? (fun b => used.all (fun u => u.2 = 0 || n = 0 || b + n ≤ u.1 || u.1 + u.2 ≤ b))

/-- Whether a workgroup of a grid fits a core now (06 R184). -/
def State.coreFits (s : State) (d : Desc) (core : Nat) : Bool :=
  let ts := s.tenants core
  ts.length < 4 && ts.all (fun w => w.2.kernel == d.kernel)
    && ts.foldl (fun n w => n + w.1.slots.length) 0 + d.groups ≤ 32
    && ts.foldl (fun n w => n + w.1.slots.length * w.2.cap) 0 + d.groups * d.cap ≤ 448
    && (List.range 4).all (fun sp => (s.freeRun core sp (d.frames.getD sp 0)).isSome)

/-- The block for a pack on a die: of the aligned blocks that lie in the grid's core mask and have room, the lowest base in the
lowest rank (06 R182; 07 R223); `ok` says what else member i asks of its core. -/
def State.blockFor (s : State) (d : Desc) (mask die : Nat) (ok : Nat → Nat → Bool) : Option Nat :=
  let n := 2 ^ d.nlog
  (List.range 64).findSome? (fun c =>
    if c % n = 0 && (List.range n).all (fun i => bit mask (c + i) && s.coreFits d (die * 64 + c + i) && ok (die * 64 + c + i) i) then some (die * 64 + c)
    else none)

/-- The block for a fresh pack. -/
def State.block223 (s : State) (d : Desc) (mask die : Nat) : Option Nat := s.blockFor d mask die (fun _ _ => true)

/-- Free group slots of a core, lowest first. -/
def State.freeSlots (s : State) (core : Nat) : List Nat :=
  (List.range 32).filter (fun g => !(s.core core).wgs.any (fun w => w.2.slots.contains g))

/-- Takes slot, frames and group slots for a member of a pack; the groups themselves come later. -/
def State.allot (s : State) (g : Grid) (w base member : Nat) : State × Nat × List Nat :=
  let core := base + member
  let wslot := ((List.range 4).find? (fun i => (Tbl.find (s.core core).wgs i).isNone)).getD 0
  let slots := (s.freeSlots core).take g.desc.groups
  let wg : Wg :=
    { grid := g.key
      w := w
      base := base
      member := member
      alloc := (List.range 4).map (fun sp => (s.freeRun core sp (g.desc.frames.getD sp 0)).getD 0)
      slots := slots }
  (s.setWg core wslot wg, wslot, slots)

/-! Dictionaries. -/

/-- Loads a dictionary into a core; an entry whose read faults or is poisoned is unreadable (07 R224). -/
def State.loadDict (s : State) (core asid dicta dcnt : Nat) : State :=
  let who : Who := ⟨none, core / 64, false, false⟩
  let (m, ws) := (List.range dcnt).foldl (fun (acc : Mem × Tbl (Option W32)) i =>
    match (if (dicta + 4 * i) % 4 = 0 then acc.1.readG who asid (dicta + 4 * i) 4 0 else (acc.1, .error ⟨cMisalign, 4⟩)) with
    | (m, .ok x) => (m, acc.2 ++ [(i, some (BitVec.ofNat 32 x))])
    | (m, .error _) => (m, acc.2 ++ [(i, none)])) (s.mem, [])
  ({ s with mem := m }).setCore core { s.core core with dict := some ⟨asid, dicta, dcnt, ws⟩ }

/-- DICT loads the named cores whose residents are of the dictionary's kernel, or that have none (07 R225). -/
def execDict (d a b z : Nat) (s : State) : Out :=
  s.ctlOnly (fun s =>
    let s1 := s.warns (ignW (z != 0))
    s1.sinkOps [(s.me.rs a).pl?, (s.me.rs b).pl?, (s.me.rs d).pl?] (fun s1 =>
      let dicta := ((s.me.rs a).getD 0).toNat
      let mask := ((s.me.rs b).getD 0).toNat
      let dcnt := ((s.me.rs d).getD 0).toNat % 2 ^ 11
      if 1024 < dcnt then (s1.statusFault d ⟨cBounds, 0⟩).retire s.mask
      else
        let die := s.dieOf s.cur.act
        let go := (List.range 64).filter (fun c => bit mask c
          && (s.tenants (die * 64 + c)).all (fun w => w.2.asid == s.me.asid && w.2.dicta == dicta))
        let s2 := go.foldl (fun s c => s.loadDict (die * 64 + c) s1.me.asid dicta dcnt) s1
        ((s2.noteShc s.cur.act).upd (fun c => c.ws d (.ok (BitVec.ofNat 64 (go.foldl (fun n c => n + 2 ^ c) 0))))).retire s.mask))

/-! Teams (06 R185, R186). -/

/-- The membership word of a workgroup, 0 where it cannot be read. -/
def State.teamWord (s : State) (who : Who) (d : Desc) (w : Nat) : State × Option Nat :=
  if d.memb = 0 then (s, some 0)
  else match (if d.memb % 8 = 0 then s.mem.readG who d.asid (d.memb + 8 * w) 8 0 else (s.mem, .error ⟨cMisalign, 8⟩)) with
    | (m, .ok x) => ({ s with mem := m }, some (x % 2 ^ 36))
    | (m, .error _) => ({ s with mem := m }, none)

/-- Reads the 256 team entries: V and COUNT of each. -/
def State.teamTable (s : State) (who : Who) (d : Desc) : State × Option (List (Bool × Nat)) :=
  (List.range 256).foldl (fun (acc : State × Option (List (Bool × Nat))) i => match acc.2 with
    | none => acc
    | some l => match (if d.teamt % 8 = 0 then acc.1.mem.readG who d.asid (d.teamt + 16 * i) 8 0 else (acc.1.mem, .error ⟨cMisalign, 8⟩)) with
      | (m, .ok x) => ({ acc.1 with mem := m }, some (l ++ [(bit x 0, fld x 32 16)]))
      | (m, .error _) => ({ acc.1 with mem := m }, none)) (s, some [])

/-- Counts the memberships of a word, unless it names a team twice or one that does not exist. -/
def teamTally (tab : List (Bool × Nat)) (t : Option (Tbl Nat)) (w : Nat) : Option (Tbl Nat) :=
  let ns := teamsOf (BitVec.ofNat 64 w)
  if ns.all (fun n => (tab.getD n (false, 0)).1) && decide ns.Nodup then t.map (fun t => ns.foldl (fun t n => Tbl.upd 0 t n (· + 1)) t) else none

/-- The check of R186; the answer is the COUNT of each team. What cannot be read fails it (log entry 32). -/
def State.teamCheck (s : State) (who : Who) (d : Desc) : State × Option (Tbl Nat) :=
  match s.teamTable who d with
  | (s1, none) => (s1, none)
  | (s1, some tab) =>
    let r := (List.range d.w).foldl (fun (acc : State × Option (Tbl Nat)) w => match acc.2 with
      | none => acc
      | some t => match acc.1.teamWord who d w with
        | (s2, none) => (s2, none)
        | (s2, some x) => (s2, teamTally tab (some t) x)) (s1, some [])
    match r.2 with
    | none => (r.1, none)
    | some t =>
      if (List.range 256).all (fun n => !(tab.getD n (false, 0)).1 || (tab.getD n (false, 0)).2 == Tbl.get 0 t n) then
        (r.1, some t)
      else (r.1, none)

/-! Validation (07 R220). -/

/-- A grid with a tag that is in flight on a die. -/
def State.gridOn (s : State) (tag die : Nat) : Option Grid := s.grids.find? (fun g => g.tag == tag && bit g.desc.dmask die)

/-- Reads the view table at VIEWT, whatever its address (01 R36): 64 descriptors; one off a multiple of 8 cannot be read (log entry 32). -/
def State.viewTable (s : State) (who : Who) (d : Desc) : State × Option (List Nat) :=
  if d.viewt % 8 != 0 then (s, none)
  else match s.mem.readMany who d.asid d.viewt 128 0 with
    | (m, .ok x) => ({ s with mem := m }, some ((List.range 64).map (fun i => fld x (128 * i) 128)))
    | (m, .error _) => ({ s with mem := m }, none)

/-- Whether every pack of a COSCHED grid finds room at once (06 R187). -/
def State.fitsWhole (s : State) (d : Desc) : Bool :=
  let n := 2 ^ d.nlog
  let g : Grid := { tag := 0, num := s.gridN, home := 0, queue := 0, desc := d }
  let s0 := { s with grids := s.grids ++ [g] }
  let r := (List.range (d.w / n)).foldl (fun (acc : Option State) p => match acc with
    | none => none
    | some s => match s.block223 d (2 ^ 64 - 1) (d.dies.getD (p % d.dies.length) 0) with
      | none => none
      | some b => some ((List.range n).foldl (fun s m => (s.allot g (p * n + m) b m).1) s)) (some s0)
  r.isSome

/-- The checks of a descriptor that need nothing but itself and the grids in flight, in their order up to BAD_DIES. -/
def State.descReason (s : State) (asid x : Nat) (d : Desc) : Nat :=
  let n := 2 ^ d.nlog
  if d.asid != asid || d.gtag = 0 || d.dies.any (fun k => (s.gridOn d.gtag k).isSome) then 2
  else if d.w = 0 || 4 < d.nlog || d.w % n != 0 || d.t = 0 || 1024 < d.t || d.regs = 0 || 128 < d.regs || 8 < d.ejt || d.psz % 4 != 0
      || descRsvd x then 3
  else if d.dmask = 0 || (d.depm = 1 && (d.dies.length != 1 || d.ptags.any (fun t => t != 0 &&
      (match s.gridOn t (d.dies.getD 0 0) with
        | some g => g.desc.dmask != d.dmask
        | none => s.grids.any (fun g => g.tag == t))))) then 4
  else if (List.range 4).any (fun sp => spaceFrames sp < d.frames.getD sp 0) || 448 < d.groups * d.cap || (d.cosched && !s.fitsWhole d) then 5
  else 0

/-- The whole validation: the reason of the first failing row, 0 for none, with the views and the teams' COUNTs. -/
def State.validate (s : State) (who : Who) (asid va : Nat) : State × Nat × Desc × Tbl Nat :=
  if va % 256 != 0 then (s, 1, { addr := va }, [])
  else match s.mem.readMany who asid va 32 0 with
  | (m, .error _) => ({ s with mem := m }, 1, { addr := va }, [])
  | (m, .ok x) =>
    let s1 := { s with mem := m }
    let d := Desc.parse x va
    let r := s1.descReason asid x d
    if r != 0 then (s1, r, d, [])
    else match s1.viewTable who d with
    | (s2, none) => (s2, 6, d, [])
    | (s2, some vs) =>
      let d1 := { d with views := vs }
      if !((vs.zip (List.range 64)).all (fun v => (View.parse v.1).fits (d.frames.getD (v.2 / 16) 0))) then (s2, 6, d1, [])
      else match (if d.memb = 0 then (s2, some ([] : Tbl Nat)) else s2.teamCheck who d) with
      | (s3, none) => (s3, 7, d1, [])
      | (s3, some t) =>
        let bad := if d.depm = 2 && d.tcnt ≤ (d.w - 1) / 2 ^ d.tsh then 8
          else if d.depm = 3 then 9
          else if d.dies.any (fun k => 64 ≤ (s3.grids.filter (fun g => bit g.desc.dmask k)).length) then 10
          else if 1024 < d.dcnt then 11
          else 0
        (s3, bad, d1, t)

/-- LAUNCH: a valid grid is in flight from here on; a failure is reported, with grid tag 0 where the descriptor could not be read (07 R219,
R220; log entry 67). -/
def execLaunch (d a z : Nat) (s : State) : Out :=
  s.ctlOnly (fun s =>
    let s1 := s.warns (ignW (z != 0))
    s1.sinkOps [(s.me.rs a).pl?] (fun s1 =>
      let va := ((s.me.rs a).getD 0).toNat
      let die := s.dieOf s.cur.act
      match s1.validate (s.who s.cur.act) s.me.asid va with
      | (s1, 0, x, t) =>
        let s2 := s1.noteShc s.cur.act
        let g : Grid :=
          { tag := x.gtag
            num := s2.gridN
            home := die
            queue := s.me.queue
            desc := x
            masks := x.dies.map (fun k => (k, 2 ^ 64 - 1))
            prods := if x.depm = 1 then x.ptags.filterMap (fun t => if t = 0 then none else (s2.gridOn t (x.dies.getD 0 0)).map Grid.key) else []
            teamCnt := t }
        (({ s2 with grids := s2.grids ++ [g], gridN := s2.gridN + 1 }).upd (fun c => c.ws d (.ok 0))).retire s.mask
      | (s2, r, x, _) =>
        (((s2.noteShc s.cur.act).event die (evRec 2 r s.me.asid x.gtag s.me.queue die false va)).upd (fun c => c.ws d (.ok (BitVec.ofNat 64 r)))).retire s.mask))

end Sys2Proof.Machine
end

