-- ==== Sys2Proof/Machine/Recall.lean ====
section
/-! DEFINITION. Retriever threads and group state that time or debug changes: hand-over, rejoin timeout and recall (06 R197, R200 to
R202), commit back-off (05 R173), peer timeouts (13 R414), resume from a halt (06 R207, R208). -/

namespace Sys2Proof.Machine

/-- HAND_OVER_DONE: the thread may issue from here on. -/
def execHandOverDone (die t : Nat) (s : State) : Out :=
  .next (if (s.ctx (.thread die t)).on then s.updCtx (.thread die t) (fun c => { c with moved := true }) else s)

/-- REJOIN_TIMEOUT: the lane is recalled at its next instruction boundary; code 15 sets no timeout (06 R200), and none runs while the home
core is stopped for a context load (07 R235). -/
def execRejoinTimeout (die t : Nat) (s : State) : Out :=
  let a : Actor := .thread die t
  .next (if (s.ctx a).on && (s.desc a).rjt != 15 && !(s.core (s.coreOf a)).stop then s.updCtx a (fun c => { c with timedOut := true }) else s)

/-- The splits that recalled lanes form, their threads in ascending order of their lanes: one for each PC, with the %lc of its lowest lane
and the J that this lane recorded; in a halted pack they halt (06 R202, R208). -/
def recalled (ths : List Ctx) (halted : Bool) : List Split :=
  ths.foldl (fun os th =>
    let sp := th.split 0
    if os.any (fun o => o.pc == sp.pc) then os.map (fun o => if o.pc == sp.pc then { o with mask := o.mask + 2 ^ th.lane } else o)
    else os ++ [{ pc := sp.pc, mask := 2 ^ th.lane, lc := sp.lc, join := th.jrec, halted := halted }]) []

/-- Lanes of a group come home from threads of its die at their PCs, together (06 R190, R202). -/
def State.recall (s : State) (h : Actor) (ts : List Nat) : State :=
  let die := s.dieOf h
  let order := (List.range 32).flatMap (fun l => ts.filter (fun t => (s.ctx (.thread die t)).lane == l))
  let os := recalled (order.map (fun t => s.ctx (.thread die t))) (s.ctx h).hpack
  let s1 := order.foldl (fun s t => (s.updCtx (.thread die t) (fun c => (c.endWin (2 ^ c.lane)).settle)).takeBack (.thread die t) .live) s
  let s2 := s1.updCtx h (fun c => (os.foldl Ctx.placeSplit c).tidy)
  (if os.any (·.halted) then s2.setDie die { s2.die die with halted := true } else s2).joinCheck h

/-- The home group of a thread. -/
def State.homeOf (s : State) (die t : Nat) : Actor := .split (s.ctx (.thread die t)).core (s.ctx (.thread die t)).home 0

/-- Whether a thread's accesses are acknowledged, so that its lane can come home. -/
def Ctx.quiet (c : Ctx) : Bool := c.memops.isEmpty && (c.split 0).blk.isNone && c.pend.all (fun h => h.2.val.isSome)

/-- RECALL_COMPLETE. -/
def execRecallComplete (die t : Nat) (s : State) : Out :=
  let c := s.ctx (.thread die t)
  .next (if c.on && c.timedOut && c.quiet then s.recall (s.homeOf die t) [t] else s)

/-- The busy threads of a workgroup. -/
def State.threadsOf (s : State) (core wslot : Nat) : List Nat :=
  (List.range Config.threads).filter (fun t => let c := s.ctx (.thread (core / 64) t); c.on && c.core == core && c.wslot == wslot)

/-- COMMIT_BACKOFF_EXPIRY: the group may issue its commit again; the time does not run while its core is stopped (07 R235) or its pack is
halted (06 R208). -/
def execCommitBackoffExpiry (core slot : Nat) (s : State) : Out :=
  .next (if (s.core core).stop || (s.ctx (.split core slot 0)).hpack then s else s.updCtx (.split core slot 0) (fun c => { c with backoff := false }))

/-! Peer timeouts. -/

/-- Whether an operation of a workgroup was arrived at by an actor; one of an engine program is the copy sequencer's. -/
def CopyOp.byActor (o : CopyOp) (a : Actor) : Bool :=
  if o.seqr then (match a with | .cseq _ => true | _ => false) else o.arr.any (fun v => v.act == a)

/-- The next token of a dispatch goes to a peer. -/
def State.toPeer (s : State) (v : Arrival) (d : Disp) : Option Nat :=
  match d.next with
  | some (_, x) => match d.dests[x.1]? with
    | some (h, _) => match s.peerOf (s.opEng v).asid h with
      | .dev fab _ => some fab
      | _ => none
    | none => none
  | none => none

/-- A timeout of the first operation of the actor's workgroup that waits for a peer (12 R384, R387). -/
def State.opTimeout (s : State) (a : Actor) (n : Nat) (o : CopyOp) : State :=
  let cn := s.coreOf a
  let wg := (s.ctx a).wslot
  let f (fab : Nat) : Flt := remoteFlt true fab s.uaPort
  if !s.opWhole cn wg o || !o.byActor a then s
  else if o.kind = 1 then match s.opLead o with
    | some v => match s.peerOf (s.opEng v).asid (v.b.toNat % 65536) with
      | .dev _ _ => s.endPeer cn wg n o (fun fab => some (f fab))
      | _ => s
    | none => s
  else match o.disp, s.opLead o with
    | some d, some v => match d.stop, s.toPeer v d with
      | none, some fab => s.setOpAt cn wg n { o with disp := some { d with stop := some { flt := f fab } } }
      | _, _ => s
    | _, _ => s

/-- PEER_TIMEOUT: what the actor has outstanding toward the host or a peer ends with REMOTE_TIMEOUT (13 R414). -/
def execPeerTimeout (a : Actor) (s : State) : Out :=
  let mine : Option (Tr × Req) := match s.opOf a with
    | some { req := some r, .. } => match r.st with | .remote t => some (t, r) | _ => none
    | _ => none
  match mine, s.blkOf a with
  | some (t, r), _ => .next (s.respond a r { fault := some (match t.peer with
      | some fab => remoteFlt true fab s.uaPort
      | none => remoteFlt true 0 0) })
  | none, some (.sealOpen d i pc) =>
    let (s1, p) := s.alloc1 a pc ((s.ctx a).split a.slot).mask (remoteFlt true (Config.lateFab s.mem.ctr % 1024) s.uaPort) 0
    .next (s1.unblock a (.sealOpen d i pc) (.bad p))
  | none, _ =>
    let ops := (s.wgOf a).ops
    match (ops.zip (List.range ops.length)).find? (fun e => s.opTimeout a e.2 e.1 != s) with
    | some e => .next (s.opTimeout a e.2 e.1)
    | none => .next s

/-! Debug. -/

/-- A split resumes after its BRK, or where it stopped (06 R207). -/
def Split.resume (x : Split) : Split :=
  if x.halted then { x with halted := false, pc := x.brk.getD x.pc, brk := none } else x

/-- DBGCTL_RESUME: halted lanes that had arrived at a barrier count again (06 R206). -/
def execDbgctlResume (die : Nat) (s : State) : Out :=
  let s1 : State := { s with groups := s.groups.map (fun e => if e.1 / 32 / 64 = die then
    (e.1, ({ e.2 with
      hpack := false
      splits := e.2.splits.map (fun x => (x.1, x.2.resume))
      pool := e.2.pool.map Split.resume } : Ctx).tidy) else e) }
  .next ((s1.grids.map Grid.key).foldl State.barSweep s1)

/-- DBGCTL_HALTED_CLEAR. -/
def execDbgctlHaltedClear (die : Nat) (s : State) : Out := .next (s.setDie die { s.die die with halted := false })

/-- Halted splits of a die. -/
def State.haltCount (s : State) (die : Nat) : Nat :=
  min 255 ((s.groups.filter (fun e => e.1 / 32 / 64 = die)).foldl (fun n e =>
    n + (e.2.splits.filter (fun x => x.2.halted)).length + (e.2.pool.filter (·.halted)).length) 0)

/-- DBGCTL as read. -/
def State.dbgctl (s : State) (die : Nat) : Nat :=
  let d := s.die die
  b2n d.dbgEn * 2 ^ 31 + s.haltCount die * 2 ^ 8 + b2n d.halted * 4 + b2n d.haltPack * 2

end Sys2Proof.Machine
end

