-- ==== Sys2Proof/Machine/Sync.lean ====
section
/-! DEFINITION. Barriers, fences, triggers and tile flags (03 R94 to R96, R101, R111, R112; 06 R188, R189; 11 R352 to R354). -/

namespace Sys2Proof.Machine

/-- The memory scope of a 3-bit code (03 R83): 110 and 111 act as system; team acts as device. -/
def scopeCode (sc : Nat) : Nat := if 6 ≤ sc then 5 else if sc = 3 then 4 else sc

/-- A fence of a kind (0 ACQ, 1 REL, 2 AR) at a scope (R94, R353). -/
def State.fence (s : State) (kind scope z : Nat) (w : W32) : Out :=
  s.uni1 Legal.all [] (fun s =>
    let s1 := s.warns (w ||| ignW (z != 0) ||| flagIf (6 ≤ scope) wScopeRsvd)
    let sc := scopeCode scope
    match kind with
    | 0 => s1.doAcquire sc
    | 1 => s1.doRelease sc
    | _ => (s1.doRelease sc).doAcquire sc)

def execFenceAcq (scope _kind z : Nat) (s : State) : Out := s.fence 0 scope z 0
def execFenceRel (scope _kind z : Nat) (s : State) : Out := s.fence 1 scope z 0
/-- The reserved kind acts as AR (R353). -/
def execFenceAr (scope kind z : Nat) (s : State) : Out := s.fence 2 scope z (flagIf (kind == 3) wModRsvd)

/-- BAR (R352). -/
def execBar (kind act slot z : Nat) (s : State) : Out :=
  s.uni Legal.homeUser [] (fun s =>
    let a := s.cur.act
    let w := s.wgOf a
    let s0 := (s.warns (ignW (z != 0 || (kind != 3 && slot != 0)) ||| flagIf (act == 0) wModRsvd)).upd (fun c => (c.endWin s.mask).settle)
    if kind = 3 && !bit w.teams.toNat (32 + slot) then (s0.warns (flag wTeamNone)).retire s.mask
    else
      let key := if kind = 3 then 16 + fld w.teams.toNat (8 * slot) 8 else kind
      let arrive := act != 2
      let waits := act != 1
      let s1 := if arrive then
          (s0.doRelease (barScope key)).upd (fun c => { c with arr := Tbl.upd 0 c.arr key (· ||| s.mask) })
        else s0
      let pending := Tbl.get 0 s1.me.arr key &&& s.mask != 0
      let s2 := if waits then
          (if pending then s1.updSp (fun x => { x with wait := .bar key }) else s1.doAcquire (barScope key))
        else s1
      let s3 := (s2.advance.barCheck (s.coreOf a) (s2.wgOf a) key).finish s.mask
      s3.upd (fun c => if (c.split a.slot).wait == .none then c else c.yieldSlot a.slot))

/-- TRIG: a release at device scope; the group triggers when every lane has, and a TRIG after that has no effect (R354). -/
def execTrig (z : Nat) (s : State) : Out :=
  s.uni1 Legal.homeUser [] (fun s =>
    let s0 := s.warns (ignW (z != 0))
    if s.me.trigd then s0 else
    let s1 := s0.doRelease 4
    (s1.upd (fun c => { c with trig := c.trig ||| s.mask })).trigCheck s.cur.act)

/-- The virtual address of word t of the grid's tile flags. -/
def State.flagAt (s : State) (a : Actor) (t : Nat) : Nat := (s.desc a).tflag + 4 * t

/-- TREADY counts toward flag t and notifies the placement units (R354; 07 R222). -/
def execTready (y a z : Nat) (s : State) : Out :=
  s.uni1 Legal.homeUser [a] (fun s =>
    let s1 := s.warns (ignW (y != 0 || z != 0))
    match s.me.rs a with
    | .bad p => s1.sinkAll p
    | .ok v =>
      let t := v.toNat % 2 ^ 32
      if (s.desc s.cur.act).tcnt ≤ t then s1.faultAll ⟨cBounds, t⟩
      else
        let s2 := s1.doRelease 4
        let va := s.flagAt s.cur.act t
        if va % 4 != 0 then s2.faultAll ⟨cMisalign, 4⟩ va
        else
          let cn := s.coreOf s.cur.act
          let (m1, l) := s2.mem.look1 cn s.me.asid (va / 128)
          let m2 := match l with | some l => (m1.flush1 cn l).1 | none => m1
          match m2.updG (s.who s.cur.act) s.me.asid va 4 (fun x => (x + 1) % 2 ^ 32) with
          | (m3, .error f) => (({ s2 with mem := m3 }).noteShc s.cur.act).faultAll f va
          | (m3, .ok _) =>
            let s3 := ({ s2 with mem := m3 }).noteShc s.cur.act
            (List.range Config.dies).foldl (fun s d => s.setDie d { s.die d with notes := true }) s3)

/-- One look at a tile flag: a fault, or whether it is set. -/
def Mem.flagSet (m : Mem) (who : Who) (asid va texp : Nat) : Mem × Except Flt Bool :=
  if va % 4 != 0 then (m, .error ⟨cMisalign, 4⟩)
  else match m.readG who asid va 4 0 with
    | (m, .ok x) => (m, .ok (texp ≤ x))
    | (m, .error f) => (m, .error f)

/-- One look of a group at a tile flag. -/
def State.flagSet (s : State) (a : Actor) (who : Who) (asid va texp : Nat) : State × Except Flt Bool :=
  let (m, r) := s.mem.flagSet who asid va texp
  (({ s with mem := m }).noteShc a, r)

/-- TWAIT waits until flag t is set, then acquires at device scope (R354). -/
def execTwait (y a z : Nat) (s : State) : Out :=
  s.uni Legal.homeUser [a] (fun s =>
    let s1 := s.warns (ignW (y != 0 || z != 0))
    match s.me.rs a with
    | .bad p => (s1.sinkAll p).retire s.mask
    | .ok v =>
      let t := v.toNat % 2 ^ 32
      let d := s.desc s.cur.act
      if d.tcnt ≤ t then (s1.faultAll ⟨cBounds, t⟩).retire s.mask
      else
        let va := s.flagAt s.cur.act t
        match s1.flagSet s.cur.act (s.who s.cur.act) s.me.asid va d.texp with
        | (s2, .error f) => (s2.faultAll f va).retire s.mask
        | (s2, .ok true) => (s2.doAcquire 4).retire s.mask
        | (s2, .ok false) =>
          let s3 := (s2.updSp (fun x => { x with wait := .tile t s.cur.pc })).retire s.mask
          s3.upd (fun c => c.yieldSlot s.cur.act.slot))

/-- The splits of a group that wait for tile flags look again; a fault ends the wait with a record and marks (R354). -/
def State.retile (s : State) (h : Actor) : State :=
  let c := s.ctx h
  let d := s.desc h
  let ws := ((c.splits.map (·.2) ++ c.pool).filter (fun x => x.mask != 0)).filterMap (fun x => match x.wait with
    | .tile t pc => some (x, t, pc)
    | _ => none)
  ws.foldl (fun s e =>
    let x := e.1
    let va := s.flagAt h e.2.1
    let who : Who := { s.who h with sup := x.sup }
    let stop (s : State) : State :=
      let f (y : Split) : Split := if y.mask == x.mask && y.wait == x.wait then { y with wait := .none } else y
      s.updCtx h (fun c => { c with splits := c.splits.map (fun e => (e.1, f e.2)), pool := c.pool.map f })
    match s.flagSet h who c.asid va d.texp with
    | (s1, .ok false) => s1
    | (s1, .ok true) => stop { s1 with mem := s1.mem.acquire (s.coreOf h) 4 }
    | (s1, .error f) =>
      let (s2, p) := s1.alloc1 h e.2.2 x.mask f va
      stop (s2.sinks h e.2.2 ((lanesOf x.mask).map (fun l => (l, p))))) s

end Sys2Proof.Machine
end

