-- ==== Sys2Proof/Machine/Place.lean ====
section
/-! DEFINITION. Placement, saving and the end of grids (07 R219, R221 to R224, R233 to R237; 05 R175; 03 R110; 04 R143, R147), VACATE, the
submission queues (07 R211) and quanta (R234). -/

namespace Sys2Proof.Machine

/-! Fresh packs. -/

/-- A group as it begins (06 R178). -/
def Desc.group (d : Desc) (core wslot gid queue : Nat) : Ctx :=
  let ls := (List.range 32).filter (fun l => 32 * gid + l < d.t)
  { on := true
    core := core
    wslot := wslot
    gid := gid
    asid := d.asid
    lanes := ls.map (fun l => (l, { life := .live }))
    splits := [(0, { pc := evenPc d.entry, mask := maskOf ls })]
    queue := queue }

/-- As whom a die's placement unit reads memory. -/
def unitWho (die : Nat) : Who := ⟨none, die, false, false⟩

/-- Loads the grid's dictionary unless the core holds it, then performs the acquire of a placement (07 R224). -/
def State.ready (s : State) (d : Desc) (core : Nat) : State :=
  let has := match (s.core core).dict with | some x => x.asid == d.asid && x.dicta == d.dicta | none => false
  let s1 := if has then s else s.loadDict core d.asid d.dicta d.dcnt
  { s1 with mem := s1.mem.acquire core 4 }

/-- The quantum of a grid's queue starts (R234). -/
def State.startQuantum (s : State) (g : Grid) : State :=
  s.setDie g.home { s.die g.home with quanta := Tbl.put (s.die g.home).quanta g.queue g.desc.asid }

/-- Places the members of a fresh pack on a block of cores. -/
def State.placeFresh (s : State) (g : Grid) (p base : Nat) : State :=
  let n := 2 ^ g.desc.nlog
  let s1 := (List.range n).foldl (fun s m =>
    let w := p * n + m
    let core := base + m
    let (s1, wslot, slots) := s.allot g w base m
    let (s2, tw) := s1.teamWord (unitWho (core / 64)) g.desc w
    let vs : Tbl View := (g.desc.views.zip (List.range 64)).map (fun v => (v.2, View.parse v.1))
    let s3 := s2.updWg core wslot (fun x => { x with teams := BitVec.ofNat 64 (tw.getD 0), views := vs })
    let s4 := (slots.zip (List.range slots.length)).foldl (fun s e => s.setCtx (.split core e.1 0) (g.desc.group core wslot e.2 g.queue)) s3
    s4.ready g.desc core) (if g.started then s else s.startQuantum g)
  s1.updGrid g.key (fun x => { x with
    packs := x.packs ++ [{ p := p, die := base / 64, base := some base }]
    started := true })

/-- Pack number j of a grid on a die, if there is one (07 R219). -/
def Grid.packOn (g : Grid) (die j : Nat) : Option Nat :=
  let ds := g.desc.dies
  let p := j * ds.length + (ds.idxOf die)
  if ds.contains die && p < g.desc.w / 2 ^ g.desc.nlog then some p else none

/-- Whether the producers of a dependent launch have all triggered (07 R221); one that has ended has. -/
def State.depMet (s : State) (g : Grid) : Bool :=
  g.prods.all (fun k => match s.gridAt k with
    | some q => q.desc.w * q.desc.groups ≤ q.trigN
    | none => true)

/-- Whether the tile flags of every member of a pack are set (07 R222). -/
def State.tilesSet (s : State) (g : Grid) (die p : Nat) : State × Bool :=
  let n := 2 ^ g.desc.nlog
  (List.range n).foldl (fun (acc : State × Bool) m =>
    if !acc.2 then acc
    else
      let va := g.desc.tflag + 4 * ((p * n + m) / 2 ^ g.desc.tsh)
      match acc.1.mem.flagSet (unitWho die) g.desc.asid va g.desc.texp with
      | (m, .ok b) => ({ acc.1 with mem := m }, b)
      | (m, .error _) => ({ acc.1 with mem := m }, false)) (s, true)

/-- The next fresh pack of a grid on a die whose dependency is met, by its number on the die. -/
def State.nextFresh (s : State) (g : Grid) (die : Nat) : Nat → Nat → State × Option (Nat × Nat)
  | 0, _ => (s, none)
  | n + 1, j =>
    match g.packOn die j with
    | none => (s, none)
    | some p =>
      if g.ahead.contains p then s.nextFresh g die n (j + 1)
      else if g.desc.depm = 2 then
        match s.tilesSet g die p with
        | (s1, true) => (s1, some (j, p))
        | (s1, false) => s1.nextFresh g die n (j + 1)
      else if g.desc.depm = 1 && !s.depMet g then (s, none)
      else (s, some (j, p))

/-- Counts a fresh pack as taken. -/
def Grid.take (g : Grid) (die j p : Nat) : Grid :=
  if j = Tbl.get 0 g.next die then { g with next := Tbl.put g.next die (j + 1) } else { g with ahead := g.ahead ++ [p] }

/-! Saving. -/

/-- Frames of a space that only CLEAN views hold (01 R39), counted from the allocation. -/
def Wg.cleanFrames (w : Wg) (sp : Nat) : List Nat :=
  let inRun (v : View) (f : Nat) : Bool := (v.front ≤ f && f ≤ v.front + v.nfr) || (v.shd && v.shadow ≤ f && f ≤ v.shadow + v.nfr)
  let vs := (w.views.filter (fun e => e.1 / 16 = sp && e.2.en)).map (·.2)
  (List.range (spaceFrames sp)).filter (fun f => vs.any (fun v => v.cln && inRun v f) && vs.all (fun v => v.cln || !inRun v f))

/-- What a workgroup's frames hold, each entry relative to its allocation; `u` is the number of entries of a frame. -/
def Wg.takeOut {α : Type} (w : Wg) (d : Desc) (t : Tbl α) (u : Nat) : Tbl α :=
  t.filterMap (fun e =>
    let f := e.1 / u
    let sp := f / 256
    let a := w.alloc.getD sp 0
    if a ≤ f % 256 && f % 256 < a + d.frames.getD sp 0 && !(w.cleanFrames sp).contains (f % 256 - a) then some (e.1 - a * u, e.2) else none)

/-- Puts saved entries into the frames of another allocation; the frames of CLEAN views, which were not saved, stay as they are (01 R46). -/
def Wg.putIn {α : Type} (w : Wg) (d : Desc) (t saved : Tbl α) (u : Nat) : Tbl α :=
  let mine (k : Nat) : Bool :=
    let f := k / u
    let sp := f / 256
    let a := w.alloc.getD sp 0
    a ≤ f % 256 && f % 256 < a + d.frames.getD sp 0 && !(w.cleanFrames sp).contains (f % 256 - a)
  saved.foldl (fun t e => Tbl.put t (e.1 + w.alloc.getD (e.1 / u / 256) 0 * u) e.2) (t.filter (fun e => !mine e.1))

/-- Bytes that a save of a workgroup writes (07 R238). -/
def State.saveBytes (s : State) (core : Nat) (w : Wg) (d : Desc) (recs ents : Nat) : Nat :=
  (s.groupsOf core w).length * (128 * d.regs + 1024) + 4096 * (d.frames.getD 0 0 + d.frames.getD 1 0 + d.frames.getD 2 0)
    + 4096 * (d.frames.getD 3 0 - (w.cleanFrames 3).length) + 4096 + 32 * recs + 64 * ents

/-- Writes n sectors of a save area; their layout is not given (log entry 7). -/
def Mem.saveRun (m : Mem) (who : Who) (asid va : Nat) : Nat → Mem × Option Flt
  | 0 => (m, none)
  | n + 1 =>
    let x := ofBytes ((List.range 32).map (fun i => Config.saveByte (va + i) m.ctr))
    match m.writeG who asid va 32 x 0 0 with
    | (m1, some f) => (m1, some f)
    | (m1, none) => Mem.saveRun { m1 with ctr := m1.ctr + 1 } who asid (va + 32) n

/-- Whether a group's accesses and blocking instructions are done, so that it can be saved (07 R237; 09 R287). -/
def Ctx.drained (c : Ctx) : Bool := c.memops.isEmpty && c.splits.all (fun e => e.2.blk.isNone) && c.pool.all (fun e => e.blk.isNone)

/-- Whether a pack's cores have drained what a save waits for. -/
def State.drained (s : State) (ms : List (Nat × Nat × Wg)) : Bool :=
  ms.all (fun r =>
    (s.groupsOf r.1 r.2.2).all (fun g => g.2.drained)
    && (s.threadsOf r.1 r.2.1).all (fun t => (s.ctx (.thread (r.1 / 64) t)).quiet)
    && !(s.core r.1).mq.any (fun o => o.wslot == r.2.1)
    && (!r.2.2.mrun || (s.ctx (.mseq r.1)).drained) && (!r.2.2.crun || (s.ctx (.cseq r.1)).drained))

/-- A group's token request is withdrawn, and granted tokens return (07 R230). -/
def State.dropToken (s : State) (a : Actor) : State :=
  let c := s.ctx a
  let die := s.dieOf a
  let d := s.die die
  let s1 := s.setDie die { d with
    ptq := d.ptq.filter (fun q => q.1.base != a.base)
    used := if c.tok == .granted then d.used - c.tokN else d.used }
  s1.updCtx a (fun c => { c with tok := .none, tokN := 0 })

/-- The page requests of a group whose commit waits for storage or the host, one for each page (04 R140, R143, R147): each storage page to its
port, each host page as a token with its PAGE_HOST event. -/
def State.askPages (s : State) (core slot : Nat) (g : Grid) (w : Nat) : State :=
  let a : Actor := .split core slot 0
  let c := s.ctx a
  match c.svc with
  | none => s
  | some v =>
    if v.stage != 1 then s
    else
      let rs := s.pageRecs a v
      let pages := ((rs.filter (fun e => e.2.cause == cPageStorage)).map (fun e => (fld e.2.detail.toNat 37 3, e.2.va / 65536 * 65536))).eraseDups
      let ports := (List.range 8).filter (fun p => pages.any (fun x => x.1 == p))
      let s1 := ports.foldl (fun s p =>
        let q := s.port p
        let r : FReq := ⟨g.key, w, c.gid, c.asid, (pages.filter (fun x => x.1 == p)).map (·.2)⟩
        s.setPort p ({ q with offered := q.offered ++ [r] }).takeIn) s
      let die := core / 64
      let hosts := ((rs.filter (fun e => e.2.cause == cPageHost)).map (fun e => e.2.va / 65536 * 65536)).eraseDups
      let (s2, toks) := hosts.foldl (fun (acc : State × List Nat) page =>
        let d := acc.1.die die
        let t := d.nextTok % 65536
        let s3 := acc.1.setDie die { d with nextTok := (t + 1) % 65536, tokens := d.tokens ++ [⟨t, c.asid, page⟩] }
        (s3.event die (evRec 4 0 c.asid t core die false (page % 2 ^ 55)), acc.2 ++ [t])) (s1, [])
      s2.updCtx a (fun c => { c with svc := some { v with stage := 2, pages := pages, tokens := toks } })

/-- Saves a resident pack whose cores have drained (07 R237). A write to the save area that faults kills the pack. -/
def State.savePack (s : State) (g : Grid) (p : Pack) (base : Nat) : State :=
  let die := base / 64
  let first := p.p * 2 ^ g.desc.nlog
  let ms := s.packWgs g.key first die
  -- step 1: recall; step 2: token requests; step 3: release
  let s1 := ms.foldl (fun s r => r.2.2.slots.foldl (fun s k =>
    s.recall (.split r.1 k 0) ((s.threadsOf r.1 r.2.1).filter (fun t => (s.ctx (.thread die t)).home == k))) s) s
  let s2 := ms.foldl (fun s r => (s.groupsOf r.1 r.2.2).foldl (fun s h => s.dropToken (.split r.1 h.1 0))
    ((if r.2.2.mrun then s.dropToken (.mseq r.1) else s).updWg r.1 r.2.1 (fun w => { w with pk := [] }))) s1
  let s3 := ms.foldl (fun s r =>
    let gs := s.groupsOf r.1 r.2.2
    let priv := gs.foldl (fun (m : Mem) h =>
      let lo := g.desc.privBase r.2.2.w + h.2.gid * 32 * g.desc.psz
      (m.range1 r.1 g.desc.asid lo (lo + 32 * g.desc.psz) false false).1) s.mem
    let (m, bad) := priv.release r.1 5
    let s4 := { s with mem := m }
    match bad with
    | [] => s4
    | sl :: _ => gs.foldl (fun s h =>
        let a : Actor := .split r.1 h.1 0
        let (s5, pl) := s.alloc1 a 0 h.2.alive ⟨cCompressSpill, sl⟩ 0
        s5.sinks a 0 ((lanesOf h.2.alive).map (fun l => (l, pl)))) s4) s2
  -- step 4: the save area
  let (m4, bad) := ms.foldl (fun (acc : Mem × Option Flt) r => match acc.2 with
    | some _ => acc
    | none =>
      let recs := ((s3.core r.1).side.filter (fun e => e.2.live && e.2.wgs == r.2.1)).length
      let ents := ((s3.core r.1).quar.filter (fun e => r.2.2.slots.contains e.slot)).length
      acc.1.saveRun (unitWho die) g.desc.asid (g.desc.saveb + r.2.2.w * 0x400000) (s3.saveBytes r.1 r.2.2 g.desc recs ents / 32)) (s3.mem, none)
  let s4 := { s3 with mem := m4 }
  match bad with
  | some _ => (s4.killPack g.key first die).updGrid g.key (fun x => { x with status := 3 })
  | none =>
    let s5 := ms.foldl (fun s r => (s.groupsOf r.1 r.2.2).foldl (fun s h => s.askPages r.1 h.1 g r.2.2.w) s) s4
    let saved := ms.map (fun r =>
      let core := r.1
      let w : Wg := Tbl.get {} (s5.core core).wgs r.2.1
      ({ wg := w
         groups := ((w.slots.zip (List.range w.slots.length)).map (fun e => (e.2, s5.ctx (.split core e.1 0)))).filter (fun e => e.2.on)
         recs := (s5.core core).side.filter (fun e => e.2.live && e.2.wgs == r.2.1)
         quar := (s5.core core).quar.filter (fun e => w.slots.contains e.slot)
         oc := w.takeOut g.desc (Tbl.get [] s5.mem.oc core) 4096
         osec := w.takeOut g.desc (Tbl.get [] s5.mem.osec core) 128
         mseq := if w.mrun then some (s5.ctx (.mseq core)) else none
         cseq := if w.crun then some (s5.ctx (.cseq core)) else none } : Saved))
    -- step 5: the cores are free
    let s6 := ms.foldl (fun s r => (s.freeRecs r.1 (fun _ q => q.wgs == r.2.1)).freeWg r.1 r.2.1) s5
    { (s6.updGrid g.key (fun x => { x with packs := x.packs.map (fun q =>
        if q.p == p.p && q.die == p.die then { q with base := none, saved := saved, saving := false, left := s.leftN } else q) })) with leftN := s.leftN + 1 }

/-! Placing again. -/

/-- A payload with its record index replaced as the map says (05 R175); a payload of cause NONE names no record. -/
def movePl (mp : List (Nat × Nat)) (p : Payload) : Payload :=
  if plCause p = 0 then p
  else match mp.find? (fun e => e.1 == plIdx p) with
    | some e => mkPl (plCause p) e.2
    | none => p

def Val.move {α : Type} (mp : List (Nat × Nat)) (v : Val α) : Val α := match v with | .ok x => .ok x | .bad p => .bad (movePl mp p)

def moveIdx (mp : List (Nat × Nat)) (i : Nat) : Nat := match mp.find? (fun e => e.1 == i) with | some e => e.2 | none => i

def Lane.move (mp : List (Nat × Nat)) (x : Lane) : Lane :=
  { x with
    v := x.v.map (fun e => (e.1, Val.move mp e.2))
    p := x.p.map (fun e => (e.1, Val.move mp e.2))
    dr := Val.move mp x.dr
    rgn := { x.rgn with recp := movePl mp x.rgn.recp } }

/-- A saved context on another core: every payload and record index rewritten. -/
def Ctx.move (mp : List (Nat × Nat)) (core wslot home : Nat) (c : Ctx) : Ctx :=
  { c with
    core := core
    wslot := wslot
    home := home
    lanes := c.lanes.map (fun e => (e.1, e.2.move mp))
    s := c.s.map (fun e => (e.1, Val.move mp e.2))
    q := c.q.map (fun e => (e.1, Val.move mp e.2))
    lastRec := c.lastRec.map (moveIdx mp)
    pend := c.pend.map (fun h => (h.1, { h.2 with val := h.2.val.map (fun t => t.map (fun e => (e.1, e.2.map (Val.move mp)))) }))
    xch := c.xch.map (fun x => { x with vals := x.vals.map (fun e => (e.1, Val.move mp e.2)) })
    svc := c.svc.map (fun v => { v with recs := v.recs.map (moveIdx mp), failed := v.failed.map (moveIdx mp) })
    hit := c.hit.map (fun e => (e.1, movePl mp e.2)) }

/-- An actor of a saved workgroup on its new core. -/
def Actor.move (old new : List Nat) (core : Nat) (a : Actor) : Actor :=
  match a with
  | .split _ g k => .split core (new.getD (old.idxOf g) 0) k
  | .mseq _ => .mseq core
  | .cseq _ => .cseq core
  | x => x

/-- Writes the records of a saved workgroup to free indices; the map of the old to the new ones (05 R175). -/
def Core.moveRecs (c : Core) (wslot : Nat) (rs : Tbl Rec) : Core × List (Nat × Nat) :=
  let (c1, mp) := rs.foldl (fun (acc : Core × List (Nat × Nat)) e =>
    let (i, n) := acc.1.place 1
    if n = 0 then (acc.1, acc.2 ++ [(e.1, 1023)])
    else ({ acc.1.setRec i { e.2 with wgs := wslot } with ptr := (i + 1) % 1023 }, acc.2 ++ [(e.1, i)])) (c, [])
  (mp.foldl (fun c e => if e.2 = 1023 then c else c.setRec e.2 { c.entry e.2 with chain := moveIdx mp (c.entry e.2).chain }) c1, mp)

/-- Refills the CLEAN views of a workgroup that has been placed again, in the name of its first group, which may have exited (01 R39). -/
def State.refillAll (s : State) (core wslot slot : Nat) : State :=
  let w : Wg := Tbl.get {} (s.core core).wgs wslot
  (w.views.filter (fun v => v.2.en && v.2.cln)).foldl (fun s v =>
    (s.refill (s.engOf (.split core slot 0) false) (v.1 / 16) (v.1 % 16)).1) s

/-- Loads one saved member onto a core (07 R224, R235). -/
def State.loadSaved (s : State) (g : Grid) (base m : Nat) (sv : Saved) : State :=
  let core := base + m
  let (s1, wslot, slots) := s.allot g sv.wg.w base m
  let fresh : Wg := Tbl.get {} (s1.core core).wgs wslot
  let (co, mp) := (s1.core core).moveRecs wslot sv.recs
  let old := sv.wg.slots
  let mvA (a : Actor) : Actor := Actor.move old slots core a
  let w : Wg := { sv.wg with
    base := base
    alloc := fresh.alloc
    slots := slots
    ops := sv.wg.ops.map (fun o => { o with arr := o.arr.map (fun v => { v with act := mvA v.act, a := Val.move mp v.a }) })
    forker := slots.getD (old.idxOf sv.wg.forker) 0
    rdv := sv.wg.rdv.map (fun e => (slots.getD (old.idxOf e.1) 0, e.2)) }
  let quar := sv.quar.map (fun e => { e with
    slot := slots.getD (old.idxOf e.slot) 0
    bytes := e.bytes.map (fun b => (b.1, { b.2 with poi := b.2.poi.map (movePl mp) })) })
  let keep := (sv.groups.filter (fun c => match c.2.svc with | some v => v.permit && v.stage == 0 | none => false)).length
  let s2 := s1.setCore core { co with wgs := Tbl.put co.wgs wslot w, quar := co.quar ++ quar, permits := co.permits + keep }
  let s3 := { s2 with mem := { s2.mem with
    oc := Tbl.upd [] s2.mem.oc core (fun t => w.putIn g.desc t sv.oc 4096)
    osec := Tbl.upd [] s2.mem.osec core (fun t => w.putIn g.desc t sv.osec 128) } }
  let gone := (slots.zip (List.range slots.length)).foldl (fun s e =>
    s.setCtx (.split core e.1 0) { core := core, wslot := wslot, gid := e.2, asid := g.desc.asid, queue := g.queue }) s3
  let s4 := sv.groups.foldl (fun s c => 
    let k := slots.getD c.1 0
    let lost := sv.recs.any (fun r => r.2.group == c.2.gid && moveIdx mp r.1 == 1023)
    s.setCtx (.split core k 0) { c.2.move mp core wslot k with ovf := c.2.ovf || lost }) gone
  let s5 := match sv.mseq with | some c => s4.setCtx (.mseq core) (c.move mp core wslot 0) | none => s4
  let s6 := match sv.cseq with | some c => s5.setCtx (.cseq core) { c.move mp core wslot 0 with hid := max c.hid (s5.ctx (.cseq core)).hid } | none => s5
  let s7 := (s6.ready g.desc core).refillAll core wslot (slots.headD 0)
  -- commits that waited for pages resume (04 R143)
  sv.groups.foldl (fun s c => let a : Actor := .split core (slots.getD c.1 0) 0
    match (s.ctx a).svc with
    | some v => if v.stage = 2 then s.svcFinish a else s
    | none => s) s7

/-- The members of a saved pack that need a sequencer find it without a program on their core (log entry 60). -/
def State.seqRoom (s : State) (p : Pack) (core i : Nat) : Bool :=
  p.saved.all (fun w => w.wg.member != i || ((w.mseq.isNone || !(s.ctx (.mseq core)).on) && (w.cseq.isNone || !(s.ctx (.cseq core)).on)))

/-- A core has drained its memory, matrix and copy queues for a context load (R235 step 2). An episode that still waits for arrivals is
in no queue (log entry 60). -/
def State.coreDrained (s : State) (core : Nat) : Bool :=
  (s.core core).mq.isEmpty && (s.core core).wgs.all (fun w => w.2.ops.all (fun o => !s.opWhole core w.1 o)) && (s.ctx (.mseq core)).memops.isEmpty && (s.ctx (.cseq core)).memops.isEmpty
    && (s.core core).wgs.all (fun w => (s.groupsOf core w.2).all (fun g => g.2.memops.isEmpty))

/-- Cores stop issuing, or issue again (R235). -/
def State.stopCores (s : State) (cs : List Nat) (b : Bool) : State := cs.foldl (fun s c => s.setCore c { s.core c with stop := b }) s

/-- Places a saved pack again, on cores that have drained; its exchanges meet those that wait for them (12 R391). -/
def State.placeSaved (s : State) (g : Grid) (p : Pack) (base : Nat) : State :=
  let s0 := (s.startQuantum g).updGrid g.key (fun x => { x with
    packs := x.packs.map (fun q => if q.p == p.p && q.die == p.die then { q with base := some base, saved := [], left := 0, load := none } else q) })
  let s1 := p.saved.foldl (fun s v => s.loadSaved g base v.wg.member v) s0
  let s2 := (s1.packWgs g.key (p.p * 2 ^ g.desc.nlog) p.die).foldl (fun s r => r.2.2.slots.foldl (fun s k => s.xchAgain r.1 k) s) s1
  s2.barSweep g.key

/-- Whether a pack that is out waits for no page (04 R143, R147). -/
def Pack.returns (p : Pack) : Bool :=
  p.base.isNone && p.saved.all (fun w => w.groups.all (fun c => match c.2.svc with | some v => v.pages.isEmpty && v.tokens.isEmpty | none => true))

/-- The pack of a die that returns first. -/
def Grid.firstBack (g : Grid) (die : Nat) : Option Pack :=
  (g.packs.filter (fun p => p.die == die && p.returns)).foldl (fun b p => match b with
    | none => some p
    | some q => if p.left < q.left then some p else b) none

/-! PACK_PLACE. -/

/-- Places one pack of a grid on a die, if its next pack can be placed (07 R223). -/
def State.placeOne (s : State) (g : Grid) (die : Nat) : State × Bool :=
  let mask := Tbl.get 0 g.masks die
  if (s.die die).inRst then (s, false) else
  match g.firstBack die with
  | some p => match s.blockFor g.desc mask die (s.seqRoom p) with
    | some b => (s.placeSaved g p b, true)
    | none => (s, false)
  | none =>
    let j := Tbl.get 0 g.next die
    match s.nextFresh g die (g.desc.w / 2 ^ g.desc.nlog + 1) j with
    | (s1, none) => (s1, false)
    | (s1, some (k, p)) => match s1.block223 g.desc mask die with
      | none => (s1, false)
      | some b => ((s1.updGrid g.key (fun x => x.take die k p)).placeFresh g p b, true)

/-- Places every pack of a COSCHED grid together, or none (06 R187). -/
def State.placeAll (s : State) (g : Grid) : State × Bool :=
  let k := g.key
  let total := g.desc.w / 2 ^ g.desc.nlog
  let out := g.packs.filter (fun p => p.base.isNone)
  let fresh := !g.started
  if !fresh && (out.isEmpty || !out.all Pack.returns || g.packs.any (fun p => p.base.isSome)) then (s, false)
  else
    let n := if fresh then total else out.length
    let r := (List.range n).foldl (fun (acc : Option State) _ => match acc with
      | none => none
      | some s => (List.range 4).findSome? (fun die => match s.gridAt k with
        | none => none
        | some g => match s.placeOne g die with
          | (s1, true) => some s1
          | (_, false) => none)) (some s)
    match r with
    | some s1 => (s1, n != 0)
    | none => (s, false)

/-- The packs of a grid with the cores at which they are to be loaded noted: those that are out and stand on cores once placed as in `t`. -/
def Grid.loads (g : Grid) (t : State) : List Pack :=
  match t.gridAt g.key with
  | some g' => g.packs.map (fun p => match p.base, g'.packs.find? (fun q => q.p == p.p && q.die == p.die) with
    | none, some q => { p with load := q.base }
    | _, _ => p)
  | none => g.packs

/-- The cores of the packs of a grid that are being loaded. -/
def Grid.loading (g : Grid) : List Nat :=
  g.packs.flatMap (fun p => match p.load with | some b => (List.range (2 ^ g.desc.nlog)).map (b + ·) | none => [])

/-- What a grid's next placement on a die comes to: a pack that returns is loaded once its cores have drained, and they have stopped issuing
until then (R235). -/
def State.placeNext (s : State) (g : Grid) (die : Nat) : State × Bool :=
  match (if g.desc.cosched then s.placeAll g else s.placeOne g die) with
  | (t, false) => (t, false)
  | (t, true) =>
    let g1 : Grid := { g with packs := g.loads t }
    if g1.loading.all s.coreDrained then (t, true) else ((s.updGrid g.key (fun _ => g1)).stopCores g1.loading true, true)

/-- A load that is under way: once its cores have drained, the packs are placed there, and the cores issue again (R235 steps 2 to 4). -/
def State.loadNext (s : State) (g : Grid) : State :=
  if !g.loading.all s.coreDrained then s
  else (g.packs.foldl (fun s p => match p.load with | some b => s.placeSaved g p b | none => s) s).stopCores g.loading false

/-- The stopped cores of a die. -/
def State.stopped (s : State) (die : Nat) : List Nat := (s.cores.filter (fun e => e.1 / 64 == die && e.2.stop)).map (·.1)

/-- PACK_PLACE: a load of the die that is under way comes first; else the first grid in launch order whose next pack can be placed on the die.
Cores that stopped for a load that has come to nothing issue again. -/
def execPackPlace (die : Nat) (s : State) : Out :=
  match s.grids.find? (fun g => g.packs.any (fun p => p.die == die && p.load.isSome)) with
  | some g => .next (s.loadNext g)
  | none =>
  let r := (s.grids.map Grid.key).foldl (fun (acc : State × Bool) k =>
    if acc.2 then acc
    else match acc.1.gridAt k with
      | none => acc
      | some g => if !bit g.desc.dmask die then acc else acc.1.placeNext g die) (s.stopCores (s.stopped die) false, false)
  .next r.1

/-- TILE_FLAG_NOTIFY: the splits of the die that wait for tile flags look again; the placement unit reads them when it next places
(07 R222; 11 R354). -/
def execTileFlagNotify (die : Nat) (s : State) : Out :=
  if !(s.die die).notes then .next s
  else
    let s1 := s.setDie die { s.die die with notes := false }
    .next ((s1.residents.filter (fun r => r.1 / 64 == die)).foldl (fun s r =>
      (s.groupsOf r.1 r.2.2).foldl (fun s g => s.retile (.split r.1 g.1 0)) s) s1)

/-! VACATE (07 R236). -/

/-- Writes VACATE_DONE. -/
def State.vacateDone (s : State) (die thread asid gtag freed : Nat) : State := s.event die (evRec 9 0 asid gtag thread die true freed)

/-- A SAVE whose packs are all out ends with VACATE_DONE. -/
def State.vacCheck (s : State) : State :=
  let (fin, rest) := s.vacs.partition (fun (v : Vac) => v.wait.isEmpty)
  fin.foldl (fun s v => s.vacateDone v.die v.thread v.asid 0 v.freed) { s with vacs := rest }

/-- A pack has left its cores: the saves that wait for it count the cores of their die. -/
def State.vacLeft (s : State) (grid die p cores : Nat) : State :=
  ({ s with vacs := s.vacs.map (fun (v : Vac) => if v.wait.contains (grid, die, p) then
    { v with wait := v.wait.filter (· != (grid, die, p)), freed := if v.die = die then v.freed ||| cores else v.freed } else v) }).vacCheck

/-- The cores of a block as a mask of its die. -/
def blockMask (base n : Nat) : Nat := ones (base % 64) n

/-- The cores that a pack stands on or is being placed on. -/
def Pack.at? (p : Pack) : Option Nat := match p.base with | some b => some b | none => p.load

/-- Packs with a member on the named cores of a die, or being placed on them; of a COSCHED grid so affected, all its packs. -/
def Grid.hitBy (g : Grid) (die mask : Nat) : List Pack :=
  let n := 2 ^ g.desc.nlog
  let on := g.packs.filter (fun p => match p.at? with | some b => p.die == die && blockMask b n &&& mask != 0 | none => false)
  if on.isEmpty then [] else if g.desc.cosched then g.packs.filter (fun p => p.at?.isSome) else on

def execVacateSave (d a b mode z : Nat) (s : State) : Out :=
  s.ctlOnly (fun s =>
    let s1 := s.warns (ignW (z != 0) ||| flagIf (mode == 3) wModRsvd)
    s1.sinkOps [(s.me.rs a).pl?, (s.me.rs b).pl?] (fun s1 =>
      if mode = 3 then (s1.upd (fun c => c.ws d (.ok 1))).retire s.mask
      else
        let die := s.dieOf s.cur.act
        let mask := ((s.me.rs a).getD 0).toNat
        let hits := s1.grids.map (fun (g : Grid) => (g.key, g.hitBy die mask))
        let s2 : State := { s1 with grids := s1.grids.map (fun (g : Grid) =>
          let h : List Pack := g.hitBy die mask
          if h.isEmpty then g
          else { g with
            masks := Tbl.upd 0 g.masks die (fun m => without m mask)
            packs := g.packs.map (fun (p : Pack) => if h.any (fun (q : Pack) => q.p == p.p && q.die == p.die) then { p with saving := true } else p) }) }
        let wait := hits.flatMap (fun (e : Nat × List Pack) => e.2.map (fun p => (e.1, p.die, p.p)))
        let th := match s.cur.act with | .ctl _ t => t | _ => 0
        let v : Vac := ⟨die, th, s.me.asid, wait, 0⟩
        let s3 := ({ s2 with vacs := s2.vacs ++ [v] }).upd (fun c => c.ws d (.ok 0))
        (s3.retire s.mask).vacCheck))

def execVacateOpen (d a b _mode z : Nat) (s : State) : Out :=
  s.ctlOnly (fun s =>
    let s1 := s.warns (ignW (z != 0))
    s1.sinkOps [(s.me.rs a).pl?, (s.me.rs b).pl?] (fun s1 =>
      let die := s.dieOf s.cur.act
      let mask := ((s.me.rs a).getD 0).toNat
      let tag := ((s.me.rs b).getD 0).toNat % 65536
      let th := match s.cur.act with | .ctl _ t => t | _ => 0
      let s2 := match s1.gridOn tag die with
        | some g => s1.updGrid g.key (fun g => { g with masks := Tbl.upd 0 g.masks die (fun m => m ||| mask) })
        | none => s1
      ((s2.upd (fun c => c.ws d (.ok 0))).retire s.mask).vacateDone die th s.me.asid tag 0))

/-- The packs of a grid on a die that have never been placed. -/
def Grid.freshOn (g : Grid) (die : Nat) : List Nat :=
  let j0 := Tbl.get 0 g.next die
  ((List.range (g.desc.w / 2 ^ g.desc.nlog)).filterMap (fun j => if j < j0 then none else g.packOn die j)).filter (fun p => !g.ahead.contains p)

/-- The packs of a grid on a die that have never been placed are killed: their members count as gone (07 R236). -/
def State.killFresh (s : State) (g : Grid) (die : Nat) : State :=
  let n := 2 ^ g.desc.nlog
  let ps := g.freshOn die
  let s1 := ps.foldl (fun s p => (List.range n).foldl (fun s m =>
    let (s2, tw) := s.teamWord (unitWho die) g.desc (p * n + m)
    s2.updGrid g.key (fun x => { x.count die { teams := BitVec.ofNat 64 (tw.getD 0) } with trigN := x.trigN + g.desc.groups })) s) s
  (s1.updGrid g.key (fun x => { x with retired := x.retired + ps.length, next := Tbl.put x.next die (g.desc.w / n + 1) })).barSweep g.key

/-- Kills every pack of a grid on a die; the cores it frees. -/
def State.killOn (s : State) (key die : Nat) : State × Nat :=
  match s.gridAt key with
  | none => (s, 0)
  | some g =>
    let n := 2 ^ g.desc.nlog
    let mine := g.packs.filter (fun p => p.die == die)
    let freed := mine.foldl (fun m p => match p.base with | some b => m ||| blockMask b n | none => m) 0
    let s1 := mine.foldl (fun s p =>
      let s2 := match p.base with
        | some _ => s.killPack key (p.p * n) die
        | none => s.killSaved key p
      s2.vacLeft key die p.p (match p.base with | some b => blockMask b n | none => 0)) s
    let s3 := match s1.gridAt key with | some g1 => s1.killFresh g1 die | none => s1
    (s3, freed)

def execVacateKill (d a b _mode z : Nat) (s : State) : Out :=
  s.ctlOnly (fun s =>
    let s1 := s.warns (ignW (z != 0))
    s1.sinkOps [(s.me.rs a).pl?, (s.me.rs b).pl?] (fun s1 =>
      let die := s.dieOf s.cur.act
      let tag := ((s.me.rs b).getD 0).toNat % 65536
      let th := match s.cur.act with | .ctl _ t => t | _ => 0
      let (s2, freed) := match s1.gridOn tag die with
        | some g =>
          let (s3, f) := s1.killOn g.key die
          (s3.updGrid g.key (fun g => { g with status := if g.status = 3 then 3 else 2 }), f)
        | none => (s1, 0)
      ((s2.upd (fun c => c.ws d (.ok 0))).retire s.mask).vacateDone die th s.me.asid tag freed))

/-- PACK_SAVE_COMPLETE: the first save of the die whose cores have drained has written its state out. -/
def execPackSaveComplete (die : Nat) (s : State) : Out :=
  let cand := s.grids.findSome? (fun g => (g.packs.findSome? (fun p => match p.base with
    | some b => if p.die == die && p.saving && s.drained (s.packWgs g.key (p.p * 2 ^ g.desc.nlog) die) then some (p, b) else none
    | none => none)).map (fun x => (g, x)))
  match cand with
  | none => .next s
  | some (g, p, b) => .next ((s.savePack g p b).vacLeft g.key die p.p (blockMask b (2 ^ g.desc.nlog)))

/-! The end of a grid. -/

/-- Whether every pack of a grid has retired. -/
def Grid.finished (g : Grid) : Bool := g.packs.isEmpty && g.desc.w / 2 ^ g.desc.nlog ≤ g.retired

/-- GRID_COMPLETION: the slices flush the entries of the ASID, and the home die writes GRID_DONE (04 R136; 07 R219). -/
def execGridCompletion (die : Nat) (s : State) : Out :=
  match s.grids.find? (fun g => g.home == die && g.finished) with
  | none => .next s
  | some g =>
    let m := (List.range Config.slices).foldl (fun (m : Mem) sl =>
      ((m.slice sl).tlb.filter (fun e => e.asid == g.desc.asid)).foldl (fun m e => m.flushEnt sl e) m) s.mem
    .next (({ s with mem := m, grids := s.grids.filter (fun x => x.key != g.key) }).event die
      (evRec 1 g.status g.desc.asid g.tag g.queue die false g.desc.udata))

/-- QUANTUM_EXPIRY: the quantum of a queue elapses, once for each start (07 R234). -/
def execQuantumExpiry (die q : Nat) (s : State) : Out :=
  let d := s.die die
  match Tbl.find d.quanta q with
  | none => .next s
  | some asid => .next ((s.setDie die { d with quanta := Tbl.del d.quanta q }).event die (evRec 8 0 asid 0 q die false d.cycles.toNat))

/-! Submissions (07 R211). -/

/-- The queue that a free thread serves next: the highest PRIO, round-robin among equals from the queue served last, whatever its PRIO (log
entry 67). -/
def State.nextQueue (s : State) (die : Nat) : Option Nat :=
  let d := s.die die
  let busy (q : Nat) : Bool := (List.range 8).any (fun t => let c := s.ctx (.ctl die t); c.on && !c.fw && c.queue == q)
  let word (q : Nat) : Nat := (Tbl.get 0 d.sqd q).toNat
  let size (q : Nat) : Nat := 2 ^ (fld (word q) 80 4 + 4)
  let ok (q : Nat) : Bool := bit (word q) 63 && fld (word q) 64 16 != 0 && fld (word q) 20 20 % size q != fld (word q) 0 20 % size q && !busy q
  let ring := (List.range 64).map (fun i => (d.lastq + 1 + i) % 64)
  [3, 2, 1, 0].findSome? (fun p => ring.find? (fun q => ok q && fld (word q) 61 2 == p))

/-- SUBMISSION_TAKE: a free thread starts the program of the next submission entry, which is read under the owner slot of the queue's ASID,
and as 0 outside populated HBM (log entry 67). -/
def execSubmissionTake (die : Nat) (s : State) : Out :=
  if (s.die die).inRst then .next s else
  match (List.range 8).find? (fun t => !(s.ctx (.ctl die t)).on), s.nextQueue die with
  | some t, some q =>
    let d := s.die die
    let w := (Tbl.get 0 d.sqd q).toNat
    let at' := fld w 84 44 * 4096 + 16 * (fld w 20 20 % 2 ^ (fld w 80 4 + 4))
    let rd (o : Nat) : Nat := if populated (at' + o) then s.mem.num (s.mem.oslot (fld w 64 16)) (at' + o) 8 else 0
    let c : Ctx :=
      { on := true
        asid := fld w 64 16
        s := if rd 0 = 0 then [] else [(1, .ok (BitVec.ofNat 64 (rd 0)))]
        splits := [(0, { pc := evenPc (BitVec.ofNat 64 (rd 8)) })]
        queue := q }
    .next ((s.setDie die { d with lastq := q }).setCtx (.ctl die t) c)
  | _, _ => .next s

end Sys2Proof.Machine
end

