-- ==== Sys2Proof/Machine/Storage.lean ====
section
/-! DEFINITION. The Fetch engines of the storage ports (04 R142 to R146; 11 R361; 13 R415, R416) and the fault-resume doorbell
(04 R147, R148). -/

namespace Sys2Proof.Machine

/-! Saved groups that wait for a page. -/

/-- Changes every saved group that a commit's service keeps out. -/
def State.updWaiting (s : State) (f : Grid → Pack → Saved → Ctx → Svc → Ctx × Tbl Rec) : State :=
  { s with grids := s.grids.map (fun (g : Grid) => { g with packs := g.packs.map (fun (p : Pack) => { p with saved := p.saved.map (fun (w : Saved) =>
      w.groups.foldl (fun (w : Saved) e => match e.2.svc with
        | none => w
        | some v =>
          let r := f g p w e.2 v
          ({ w with groups := Tbl.put w.groups e.1 r.1, recs := r.2 } : Saved)) w) }) }) }

/-- The records of a service with a cause and a page. -/
def Saved.recsOf (w : Saved) (v : Svc) (causes : List Nat) (page : Nat) : List Nat :=
  v.recs.filter (fun i => match Tbl.find w.recs i with
    | some r => causes.contains r.cause && r.va / 65536 * 65536 == page
    | none => false)

/-- A group's request for a page that its engine has not taken yet. -/
def Port.awaits (q : Port) (grid w gid page : Nat) : Bool :=
  (q.intake ++ q.offered).any (fun r => r.grid == grid && r.w == w && r.gid == gid && r.pages.contains page)

/-- A page is complete for the groups that joined it: as a success, or with an NVMe status that replaces the DETAIL of their
records (R145). -/
def State.pageDone (s : State) (port asid page : Nat) (fail : Option Nat) : State :=
  s.updWaiting (fun g _ w c v =>
    if c.asid == asid && v.pages.contains (port, page) && !(s.port port).awaits g.key w.wg.w c.gid page then
      let mine := w.recsOf v [cPageStorage] page
      let v1 := { v with pages := v.pages.filter (· != (port, page)) }
      match fail with
      | none => ({ c with svc := some v1 }, w.recs)
      | some st => ({ c with svc := some { v1 with failed := v1.failed ++ mine } },
          w.recs.map (fun e => if mine.contains e.1 then (e.1, { e.2 with detail := BitVec.ofNat 64 st }) else e))
    else (c, w.recs))

/-- Hands a page of one group to the host, with a token (R145, R147). -/
def State.handPage (s : State) (port : Nat) (r : FReq) (page status : Nat) : State :=
  match (s.grids.find? (fun g => g.key == r.grid)).bind (fun g => g.packs.findSome? (fun p =>
      p.saved.findSome? (fun w => if w.wg.w == r.w then (w.groups.find? (fun e => e.2.gid == r.gid)).map (fun e => (p.die, e.2.core)) else none))) with
  | none => s
  | some (die, core) =>
    let d := s.die die
    let t := d.nextTok % 65536
    let s1 := s.setDie die { d with nextTok := (t + 1) % 65536, tokens := d.tokens ++ [⟨t, r.asid, page⟩] }
    let s2 := s1.event die (evRec 4 status r.asid t core die false page)
    s2.updWaiting (fun g _ w c v =>
      if g.key == r.grid && w.wg.w == r.w && c.gid == r.gid then
        ({ c with svc := some { v with pages := v.pages.filter (· != (port, page)), tokens := v.tokens ++ [t] } }, w.recs)
      else (c, w.recs))

/-! The engine. -/

/-- Address and value of the leaf of an address, read as a walk reads it; none where the walk ends in another way. -/
def Mem.leafWord (m : Mem) (oslot va : Nat) : Nat → Nat → Nat → Option (Nat × Nat)
  | 0, _, _ => none
  | n + 1, lvl, tbl =>
    let pa := tbl + 8 * fld va (if lvl == 1 then 42 else if lvl == 2 then 29 else 16) 13
    match m.tblEntry oslot pa with
    | .error _ => none
    | .ok e => if bit e 63 && bit e 44 && lvl < 3 then m.leafWord oslot va n (lvl + 1) (fld e 0 40 * 65536) else some (pa, e)

/-- The storage-backed leaf of a page (01 R25). -/
def Mem.storageLeaf (m : Mem) (asid va : Nat) : Option (Nat × Nat) :=
  match m.leafWord (m.oslot asid) va 3 1 (fld (m.ctx0 asid 0) 16 40 * 65536) with
  | some (pa, e) => if bit e 63 && !bit e 44 && fld e 60 3 = 3 then some (pa, e) else none
  | none => none

/-- A take from the frame pool of an ASID (R142): the frame, or the reason of the hand-over (1 empty, 2 unreadable). -/
def Mem.takeFrame (m : Mem) (asid : Nat) : Mem × Except Nat Nat :=
  let k := m.oslot asid
  let pd := fld (m.ctx0 asid 2) 0 52 * 16
  match m.tblEntry k pd, m.tblEntry k (pd + 8) with
  | .ok lo, .ok hi =>
    let t := fld hi 32 32
    if t = 0 then (m, .error 1)
    else
      let m1 := m.putNum k (pd + 12) 4 (t - 1)
      match m1.tblEntry k (fld lo 16 40 * 65536 + 8 * (t - 1)) with
      | .ok f => (m1, .ok (fld f 0 40 * 65536))
      | .error _ => (m1, .error 2)
  | _, _ => (m, .error 2)

/-- An engine that serves requests (R416). -/
def Port.serves (q : Port) : Bool := q.ready && q.en

/-- A FRAME_ORPHAN event (R145). -/
def State.orphan (s : State) (port status asid frame : Nat) : State := s.event (port / 2) (evRec 6 status asid 0 port (port / 2) false frame)

/-- A page fails with an NVMe error: its frame goes to the host (R145). -/
def State.failPage (s : State) (port asid page frame status : Nat) : State := (s.orphan port 1 asid frame).pageDone port asid page (some status)

/-- Takes one page of a request: it joins the fetch table, starts a fetch, is handed to the host, or fails. A page whose leaf is no
longer storage-backed is complete, and the replay uses the leaf. An engine that does not serve fails the page as an NVMe error, with the
frame it takes as an orphan (R145; 13 R416; 15 R437); one with no frame to take fails it alone (log entry 65). -/
def State.takePage (s : State) (port : Nat) (r : FReq) (page : Nat) : State :=
  let q := s.port port
  if !q.serves then
    match s.mem.takeFrame r.asid with
    | (m, .error _) => ({ s with mem := m }).pageDone port r.asid page (some 0xFFFF)
    | (m, .ok f) => ({ s with mem := m }).failPage port r.asid page f 0xFFFF
  else if q.table.any (fun f => f.asid == r.asid && f.page == page) then s
  else match s.mem.storageLeaf r.asid page with
    | none => s.pageDone port r.asid page none
    | some (at', leaf) => match s.mem.takeFrame r.asid with
      | (m, .error st) => ({ s with mem := m }).handPage port r page st
      | (m, .ok f) =>
        let x : Fetch := ⟨r.asid, page, leaf, at', f, q.cmdsFor r.asid page⟩
        ({ s with mem := m }).setPort port ({ q with table := q.table ++ [x] } : Port).submit

/-- Whether a page of a request can be taken now (R144). -/
def Port.room (q : Port) (r : FReq) (page : Nat) : Bool :=
  !q.serves || q.table.length < 1024 || q.table.any (fun f => f.asid == r.asid && f.page == page)

/-- Takes the pages of the request at the head of the intake queue, until the fetch table is full. -/
def State.takeHead (s : State) (port : Nat) : Nat → State
  | 0 => s
  | n + 1 =>
    let q := s.port port
    match q.intake with
    | [] => s
    | r :: rest => match r.pages with
      | [] => s.setPort port ({ q with intake := rest }).takeIn
      | p :: ps =>
        if !q.room r p then s
        else
          -- the page counts as taken before it can complete
          let s1 := s.setPort port { q with intake := { r with pages := ps } :: rest }
          (s1.takePage port r p).takeHead port n

/-- FETCH_REQUEST_INTAKE. -/
def execFetchRequestIntake (port : Nat) (s : State) : Out := .next (s.takeHead port 33)

/-- Where a byte of a namespace lies in a port's drive (13 R416). -/
def driveAt (nsid lba o : Nat) : Nat := nsid * 2 ^ 64 + lba * 65536 + o

/-- The byte that a drive holds (log entry 11). -/
def Port.byte (q : Port) (port at' : Nat) : Byte := match Tbl.find q.drive at' with | some b => b | none => Config.driveByte port at'

/-- Writes 64 KiB of a namespace into a frame under a key slot; a sector that the drive or the link gives as poisoned is written so
(05 R156). -/
def Mem.fillFrame (m : Mem) (q : Port) (port slot frame lba : Nat) (c : NvmeCmds) : Mem :=
  if !populated (frame + 65535) then m
  else (List.range 2048).foldl (fun m i =>
    m.putSec slot (frame / 32 + i) ((List.range 32).map (fun b => (b, q.byte port (driveAt c.nsid lba (32 * i + b)))))
      (bit c.pois i || q.bad.contains (driveAt c.nsid lba (32 * i) / 32))) m

/-- A fetch ends: the leaf is mapped by one compare-and-swap and the page is complete, or it fails (R143 steps 4 to 6; R145). -/
def State.fetchEnd (s : State) (port n status : Nat) : State :=
  let q := s.port port
  match q.table[n]? with
  | none => s
  | some f =>
    let s1 := s.setPort port { q with table := listDel q.table n }
    if status != 0 then s1.failPage port f.asid f.page f.frame status
    else
      let k := s.mem.oslot f.asid
      let m := s.mem.fillFrame q port k f.frame (fld f.leaf 0 37) f.cmds
      if populated f.leafAt && m.num k f.leafAt 8 == f.leaf then
        let new := (f.leaf / 2 ^ 63) * 2 ^ 63 + 2 ^ 60 + fld f.leaf 53 7 * 2 ^ 53 + fld f.leaf 40 12 * 2 ^ 40 + f.frame / 65536
        ({ s1 with mem := m.putNum k f.leafAt 8 new }).pageDone port f.asid f.page none
      else (({ s1 with mem := m }).orphan port 0 f.asid f.frame).pageDone port f.asid f.page none

/-- As whom a Fetch engine reads a page: it serves no core (02 R59). -/
def fetchWho (die : Nat) : Who := ⟨none, die, true, false⟩

/-- The sectors of a line of a page that are poisoned. -/
def Mem.badSecs (m : Mem) (die asid va : Nat) : Mem × List Nat :=
  (List.range 4).foldl (fun (acc : Mem × List Nat) j => match acc.1.readP (fetchWho die) asid (va + 32 * j) 32 0 (need := 0) with
    | (m1, .ok (_, some _)) => (m1, acc.2 ++ [j])
    | (m1, _) => (m1, acc.2)) (m, [])

/-- The bytes of a page as a Fetch engine reads them through its translation, line by line, and its poisoned sectors. -/
def Mem.pageBytes (m : Mem) (die asid page : Nat) : Mem × List (Nat × Byte) × List Nat :=
  (List.range 512).foldl (fun (acc : Mem × List (Nat × Byte) × List Nat) i =>
    match acc.1.readP (fetchWho die) asid (page + 128 * i) 128 0 (need := 0) with
    | (m1, .ok (x, e)) =>
      let (m2, js) := if e.isSome then m1.badSecs die asid (page + 128 * i) else (m1, [])
      (m2, acc.2.1 ++ (List.zip (List.range 128) (toBytes 128 x)).map (Prod.map (128 * i + ·) id), acc.2.2 ++ js.map (4 * i + ·))
    | (m1, .error _) => (m1, acc.2)) (m, [], [])

/-- The drive after a page has been written to it: a poisoned sector is sent with its poison, and is poisoned there (05 R156). -/
def Port.write (q : Port) (nsid lba : Nat) (bs : List (Nat × Byte)) (ps : List Nat) : Port :=
  let here (i : Nat) : Bool := ps.any (fun j => driveAt nsid lba (32 * j) / 32 == i)
  let new (i : Nat) : Bool := bs.any (fun e => driveAt nsid lba e.1 / 32 == i)
  { q with
    drive := bs.foldl (fun (t : Tbl Byte) (e : Nat × Byte) => Tbl.put t (driveAt nsid lba e.1) e.2) q.drive
    bad := q.bad.filter (fun i => !(here i || new i)) ++ ps.map (fun j => driveAt nsid lba (32 * j) / 32) }

/-- A flush ends: the drive holds the page, and FLUSHST completes with the NVMe status (11 R361). -/
def State.flushEnd (s : State) (port n status : Nat) : State :=
  let q := s.port port
  match q.flushes[n]? with
  | none => s
  | some f =>
    let (m, bs, ps) : Mem × List (Nat × Byte) × List Nat := if status != 0 then (s.mem, [], []) else match s.mem.flushLeaf f.asid f.page with
      | .ok _ => s.mem.pageBytes (port / 2) f.asid f.page
      | .error _ => (s.mem, [], [])
    let s1 := ({ s with mem := { m with shc := s.mem.shc } }).setPort port (({ q with flushes := listDel q.flushes n }).write f.cmds.nsid f.lba bs ps)
    let es := (s1.blocked (fun b => match b with | .flush _ p k pg => p == port && k == f.asid && pg == f.page | _ => false)).filter (fun e =>
      e.1.base == f.act.base)
    match es.find? (fun e => e.1 == f.act), es with
    | some e, _ => s1.unblock e.1 e.2 (.ok (BitVec.ofNat 64 status))
    | none, e :: _ => s1.unblock e.1 e.2 (.ok (BitVec.ofNat 64 status))
    | none, [] => s1

/-- Page n of a port ends: fetches are numbered before flushes. -/
def State.pageEnd (s : State) (port n status : Nat) : State :=
  let k := (s.port port).table.length
  if n < k then s.fetchEnd port n status else s.flushEnd port (n - k) status

/-- The commands of a page after one in flight has ended; after an error the rest of the page is not sent. -/
def NvmeCmds.ended (c : NvmeCmds) (status pois : Nat) : NvmeCmds :=
  let f := if c.fail = 0 then status else c.fail
  { c with sent := c.sent - 1, fail := f, todo := if f = 0 then c.todo else 0, pois := c.pois ||| pois }

/-- The commands of page n of a port. -/
def Port.cmds (q : Port) (n : Nat) : Option NvmeCmds :=
  if n < q.table.length then q.table[n]?.map Fetch.cmds else q.flushes[n - q.table.length]?.map Flush.cmds

def Port.setCmds (q : Port) (n : Nat) (c : NvmeCmds) : Port :=
  if n < q.table.length then { q with table := q.table.modify n (fun f => { f with cmds := c }) }
  else { q with flushes := q.flushes.modify (n - q.table.length) (fun f => { f with cmds := c }) }

/-- A command in flight of page n of a port ends with a status and the poisoned sectors of the page that it carried; with its last command
the page ends, and the room in the queue pair serves the next (13 R415). -/
def State.nvmeEnd (s : State) (port n status pois : Nat) : State :=
  let q := s.port port
  match q.cmds n with
  | none => s
  | some c =>
    if c.sent = 0 then s
    else
      let c1 := c.ended status pois
      let s1 := s.setPort port (q.setCmds n c1)
      let s2 := if c1.sent = 0 && c1.todo = 0 then s1.pageEnd port n c1.fail else s1
      s2.setPort port (s2.port port).submit

/-- NVME_COMMAND_COMPLETE: bits 14 to 0 of the operand are the status, whose bit 15 is 0 (R145), and its bits from 16 mark the sectors of the
page that came with EP (05 R156). -/
def execNvmeCommandComplete (port n status : Nat) (s : State) : Out := .next (s.nvmeEnd port n (fld status 0 15) (status / 2 ^ 16))

/-- NVME_COMMAND_TIMEOUT: Command Abort Requested (R145; 13 R416). -/
def execNvmeCommandTimeout (port n : Nat) (s : State) : Out := .next (s.nvmeEnd port n 0x0007 0)

/-- STORAGE_LINK_UP: Identify, and min(64, the controller's count) queue pairs of depth min(1024, MQES + 1) (13 R415). The operand holds the
count in [15:0], MQES in [31:16] and MDTS in [39:32]. -/
def execStorageLinkUp (port lbs ident : Nat) (s : State) : Out :=
  .next (s.setPort port { s.port port with
    ready := true, lbs := lbs, qp := min 64 (fld ident 0 16), depth := min 1024 (fld ident 16 16 + 1), mdts := fld ident 32 8 })

/-- STORAGE_LINK_DOWN: the commands in flight fail with 0xFFFF (13 R416), and with them the pages they belong to. -/
def execStorageLinkDown (port : Nat) (s : State) : Out :=
  let q := s.port port
  let s1 := s.setPort port { q with ready := false }
  .next ((List.range (q.table.length + q.flushes.length)).foldl (fun s _ => s.pageEnd port 0 0xFFFF) s1)

/-- FECFG as read (13 R416). -/
def Port.fecfg (q : Port) : Nat := q.nsid.toNat * 2 ^ 32 + q.tmo * 2 ^ 24 + q.lbs * 2 ^ 20 + q.qp * 2 ^ 12 + b2n q.ready * 2 + b2n q.en

/-! The fault-resume doorbell. -/

/-- A write of FRDB (R148). -/
def State.frdb (s : State) (die token : Nat) (fail : Bool) : State :=
  let d := s.die die
  match d.tokens.find? (fun t => t.token == token) with
  | none => { s with mf := { s.mf with mfes := s.mf.mfes ||| 2 } }
  | some t =>
    let s1 := s.setDie die { d with tokens := d.tokens.filter (fun x => x.token != token) }
    s1.updWaiting (fun _ p w c v =>
      if p.die == die && v.tokens.contains token then
        let v1 := { v with tokens := v.tokens.filter (· != token) }
        if !fail then ({ c with svc := some v1 }, w.recs)
        else
          let mine := w.recsOf v [cPageStorage, cPageHost] t.page
          let re (x : Lane) : Lane := if x.rgn.recp != 0 && mine.contains (plIdx x.rgn.recp) then
            { x with rgn := { x.rgn with recp := mkPl cPageHost (plIdx x.rgn.recp) } } else x
          ({ c with svc := some { v1 with failed := v1.failed ++ mine }, lanes := c.lanes.map (fun e => (e.1, re e.2)) },
            w.recs.map (fun e => if mine.contains e.1 then (e.1, { e.2 with cause := cPageHost }) else e))
      else (c, w.recs))

def execFrdbServiced (die token : Nat) (s : State) : Out := .next (s.frdb die token false)
def execFrdbFail (die token : Nat) (s : State) : Out := .next (s.frdb die token true)

end Sys2Proof.Machine
end

