-- ==== Sys2Proof/Machine/Manage.lean ====
section
/-! DEFINITION. The management function and the host's view of the module (13 R394 to R425): key slots, alarms, debug unlock, resets,
boot, TDIs, thermal actions, host and peer accesses, and writes of the registers (R400, R401; 00 R10 to R13). Messages to the outside
are listed in `Mem.out`: 4 an SPDM response, 5 the completion of a host read and 6 the answer to a peer, each with its status (0 data,
1 Completer Abort or fault, 2 Unsupported Request, 3 poisoned, 4 a refused token). -/

namespace Sys2Proof.Machine

def State.updMf (s : State) (f : Mf → Mf) : State := { s with mf := f s.mf }

def State.say (s : State) (kind x y : Nat) : State := s.send [{ kind := kind, addr := x, data := y }]

/-! Key slots (01 R43, R48; R396, R397). -/

/-- The key slot of a line of a die cache, or of an L1 line of which none was known when it was written. -/
def Mem.lineSlot (m : Mem) (asid line : Nat) : Nat :=
  match m.walk (fun _ _ => none) asid (line * 128) with
  | .ok (l, _) => m.leafSlot asid l.raw
  | .error _ => m.oslot asid

/-- A slot stops serving accesses, and the lines under it are invalidated without write-back (01 R48). -/
def Mem.revoke (m : Mem) (k : Nat) : Mem :=
  let m1 := { m with keys := Tbl.put m.keys k { m.key k with revoked := true } }
  let m2 := (List.range Config.slices).foldl (fun (m : Mem) i => m.updSlice i (fun x => { x with
    lines := x.lines.filter (fun l => l.slot != k)
    spill := x.spill.filter (fun l => l.slot != k) })) m1
  { m2 with
    l1 := m2.l1.map (fun e => (e.1, e.2.filter (fun l => (l.slot.getD (m.lineSlot l.asid l.line)) != k)))
    dc := m2.dc.map (fun e => (e.1, e.2.filter (fun l => l.ver.isSome || m.lineSlot l.asid l.line != k))) }

/-- A slot takes a new key, which ends a revoked state (R397). -/
def Mem.rekey (m : Mem) (k : Nat) : Mem := { m with keys := Tbl.put m.keys k ⟨(m.key k).ver + 1, false⟩ }

/-- Whether a TDI has its owner slot in use (R396). -/
def State.slotLocked (s : State) (k : Nat) : Bool :=
  (List.range Config.dies).any (fun d => let x := s.die d; x.ownSlot == some k && (x.tdi == .locked || x.tdi == .run))

/-- A command of KSCMD on a slot: 1 load, 2 revoke; another OP only names the slot. -/
def State.kscmd (s : State) (op slot : Nat) : State :=
  if s.mf.ksBusy then s.updMf (fun f => { f with mfes := f.mfes ||| 8 })
  else if op != 1 && op != 2 then s.updMf (fun f => { f with ksSlot := slot })
  else if slot = 0 then s.updMf (fun f => { f with ksSlot := 0, ksStat := 1 })
  else if s.slotLocked slot then s.updMf (fun f => { f with ksSlot := slot, ksStat := 2 })
  else s.updMf (fun f => { f with ksSlot := slot, ksStat := 0, ksBusy := true, ksOp := op })

def execKscmdLoad (slot : Nat) (s : State) : Out := .next (s.kscmd 1 slot)
def execKscmdRevoke (slot : Nat) (s : State) : Out := .next (s.kscmd 2 slot)

/-- KEY_SLOT_OP_DONE: every base die has the new state of the slot. -/
def execKeySlotOpDone (s : State) : Out :=
  if !s.mf.ksBusy then .next s
  else
    let load := s.mf.ksOp == 1
    .next { s with
      mem := if load then s.mem.rekey s.mf.ksSlot else s.mem.revoke s.mf.ksSlot
      mf := { s.mf with ksBusy := false, ksStat := 0, kskey := if load then 0 else s.mf.kskey } }

/-- KSCMD as read. -/
def Mf.kscmdWord (f : Mf) : Nat := f.ksSlot * 2 ^ 32 + f.ksStat * 2 + b2n f.ksBusy

/-! Error status and alarms (R398, R420, R421). -/

def execMfesClear (value : Nat) (s : State) : Out := .next (s.updMf (fun f => { f with mfes := f.mfes &&& ~~~(BitVec.ofNat 4 value) }))
def execAlmLock (s : State) : Out := .next (s.updMf (fun f => { f with almLock := true }))
def execAlmClear (value : Nat) (s : State) : Out := .next (s.updMf (fun f => { f with almSrc := f.almSrc &&& ~~~(BitVec.ofNat 5 value) }))

/-- The module stops but for the MF. -/
def State.haltAll (s : State) : State := (s.interrupt 0 0).updMf (fun f => { f with halted := true })

/-- Every key slot is zeroed; a load under way leaves its slot zeroed (R421). -/
def State.eraseKeys (s : State) : State :=
  let over' := s.mf.ksBusy && s.mf.ksOp == 1
  { s with
    mem := { s.mem with erased := true }
    mf := { s.mf with ksBusy := s.mf.ksBusy && !over', ksStat := if over' then 3 else s.mf.ksStat } }

/-- An alarm: its source bit, COUNT and the action of POL. -/
def State.alarm (s : State) (src : Nat) : State :=
  let s1 := s.updMf (fun f => { f with almSrc := f.almSrc ||| BitVec.ofNat 5 (2 ^ src), almCount := satAdd 255 f.almCount 1 })
  match s1.mf.pol with
  | 0 => s1.interrupt 0 0
  | 1 => s1.haltAll
  | _ => s1.haltAll.eraseKeys

def execSecurityAlarm (src : Nat) (s : State) : Out := .next (s.alarm src)

/-- ALM as read. -/
def Mf.almWord (f : Mf) : Nat := b2n f.almLock * 2 ^ 31 + f.pol * 2 ^ 16 + f.almCount * 2 ^ 8 + f.almSrc.toNat

/-! Debug unlock (R407, R422). -/

/-- DBGGO with GO 1; the nonce changes. -/
def State.dbggo (s : State) (die : Nat) : State := s.updMf (fun f => { f with dbgDie := die, dbgStat := 1, nonce := f.nonce + 1 })

def execDbggoGo (die : Nat) (s : State) : Out := .next (s.dbggo die)

/-- DEBUG_UNLOCK_RESULT: the window is cleared; a die whose TDI is locked or running refuses without an alarm. -/
def execDebugUnlockResult (ok : Nat) (s : State) : Out :=
  if s.mf.dbgStat != 1 then .next s
  else
    let d := s.die s.mf.dbgDie
    let s1 := s.updMf (fun f => { f with dbgunl := [] })
    if d.tdi == .locked || d.tdi == .run then .next (s1.updMf (fun f => { f with dbgStat := 3 }))
    else if ok = 1 then .next ((s1.setDie s.mf.dbgDie { d with dbgEn := true }).updMf (fun f => { f with dbgStat := 2 }))
    else .next ((s1.updMf (fun f => { f with dbgStat := 3 })).alarm 1)

/-! TDIs (R395, R396, R418, R422). -/

/-- The SPDM requests that the responder supports, by request code (R395; the codes are those of the SPDM specification, log entry 12):
GET_DIGESTS, GET_CERTIFICATE, CHALLENGE, GET_VERSION, GET_MEASUREMENTS, GET_CAPABILITIES, NEGOTIATE_ALGORITHMS, KEY_EXCHANGE, FINISH,
END_SESSION, VENDOR_DEFINED_REQUEST. -/
def spdmRequests : List Nat := [0x81, 0x82, 0x83, 0x84, 0xE0, 0xE1, 0xE3, 0xE4, 0xE5, 0xEC, 0xFE]

/-- The response code to a request: its own for a supported one, ERROR with UnsupportedRequest for another (log entry 12). -/
def spdmResponse (code : Nat) : Nat := if spdmRequests.contains code then code - 0x80 else 0x7F + 7 * 256

/-- A message of the SPDM responder: its response code; its other contents are not the machine's state (log entry 12). -/
def execSpdmRequest (die code : Nat) (s : State) : Out := .next (s.say 4 die (spdmResponse code))

/-- LOCK_INTERFACE: refused while debug is unlocked. -/
def execLockInterface (die : Nat) (s : State) : Out :=
  let d := s.die die
  .next (if d.tdi == .unlocked && !d.dbgEn then s.setDie die { d with tdi := .locked } else s)

def execStartInterface (die : Nat) (s : State) : Out :=
  let d := s.die die
  .next (if d.tdi == .locked then s.setDie die { d with tdi := .run } else s)

/-- STOP_INTERFACE returns the TDI to CONFIG_UNLOCKED; its owner slot is no longer locked. -/
def execStopInterface (die : Nat) (s : State) : Out := .next (s.setDie die { s.die die with tdi := .unlocked, ownSlot := none, tdiSlots := [] })

/-- KEY_PROGRAM: the owner slot of a TDI in CONFIG_LOCKED is loaded. -/
def execKeyProgram (die slot : Nat) (s : State) : Out :=
  let d := s.die die
  if d.tdi == .locked && slot != 0 then
    .next (({ s with mem := s.mem.rekey slot }).setDie die { d with ownSlot := some slot, tdiSlots := d.tdiSlots ++ [slot] })
  else .next s

/-! Compute-die reset (R417, R418). -/

/-- A lost pack: its members count as killed, its requests are withdrawn, and its cores are free (R417 step 2; R418). -/
def State.losePack (s : State) (key : Nat) (p : Pack) : State :=
  let s0 := p.saved.foldl (fun s w => s.withdraw key w.wg.w p.die
    (w.groups.flatMap (fun c => match c.2.svc with | some v => v.tokens | none => []))) s
  let first := p.p * (match s.gridAt key with | some g => 2 ^ g.desc.nlog | none => 1)
  let members : List (Wg × List Ctx) := match p.base with
    | some _ => (s0.packWgs key first p.die).map (fun r => (r.2.2, (s0.groupsOf r.1 r.2.2).map (·.2)))
    | none => p.saved.map (fun w => (w.wg, (w.groups.map (·.2)).filter (·.on)))
  let s1 := members.foldl (fun s m => s.updGrid key (fun g =>
    { (if m.1.done then g else g.count p.die m.1) with trigN := g.trigN + (m.2.filter (fun c => !c.trigd)).length })) s0
  let s2 := match p.base with
    | some _ => s1.retirePack key first p.die
    | none => s1.updGrid key (fun g => { g with packs := g.packs.filter (fun q => !(q.p == p.p && q.die == p.die)), retired := g.retired + 1 })
  (s2.barSweep key).vacLeft key p.die p.p 0

/-- The FAULT record of a lost pack (R418). -/
def lostRec (g : Grid) (p core die : Nat) : BitVec 128 :=
  evRec 3 cDieLost g.desc.asid g.tag core g.home false (p * 2 ^ g.desc.nlog % 2 ^ 32 * 2 ^ 32 + die)

/-- What a die reset does to one grid: with its home die it ends everywhere; else the packs of the die are lost, and the exchanges that name
one of them end with DIE_LOST (R417 step 3). -/
def State.loseGrid (s : State) (key die : Nat) : State :=
  match s.gridAt key with
  | none => s
  | some g =>
    let mine := g.packs.filter (fun p => p.die == die)
    let fresh := g.freshOn die
    let lost := (mine.map Pack.p ++ fresh).foldl (fun t p => Tbl.put t p die) g.lost
    let s1 := (mine.foldl (fun s p => s.losePack key p) s)
    let s2 := match s1.gridAt key with | some g1 => s1.killFresh g1 die | none => s1
    if g.home = die then
      let s3 := ([0, 1, 2, 3].filter (· != die)).foldl (fun s d => (s.killOn key d).1) s2
      { s3 with grids := s3.grids.filter (fun x => x.key != key) }
    else
      let s3 := mine.foldl (fun s p => s.event g.home (lostRec g p.p (p.base.getD (die * 64)) die)) s2
      let s4 := fresh.foldl (fun s p => s.event g.home (lostRec g p (die * 64) die)) s3
      if mine.isEmpty && fresh.isEmpty then s4
      else
        let s5 := s4.updGrid key (fun x => { x with status := if x.status = 0 then 1 else x.status, lost := lost })
        (s5.residents.filter (fun r => r.2.2.grid == key)).foldl (fun s r => r.2.2.slots.foldl (fun s k => s.xchAgain r.1 k) s) s5

/-- The slices drop the owners of a die: their reclaims complete with no data (R417 step 4). -/
def State.dropOwners (s : State) (die : Nat) : State :=
  (List.range Config.slices).foldl (fun s sl =>
    ((s.mem.slice sl).tlb.filter (fun e => match e.owner with | some x => x / 64 == die | none => false)).foldl (fun (s : State) e =>
      match e.rcl, e.owner with
      | some who, some x => s.reclaimDone sl x e who
      | _, _ => { s with mem := s.mem.reclaimEnd sl die e none }) s) s

/-- The parts of a table whose index does not belong to a die of u entries. -/
def offDie {α : Type} (t : Tbl α) (die u : Nat) : Tbl α := t.filter (fun e => e.1 / u != die)

/-- The MSI-X entries but those of a die's function. -/
def offDie' {α : Type} (t : Tbl α) (die : Nat) : Tbl α := t.filter (fun e => e.1 / 256 != die + 1)

/-- The reset of a compute die (R417). -/
def State.dieReset (s : State) (die : Nat) : State :=
  let d := s.die die
  let live := d.tdi == .locked || d.tdi == .run
  -- step 1
  let s1 := if live then { s with mem := (d.ownSlot.toList ++ d.tdiSlots).foldl (fun m k => m.revoke k) s.mem } else s
  -- step 2
  let m := s1.mem.forget (64 * die) (fun a => s1.dieOf a == die)
  let s2 := { s1 with
    mem := { m with
      l1 := offDie m.l1 die 64
      cgen := offDie m.cgen die 64
      oc := offDie m.oc die 64
      osec := offDie m.osec die 64
      offer := m.offer.filter (fun e => e.1 != die) }
    vacs := s1.vacs.filter (fun v => v.die != die) }
  let s3 := (s2.grids.map Grid.key).foldl (fun s k => s.loseGrid k die) s2
  let s4 := { s3 with
    groups := offDie s3.groups die 2048
    threads := offDie s3.threads die 128
    ctls := offDie s3.ctls die 8
    mseqs := offDie s3.mseqs die 64
    cseqs := offDie s3.cseqs die 64
    cores := offDie s3.cores die 64 }
  -- step 4
  let s5 := s4.dropOwners die
  -- step 5
  let s6 := { s5 with mem := { s5.mem with
    dc := Tbl.del s5.mem.dc die
    vers := s5.mem.vers.filter (fun v => v.1 != die)
    dslhm := Tbl.put s5.mem.dslhm die s5.mf.slhm
    offer := s5.mem.offer.filter (fun e => e.1 != die) } }
  let s7 := s6.updMf (fun f => { f with msix := offDie' f.msix die, pba := f.pba.filter (fun k => k / 256 != die + 1) })
  s7.setDie die { tdi := if live then .error else d.tdi, inRst := true, thermal := d.thermal }

def execDrstGo (die : Nat) (s : State) : Out := .next ((s.dieReset die).updMf (fun f => { f with drstDie := die }))
def execFunctionLevelReset (die : Nat) (s : State) : Out := .next (s.dieReset die)

/-- DIE_RESET_COMPLETE: the die accepts work again. -/
def execDieResetComplete (die : Nat) (s : State) : Out := .next (s.setDie die { s.die die with inRst := false })

/-! Base-die reset (R403). -/

/-- A request is at a slice, where it may wait for a walk or for a target outside, or on its way to it. -/
def State.atSlice (s : State) (a : Actor) (sl : Nat) : Option Req :=
  match s.opOf a with
  | some { req := some r, .. } =>
    let here := match r.st with
      | .walking x => x == sl
      | .sent => r.sl == some sl
      | .remote _ => r.sl == some sl
      | _ => false
    if here then some r else none
  | _ => none

/-- The reset of a base die: its slice is empty, and the requests there end with DIE_LOST. -/
def State.baseReset (s : State) (sl : Nat) : State :=
  let x := s.mem.slice sl
  let hit := s.actors.filterMap (fun a => (s.atSlice a sl).map (fun r => (a, r)))
  let blocks := x.spill.map (fun p => blkKey p.stack p.crec p.blk)
  let m1 := s.mem.setSlice sl { gens := x.gens, slhm := s.mf.slhm, inRst := true }
  let m2 := blocks.foldl (fun (m : Mem) k => if m.pinned k then m else m.setSpl k false) m1
  hit.foldl (fun s e => s.respond e.1 e.2 { fault := some ⟨cDieLost, 16 + sl⟩ }) { s with mem := m2 }

def execBdrstReset (sl : Nat) (s : State) : Out := .next (s.baseReset sl)

/-- BASE_DIE_RESET_COMPLETE: the SLHC copy is loaded from the master copy. -/
def execBaseDieResetComplete (sl : Nat) (s : State) : Out :=
  .next { s with mem := s.mem.updSlice sl (fun x => { x with inRst := false, slhc := s.mf.slhc }) }

/-! Boot (R402, R419). -/

def execCtxbWrite (value : Nat) (s : State) : Out :=
  .next (if s.mf.enabled then s else { s with mem := { s.mem with ctxb := value % 2 ^ 40 } })

def execPeerbWrite (value : Nat) (s : State) : Out := .next (if s.mf.enabled then s else { s with mem := { s.mem with peerb := value % 2 ^ 40 } })
def execFabnWrite (value : Nat) (s : State) : Out := .next (if s.mf.trained then s else s.updMf (fun f => { f with fabn := value % 1024 }))
def execUalinkPortsTrain (s : State) : Out := .next (s.updMf (fun f => { f with trained := true }))

/-- MODULE_COLD_RESET: the reset state; then the firmware's writes and enables, or the alarm and a module held in reset. The drives
keep their contents. -/
def execModuleColdReset (ok ctxb peerb fab : Nat) (s : State) : Out :=
  let z : State := State.reset
  let r : State := { z with
    ports := s.ports.map (fun e => (e.1, ({ drive := e.2.drive } : Port)))
    agenda := s.agenda
    mem := { z.mem with ctr := s.mem.ctr }
    mf := { z.mf with nonce := s.mf.nonce + 1 } }
  if ok = 1 then
    .next { r with
      mem := { r.mem with ctxb := ctxb % 2 ^ 40, peerb := peerb % 2 ^ 40 }
      mf := { r.mf with fabn := fab % 1024, enabled := true, booted := true } }
  else .next ((r.alarm 0).updMf (fun f => { f with halted := true }))

/-! Power and cooling (R404, R425; 07 R231). -/

/-- THERMAL_LIMIT: the action of the limit and of those below it. -/
def execThermalLimit (die lvl tmax : Nat) (s : State) : Out :=
  let d := s.die die
  let d1 := if d.thermal = 0 then { d with savedPool := some d.pool, pool := max 64 (d.pool / 2), thermal := 1 } else d
  if lvl = 0 then .next (s.setDie die d1)
  else if lvl = 1 then .next (s.setDie die { d1 with thermal := 2 })
  else .next (s.haltAll.updMf (fun f => { f with trip := true, tdie := die, tmax := tmax }))

/-- THERMAL_RECOVER: the action is withdrawn. -/
def execThermalRecover (die lvl : Nat) (s : State) : Out :=
  let d := s.die die
  if lvl = 0 then .next (s.setDie die { d with thermal := 0, pool := d.savedPool.getD d.pool, savedPool := none })
  else if lvl = 1 && d.thermal = 2 then .next (s.setDie die { d with thermal := 1 })
  else .next s

/-- THS as read. -/
def State.ths (s : State) : Nat :=
  b2n s.mf.trip * 2 ^ 31 + s.mf.tdie * 2 ^ 24 + s.mf.tmax * 2 ^ 16
    + ([0, 1, 2, 3].foldl (fun n d => n + (s.die d).thermal * 2 ^ (2 * d)) 0) * 2 ^ 8

/-! Host accesses (R405, R409). -/

/-- The virtual address of an offset in a die's BAR2 window and its ASID, if the window is open. -/
def State.bar2 (s : State) (die off size : Nat) : Option (Nat × Nat) :=
  let w := (Tbl.get 0 s.mf.h2w die).toNat
  if bit w 47 && fld w 48 16 != 0 && s.mf.enabled && off + size ≤ 2 ^ 36 then some (fld w 48 16, fld w 0 19 * 2 ^ 36 + off) else none

/-- As whom the host or a peer accesses memory through a die. -/
def hostWho (die : Nat) : Who := ⟨none, die, false, false⟩

def execHostBar2Read (die off size : Nat) (s : State) : Out :=
  match s.bar2 die off size with
  | none => .next (s.say 5 2 0)
  | some (asid, va) =>
    match s.mem.readN (hostWho die) asid va size 0 with
    | (m, .error _) => .next (({ s with mem := m }).say 5 1 0)
    | (m, .ok (x, p)) => .next (({ s with mem := m }).say 5 (if p = 0 then 0 else 3) x)

/-- The REMOTE event of an inbound access that faults or times out (07 R216, R242). -/
def State.remoteEvent (s : State) (cause die fab port : Nat) : State :=
  s.event die (evRec 11 cause 0 0 port die false (fab % 65536 * 256 + port % 256))

def execHostBar2Write (die off size value ep : Nat) (s : State) : Out :=
  match s.bar2 die off size with
  | none => .next s
  | some (asid, va) =>
    match s.mem.writeN (hostWho die) asid va size value (if ep = 1 then 2 ^ size - 1 else 0) 0 with
    | (m, some _) => .next (({ s with mem := m }).remoteEvent cRemoteFault die 0 0)
    | (m, none) => .next { s with mem := m }

/-! Peer accesses (R406, R413). -/

/-- The local ASID of a sender and the ASID it names: the first valid match. -/
def Mf.localAsid (f : Mf) (fab rasid : Nat) : Option Nat :=
  (f.imap.find? (fun e => let w := e.2.toNat; bit w 63 && fld w 48 10 == fab && fld w 32 16 == rasid)).map (fun e => fld e.2.toNat 16 16)

/-- The answer to a peer: its status, its data, and their poison by sector. -/
def State.answerPeer (s : State) (st x poi : Nat) : State := s.send [{ kind := 6, addr := st, data := x, poi := poi }]

/-- PEER_REQUEST of the transaction layer (R410). `cmd` holds its kind in [2:0], the op of an atomic in [6:3] and its size in bytes from
[7]: a read (0) or a write (1), an atomic of 10 R327 (2), whose value is the operand with the swap value above it, or a token of a SEND
(3), whose header and payload are the value, for a receive buffer (12 R387; 03 R108). `poi` marks each 32-byte sector of the data that is
poisoned (05 R156; log entry 46). Kind 4 is an access that times out here (07 R242). -/
def execPeerRequest (fab rasid cmd addr value poi : Nat) (s : State) : Out :=
  let op := fld cmd 3 4
  let size := cmd / 128
  match s.mf.localAsid fab rasid with
  | none => .next ((s.updMf (fun f => { f with mfes := f.mfes ||| 4 })).say 6 1 0)
  | some asid =>
    let fail (s : State) : State := (s.remoteEvent cRemoteFault 0 fab s.uaPort).say 6 1 0
    match fld cmd 0 3 with
    | 0 => match s.mem.readN (hostWho 0) asid addr size 0 with
      | (m, .error _) => .next (fail { s with mem := m })
      | (m, .ok (x, p)) => .next (({ s with mem := m }).answerPeer (if p = 0 then 0 else 3) x (sectorPoison addr size p))
    | 1 => match s.mem.writeN (hostWho 0) asid addr size value (bytePoison addr size poi) 0 with
      | (m, some _) => .next (fail { s with mem := m })
      | (m, none) => .next (({ s with mem := m }).answerPeer 0 0 0)
    | 2 =>
      if addr % atomSize op != 0 then .next (fail s)
      else match s.mem.updG (hostWho 0) asid addr (atomSize op) (fun x => atomNew op x (value % 2 ^ (8 * atomSize op)) (fld value (8 * atomSize op) (8 * atomSize op))) (bit poi 0) with
      | (m, .ok x) => .next (({ s with mem := m }).answerPeer 0 x 0)
      | (m, .error f) =>
        .next (if f.cause == cPoisonMem || f.cause == cEccUe then ({ s with mem := m }).answerPeer 3 0 1 else fail { s with mem := m })
    | 3 => match s.claimSlot (hostWho 0) asid addr (value % 2 ^ 256) (value / 2 ^ 256) (fld value 160 16)
        (bytePoison 0 (32 + fld value 160 16) poi) with
      | (s1, .delivered) => .next (s1.answerPeer 0 0 0)
      | (s1, .fault _) => .next (fail s1)
      | (s1, _) => .next (s1.answerPeer 4 0 0)
    | _ => .next (s.remoteEvent cRemoteTimeout 0 fab s.uaPort)

/-! Errors of the memories (05 R154). -/

/-- UNCORRECTABLE_ECC_ERROR: the error is found when the sector is next read. -/
def execUncorrectableEccError (sp core addr syn : Nat) (s : State) : Out :=
  if sp = 4 then
    let c : Sec := Tbl.get {} s.mem.sec (addr / 32)
    .next (if populated addr && !c.pois then { s with mem := { s.mem with sec := Tbl.put s.mem.sec (addr / 32) { c with ecc := some syn } } } else s)
  else if addr < spaceFrames sp * 4096 then
    let sn := ocKey sp addr / 32
    .next { s with mem := s.mem.setOsec core sn { s.mem.osecAt core sn with ecc := some syn } }
  else .next s

/-! Registers (R400, R401). -/

/-- The 8 bytes of a table of bytes from an offset, as a number. -/
def bytesAt (t : Tbl Byte) (o : Nat) : Nat := ofBytes ((List.range 8).map (fun i => Tbl.get 0 t (o + i)))

/-- A register of the MF: its offset, its bytes, and what a merge of halves keeps (the value as read, or the window as stored). -/
def State.mfReg (s : State) (off : Nat) : Option (Nat × Nat × Nat) :=
  let f := s.mf
  let o := off / 8 * 8
  let q (n x : Nat) : Option (Nat × Nat × Nat) := some (o, n, x)
  if o = 0 then q 8 f.kscmdWord
  else if 0x40 ≤ o && o < 0x80 then q 8 (f.kskey.toNat / 2 ^ (8 * (o - 0x40)) % 2 ^ 64)
  else if o = 0x80 then q 4 f.mfes.toNat
  else if o = 0x88 then q 4 f.almWord
  else if o = 0x90 then q 4 s.ths
  else if o = 0x98 then q 4 f.pto.toNat
  else if o = 0xA0 then q 8 s.mem.ctxb
  else if o = 0xA8 then q 8 s.mem.peerb
  else if o = 0xB0 then q 4 f.fabn
  else if o = 0xB8 then q 4 (([0, 1, 2, 3].foldl (fun n d => n + b2n (s.die d).inRst * 2 ^ (8 + d)) 0) + f.drstDie)
  else if o = 0xC0 then q 4 ((List.range 16).foldl (fun n i => n + b2n (s.mem.slice i).inRst * 2 ^ (16 + i)) 0)
  else if o = 0xC8 then q 8 f.cmcmdWord
  else if 0x100 ≤ o && o < 0x120 then q 8 (Tbl.get 0 f.h2w ((o - 0x100) / 8)).toNat
  else if 0x180 ≤ o && o < 0x200 then q 8 (Tbl.get 0 s.mem.cmtb ((o - 0x180) / 8)).toNat
  else if 0x200 ≤ o && o < 0x240 then q 8 (s.port ((o - 0x200) / 8)).fecfg
  else if 0x300 ≤ o && o < 0x320 then q 4 (s.dbgctl ((o - 0x300) / 8))
  else if 0x400 ≤ o && o < 0x440 then
    q 8 (((Config.debugNonce f.nonce).toNat + Config.serialNumber.toNat * 2 ^ 384) / 2 ^ (8 * (o - 0x400)) % 2 ^ 64)
  else if o = 0x440 then q 4 (f.dbgStat * 16 + f.dbgDie)
  else if 0x8000 ≤ o && o < 0x10000 then q 8 (bytesAt f.dbgunl (o - 0x8000))
  else if 0x10000 ≤ o && o < 0x10040 then some (off / 4 * 4, 4, (Tbl.get 0 f.slhm ((off - 0x10000) / 4)).toNat)
  else if 0x10040 ≤ o && o < 0x10080 then some (off / 4 * 4, 4, (Tbl.get 0x40000 f.slhc ((off - 0x10040) / 4)).toNat)
  else if 0x20000 ≤ o && o < 0x22000 then q 8 (Tbl.get 0 f.imap ((o - 0x20000) / 8)).toNat
  else none

/-- The effect of a write of a whole register of the MF. -/
def State.mfSet (s : State) (o w : Nat) : Out :=
  let upd (f : Mf → Mf) : Out := .next (s.updMf f)
  if o = 0 then .next (s.kscmd (fld w 62 2) (fld w 32 12))
  else if 0x40 ≤ o && o < 0x80 then
    upd (fun f => { f with kskey := BitVec.ofNat 512 (let sh := 8 * (o - 0x40); f.kskey.toNat - f.kskey.toNat / 2 ^ sh % 2 ^ 64 * 2 ^ sh + w * 2 ^ sh) })
  else if o = 0x80 then execMfesClear w s
  else if o = 0x88 then
    upd (fun f => { f with
      almSrc := f.almSrc &&& ~~~(BitVec.ofNat 5 w)
      pol := if f.almLock then f.pol else fld w 16 2
      almLock := f.almLock || bit w 31 })
  else if o = 0x98 then upd (fun f => { f with pto := BitVec.ofNat 32 w })
  else if o = 0xA0 then execCtxbWrite w s
  else if o = 0xA8 then execPeerbWrite w s
  else if o = 0xB0 then execFabnWrite w s
  else if o = 0xB8 then
    if bit w 2 then execDrstGo (w % 4) s else upd (fun f => { f with drstDie := w % 4 })
  else if o = 0xC0 then .next ((List.range 16).foldl (fun s i => if bit w i then s.baseReset i else s) s)
  else if o = 0xC8 then .next (s.cmcmd (fld w 62 2) w)
  else if 0x100 ≤ o && o < 0x120 then
    upd (fun f => { f with h2w := Tbl.put f.h2w ((o - 0x100) / 8) (BitVec.ofNat 64 (fld w 47 17 * 2 ^ 47 + fld w 0 19)) })
  else if 0x180 ≤ o && o < 0x200 then
    .next { s with mem := { s.mem with cmtb := Tbl.put s.mem.cmtb ((o - 0x180) / 8) (BitVec.ofNat 64 (w % 2 ^ 56)) } }
  else if 0x200 ≤ o && o < 0x240 then
    let p := (o - 0x200) / 8
    .next (s.setPort p { s.port p with nsid := BitVec.ofNat 32 (fld w 32 32), tmo := fld w 24 8, en := bit w 0 })
  else if 0x300 ≤ o && o < 0x320 then
    let die := (o - 0x300) / 8
    let d := s.die die
    let s1 := s.setDie die { d with haltPack := bit w 1, halted := d.halted && !bit w 2 }
    if bit w 0 then execDbgctlResume die s1 else .next s1
  else if o = 0x440 then
    if bit w 2 then execDbggoGo (w % 4) s else upd (fun f => { f with dbgDie := w % 4 })
  else if 0x8000 ≤ o && o < 0x10000 then
    upd (fun f => { f with dbgunl := ((List.range 8).zip (toBytes 8 w)).foldl (fun t e => Tbl.set 0 t (o - 0x8000 + e.1) e.2) f.dbgunl })
  else if 0x10000 ≤ o && o < 0x10040 then execSlhmWrite ((o - 0x10000) / 4) w s
  else if 0x10040 ≤ o && o < 0x10080 then execSlhcWrite ((o - 0x10040) / 4) w s
  else if 0x20000 ≤ o && o < 0x22000 then
    upd (fun f => { f with imap := Tbl.put f.imap ((o - 0x20000) / 8) (BitVec.ofNat 64 (bit' w 63 + fld w 16 42 * 2 ^ 16)) })
  else .next s
where
  bit' (w i : Nat) : Nat := b2n (bit w i) * 2 ^ i

/-- PTOK as read (07 R231). -/
def Die.ptok (d : Die) : Nat := d.pool * 2 ^ 12 + d.ptq.length

/-- A register of a die function, as `mfReg`. -/
def State.dieReg (s : State) (die off : Nat) : Option (Nat × Nat × Nat) :=
  let d := s.die die
  let o := off / 8 * 8
  let word (w : Nat) : Option (Nat × Nat × Nat) := some (o, 8, if o % 16 = 0 then w % 2 ^ 64 else w / 2 ^ 64)
  if o < 0x400 then word (Tbl.get 0 d.sqd (o / 16)).toNat
  else if o < 0x410 then word d.evq
  else if o < 0x420 then word d.hnr.toNat
  else if o = 0x420 then some (o, 4, 0)
  else if o = 0x428 then some (o, 4, d.ptok)
  else none

/-- The effect of a write of a register, or of one 8-byte word of it, of a die function. -/
def State.dieSet (s : State) (die o w : Nat) : Out :=
  let d := s.die die
  if o < 0x400 then
    let old := (Tbl.get 0 d.sqd (o / 16)).toNat
    let new := if o % 16 = 0 then old / 2 ^ 64 * 2 ^ 64 + fld w 56 8 * 2 ^ 56 + fld old 20 20 * 2 ^ 20 + fld w 0 20
      else w * 2 ^ 64 + old % 2 ^ 64
    .next (s.setDie die { d with sqd := Tbl.put d.sqd (o / 16) (BitVec.ofNat 128 new) })
  else if o = 0x408 then .next (s.setDie die (d.setEvq (w * 2 ^ 64)))
  else if o = 0x410 then
    let old := d.hnr.toNat
    .next (s.setDie die { d with hnr := BitVec.ofNat 128 (old / 2 ^ 64 * 2 ^ 64 + b2n (bit w 63) * 2 ^ 63 + fld w 20 20 * 2 ^ 20 + fld old 0 20) })
  else if o = 0x418 then .next (s.setDie die { d with hnr := BitVec.ofNat 128 (w * 2 ^ 64 + d.hnr.toNat % 2 ^ 64) })
  else if o = 0x420 then .next (s.frdb die (fld w 16 16) (bit w 0))
  else if o = 0x428 then .next (s.setDie die { d with pool := fld w 12 10 })
  else .next s

/-- A word of BAR4 of a function, as `mfReg`: the MSI-X table of 256 vectors, then the pending bits, which are only read (R401; log entry 66). -/
def State.msixReg (s : State) (fn off : Nat) : Option (Nat × Nat × Nat) :=
  let o := off / 8 * 8
  if o < 0x1000 then some (o, 8, fld (s.mf.msixAt fn (o / 16)).toNat (8 * (o % 16)) 64)
  else if o < 0x1020 then some (o, 8, maskOf ((List.range 64).filter (fun i => s.mf.pba.contains (fn * 256 + (o - 0x1000) * 8 + i))))
  else none

/-- A write of a word of the MSI-X table; a pending vector that is no longer masked is sent. -/
def State.msixSet (s : State) (fn o w : Nat) : State :=
  if 0x1000 ≤ o then s
  else
    let k := fn * 256 + o / 16
    let old := (s.mf.msixAt fn (o / 16)).toNat
    let new := if o % 16 = 0 then old / 2 ^ 64 * 2 ^ 64 + w else w * 2 ^ 64 + old % 2 ^ 64
    let s1 := s.updMf (fun f => { f with msix := Tbl.put f.msix k (BitVec.ofNat 128 new) })
    if s.mf.pba.contains k && !bit new 96 then (s1.updMf (fun f => { f with pba := f.pba.filter (· != k) })).interrupt fn (o / 16) else s1

/-- A write through BAR0, or through BAR4 for functions numbered from 8 (R400, R401): an aligned access of the register's size, or an aligned half of an 8-byte word; another size
completes with Unsupported Request, and an offset without a register is ignored. Function 0 is the MF. -/
def execRegisterWrite (fn off size value : Nat) (s : State) : Out :=
  let r := if fn = 0 then s.mfReg off else if fn != 8 && !s.mf.enabled then none else if 8 ≤ fn then s.msixReg (fn - 8) off else s.dieReg (fn - 1) off
  match r with
  | none => .next s
  | some (o, n, old) =>
    let set (w : Nat) : Out := if fn = 0 then s.mfSet o w else if 8 ≤ fn then .next (s.msixSet (fn - 8) o w) else s.dieSet (fn - 1) o w
    if size = n && off = o then set (value % 2 ^ (8 * n))
    else if n = 8 && size = 4 && off % 4 = 0 then
      set (if off = o then old / 2 ^ 32 * 2 ^ 32 + value % 2 ^ 32 else value % 2 ^ 32 * 2 ^ 32 + old % 2 ^ 32)
    else .next s

/-- The windows of the MF that are only written: KSKEY and DBGUNL (R397, R407). -/
def writeOnly (off : Nat) : Bool := (0x40 ≤ off && off < 0x80) || (0x8000 ≤ off && off < 0x10000)

/-- What the host reads at a BAR0 offset of a function, or at a BAR4 offset for a function numbered from 8: a register, or an aligned half of an 8-byte word of one, 0 in a write-only window and
where no register is; none for another size at a defined offset and for a function that is not enabled, which complete with Unsupported
Request (R394, R400, R401; 00 R10, R19). A read changes nothing, and the opcode table has no row for it. -/
def State.bar0 (s : State) (fn off size : Nat) : Option Nat :=
  if fn != 0 && fn != 8 && !s.mf.enabled then none
  else match (if fn = 0 then s.mfReg off else if 8 ≤ fn then s.msixReg (fn - 8) off else s.dieReg (fn - 1) off) with
  | none => some 0
  | some (o, n, x) =>
    let x := if fn = 0 && writeOnly off then 0 else x
    if o + n ≤ off then some 0
    else if size = n && off = o then some (x % 2 ^ (8 * n))
    else if n = 8 && size = 4 && off % 4 = 0 then some (x / 2 ^ (8 * (off - o)) % 2 ^ 32)
    else none

end Sys2Proof.Machine
end

