-- ==== Sys2Proof/Machine/Dispatch.lean ====
section
/-! DEFINITION. The dispatch of every instruction and event row to its meaning. -/

namespace Sys2Proof.Machine

def exec (i : Instr) (s : State) : Host.Outcome State Fault Refusal :=
  match i with
  | .iadd d a b m => Sys2Proof.Machine.execIadd d a b m s
  | .isub d a b m => Sys2Proof.Machine.execIsub d a b m s
  | .imul d a b m => Sys2Proof.Machine.execImul d a b m s
  | .imulh d a b m => Sys2Proof.Machine.execImulh d a b m s
  | .imad d a b m => Sys2Proof.Machine.execImad d a b m s
  | .imin d a b m => Sys2Proof.Machine.execImin d a b m s
  | .imax d a b m => Sys2Proof.Machine.execImax d a b m s
  | .iabs d a b m => Sys2Proof.Machine.execIabs d a b m s
  | .and32 d a b m => Sys2Proof.Machine.execAnd32 d a b m s
  | .or32 d a b m => Sys2Proof.Machine.execOr32 d a b m s
  | .xor32 d a b m => Sys2Proof.Machine.execXor32 d a b m s
  | .andn d a b m => Sys2Proof.Machine.execAndn d a b m s
  | .shl d a b m => Sys2Proof.Machine.execShl d a b m s
  | .shr d a b m => Sys2Proof.Machine.execShr d a b m s
  | .sar d a b m => Sys2Proof.Machine.execSar d a b m s
  | .rot d a b m => Sys2Proof.Machine.execRot d a b m s
  | .popc d a b m => Sys2Proof.Machine.execPopc d a b m s
  | .clz d a b m => Sys2Proof.Machine.execClz d a b m s
  | .brev d a b m => Sys2Proof.Machine.execBrev d a b m s
  | .bfx d a b m => Sys2Proof.Machine.execBfx d a b m s
  | .bfi d a b m => Sys2Proof.Machine.execBfi d a b m s
  | .bysel d a b m => Sys2Proof.Machine.execBysel d a b m s
  | .addc d a b m => Sys2Proof.Machine.execAddc d a b m s
  | .sad d a b m => Sys2Proof.Machine.execSad d a b m s
  | .isetLt d a b m => Sys2Proof.Machine.execIsetLt d a b m s
  | .isetLe d a b m => Sys2Proof.Machine.execIsetLe d a b m s
  | .isetEq d a b m => Sys2Proof.Machine.execIsetEq d a b m s
  | .isetNe d a b m => Sys2Proof.Machine.execIsetNe d a b m s
  | .sel d a b m => Sys2Proof.Machine.execSel d a b m s
  | .plop d a b m => Sys2Proof.Machine.execPlop d a b m s
  | .mov d a b m => Sys2Proof.Machine.execMov d a b m s
  | .bcast d a b m => Sys2Proof.Machine.execBcast d a b m s
  | .getl d a b m => Sys2Proof.Machine.execGetl d a b m s
  | .shfl d a b m => Sys2Proof.Machine.execShfl d a b m s
  | .fadd d a b m => Sys2Proof.Machine.execFadd d a b m s
  | .fsub d a b m => Sys2Proof.Machine.execFsub d a b m s
  | .fmul d a b m => Sys2Proof.Machine.execFmul d a b m s
  | .ffma d a b m => Sys2Proof.Machine.execFfma d a b m s
  | .fmin d a b m => Sys2Proof.Machine.execFmin d a b m s
  | .fmax d a b m => Sys2Proof.Machine.execFmax d a b m s
  | .fsetLt d a b m => Sys2Proof.Machine.execFsetLt d a b m s
  | .fsetLe d a b m => Sys2Proof.Machine.execFsetLe d a b m s
  | .fsetEq d a b m => Sys2Proof.Machine.execFsetEq d a b m s
  | .fsetNe d a b m => Sys2Proof.Machine.execFsetNe d a b m s
  | .frcp d a b m => Sys2Proof.Machine.execFrcp d a b m s
  | .frsq d a b m => Sys2Proof.Machine.execFrsq d a b m s
  | .fsqrt d a b m => Sys2Proof.Machine.execFsqrt d a b m s
  | .fexp2 d a b m => Sys2Proof.Machine.execFexp2 d a b m s
  | .flog2 d a b m => Sys2Proof.Machine.execFlog2 d a b m s
  | .fsin d a b m => Sys2Proof.Machine.execFsin d a b m s
  | .fcos d a b m => Sys2Proof.Machine.execFcos d a b m s
  | .ftanh d a b m => Sys2Proof.Machine.execFtanh d a b m s
  | .fclass d a b m => Sys2Proof.Machine.execFclass d a b m s
  | .dadd d a b m => Sys2Proof.Machine.execDadd d a b m s
  | .dmul d a b m => Sys2Proof.Machine.execDmul d a b m s
  | .dfma d a b m => Sys2Proof.Machine.execDfma d a b m s
  | .dmin d a b m => Sys2Proof.Machine.execDmin d a b m s
  | .dmax d a b m => Sys2Proof.Machine.execDmax d a b m s
  | .dset d a b m => Sys2Proof.Machine.execDset d a b m s
  | .hadd2 d a b m => Sys2Proof.Machine.execHadd2 d a b m s
  | .hsub2 d a b m => Sys2Proof.Machine.execHsub2 d a b m s
  | .hmul2 d a b m => Sys2Proof.Machine.execHmul2 d a b m s
  | .hfma2 d a b m => Sys2Proof.Machine.execHfma2 d a b m s
  | .hmax2 d a b m => Sys2Proof.Machine.execHmax2 d a b m s
  | .maxd2 d a b m => Sys2Proof.Machine.execMaxd2 d a b m s
  | .cvt d a b m => Sys2Proof.Machine.execCvt d a b m s
  | .cvtxPack d a b m => Sys2Proof.Machine.execCvtxPack d a b m s
  | .cvtxUnpack d a b m => Sys2Proof.Machine.execCvtxUnpack d a b m s
  | .cvtxDecode d a b m => Sys2Proof.Machine.execCvtxDecode d a b m s
  | .cvtxEncode d a b m => Sys2Proof.Machine.execCvtxEncode d a b m s
  | .iaddi d a imm => Sys2Proof.Machine.execIaddi d a imm s
  | .imuli d a imm => Sys2Proof.Machine.execImuli d a imm s
  | .andi d a imm => Sys2Proof.Machine.execAndi d a imm s
  | .ori d a imm => Sys2Proof.Machine.execOri d a imm s
  | .xori d a imm => Sys2Proof.Machine.execXori d a imm s
  | .shli d a imm => Sys2Proof.Machine.execShli d a imm s
  | .shri d a imm => Sys2Proof.Machine.execShri d a imm s
  | .sari d a imm => Sys2Proof.Machine.execSari d a imm s
  | .isetiLt d a imm => Sys2Proof.Machine.execIsetiLt d a imm s
  | .isetiLe d a imm => Sys2Proof.Machine.execIsetiLe d a imm s
  | .isetiEq d a imm => Sys2Proof.Machine.execIsetiEq d a imm s
  | .isetiNe d a imm => Sys2Proof.Machine.execIsetiNe d a imm s
  | .isetiLtn d a imm => Sys2Proof.Machine.execIsetiLtn d a imm s
  | .isetiLen d a imm => Sys2Proof.Machine.execIsetiLen d a imm s
  | .movi d a imm => Sys2Proof.Machine.execMovi d a imm s
  | .movhi d a imm => Sys2Proof.Machine.execMovhi d a imm s
  | .ldbS d a imm => Sys2Proof.Machine.execLdbS d a imm s
  | .ldbN d a imm => Sys2Proof.Machine.execLdbN d a imm s
  | .ldhS d a imm => Sys2Proof.Machine.execLdhS d a imm s
  | .ldhN d a imm => Sys2Proof.Machine.execLdhN d a imm s
  | .stb d a imm => Sys2Proof.Machine.execStb d a imm s
  | .sth d a imm => Sys2Proof.Machine.execSth d a imm s
  | .shfli d a imm => Sys2Proof.Machine.execShfli d a imm s
  | .bfxi d a imm => Sys2Proof.Machine.execBfxi d a imm s
  | .ldw hint d x base la => Sys2Proof.Machine.execLdw hint d x base la s
  | .ldd hint d x base la => Sys2Proof.Machine.execLdd hint d x base la s
  | .ldq hint d x base la => Sys2Proof.Machine.execLdq hint d x base la s
  | .ldf hint d x base la => Sys2Proof.Machine.execLdf hint d x base la s
  | .stw hint d x base la => Sys2Proof.Machine.execStw hint d x base la s
  | .std hint d x base la => Sys2Proof.Machine.execStd hint d x base la s
  | .stq hint d x base la => Sys2Proof.Machine.execStq hint d x base la s
  | .pref hint d x base la => Sys2Proof.Machine.execPref hint d x base la s
  | .ldlw sp d a imm => Sys2Proof.Machine.execLdlw sp d a imm s
  | .ldld sp d a imm => Sys2Proof.Machine.execLdld sp d a imm s
  | .ldlq sp d a imm => Sys2Proof.Machine.execLdlq sp d a imm s
  | .stlw sp d a imm => Sys2Proof.Machine.execStlw sp d a imm s
  | .stld sp d a imm => Sys2Proof.Machine.execStld sp d a imm s
  | .stlq sp d a imm => Sys2Proof.Machine.execStlq sp d a imm s
  | .ldlb sp d a imm => Sys2Proof.Machine.execLdlb sp d a imm s
  | .stlb sp d a imm => Sys2Proof.Machine.execStlb sp d a imm s
  | .atomAdd32 d x scope base la => Sys2Proof.Machine.execAtomAdd32 d x scope base la s
  | .atomAdd64 d x scope base la => Sys2Proof.Machine.execAtomAdd64 d x scope base la s
  | .atomAddf32 d x scope base la => Sys2Proof.Machine.execAtomAddf32 d x scope base la s
  | .atomMinS32 d x scope base la => Sys2Proof.Machine.execAtomMinS32 d x scope base la s
  | .atomMinN32 d x scope base la => Sys2Proof.Machine.execAtomMinN32 d x scope base la s
  | .atomMaxS32 d x scope base la => Sys2Proof.Machine.execAtomMaxS32 d x scope base la s
  | .atomMaxN32 d x scope base la => Sys2Proof.Machine.execAtomMaxN32 d x scope base la s
  | .atomAnd32 d x scope base la => Sys2Proof.Machine.execAtomAnd32 d x scope base la s
  | .atomOr32 d x scope base la => Sys2Proof.Machine.execAtomOr32 d x scope base la s
  | .atomXor32 d x scope base la => Sys2Proof.Machine.execAtomXor32 d x scope base la s
  | .atomXchg32 d x scope base la => Sys2Proof.Machine.execAtomXchg32 d x scope base la s
  | .atomXchg64 d x scope base la => Sys2Proof.Machine.execAtomXchg64 d x scope base la s
  | .atomCas32 d x scope base la => Sys2Proof.Machine.execAtomCas32 d x scope base la s
  | .atomCas64 d x scope base la => Sys2Proof.Machine.execAtomCas64 d x scope base la s
  | .atomIncN32 d x scope base la => Sys2Proof.Machine.execAtomIncN32 d x scope base la s
  | .atomAddbf16x2 d x scope base la => Sys2Proof.Machine.execAtomAddbf16x2 d x scope base la s
  | .sadd d a b g m => Sys2Proof.Machine.execSadd d a b g m s
  | .ssub d a b g m => Sys2Proof.Machine.execSsub d a b g m s
  | .smul d a b g m => Sys2Proof.Machine.execSmul d a b g m s
  | .smulh d a b g m => Sys2Proof.Machine.execSmulh d a b g m s
  | .sdiv d a b g m => Sys2Proof.Machine.execSdiv d a b g m s
  | .srem d a b g m => Sys2Proof.Machine.execSrem d a b g m s
  | .sand d a b g m => Sys2Proof.Machine.execSand d a b g m s
  | .sor d a b g m => Sys2Proof.Machine.execSor d a b g m s
  | .sxor d a b g m => Sys2Proof.Machine.execSxor d a b g m s
  | .sshl d a b g m => Sys2Proof.Machine.execSshl d a b g m s
  | .sshr d a b g m => Sys2Proof.Machine.execSshr d a b g m s
  | .ssar d a b g m => Sys2Proof.Machine.execSsar d a b g m s
  | .smin d a b g m => Sys2Proof.Machine.execSmin d a b g m s
  | .smax d a b g m => Sys2Proof.Machine.execSmax d a b g m s
  | .ssetLt d a b g m => Sys2Proof.Machine.execSsetLt d a b g m s
  | .ssetLe d a b g m => Sys2Proof.Machine.execSsetLe d a b g m s
  | .ssetEq d a b g m => Sys2Proof.Machine.execSsetEq d a b g m s
  | .ssetNe d a b g m => Sys2Proof.Machine.execSsetNe d a b g m s
  | .ssel d a b g m => Sys2Proof.Machine.execSsel d a b g m s
  | .qlop d a b g m => Sys2Proof.Machine.execQlop d a b g m s
  | .spopc d a b g m => Sys2Proof.Machine.execSpopc d a b g m s
  | .sclz d a b g m => Sys2Proof.Machine.execSclz d a b g m s
  | .smov d a b g m => Sys2Proof.Machine.execSmov d a b g m s
  | .vtou d a b g m => Sys2Proof.Machine.execVtou d a b g m s
  | .vote d a b g m => Sys2Proof.Machine.execVote d a b g m s
  | .redx d a b g m => Sys2Proof.Machine.execRedx d a b g m s
  | .gets d a b g m => Sys2Proof.Machine.execGets d a b g m s
  | .puts d a b g m => Sys2Proof.Machine.execPuts d a b g m s
  | .saddc d a b g m => Sys2Proof.Machine.execSaddc d a b g m s
  | .saddi d a imm => Sys2Proof.Machine.execSaddi d a imm s
  | .sandi d a imm => Sys2Proof.Machine.execSandi d a imm s
  | .sori d a imm => Sys2Proof.Machine.execSori d a imm s
  | .sxori d a imm => Sys2Proof.Machine.execSxori d a imm s
  | .sshli d a imm => Sys2Proof.Machine.execSshli d a imm s
  | .sshri d a imm => Sys2Proof.Machine.execSshri d a imm s
  | .ssari d a imm => Sys2Proof.Machine.execSsari d a imm s
  | .ssetiLt d a imm => Sys2Proof.Machine.execSsetiLt d a imm s
  | .ssetiEq d a imm => Sys2Proof.Machine.execSsetiEq d a imm s
  | .ssetiLtn d a imm => Sys2Proof.Machine.execSsetiLtn d a imm s
  | .smuli d a imm => Sys2Proof.Machine.execSmuli d a imm s
  | .smovi d imm => Sys2Proof.Machine.execSmovi d imm s
  | .shi18 d imm => Sys2Proof.Machine.execShi18 d imm s
  | .sadr d imm => Sys2Proof.Machine.execSadr d imm s
  | .bra c off => Sys2Proof.Machine.execBra c off s
  | .br c off => Sys2Proof.Machine.execBr c off s
  | .brE c off => Sys2Proof.Machine.execBrE c off s
  | .joinat c off => Sys2Proof.Machine.execJoinat c off s
  | .call c off => Sys2Proof.Machine.execCall c off s
  | .loop c off => Sys2Proof.Machine.execLoop c off s
  | .rgnI c off => Sys2Proof.Machine.execRgnI c off s
  | .rgnH c off => Sys2Proof.Machine.execRgnH c off s
  | .mmaQ a view se acc sat sp z la => Sys2Proof.Machine.execMmaQ a view se acc sat sp z la s
  | .mmaPk y a view se acc sat sp z la => Sys2Proof.Machine.execMmaPk y a view se acc sat sp z la s
  | .mzero y a b z la => Sys2Proof.Machine.execMzero y a b z la s
  | .cpy y d a z la => Sys2Proof.Machine.execCpy y d a z la s
  | .cpyr y d a b la => Sys2Proof.Machine.execCpyr y d a b la s
  | .dispSend y d a z mode la => Sys2Proof.Machine.execDispSend y d a z mode la s
  | .dispOpen y d a z mode la => Sys2Proof.Machine.execDispOpen y d a z mode la s
  | .dispClose y d a z mode la => Sys2Proof.Machine.execDispClose y d a z mode la s
  | .cstl y mask sp z => Sys2Proof.Machine.execCstl y mask sp z s
  | .fork y a b z => Sys2Proof.Machine.execFork y a b z s
  | .rdv y d z la => Sys2Proof.Machine.execRdv y d z la s
  | .xch d a b la => Sys2Proof.Machine.execXch d a b la s
  | .join z => Sys2Proof.Machine.execJoin z s
  | .ret y a z => Sys2Proof.Machine.execRet y a z s
  | .brx y a z => Sys2Proof.Machine.execBrx y a z s
  | .exit z => Sys2Proof.Machine.execExit z s
  | .nop z => Sys2Proof.Machine.execNop z s
  | .yield z => Sys2Proof.Machine.execYield z s
  | .cmtBr z => Sys2Proof.Machine.execCmtBr z s
  | .cmtSv z => Sys2Proof.Machine.execCmtSv z s
  | .cmtRl z => Sys2Proof.Machine.execCmtRl z s
  | .pchk u p y a pl e z => Sys2Proof.Machine.execPchk u p y a pl e z s
  | .pclr f n q sx z => Sys2Proof.Machine.execPclr f n q sx z s
  | .side d a k z => Sys2Proof.Machine.execSide d a k z s
  | .bar kind act slot z => Sys2Proof.Machine.execBar kind act slot z s
  | .fenceAcq scope kind z => Sys2Proof.Machine.execFenceAcq scope kind z s
  | .fenceRel scope kind z => Sys2Proof.Machine.execFenceRel scope kind z s
  | .fenceAr scope kind z => Sys2Proof.Machine.execFenceAr scope kind z s
  | .trig z => Sys2Proof.Machine.execTrig z s
  | .tready y a z => Sys2Proof.Machine.execTready y a z s
  | .twait y a z => Sys2Proof.Machine.execTwait y a z s
  | .svc z => Sys2Proof.Machine.execSvc z s
  | .sret z => Sys2Proof.Machine.execSret z s
  | .brk z => Sys2Proof.Machine.execBrk z s
  | .harv d a b clr z => Sys2Proof.Machine.execHarv d a b clr z s
  | .tlbiGen d a b form z => Sys2Proof.Machine.execTlbiGen d a b form z s
  | .tlbiPage d a b form z => Sys2Proof.Machine.execTlbiPage d a b form z s
  | .tlbiHold d a b form z => Sys2Proof.Machine.execTlbiHold d a b form z s
  | .tlbiRel d a b form z => Sys2Proof.Machine.execTlbiRel d a b form z s
  | .cwb d a b lvl z => Sys2Proof.Machine.execCwb d a b lvl z s
  | .cinv d a b lvl mode z => Sys2Proof.Machine.execCinv d a b lvl mode z s
  | .sealClose d a b op z => Sys2Proof.Machine.execSealClose d a b op z s
  | .sealOpen d a b op z => Sys2Proof.Machine.execSealOpen d a b op z s
  | .evt y a z => Sys2Proof.Machine.execEvt y a z s
  | .waitev d a z => Sys2Proof.Machine.execWaitev d a z s
  | .launch d a z => Sys2Proof.Machine.execLaunch d a z s
  | .vacateSave d a b mode z => Sys2Proof.Machine.execVacateSave d a b mode z s
  | .vacateOpen d a b mode z => Sys2Proof.Machine.execVacateOpen d a b mode z s
  | .vacateKill d a b mode z => Sys2Proof.Machine.execVacateKill d a b mode z s
  | .dict d a b z => Sys2Proof.Machine.execDict d a b z s
  | .flushst d a b fua z => Sys2Proof.Machine.execFlushst d a b fua z s
  | .hashsw d a z => Sys2Proof.Machine.execHashsw d a z s
  | .sldW hint d base off la => Sys2Proof.Machine.execSldW hint d base off la s
  | .sldD hint d base off la => Sys2Proof.Machine.execSldD hint d base off la s
  | .sstW hint d base off la => Sys2Proof.Machine.execSstW hint d base off la s
  | .sstD hint d base off la => Sys2Proof.Machine.execSstD hint d base off la s
  | .satomAdd64 hint d base off la => Sys2Proof.Machine.execSatomAdd64 hint d base off la s
  | .scas64 hint d base off la => Sys2Proof.Machine.execScas64 hint d base off la s
  | .sldl hint d base off la => Sys2Proof.Machine.execSldl hint d base off la s
  | .sstl hint d base off la => Sys2Proof.Machine.execSstl hint d base off la s
  | .dictionaryCode rb index => Sys2Proof.Machine.execDictionaryCode rb index s
  | .unassignedEncoding detail => Sys2Proof.Machine.execUnassignedEncoding detail s
  | .instructionFetchFault => Sys2Proof.Machine.execInstructionFetchFault s
  | .registerWrite fn off size value => Sys2Proof.Machine.execRegisterWrite fn off size value s
  | .storeTranslationProbe a ev => Sys2Proof.Machine.execStoreTranslationProbe a ev s
  | .probeReturn a => Sys2Proof.Machine.execProbeReturn a s
  | .l1Fill a => Sys2Proof.Machine.execL1Fill a s
  | .sliceReadMiss a ev => Sys2Proof.Machine.execSliceReadMiss a ev s
  | .walkComplete a ev => Sys2Proof.Machine.execWalkComplete a ev s
  | .writeBack core n => Sys2Proof.Machine.execWriteBack core n s
  | .bypassStore a ev => Sys2Proof.Machine.execBypassStore a ev s
  | .sliceAtomic a ev => Sys2Proof.Machine.execSliceAtomic a ev s
  | .reclaim sl asid page => Sys2Proof.Machine.execReclaim sl asid page s
  | .reclaimAck sl asid page => Sys2Proof.Machine.execReclaimAck sl asid page s
  | .replicaInvalidate sl asid page die => Sys2Proof.Machine.execReplicaInvalidate sl asid page die s
  | .replicaInvalidateAck sl asid page => Sys2Proof.Machine.execReplicaInvalidateAck sl asid page s
  | .requestBounce a => Sys2Proof.Machine.execRequestBounce a s
  | .requestReplay a => Sys2Proof.Machine.execRequestReplay a s
  | .remoteScratchpadAccess a => Sys2Proof.Machine.execRemoteScratchpadAccess a s
  | .retrieverAccess a => Sys2Proof.Machine.execRetrieverAccess a s
  | .genBroadcastReceive asid r => Sys2Proof.Machine.execGenBroadcastReceive asid r s
  | .genBroadcastDone asid => Sys2Proof.Machine.execGenBroadcastDone asid s
  | .dropNotice sl => Sys2Proof.Machine.execDropNotice sl s
  | .pageInvalidateReceive sl asid page => Sys2Proof.Machine.execPageInvalidateReceive sl asid page s
  | .pageInvalidationDone asid page => Sys2Proof.Machine.execPageInvalidationDone asid page s
  | .harvestDone a => Sys2Proof.Machine.execHarvestDone a s
  | .rangeOperationDone a => Sys2Proof.Machine.execRangeOperationDone a s
  | .domainSwitchDone dom => Sys2Proof.Machine.execDomainSwitchDone dom s
  | .slcsClr sl => Sys2Proof.Machine.execSlcsClr sl s
  | .sltsClr sl => Sys2Proof.Machine.execSltsClr sl s
  | .cmcmdSet value => Sys2Proof.Machine.execCmcmdSet value s
  | .cmcmdQuery value => Sys2Proof.Machine.execCmcmdQuery value s
  | .cmcmdSetDone => Sys2Proof.Machine.execCmcmdSetDone s
  | .slhmWrite dom value => Sys2Proof.Machine.execSlhmWrite dom value s
  | .slhcWrite dom value => Sys2Proof.Machine.execSlhcWrite dom value s
  | .commitBackoffExpiry core slot => Sys2Proof.Machine.execCommitBackoffExpiry core slot s
  | .fetchRequestIntake port => Sys2Proof.Machine.execFetchRequestIntake port s
  | .nvmeCommandComplete port n status => Sys2Proof.Machine.execNvmeCommandComplete port n status s
  | .nvmeCommandTimeout port n => Sys2Proof.Machine.execNvmeCommandTimeout port n s
  | .storageLinkUp port lbs ident => Sys2Proof.Machine.execStorageLinkUp port lbs ident s
  | .storageLinkDown port => Sys2Proof.Machine.execStorageLinkDown port s
  | .frdbServiced die token => Sys2Proof.Machine.execFrdbServiced die token s
  | .frdbFail die token => Sys2Proof.Machine.execFrdbFail die token s
  | .handOverDone die t => Sys2Proof.Machine.execHandOverDone die t s
  | .rejoinTimeout die t => Sys2Proof.Machine.execRejoinTimeout die t s
  | .recallComplete die t => Sys2Proof.Machine.execRecallComplete die t s
  | .powerTokenGrant die => Sys2Proof.Machine.execPowerTokenGrant die s
  | .matrixPassComplete core => Sys2Proof.Machine.execMatrixPassComplete core s
  | .copyComplete core wg n => Sys2Proof.Machine.execCopyComplete core wg n s
  | .cpyrAck core wg n fault => Sys2Proof.Machine.execCpyrAck core wg n fault s
  | .dispatchDeliver core wg n refused => Sys2Proof.Machine.execDispatchDeliver core wg n refused s
  | .dispatchDone core wg n => Sys2Proof.Machine.execDispatchDone core wg n s
  | .peerTimeout a => Sys2Proof.Machine.execPeerTimeout a s
  | .xchTimeout core slot => Sys2Proof.Machine.execXchTimeout core slot s
  | .castling a => Sys2Proof.Machine.execCastling a s
  | .rdvComplete core wg => Sys2Proof.Machine.execRdvComplete core wg s
  | .tileFlagNotify die => Sys2Proof.Machine.execTileFlagNotify die s
  | .packPlace die => Sys2Proof.Machine.execPackPlace die s
  | .packSaveComplete die => Sys2Proof.Machine.execPackSaveComplete die s
  | .quantumExpiry die q => Sys2Proof.Machine.execQuantumExpiry die q s
  | .gridCompletion die => Sys2Proof.Machine.execGridCompletion die s
  | .submissionTake die => Sys2Proof.Machine.execSubmissionTake die s
  | .eventInsert die => Sys2Proof.Machine.execEventInsert die s
  | .waitevTimeout die t => Sys2Proof.Machine.execWaitevTimeout die t s
  | .dbgctlResume die => Sys2Proof.Machine.execDbgctlResume die s
  | .dbgctlHaltedClear die => Sys2Proof.Machine.execDbgctlHaltedClear die s
  | .kscmdLoad slot => Sys2Proof.Machine.execKscmdLoad slot s
  | .kscmdRevoke slot => Sys2Proof.Machine.execKscmdRevoke slot s
  | .keySlotOpDone => Sys2Proof.Machine.execKeySlotOpDone s
  | .mfesClear value => Sys2Proof.Machine.execMfesClear value s
  | .almLock => Sys2Proof.Machine.execAlmLock s
  | .almClear value => Sys2Proof.Machine.execAlmClear value s
  | .securityAlarm src => Sys2Proof.Machine.execSecurityAlarm src s
  | .dbggoGo die => Sys2Proof.Machine.execDbggoGo die s
  | .debugUnlockResult ok => Sys2Proof.Machine.execDebugUnlockResult ok s
  | .drstGo die => Sys2Proof.Machine.execDrstGo die s
  | .functionLevelReset die => Sys2Proof.Machine.execFunctionLevelReset die s
  | .bdrstReset sl => Sys2Proof.Machine.execBdrstReset sl s
  | .ctxbWrite value => Sys2Proof.Machine.execCtxbWrite value s
  | .peerbWrite value => Sys2Proof.Machine.execPeerbWrite value s
  | .fabnWrite value => Sys2Proof.Machine.execFabnWrite value s
  | .moduleColdReset ok ctxb peerb fab => Sys2Proof.Machine.execModuleColdReset ok ctxb peerb fab s
  | .thermalLimit die lvl tmax => Sys2Proof.Machine.execThermalLimit die lvl tmax s
  | .thermalRecover die lvl => Sys2Proof.Machine.execThermalRecover die lvl s
  | .spdmRequest die code => Sys2Proof.Machine.execSpdmRequest die code s
  | .keyProgram die slot => Sys2Proof.Machine.execKeyProgram die slot s
  | .lockInterface die => Sys2Proof.Machine.execLockInterface die s
  | .stopInterface die => Sys2Proof.Machine.execStopInterface die s
  | .hostBar2Read die off size => Sys2Proof.Machine.execHostBar2Read die off size s
  | .hostBar2Write die off size value ep => Sys2Proof.Machine.execHostBar2Write die off size value ep s
  | .peerRequest fab rasid cmd addr value poi => Sys2Proof.Machine.execPeerRequest fab rasid cmd addr value poi s
  | .cxlCompletion a kind value => Sys2Proof.Machine.execCxlCompletion a kind value s
  | .sealVersionNotice dev buf ver => Sys2Proof.Machine.execSealVersionNotice dev buf ver s
  | .sealRetire die dev buf ver => Sys2Proof.Machine.execSealRetire die dev buf ver s
  | .sealRetireAck a => Sys2Proof.Machine.execSealRetireAck a s
  | .startInterface die => Sys2Proof.Machine.execStartInterface die s
  | .ualinkPortsTrain => Sys2Proof.Machine.execUalinkPortsTrain s
  | .peerAccessCompletion a kind value => Sys2Proof.Machine.execPeerAccessCompletion a kind value s
  | .dieResetComplete die => Sys2Proof.Machine.execDieResetComplete die s
  | .baseDieResetComplete sl => Sys2Proof.Machine.execBaseDieResetComplete sl s
  | .uncorrectableEccError sp core addr syn => Sys2Proof.Machine.execUncorrectableEccError sp core addr syn s

end Sys2Proof.Machine
end

