-- ==== Sys2Proof/Machine/Ready.lean ====
section
/-! DEFINITION. Which context can issue, and what it issues (06 R191 to R193; 07 R228, R230, R240; 09 R283 to R286; 05 R171). -/

namespace Sys2Proof.Machine

/-- What a context does when its turn comes: nothing; a change without an instruction (a slot taken from the pool, windows that end,
a token request); or an instruction. -/
inductive Prep where
  | idle
  | stay (s : State)
  | run (i : Instr) (s : State)
  deriving DecidableEq, Repr

/-! Held results. -/

/-- An instruction of some lanes names a register of a held result that one of them is past the window of (09 R284; 07 R228). Lanes that did not
issue what the result comes from have no window: beside lanes that did, they do not count, and by themselves they wait for a uniform result. -/
def Held.waitedBy (h : Held) (mask : Nat) (i : Instr) : Bool :=
  if h.uni then
    i.uniRegs.any (fun r => h.regs.contains r)
      && (if mask = 0 then Tbl.get 0 h.win 32 = 0
        else let ws := (lanesOf mask).filterMap (Tbl.find h.win); ws.isEmpty || ws.contains 0)
  else i.laneRegs.any (fun r => h.regs.contains r || h.soft.contains r) && (lanesOf mask).any (fun l => Tbl.find h.win l == some 0)

/-- An instruction must wait for a held result. -/
def Ctx.waitsHeld (c : Ctx) (mask : Nat) (i : Instr) : Bool := c.pend.any (fun e => e.2.waitedBy mask i)

/-- Where an instruction waits for a held result that some of its lanes are past the window of and others are not, those windows end (log
entry 64). -/
def Ctx.evenWin (c : Ctx) (mask : Nat) (i : Instr) : Ctx :=
  { c with pend := c.pend.map (fun h => if h.2.waitedBy mask i then
      (h.1, { h.2 with win := h.2.win.map (fun w => if bit mask w.1 then (w.1, 0) else w) }) else h) }

/-- A memory instruction of a slot, or of some of the lanes, is in flight. -/
def Ctx.inFlight (c : Ctx) (slot mask : Nat) : Bool := c.memops.any (fun e => e.1 == slot || e.2.mask &&& mask != 0)

/-- Whether lanes have held results that are not written. -/
def Ctx.holds (c : Ctx) (mask : Nat) : Bool := c.pend.any (fun e => e.2.win.any (fun w => w.1 = 32 || bit mask w.1))

/-! Classes of instructions. -/

def Instr.isCommit : Instr → Bool
  | .cmtBr _ => true
  | .cmtSv _ => true
  | .cmtRl _ => true
  | _ => false

def Instr.isRgn : Instr → Bool
  | .rgnI _ _ => true
  | .rgnH _ _ => true
  | _ => false

/-- The instructions that end the windows of their lanes (09 R286). -/
def Instr.endsWindows : Instr → Bool
  | .brE _ _ => true
  | .cmtBr _ => true
  | .cmtSv _ => true
  | .cmtRl _ => true
  | .bar _ _ _ _ => true
  | .join _ => true
  | .exit _ => true
  | .svc _ => true
  | .brk _ => true
  | _ => false

/-- The instructions that wait for the memory instructions in flight of their slot and of their lanes (log entry 10). -/
def Instr.waitsMem (i : Instr) : Bool :=
  (Instr.minfo i).isSome || Instr.endsWindows i || Instr.isRgn i || (match i with
  | .mmaQ _ _ _ _ _ _ _ _ => true
  | .mmaPk _ _ _ _ _ _ _ _ _ => true
  | .mzero _ _ _ _ _ => true
  | .cpy _ _ _ _ _ => true
  | .cpyr _ _ _ _ _ => true
  | .dispSend _ _ _ _ _ _ => true
  | .dispOpen _ _ _ _ _ _ => true
  | .dispClose _ _ _ _ _ _ => true
  | .cstl _ _ _ _ => true
  | .fork _ _ _ _ => true
  | .rdv _ _ _ _ => true
  | .xch _ _ _ _ => true
  | .pclr _ _ _ _ _ => true
  | .fenceAcq _ _ _ => true
  | .fenceRel _ _ _ => true
  | .fenceAr _ _ _ => true
  | .trig _ => true
  | .tready _ _ _ => true
  | .twait _ _ _ => true
  | .sret _ => true
  | .harv _ _ _ _ _ => true
  | .tlbiGen _ _ _ _ _ => true
  | .tlbiPage _ _ _ _ _ => true
  | .tlbiHold _ _ _ _ _ => true
  | .tlbiRel _ _ _ _ _ => true
  | .cwb _ _ _ _ _ => true
  | .cinv _ _ _ _ _ _ => true
  | .sealClose _ _ _ _ _ => true
  | .sealOpen _ _ _ _ _ => true
  | .flushst _ _ _ _ _ => true
  | .hashsw _ _ _ => true
  | .getl _ _ _ _ => true
  | .gets _ _ _ _ _ => true
  | .puts _ _ _ _ _ => true
  | .unassignedEncoding _ => true
  | _ => false)

/-! Conditions of single instructions. -/

/-- The kind of a copy-queue instruction (12 R377). -/
def Instr.copyKind : Instr → Option Nat
  | .cpy _ _ _ _ _ => some 0
  | .cpyr _ _ _ _ _ => some 1
  | .dispSend _ _ _ _ _ _ => some 2
  | .dispOpen _ _ _ _ _ _ => some 2
  | .dispClose _ _ _ _ _ _ => some 2
  | _ => none

/-- Matrix operations that a group issued for some of the lanes are outstanding (05 R171). -/
def State.matBusy (s : State) (a : Actor) (mask : Nat) : Bool :=
  match a with
  | .split c g _ => (s.core c).mq.any (fun o => (match o.act with | .split _ k _ => k == g | _ => false) && o.mask &&& mask != 0)
  | _ => false

/-- Matrix operations that use the A- or C-buffer views of a workgroup are outstanding (12 R370). -/
def State.bufBusy (s : State) (core wslot : Nat) : Bool :=
  s.cores.any (fun e => e.2.mq.any (fun o =>
    (e.1 == core && o.wslot == wslot) || o.passes.any (fun p => p.rows.any (fun r => r.a.core == core && r.a.wslot == wslot))))

/-- Accesses of a workgroup's groups and ejected lanes to its on-chip spaces are on their way (03 R103). -/
def State.viewBusy (s : State) (core wslot : Nat) : Bool :=
  (s.threadsOf core wslot).any (fun t => (s.ctx (.thread (core / 64) t)).memops.any (fun o => o.2.info.space.isSome))
  || s.groups.any (fun e => e.1 / 32 == core && e.2.wslot == wslot && e.2.memops.any (fun o => o.2.info.space.isSome))

/-- Held stores of some of the lanes, which what the context issues could release, must still wait: they take effect after every access that
their group issued earlier, and in an A- or C-buffer view after every matrix pass of the workgroup that uses it (03 R97, R103). -/
def State.heldWait (s : State) (a : Actor) (mask : Nat) : Bool :=
  let c := s.ctx a
  let es := (s.core (s.coreOf a)).quar.filter (fun e => e.slot == s.homeSlot a && e.bytes.any (fun b => b.2.own &&& mask != 0))
  (!es.isEmpty && !c.memops.isEmpty) || (es.any (fun e => 2 ≤ e.space) && s.bufBusy (s.coreOf a) c.wslot)

/-- A split of the group waits for its castling cycle. -/
def Ctx.castling (c : Ctx) : Bool :=
  (c.splits.map (·.2) ++ c.pool).any (fun p => p.blks.any (fun b => match b with | .cstl _ _ => true | _ => false))

/-- The instructions whose accesses resolve a view's frames, and those that release held stores into one: while a split of the group waits for
its castling cycle they wait too, since they resolve after it (03 R104). -/
def Instr.usesViews (i : Instr) : Bool :=
  Instr.isCommit i || Instr.isRgn i || (Instr.copyKind i).isSome || (match Instr.minfo i with | some m => m.space.isSome | none => false)
  || (match i with
    | .mmaQ _ _ _ _ _ _ _ _ => true
    | .mmaPk _ _ _ _ _ _ _ _ _ => true
    | .mzero _ _ _ _ _ => true
    | .xch _ _ _ _ => true
    | .cstl _ _ _ _ => true
    | .exit _ => true
    | _ => false)

/-- Whether the copy queue takes an instruction: it joins an episode, or finds an entry (07 R240). -/
def State.copyRoom (s : State) (a : Actor) (kind : Nat) : Bool :=
  let w := s.wgOf a
  let k := Tbl.get 0 (s.ctx a).counts kind + 1
  (!a.isSeq && w.ops.any (fun o => !o.seqr && o.kind == kind && o.epi == k)) || !s.sharedFull (s.coreOf a) || !w.ops.any (·.reserved)

/-- The key of the barrier that a BAR names, if there is one (11 R352). -/
def State.barKey (s : State) (a : Actor) (kind slot : Nat) : Option Nat :=
  let w := s.wgOf a
  if kind = 3 then (if bit w.teams.toNat (32 + slot) then some (16 + fld w.teams.toNat (8 * slot) 8) else none) else some kind

/-- Conditions beyond registers and tokens. -/
def State.clearFor (s : State) (a : Actor) (i : Instr) : Bool :=
  let c := s.ctx a
  let mask := (c.split a.slot).mask
  (match i with
  | .bar kind act slot _ => act = 2 || a.isThread || (match s.barKey a kind slot with | some k => Tbl.get 0 c.arr k &&& mask == 0 | none => true)
  | .fork _ _ _ _ => s.seqIdle (s.coreOf a)
  | .mmaQ _ _ _ _ _ _ _ _ => !s.viewBusy (s.coreOf a) c.wslot
  | .mmaPk _ _ _ _ _ _ _ _ _ =>
    let w := s.wgOf a
    (s.packWgs w.grid w.first (s.dieOf a)).all (fun m => !s.viewBusy m.1 m.2.1)
  | .mzero _ _ _ _ _ => !s.viewBusy (s.coreOf a) c.wslot
  | .exit _ => !s.heldWait a mask
  | _ => true)
  && !(c.castling && Instr.usesViews i)
  && (match Instr.copyKind i with | some k => s.copyRoom a k | none => true)
  && (match Instr.minfo i with
    | some m => (match m.space with | some sc => spaceOf sc = 0 || !s.bufBusy (s.coreOf a) c.wslot | none => true)
    | none => true)
  && (if (Instr.isCommit i) || ((Instr.isRgn i) && (lanesOf mask).any (fun l => (c.ln l).rgn.opn)) then !s.matBusy a mask && !s.heldWait a mask else true)

/-! Power tokens (07 R230; 12 R372). -/

/-- The tokens that a matrix instruction's passes take; 0 where it forms none. -/
def State.tokensFor (s : State) (a : Actor) (i : Instr) : Nat :=
  let c := s.ctx a
  let mask := (c.split a.slot).mask
  if a.isCtl || a.isThread then 0
  else match i, a with
  | .mmaQ ra view se acc sat sp _ _, .split _ _ _ => passSum (s.formQ a mask ra view sp se (acc != 0) (sat != 0)).passes
  | .mmaQ ra view se acc sat sp _ _, .mseq _ =>
    if 16 ≤ alignReg 4 ra then 0
    else (match (s.formBlock a none (alignReg 4 ra) view sp se (acc != 0) (sat != 0)).2.2 with | .ok p => p.tokens | .error _ => 0)
  | .mzero _ ra rb _ _, .split _ _ _ => zero ra rb
  | .mzero _ ra rb _ _, .mseq _ => if seqRegs [ra, rb] then zero ra rb else 0
  | _, _ => 0
where
  zero (ra rb : Nat) : Nat :=
    let c := s.ctx a
    match firstBad [(c.rs ra).pl?, (c.rs rb).pl?] with
    | some _ => 0
    | none => match s.formZero a ra rb with | .ok (some p) => p.tokens | _ => 0

/-- Every member of a pack has reached its k-th MMA.PK; their request enters the queue, or is granted at once when it needs no
token. -/
def State.askPack (s : State) (a : Actor) (k : Nat) : State :=
  let w := s.wgOf a
  let ms := s.packWgs w.grid w.first (s.dieOf a)
  let es := ms.flatMap (fun m => m.2.2.pk.filter (fun e => e.k == k))
  if !ms.all (fun m => m.2.2.done || k ≤ m.2.2.pkN || m.2.2.pk.any (fun e => e.k == k)) then s
  else
    let d := s.die (s.dieOf a)
    let n := es.foldl (fun n e => n + e.n) 0
    if es.any (fun e => d.ptq.any (fun q => q.1.base == e.cur.act.base)) || es.all (fun e => (s.ctx e.cur.act).tok != .asked) then s
    else if n = 0 then es.foldl (fun s e => s.updCtx e.cur.act (fun c => { c with tok := .granted })) s
    else if 64 ≤ d.ptq.length then s
    else s.setDie (s.dieOf a) { d with ptq := d.ptq ++ [(a, n)] }

/-- The tokens that an arrival at an MMA.PK needs. -/
def State.pkNeed (s : State) (a : Actor) (i : Instr) : Nat :=
  match i with
  | .mmaPk _ ra view se acc sat sp _ _ =>
    (match (s.formPk a (alignReg 4 ra) view sp se (acc != 0) (sat != 0)).2.2 with | .ok p => p.tokens | .error _ => 0)
  | _ => 0

/-- The arrivals of a pack at its k-th MMA.PK, each with the tokens that its pass needs now. -/
def State.pkArrived (s : State) (a : Actor) (k : Nat) : List (PkArr × Nat) :=
  let w := s.wgOf a
  (s.packWgs w.grid w.first (s.dieOf a)).flatMap (fun m => (m.2.2.pk.filter (fun e => e.k == k)).map (fun e => (e, s.pkNeed e.cur.act e.ins)))

/-- A pack's grant whose passes no longer take what was granted goes back, and is asked for anew (log entry 58). -/
def State.pkAnew (s : State) (a : Actor) (k : Nat) : State :=
  let es := s.pkArrived a k
  let d := s.die (s.dieOf a)
  let s1 := s.setDie (s.dieOf a) { d with used := d.used - es.foldl (fun n e => n + (s.ctx e.1.cur.act).tokN) 0 }
  let s2 := es.foldl (fun s e => (s.updCtx e.1.cur.act (fun c => { c with tok := .asked, tokN := e.2 })).updWg (s.coreOf e.1.cur.act)
    (s.ctx e.1.cur.act).wslot (fun w => { w with pk := w.pk.map (fun x => if x == e.1 then { x with n := e.2 } else x) })) s1
  s2.askPack a k

/-- The part of an MMA.PK before its tokens are granted. -/
def State.preparePk (s : State) (a : Actor) (i : Instr) : Prep :=
  let c := s.ctx a
  let w := s.wgOf a
  let k := Tbl.get 0 c.counts pkKind + 1
  if k ≤ w.pkN && !w.pk.any (fun e => e.k == k && e.cur.act.base == a.base) then .run i s
  else match w.pk.find? (fun e => e.k == k) with
  | some e =>
    if e.cur.act.base != a.base then .idle
    else match c.tok with
      | .granted => if (s.pkArrived a k).all (fun e => e.1.n == e.2) then .run i s else .stay (s.pkAnew a k)
      | _ => let s1 := s.askPack a k; if s1 == s then .idle else .stay s1
  | none =>
    if c.tok != .none then .idle
    else
      let n := s.pkNeed a i
      let s1 := (s.updCtx a (fun c => { c with tok := .asked, tokN := n, tokSlot := a.slot })).updWg (s.coreOf a) c.wslot
        (fun w => { w with pk := w.pk ++ [⟨k, n, i, s.cur⟩] })
      .stay (s1.askPack a k)

/-- A matrix instruction issues once its tokens are granted; other instructions at once. Where the passes no longer take what was granted,
the tokens go back and are asked for anew. -/
def State.withTokens (s : State) (a : Actor) (i : Instr) : Prep :=
  let c := s.ctx a
  let matrix : Bool := match i with | .mmaQ _ _ _ _ _ _ _ _ => true | .mzero _ _ _ _ _ => true | _ => false
  match i, a with
  | .mmaPk _ _ _ _ _ _ _ _ _, .split _ _ _ => s.preparePk a i
  | _, _ =>
    if !matrix then (if c.tok == .granted then .run i (s.giveBack a) else .run i s)
    else
      let n := s.tokensFor a i
      match c.tok with
      | .granted => if n = c.tokN then .run i s else .stay (s.giveBack a)
      | .asked => .idle
      | .none =>
        if n = 0 then .run i s
        else
          let s1 := s.askTokens a n
          if (s1.ctx a).tok == .none then .idle else .stay s1

/-! The next instruction of a context. -/

/-- The instruction that a context fetches, and the one it stands for when it is a dictionary code, in the state after the fetch with
its PCs and word set; none when the fetch fails. -/
def State.fetched (s : State) (a : Actor) (pc : W64) : Option (Instr × Instr × State) :=
  match s.fetch a pc with
  | (_, .fault _ _) => none
  | (s1, .code h) =>
    let rb := bits h 10 2
    let idx := bits h 0 10
    let real : Instr := match s1.expand a rb idx with | .ok i => i | .error d => .unassignedEncoding d
    some (.dictionaryCode rb idx, real, { s1 with cur := ⟨a, pc, pc + 2, h⟩ })
  | (s1, .word w) =>
    let i : Instr := match decodeWord w with | .ok i => i | .error _ => .unassignedEncoding w
    some (i, i, { s1 with cur := ⟨a, pc, pc + 4, w⟩ })

/-- A context whose lanes must write their held results first: their windows end here (09 R286). -/
def State.afterWindows (s : State) (a : Actor) (mask : Nat) (k : State → Prep) : Prep :=
  let c := s.ctx a
  let c1 := (c.endWin mask).settle
  if c1.holds mask then (if c1 == c then .idle else .stay (s.setCtx a c1)) else k (s.setCtx a c1)

/-- What a context with a split to run issues. -/
def State.issue (s : State) (a : Actor) : Prep :=
  let c := s.ctx a
  let sp := c.split a.slot
  let isSplit : Bool := match a with | .split _ _ _ => true | _ => false
  let fail (s : State) : Prep := .run .instructionFetchFault { s with cur := ⟨a, sp.pc, sp.pc, 0⟩ }
  let commitWaits := c.inFlight a.slot sp.mask || s.matBusy a sp.mask || s.heldWait a sp.mask || c.castling
  if sp.due then (if commitWaits then .idle else s.afterWindows a sp.mask fail)
  else match s.fetched a sp.pc with
  | none =>
    if (s.fetch a sp.pc).1.mem.stall || ((a.isSeq || a.isCtl) && c.inFlight a.slot sp.mask) then .idle
    else if !isSplit || sp.inHandler then fail s
    else if commitWaits then .idle
    else s.afterWindows a sp.mask fail
  | some (i, real, s1) =>
    if c.waitsHeld sp.mask real then
      let c1 := (c.evenWin sp.mask real).settle
      if c1 == c then .idle else .stay (s.setCtx a c1)
    else if c.inFlight a.slot sp.mask && (a.isSeq || a.isCtl || Instr.waitsMem real) then .idle
    else if !s1.clearFor a real then .idle
    else
      let go (s : State) : Prep := match s.withTokens a real with
        | .run _ s2 => .run i s2
        | x => x
      if (isSplit || a.isThread) && ((Instr.endsWindows real) || ((Instr.isRgn real) && (lanesOf sp.mask).any (fun l => (c.ln l).rgn.opn))) then s1.afterWindows a sp.mask go
      else go s1

/-- The pack of a context is being saved. -/
def State.saving (s : State) (a : Actor) : Bool :=
  let w := s.wgOf a
  match s.gridAt w.grid with
  | some g => g.packs.any (fun p => p.base.isSome && p.p * 2 ^ g.desc.nlog == w.first && p.die == s.dieOf a && p.saving)
  | none => false

/-- From a token request to its grant no split of the group issues, but that the one which arrived at an MMA.PK asks again while the
request is not yet made; then the split that asked goes first (07 R228; 12 R370). -/
def State.tokenWait (s : State) (a : Actor) : Bool :=
  let c := s.ctx a
  let other := c.tokSlot != a.slot && (c.split c.tokSlot).mask != 0
  match c.tok with
  | .none => false
  | .granted => other
  | .asked => other || (s.wgOf a).pk.all (fun e => e.cur.act.base != a.base)

/-- A slot of a group, but for YIELD. Slots whose PCs have become equal merge first (06 R192). -/
def State.prepareSlot (s : State) (a : Actor) : Prep :=
  let c := s.ctx a
  let sp := c.split a.slot
  let hit : Bool := match c.svc with
    | some v => !c.hpack && (lanesOf v.handler).any (fun l => (Tbl.find c.hit l).isSome)
    | none => false
  let t := c.tidy
  if !c.on || s.saving a || (s.core (s.coreOf a)).stop then .idle
  else if hit then .stay (s.handlerFault a)
  else if t.splits != c.splits || t.pool != c.pool then .stay (s.setCtx a t)
  else if sp.mask = 0 then .idle
  else if sp.wait != .none then (if c.pool.any Split.ready then .stay (s.updCtx a (fun c => c.yieldSlot a.slot)) else .idle)
  else if sp.blk.isSome || sp.halted || c.backoff || s.tokenWait a then .idle
  else match c.svc with
    | some v => if v.stage = 0 && sp.inHandler then s.issue a else .idle
    | none => s.issue a

def Prep.isIdle : Prep → Bool
  | .idle => true
  | _ => false

/-- A split of a group: one that YIELD holds back waits for the splits that can issue (11 R346). -/
def State.prepareSplit (s : State) (a : Actor) : Prep :=
  match a with
  | .split c g k =>
    match s.prepareSlot (.split c g k) with
    | .idle => .idle
    | p => if ((s.ctx a).split k).yld.any (fun j => !(s.prepareSlot (.split c g j)).isIdle) then .idle else p
  | _ => .idle

/-- What a context issues; a group remembers the slot that it issued from (06 R193). -/
def Prep.issuedBy (p : Prep) (a : Actor) : Prep :=
  match p, a with
  | .run i t, .split c g k => .run i (t.updCtx (.split c g k) (fun x => { x with last := k }))
  | p, _ => p

/-- The split that a group offers: its first slot that can issue, in slot order after the slot that issued last (06 R193). -/
def State.offerFrom (s : State) (c g : Nat) : List Nat → Prep
  | [] => .idle
  | k :: r =>
    match s.prepareSplit (.split c g k) with
    | .idle => s.offerFrom c g r
    | p => p.issuedBy (.split c g k)

/-- The slots of a group in the order in which they are offered. -/
def Ctx.rota (c : Ctx) : List Nat := (List.range 4).map (fun i => (c.last + 1 + i) % 4)

/-- What an actor does when its turn comes; a group offers one of its splits. -/
def State.prepare (s : State) (a : Actor) : Prep :=
  let c := s.ctx a
  let free : Bool := (c.split 0).blk.isNone
  if s.mf.halted || (s.die (s.dieOf a)).inRst then .idle
  else match a with
  | .split k g _ => s.offerFrom k g c.rota
  | .thread _ _ => if c.on && c.moved && !c.timedOut && free && !s.saving a then s.issue a else .idle
  | .ctl _ _ => if c.on && free then s.issue a else .idle
  | _ => if c.on && free && !s.saving a && !(s.core (s.coreOf a)).stop && c.tok != .asked then s.issue a else .idle

/-- The events that the MF still performs when the module has halted (13 R421). -/
def Instr.ofMf : Instr → Bool
  | .registerWrite fn _ _ _ => fn = 0 || fn = 8
  | .mfesClear _ => true
  | .almLock => true
  | .almClear _ => true
  | .securityAlarm _ => true
  | .ctxbWrite _ => true
  | .peerbWrite _ => true
  | .fabnWrite _ => true
  | .kscmdLoad _ => true
  | .kscmdRevoke _ => true
  | .cmcmdSet _ => true
  | .cmcmdQuery _ => true
  | .dbggoGo _ => true
  | .debugUnlockResult _ => true
  | .dbgctlResume _ => true
  | .dbgctlHaltedClear _ => true
  | .drstGo _ => true
  | .bdrstReset _ => true
  | .slhmWrite _ _ => true
  | .slhcWrite _ _ => true
  | .spdmRequest _ _ => true
  | .lockInterface _ => true
  | .startInterface _ => true
  | .stopInterface _ => true
  | .moduleColdReset _ _ _ _ => true
  | _ => false

end Sys2Proof.Machine
end

