-- ==== Sys2Proof/Machine/Turn.lean ====
section
/-! DEFINITION. One move of the module: time passes, a context issues or an event happens (log entries 1 and 2); and the placing of
one instruction where the next step fetches it. -/

namespace Sys2Proof.Machine

/-- Time passes with every step: each die's cycle counter (07 R244; log entry 2), the counter of free values, and the turn of the default
order; what the step before it has latched about sharing classes is gone. A retire whose reads have ended meanwhile is acknowledged (03 R115). -/
def State.tick (s0 : State) : State :=
  let s := s0.ackRetires
  let s1 := (List.range 4).foldl (fun s d =>
    let x := s.die d
    s.setDie d { x with cycles := x.cycles + Config.cycleAdvance (4 * s.mem.ctr + d) }) s
  { s1 with mem := { s1.mem with ctr := s1.mem.ctr + 1, shc := false }, rr := s1.rr + 1 }

/-- An instruction and, when it was a dictionary code, the rebased instruction that the code stands for (09 R282). -/
def runInstr (i : Instr) (s : State) : Out :=
  match exec i s with
  | .next s1 =>
    match s1.next with
    | some j => exec j { s1 with next := none }
    | none => .next s1
  | .fault f => .fault f
  | .refused r => .refused r

/-- A step from `s` would offer a die records of types that their sources hold, and the die's queue has no room for all of them behind the
records already offered: the source stalls (07 R214). Where they are more than the queue and its ring can ever hold, it waits until both are
empty (log entry 42). -/
def State.evFull (s t : State) : Bool :=
  let new := (t.mem.offer.drop s.mem.offer.length).filter (fun e => evHeldType (e.2.toNat / 2 ^ 120))
  new.any (fun e =>
    let d := t.die e.1
    let room := 256 + d.ringSize
    room < d.evOn.length + d.ringLen + d.evHeld.length + (s.mem.offer.filter (fun q => q.1 == e.1)).length
      + min room (new.filter (fun q => q.1 == e.1)).length)

/-- A step from `s` to `t` does not happen yet: one of its accesses must wait at its slice, or its event record finds no room (log entries 35,
42). -/
def State.stalls (s t : State) : Bool := t.mem.stall || s.evFull t

/-- A step that does not happen yet leaves the state as it is. -/
def State.unlessStalled (s : State) (o : Out) : Out :=
  match o with
  | .next t => .next (if s.stalls t then s else t)
  | o => o

/-- The turn of a group some of whose slots are left to be offered: the first that can issue does; one whose instruction does not happen yet
cannot issue and is passed over (06 R193). -/
def State.slotTurn (s : State) (c g : Nat) : List Nat → Out
  | [] => .next s
  | k :: r =>
    match (s.prepareSplit (.split c g k)).issuedBy (.split c g k) with
    | .idle => s.slotTurn c g r
    | .stay s1 => s.unlessStalled (.next s1)
    | .run i s1 =>
      match runInstr i s1 with
      | .next t => if s.stalls t then s.slotTurn c g r else .next t
      | o => o

/-- The slots of a group that are offered after one. -/
def Ctx.rotaAfter (c : Ctx) (k : Nat) : List Nat := (c.rota.dropWhile (· != k)).drop 1

/-- An actor's turn, in the state after time has passed. An instruction of a group that does not happen yet leaves the turn to the group's
other splits (06 R193). The placement unit, and not the control-core thread, is the source of a record that a LAUNCH or a VACATE writes: the
thread goes on, and the record is held (07 R214). -/
def State.turn (s : State) (p : Prep) : Out :=
  match p with
  | .idle => .next s
  | .stay s1 => s.unlessStalled (.next s1)
  | .run i s1 =>
    match runInstr i s1, s1.cur.act with
    | .next t, .split c g k => if s.stalls t then s.slotTurn c g ((s.ctx (.split c g 0)).rotaAfter k) else .next t
    | .next t, .ctl _ _ => .next (if t.mem.stall then s else t)
    | o, _ => s.unlessStalled o

/-- An event of the device or its surroundings. A module that has halted performs those of the management function only. -/
def State.happen (s : State) (i : Instr) : Out :=
  if !i.wf || i.inStream then .fault .illFormedMove
  else if s.mf.halted && !Instr.ofMf i then .next s
  else s.unlessStalled (exec i s)

/-- What the first actor of a list that can do something does. -/
def State.firstTurn (s : State) : List Actor → Prep
  | [] => .idle
  | a :: r =>
    match s.prepare a with
    | .idle => s.firstTurn r
    | p => p

/-! The default order (log entry 1). -/

/-- Every actor that holds a context; a group is offered as a whole (06 R193). -/
def State.offered (s : State) : List Actor :=
  s.mseqs.map (fun e => .mseq e.1) ++ s.cseqs.map (fun e => .cseq e.1) ++ s.groups.map (fun e => .split (e.1 / 32) (e.1 % 32) 0)
    ++ s.threads.map (fun e => .thread (e.1 / 128) (e.1 % 128)) ++ s.ctls.map (fun e => .ctl (e.1 / 8) (e.1 % 8))

/-- The events that what a context has outstanding can come to by itself. -/
def State.pendingOf (s : State) (a : Actor) : List (State → Out) :=
  (if (s.opOf a).isNone then []
    else [execSliceReadMiss a 0, execStoreTranslationProbe a 0, execBypassStore a 0, execSliceAtomic a 0, execWalkComplete a 0, execProbeReturn a, execL1Fill a,
      execRequestBounce a, execRequestReplay a, execRetrieverAccess a, execRemoteScratchpadAccess a])
  ++ (if (s.blkOf a).isNone then [] else [execCastling a, execHarvestDone a, execRangeOperationDone a, execSealRetireAck a])

/-- The events that a slice's entries and notices can come to. -/
def State.pendingAt (s : State) (sl : Nat) : List (State → Out) :=
  (s.mem.slice sl).tlb.flatMap (fun e =>
    (if e.rcl.isSome then [execReclaim sl e.asid e.leaf.page, execReclaimAck sl e.asid e.leaf.page] else [])
    ++ (if e.inval then (List.range Config.dies).map (fun d => execReplicaInvalidate sl e.asid e.leaf.page d) ++ [execReplicaInvalidateAck sl e.asid e.leaf.page]
      else []))
  ++ (if s.mem.notices.contains sl then [execDropNotice sl] else [])

/-- The events that a core's engines can come to. -/
def State.pendingOn (s : State) (c : Nat) : List (State → Out) :=
  (if (s.core c).mq.isEmpty then [] else [execMatrixPassComplete c])
  ++ (s.core c).wgs.flatMap (fun w =>
    (List.range w.2.ops.length).flatMap (fun n => match w.2.ops[n]? with
      | some o =>
        if o.kind = 0 then [execCopyComplete c w.1 n]
        else if o.kind = 1 then []
        else
          let peer : Bool := match o.disp, s.opLead o with | some d, some v => (s.toPeer v d).isSome | _, _ => false
          (if peer then [] else [execDispatchDeliver c w.1 n 0]) ++ [execDispatchDone c w.1 n]
      | none => [])
    ++ [execRdvComplete c w.1])

/-- The events, each as its row's meaning, that happen by themselves, without the host, a peer, a drive, a timer or another free choice. -/
def State.pending (s : State) : List (State → Out) :=
  s.actors.flatMap s.pendingOf ++ (s.mem.slices.map (·.1)).flatMap s.pendingAt ++ (s.cores.map (·.1)).flatMap s.pendingOn
  ++ s.bcasts.flatMap (fun b => b.left.map (fun r => execGenBroadcastReceive b.asid r) ++ [execGenBroadcastDone b.asid])
  ++ s.invals.flatMap (fun v => v.left.map (fun sl => execPageInvalidateReceive sl v.asid v.page) ++ [execPageInvalidationDone v.asid v.page])
  ++ s.switches.map (fun w => execDomainSwitchDone w.1)
  ++ s.groups.flatMap (fun g => if g.2.backoff then [execCommitBackoffExpiry (g.1 / 32) (g.1 % 32)] else [])
  ++ s.threads.flatMap (fun t => if t.2.on then [execHandOverDone (t.1 / 128) (t.1 % 128), execRecallComplete (t.1 / 128) (t.1 % 128)] else [])
  ++ (List.range Config.dies).flatMap (fun d => [execPowerTokenGrant d, execPackPlace d, execPackSaveComplete d, execGridCompletion d, execSubmissionTake d,
    execEventInsert d, execTileFlagNotify d, execDieResetComplete d])
  ++ s.ports.map (fun p => execFetchRequestIntake p.1)
  ++ (s.mem.slices.filter (fun x => x.2.inRst)).map (fun x => execBaseDieResetComplete x.1) ++ [execKeySlotOpDone, execCmcmdSetDone]

/-- The first event of a list that changes the state. -/
def State.firstEvent (s : State) : List (State → Out) → Option State
  | [] => none
  | f :: r =>
    match s.unlessStalled (f s) with
    | .next t => if t = s then s.firstEvent r else some t
    | _ => s.firstEvent r

/-- A list begun at its n-th place. -/
def rotate {α : Type} (n : Nat) (l : List α) : List α := l.drop (n % l.length) ++ l.take (n % l.length)

/-- One turn of the default order: contexts and events go first in turn, each list begun one place further each time. -/
def State.auto (s : State) : Out :=
  let run := s.firstTurn (rotate (s.rr / 2) s.offered)
  let ev : Option State := if s.mf.halted then none else s.firstEvent (rotate (s.rr / 2) s.pending)
  if s.rr % 2 = 0 then (if run.isIdle then .next (ev.getD s) else s.turn run)
  else match ev with
    | some t => .next t
    | none => s.turn run

/-- One move of the module: the head of the agenda, or what the default order comes to (log entry 1). -/
def State.move (s : State) : Out :=
  let t := s.tick
  match s.agenda with
  | .run a :: r => let u : State := { t with agenda := r }; u.turn (u.prepare a)
  | .event i :: r => { t with agenda := r }.happen i
  | [] => t.auto

/-! Placing one instruction (log entry 33). -/

/-- The instructions that only a control core executes (11 R332). -/
def Instr.ofCtl : Instr → Bool
  | .waitev _ _ _ => true
  | .launch _ _ _ => true
  | .dict _ _ _ _ => true
  | .vacateSave _ _ _ _ _ => true
  | .vacateOpen _ _ _ _ _ => true
  | .vacateKill _ _ _ _ _ => true
  | _ => false

/-- The address, virtual and physical, at which an instruction is placed. -/
def placePc : Nat := 0x20000

/-- The agent that runs a placed instruction. -/
def placeActor (i : Option Instr) : Actor :=
  match i with
  | some j => if Instr.ofCtl j then .ctl 0 0 else .split 0 0 0
  | none => .split 0 0 0

/-- A resident context at the place: a group of 32 live lanes, or a control-core thread without lanes. -/
def placeCtx (a : Actor) : Ctx :=
  let lanes : Nat := if a.isCtl then 0 else 0xFFFFFFFF
  let sp : Split := { pc := BitVec.ofNat 64 placePc, mask := lanes }
  { on := true, asid := 1, splits := [(0, sp)], lanes := (lanesOf lanes).map (fun l => (l, { life := .live })) }

/-- Memory in which ASID 1 has one 4 TiB leaf that maps its addresses to the physical addresses of equal number (01 R24; 04 R117),
interleaved over slice 0 alone (02 R65), and the halfwords of an instruction at the place. -/
def Mem.placeCode (m : Mem) (hs : List Nat) : Mem :=
  let dom : Tbl W32 := [(0, 0x80000001)]
  let sl : Slice := { slhm := dom }
  let m1 := { m with ctxb := 0, erased := false, keys := Tbl.del m.keys 0, slices := Tbl.put m.slices 0 sl, dslhm := Tbl.put m.dslhm 0 dom }
  let m2 := ((m1.putNum 0 32 8 0x10000).putNum 0 40 8 1).putNum 0 0x10000 8 0x9000070000000000
  (hs.zip (List.range hs.length)).foldl (fun m e => m.putNum 0 (placePc + 2 * e.2) 2 e.1) m2

/-- A module in which the next step runs the instruction that the halfwords give: resident at the place, with its turn scheduled.
A packed matrix instruction finds its pack's tokens granted (07 R230). -/
def State.placeCode (s : State) (hs : List Nat) (i : Option Instr) : State :=
  let a := placeActor i
  let packed : Bool := match i with | some (.mmaPk _ _ _ _ _ _ _ _ _) => true | _ => false
  let at' : Cur := { act := a, pc := BitVec.ofNat 64 placePc, npc := BitVec.ofNat 64 (placePc + 4) }
  let pk : List PkArr := match i with | some j => if packed then [⟨1, 0, j, at'⟩] else [] | none => []
  let wg : Wg := { slots := [0], pk := pk }
  let cx := placeCtx a
  let s1 : State := { s with mem := s.mem.placeCode hs, mf := { s.mf with halted := false }, cores := Tbl.put s.cores 0 { wgs := [(0, wg)] }
                             agenda := [.run a], next := none }
  (s1.setDie 0 { s.die 0 with inRst := false, halted := false }).setCtx a { cx with tok := if packed then .granted else .none }

end Sys2Proof.Machine
end

