-- ==== Sys2Proof/Machine/Step.lean ====
section
/-! DEFINITION. The step of the module, and the placing of one instruction where it fetches next. -/

namespace Sys2Proof.Machine

/-- One step of the module: time passes, and one move of the agenda or of the default order is made (log entry 1). -/
def step (s : State) : Host.Outcome State Fault Refusal := s.move

/-- The state with an instruction of `nbits` bits, the number `w`, where the next step fetches it (log entry 33). -/
def State.withFetchWord (s : State) (nbits w : Nat) : State := s.placeCode (halfwords nbits w) (decodeTableWord nbits w)

end Sys2Proof.Machine
end

