-- ==== Sys2Proof/Safety.lean ====
section
/-! DEFINITION. What counts as a safe run, and the terms in which claims say what an instruction changes. -/

namespace Sys2Proof.Machine

/-! Safe runs. -/

/-- A move that a step can make: the turn of a context, or a well-formed event of the table (log entry 1). -/
def Move.ok : Move → Bool
  | .run _ => true
  | .event i => i.wf && !i.inStream

/-- A safe state: HBM in its canonical form, an agenda of moves that can be made. -/
def State.safe (s : State) : Bool := Memory.wf s.mem.hbm && s.agenda.all Move.ok

/-- A safe run of n steps: each step answers a next state, and every state on the way is safe. -/
def State.safeRun (s : State) : Nat → Bool
  | 0 => s.safe
  | n + 1 => s.safe && (match Sys2Proof.Machine.step s with | .next t => t.safeRun n | _ => false)

/-! What an instruction changes. -/

/-- A context with other splits and another pool. -/
def Ctx.withSplits (c : Ctx) (sp : Tbl Split) (pl : List Split) : Ctx := { c with splits := sp, pool := pl }

/-- A context with other lanes, exception flags and warnings. -/
def Ctx.withLanes (c : Ctx) (t : Tbl Lane) (fx wn : W32) : Ctx := { c with lanes := t, fpx := fx, warn := wn }

/-- The executing context holds no result that is still to be written (09 R283). -/
def State.quiet (s : State) : Prop := s.me.pend = []

/-- The executing context has no split but the executing one, in one of the four slots. -/
def State.lone (s : State) : Prop :=
  s.me.splits = [(s.cur.act.slot, s.sp)] ∧ s.me.pool = [] ∧ s.cur.act.slot < 4 ∧ (s.cur.act.lanes = true → s.sp.mask ≠ 0)

/-- An instruction of the executing context completes: no other context and no other component changes; the context becomes `c`
but for its splits, and a lone split ends as `x`. -/
def State.becomes (s : State) (i : Instr) (c : Ctx) (x : Split) : Prop :=
  ∃ sp pl, exec i s = .next (s.setCtx s.cur.act (c.withSplits sp pl)) ∧ (s.lone → sp = [(s.cur.act.slot, x)] ∧ pl = [])

/-- An instruction completes as in `becomes`, and sets warnings, which for an engine sequencer are those of the group of its FORK (09
R296); `f` says what else changes in the context. -/
def State.becomesW (s : State) (i : Instr) (w : W32) (f : Ctx → Ctx) (x : Split) : Prop :=
  ∃ sp pl, exec i s = .next ((s.warns w).setCtx s.cur.act ((f (s.warns w).me).withSplits sp pl))
    ∧ (s.lone → sp = [(s.cur.act.slot, x)] ∧ pl = [])

/-- The executing split at the next instruction. -/
def State.after (s : State) : Split := { s.sp with pc := s.cur.npc }

/-- Where a uniform instruction of a class executes in its own right: a control core or an engine sequencer that may run it, or
a group or an ejected lane in a place and mode that its class admits (11 R332). -/
def State.allows (s : State) (lg : Legal) (regs : List Nat) : Bool :=
  if s.cur.act.isCtl then lg.ctl
  else if s.cur.act.isSeq then lg.seq && seqRegs regs
  else !(s.cur.act.isThread && !lg.thread) && !(s.sp.sup && !lg.sup)

/-- Whether a guard lets a scalar instruction execute (11 R330); none for a poisoned guard. -/
def State.takes (s : State) (g : Nat) : Option Bool :=
  if g = 0 then some true
  else match s.me.rq (if g = 2 then 2 else 1) with
    | .bad _ => none
    | .ok b => some (if g = 3 then !b else b)

end Sys2Proof.Machine
end

