-- ==== Sys2Proof/Certificates/Slice0/Obligations.lean ====
section
/-! DEFINITION. The statements for the provers, and the terms they are said in. -/

namespace Sys2Proof.Machine

/-! Terms: results of lane instructions, from the tables of 10 R300 to R319. -/

/-- A value computed from a lane's registers: the payload of the first poisoned one in reading order, else the function of the
values (05 R157). -/
def Lane.calc (x : Lane) (rs : List Nat) (g : List W32 → W32) : Val W32 :=
  match firstBad (rs.map (fun r => (x.rd r).pl?)) with
  | some p => .bad p
  | none => .ok (g (rs.map (fun r => (x.rd r).getD 0)))

/-- A lane with a register written. -/
def Lane.setV (x : Lane) (d : Nat) (v : Val W32) : Lane := { x with v := Tbl.put x.v (d % 128) v }

/-- A lane with a predicate written; p0 discards it (09 R273). -/
def Lane.setP (x : Lane) (d : Nat) (v : Val Bool) : Lane := if d % 8 = 0 then x else { x with p := Tbl.put x.p (d % 8) v }

/-- Functions of the one, two or three values read. -/
def of1 (f : W32 → W32) : List W32 → W32 | [a] => f a | _ => 0
def of2 (f : W32 → W32 → W32) : List W32 → W32 | [a, b] => f a b | _ => 0
def of3 (f : W32 → W32 → W32 → W32) : List W32 → W32 | [a, b, d] => f a b d | _ => 0

/-- A word as an exact integer by m[0]: signed, or natural (R300). -/
def asInt (m : Nat) (w : W32) : Int := if m % 2 = 1 then (w.toNat : Int) else w.toInt

/-- An exact integer as a word by m: wrapped, or clamped to the signed or natural range under m[1] (R300). -/
def fit (m : Nat) (n : Int) : W32 :=
  if m = 2 then (if n < -2147483648 then 0x80000000 else if 2147483647 < n then 0x7FFFFFFF else BitVec.ofInt 32 n)
  else if m = 3 then (if n < 0 then 0 else if 4294967295 < n then 0xFFFFFFFF else BitVec.ofInt 32 n)
  else BitVec.ofInt 32 n

/-- The 9-bit immediate, sign-extended. -/
def imm9s (i : Nat) : W32 := (BitVec.ofNat 9 i).signExtend 32

/-- The width of a bit field after clipping, 0 when no field exists (R302). -/
def clip (pos len : Nat) : Nat := if 32 ≤ pos then 0 else min len (32 - pos)

/-- A bit field moved to bit 0, zero-extended or sign-extended (R302). -/
def fieldOf (natural : Bool) (pos len : Nat) (a : W32) : W32 :=
  if clip pos len = 0 then 0
  else
    let top := a <<< (32 - pos - clip pos len)
    if natural then top >>> (32 - clip pos len) else top.sshiftRight (32 - clip pos len)

/-- A field of a word replaced (R302). -/
def fieldPut (pos len : Nat) (d a : W32) : W32 :=
  let m : W32 := (BitVec.ofNat 32 (2 ^ clip pos len - 1)) <<< pos
  (d &&& ~~~m) ||| (a <<< pos &&& m)

/-- Byte i of BYSEL (R302). -/
def byteSel (a b : W32) (i : Nat) : Byte :=
  let k := (b >>> (4 * i)).toNat
  let x : Byte := (a >>> (8 * (k % 4))).setWidth 8
  if k.testBit 3 then 0 else if k.testBit 2 then (if x.msb then 0xFF else 0) else x

/-- The integer, logic, bit-field and move instructions that write one lane register from registers of the lane: destination,
registers in reading order, result (R300 to R302, R306, R309). -/
def Instr.laneInt : Instr → Option (Nat × List Nat × (List W32 → W32))
  | .iadd d a b m => some (d, [a, b], of2 (fun x y => fit m (asInt m x + asInt m y)))
  | .isub d a b m => some (d, [a, b], of2 (fun x y => fit m (asInt m x - asInt m y)))
  | .imul d a b _ => some (d, [a, b], of2 (fun x y => x * y))
  | .imulh d a b m => some (d, [a, b], of2 (fun x y => BitVec.ofInt 32 (asInt m x * asInt m y / 4294967296)))
  | .imad d a b m => some (d, [a, b, d], of3 (fun x y z => fit m (asInt m z + asInt m x * asInt m y)))
  | .imin d a b m => some (d, [a, b], of2 (fun x y => if asInt m y < asInt m x then y else x))
  | .imax d a b m => some (d, [a, b], of2 (fun x y => if asInt m x < asInt m y then y else x))
  | .iabs d a b m => some (d, [a, b], of2 (fun x y => fit m |asInt m x - asInt m y|))
  | .sad d a b m => some (d, [a, b, d], of3 (fun x y z => z + BitVec.ofInt 32 |asInt m x - asInt m y|))
  | .and32 d a b _ => some (d, [a, b], of2 (fun x y => x &&& y))
  | .or32 d a b _ => some (d, [a, b], of2 (fun x y => x ||| y))
  | .xor32 d a b _ => some (d, [a, b], of2 (fun x y => x ^^^ y))
  | .andn d a b _ => some (d, [a, b], of2 (fun x y => x &&& ~~~y))
  | .shl d a b _ => some (d, [a, b], of2 (fun x y => x <<< (y.toNat % 256)))
  | .shr d a b _ => some (d, [a, b], of2 (fun x y => x >>> (y.toNat % 256)))
  | .sar d a b _ => some (d, [a, b], of2 (fun x y => x.sshiftRight (y.toNat % 256)))
  | .rot d a b _ => some (d, [a, b], of2 (fun x y => x.rotateLeft (y.toNat % 32)))
  | .popc d a _ _ => some (d, [a], of1 (fun x => BitVec.ofNat 32 ((List.range 32).countP (fun i => x.getLsbD i))))
  | .clz d a _ _ => some (d, [a], of1 (fun x => BitVec.ofNat 32 ((List.range 32).takeWhile (fun i => !x.getLsbD (31 - i))).length))
  | .brev d a _ _ => some (d, [a], of1 (fun x => x.reverse))
  | .bfx d a b m => some (d, [a, b], of2 (fun x y => fieldOf (m % 2 == 1) (y.toNat % 256) (y.toNat / 256 % 256) x))
  | .bfi d a b _ => some (d, [a, b, d], of3 (fun x y z => fieldPut (y.toNat % 256) (y.toNat / 256 % 256) z x))
  | .bysel d a b _ => some (d, [a, b], of2 (fun x y => byteSel x y 3 ++ byteSel x y 2 ++ byteSel x y 1 ++ byteSel x y 0))
  | .iaddi d a i => some (d, [a], of1 (fun x => x + imm9s i))
  | .imuli d a i => some (d, [a], of1 (fun x => x * imm9s i))
  | .andi d a i => some (d, [a], of1 (fun x => x &&& imm9s i))
  | .ori d a i => some (d, [a], of1 (fun x => x ||| imm9s i))
  | .xori d a i => some (d, [a], of1 (fun x => x ^^^ imm9s i))
  | .shli d a i => some (d, [a], of1 (fun x => x <<< (i % 32)))
  | .shri d a i => some (d, [a], of1 (fun x => x >>> (i % 32)))
  | .sari d a i => some (d, [a], of1 (fun x => x.sshiftRight (i % 32)))
  | .bfxi d a i => some (d, [a], of1 (fun x => fieldOf true (i % 32) (i / 32 % 16 + 1) x))
  | .mov d a _ _ => some (d, [a], of1 (fun x => x))
  | .movi d a i => some (d, [], fun _ => (BitVec.ofNat 16 (512 * a + i)).signExtend 32)
  | .movhi d a i => some (d, [d], of1 (fun x => (BitVec.ofNat 16 (512 * a + i)) ++ (x.setWidth 16 : BitVec 16)))
  | _ => none

/-- A comparison of exact integers by number: 0 LT, 1 LE, 2 EQ, 3 NE (R303). -/
def holds (c : Nat) (a b : Int) : Bool :=
  if c = 0 then decide (a < b) else if c = 1 then decide (a ≤ b) else if c = 2 then decide (a = b) else !decide (a = b)

/-- The compares: predicate, registers read, whether the predicate is read too, the condition (R303). -/
def Instr.laneCmp : Instr → Option (Nat × List Nat × Bool × (List W32 → Bool))
  | .isetLt d a b m => some (d, [a, b], 2 ≤ m, fun v => match v with | [x, y] => holds 0 (asInt m x) (asInt m y) | _ => false)
  | .isetLe d a b m => some (d, [a, b], 2 ≤ m, fun v => match v with | [x, y] => holds 1 (asInt m x) (asInt m y) | _ => false)
  | .isetEq d a b m => some (d, [a, b], 2 ≤ m, fun v => match v with | [x, y] => holds 2 (asInt m x) (asInt m y) | _ => false)
  | .isetNe d a b m => some (d, [a, b], 2 ≤ m, fun v => match v with | [x, y] => holds 3 (asInt m x) (asInt m y) | _ => false)
  | .isetiLt d a i => some (d, [a], false, fun v => match v with | [x] => holds 0 x.toInt (imm9s i).toInt | _ => false)
  | .isetiLe d a i => some (d, [a], false, fun v => match v with | [x] => holds 1 x.toInt (imm9s i).toInt | _ => false)
  | .isetiEq d a i => some (d, [a], false, fun v => match v with | [x] => holds 2 x.toInt (imm9s i).toInt | _ => false)
  | .isetiNe d a i => some (d, [a], false, fun v => match v with | [x] => holds 3 x.toInt (imm9s i).toInt | _ => false)
  | .isetiLtn d a i => some (d, [a], false, fun v => match v with | [x] => holds 0 x.toNat i | _ => false)
  | .isetiLen d a i => some (d, [a], false, fun v => match v with | [x] => holds 1 x.toNat i | _ => false)
  | _ => none

/-- What a compare writes: the first poison among its registers and then its predicate, else the condition. -/
def Lane.compare (x : Lane) (d : Nat) (rs : List Nat) (also : Bool) (g : List W32 → Bool) : Val Bool :=
  match firstBad (rs.map (fun r => (x.rd r).pl?) ++ (if also then [(x.pr d).pl?] else [])) with
  | some p => .bad p
  | none => .ok (g (rs.map (fun r => (x.rd r).getD 0)) && (!also || x.pTrue d))

/-- The FP32 and packed BF16 instructions that write one lane register from registers of the lane, with the rounded result and its
flags (R310 to R313, R315); the rounding is that of 08 R248 and R249. -/
def Instr.laneFp : Instr → Option (Nat × List Nat × (List W32 → FR))
  | .fadd d a b m => some (d, [a, b], fun v => match v with | [x, y] => Fmt.f32.add m (f32v x) (f32v y) | _ => ⟨0, 0⟩)
  | .fsub d a b m => some (d, [a, b], fun v => match v with | [x, y] => Fmt.f32.add m (f32v x) (f32v y).neg | _ => ⟨0, 0⟩)
  | .fmul d a b m => some (d, [a, b], fun v => match v with | [x, y] => Fmt.f32.mul m (f32v x) (f32v y) | _ => ⟨0, 0⟩)
  | .ffma d a b m => some (d, [a, b, d], fun v => match v with | [x, y, z] => Fmt.f32.fma m (f32v x) (f32v y) (f32v z) | _ => ⟨0, 0⟩)
  | .fmin d a b _ => some (d, [a, b], fun v => match v with | [x, y] => (Fmt.f32.minmax false x.toNat y.toNat).1 | _ => ⟨0, 0⟩)
  | .fmax d a b _ => some (d, [a, b], fun v => match v with | [x, y] => (Fmt.f32.minmax true x.toNat y.toNat).1 | _ => ⟨0, 0⟩)
  | .frcp d a _ _ => some (d, [a], fun v => match v with | [x] => approx 0 x | _ => ⟨0, 0⟩)
  | .frsq d a _ _ => some (d, [a], fun v => match v with | [x] => approx 1 x | _ => ⟨0, 0⟩)
  | .fsqrt d a _ m => some (d, [a], fun v => match v with | [x] => Fmt.f32.sqrt m x.toNat | _ => ⟨0, 0⟩)
  | .fexp2 d a _ _ => some (d, [a], fun v => match v with | [x] => approx 2 x | _ => ⟨0, 0⟩)
  | .flog2 d a _ _ => some (d, [a], fun v => match v with | [x] => approx 3 x | _ => ⟨0, 0⟩)
  | .fsin d a _ _ => some (d, [a], fun v => match v with | [x] => approx 4 x | _ => ⟨0, 0⟩)
  | .fcos d a _ _ => some (d, [a], fun v => match v with | [x] => approx 5 x | _ => ⟨0, 0⟩)
  | .ftanh d a _ _ => some (d, [a], fun v => match v with | [x] => approx 6 x | _ => ⟨0, 0⟩)
  | .fclass d a _ _ => some (d, [a], fun v => match v with | [x] => ⟨Fmt.f32.cls x.toNat, 0⟩ | _ => ⟨0, 0⟩)
  | .hadd2 d a b m => some (d, [a, b], fun v => match v with
      | [x, y] => pack2 (fun h => Fmt.bf16.add m (bfv (halfOf h x)) (bfv (halfOf h y))) | _ => ⟨0, 0⟩)
  | .hsub2 d a b m => some (d, [a, b], fun v => match v with
      | [x, y] => pack2 (fun h => Fmt.bf16.add m (bfv (halfOf h x)) (bfv (halfOf h y)).neg) | _ => ⟨0, 0⟩)
  | .hmul2 d a b m => some (d, [a, b], fun v => match v with
      | [x, y] => pack2 (fun h => Fmt.bf16.mul m (bfv (halfOf h x)) (bfv (halfOf h y))) | _ => ⟨0, 0⟩)
  | .hfma2 d a b m => some (d, [a, b, d], fun v => match v with
      | [x, y, z] => pack2 (fun h => Fmt.bf16.fma m (bfv (halfOf h x)) (bfv (halfOf h y)) (bfv (halfOf h z))) | _ => ⟨0, 0⟩)
  | .hmax2 d a b _ => some (d, [a, b], fun v => match v with
      | [x, y] => pack2 (fun h => (Fmt.bf16.minmax true (halfOf h x) (halfOf h y)).1) | _ => ⟨0, 0⟩)
  | _ => none

/-- The exception flags of a lane's result: none where an operand is poisoned. -/
def Lane.flagsOf (x : Lane) (rs : List Nat) (g : List W32 → FR) : W32 :=
  match firstBad (rs.map (fun r => (x.rd r).pl?)) with
  | some _ => 0
  | none => fpBits (g (rs.map (fun r => (x.rd r).getD 0))).fl

/-- An instruction of the executing lane context completes: nothing outside that context changes; in it the active lanes become
what `f` says and the others stay; the exception flags are `fx`; warnings are sticky, and none outside `allowed` is set; a lone
split goes on at the next instruction, and only splits and pool change besides. -/
def State.lanesDo (s : State) (i : Instr) (allowed fx : W32) (f : Nat → Lane → Lane) : Prop :=
  ∃ t w, s.becomes i (s.me.withLanes t fx w) s.after
    ∧ (∀ l, Tbl.get ({} : Lane) t l = if l ∈ s.active then f l (s.me.ln l) else s.me.ln l)
    ∧ w &&& s.me.warn = s.me.warn ∧ w &&& ~~~allowed = s.me.warn &&& ~~~allowed

/-- The warnings that a lane instruction may set: ignored bits (09 R295), a reserved selector (09 R296), a register outside HSET (06
R196). -/
def laneWarns : W32 := flag wModIgn ||| flag wEjectUnmapped ||| flag wModRsvd

/-- The 64-bit operands of a lane, in pairs named by their even registers, and the function of them; the first poison counts. -/
def Lane.calc64 (x : Lane) (rs : List Nat) (g : List Nat → FR) : Except Payload FR :=
  match firstBad (rs.map (fun r => (x.rd2 (r - r % 2)).pl?)) with
  | some p => .error p
  | none => .ok (g (rs.map (fun r => ((x.rd2 (r - r % 2)).getD 0).toNat)))

/-- The FP64 instructions that write a pair: destination, operands in reading order, the rounded result (R314). -/
def Instr.laneFp64 : Instr → Option (Nat × List Nat × (List Nat → FR))
  | .dadd d a b m => some (d, [a, b], fun v => match v with | [x, y] => Fmt.f64.add m (Fmt.f64.dec x) (Fmt.f64.dec y) | _ => ⟨0, 0⟩)
  | .dmul d a b m => some (d, [a, b], fun v => match v with | [x, y] => Fmt.f64.mul m (Fmt.f64.dec x) (Fmt.f64.dec y) | _ => ⟨0, 0⟩)
  | .dfma d a b m => some (d, [a, b, d], fun v => match v with
      | [x, y, z] => Fmt.f64.fma m (Fmt.f64.dec x) (Fmt.f64.dec y) (Fmt.f64.dec z) | _ => ⟨0, 0⟩)
  | .dmin d a b _ => some (d, [a, b], fun v => match v with | [x, y] => (Fmt.f64.minmax false x y).1 | _ => ⟨0, 0⟩)
  | .dmax d a b _ => some (d, [a, b], fun v => match v with | [x, y] => (Fmt.f64.minmax true x y).1 | _ => ⟨0, 0⟩)
  | _ => none

/-- A lane with a pair written: both registers poisoned, or the two words of a result. -/
def Lane.setPair (x : Lane) (d : Nat) (r : Except Payload FR) : Lane :=
  match r with
  | .error p => (x.setV d (.bad p)).setV (d + 1) (.bad p)
  | .ok r => (x.setV d (.ok (BitVec.ofNat 32 r.code))).setV (d + 1) (.ok (BitVec.ofNat 32 (r.code / 4294967296)))

/-- The flags of a result, none of a poisoned one. -/
def flagsIf (r : Except Payload FR) : W32 := match r with | .error _ => 0 | .ok r => fpBits r.fl

/-- The flags of all active lanes joined to those of the group (08 R251). -/
def State.flagged (s : State) (f : Lane → W32) : W32 := s.active.foldl (fun w l => w ||| f (s.me.ln l)) s.me.fpx

/-- The floating-point compares of FP32: condition, predicate, operands, whether the predicate is read too (R311). -/
def Instr.laneFcmp : Instr → Option (Nat × Nat × Nat × Nat × Bool)
  | .fsetLt d a b m => some (0, d, a, b, 2 ≤ m)
  | .fsetLe d a b m => some (1, d, a, b, 2 ≤ m)
  | .fsetEq d a b m => some (2, d, a, b, 2 ≤ m)
  | .fsetNe d a b m => some (3, d, a, b, 2 ≤ m)
  | _ => none

/-- The source lane of a shuffle (R307). -/
def shuffleFrom (mode k l : Nat) : Nat :=
  if mode = 0 then k % 32 else if mode = 1 then (if k ≤ l then l - k else l) else if mode = 2 then (if l + k ≤ 31 then l + k else l)
  else l ^^^ (k % 32)

/-- The warnings that a wide or converting lane instruction may set besides. -/
def wideWarns : W32 := laneWarns ||| flag wRegAlign ||| flag wCvtRsvd ||| flag wTernRsvd

/-- Both halves of MAXD2 (R316), and its decision bits. -/
def Lane.maxd2 (x : Lane) (a b : Nat) : Except Payload FR :=
  match firstBad [(x.rd a).pl?, (x.rd b).pl?] with
  | some p => .error p
  | none => .ok (pack2 (fun h => (Fmt.bf16.minmax true (halfOf h ((x.rd a).getD 0)) (halfOf h ((x.rd b).getD 0))).1))

def Lane.decides (x : Lane) (a b : Nat) : W32 :=
  let gt (h : Bool) : Bool := (Fmt.bf16.minmax true (halfOf h ((x.rd a).getD 0)) (halfOf h ((x.rd b).getD 0))).2
  (if gt true then 2 else 0) + (if gt false then 1 else 0)

/-- The code of a result of one word, or its poison. -/
def wordOf (r : Except Payload FR) : Val W32 := match r with | .error p => .bad p | .ok r => .ok (BitVec.ofNat 32 r.code)

/-- A lane after MAXD2. -/
def Lane.setDec (x : Lane) (d : Nat) (r : Except Payload FR) (bits : W32) : Lane :=
  { x.setV d (wordOf r) with dr := match r, x.dr with
    | .error p, _ => .bad p
    | .ok _, .bad p => .bad p
    | .ok _, .ok w => .ok (w * 4 + bits) }

/-- The result of CVT with its code (R317, R318). -/
def Lane.cvtRes (x : Lane) (a b m : Nat) : Except Payload FR :=
  match (if is64 (b / 16) then x.rd2 (a - a % 2) else (match x.rd a with | .bad p => .bad p | .ok w => .ok (w.setWidth 64))) with
  | .bad p => .error p
  | .ok w => .ok (fCvt m (b % 16) (cvtSrc (b / 16) w.toNat))

/-- A lane with a result of a type written. -/
def Lane.setCvt (x : Lane) (d t : Nat) (r : Except Payload FR) : Lane := if is64 t then x.setPair (d - d % 2) r else x.setV d (wordOf r)

/-- The result of CVTX.PACK: elements from ascending registers, the lowest first (R319). -/
def Lane.packRes (x : Lane) (a b : Nat) : Except Payload FR :=
  let k := packK (b % 32)
  match firstBad ((List.range k).map (fun i => (x.rd (a - a % k + i)).pl?)) with
  | some p => .error p
  | none =>
    let el (i : Nat) : FR := packEl (b % 32) (b / 32) ((x.rd (a - a % k + i)).getD 0)
    .ok ⟨((List.range k).map (fun i => (el i).code % 2 ^ fmtW (b % 32) * 2 ^ (fmtW (b % 32) * i))).sum,
      (List.range k).foldl (fun n i => n ||| (el i).fl) 0⟩

/-- Element i that CVTX.UNPACK takes from a word. -/
def elemAt (b i : Nat) (w : W32) : FR := (unpackEl (b % 32) (w.toNat / 2 ^ (fmtW (b % 32) * i) % 2 ^ fmtW (b % 32))).1

def Lane.unpackFlags (x : Lane) (a b : Nat) : W32 :=
  match x.rd a with
  | .bad _ => 0
  | .ok w => fpBits ((List.range (packK (b % 32))).foldl (fun n i => n ||| (elemAt b i w).fl) 0) &&& 16

def Lane.setUnpack (x : Lane) (d a b : Nat) : Lane :=
  (List.range (packK (b % 32))).foldl (fun y i => y.setV (d - d % packK (b % 32) + i) (match x.rd a with
    | .bad p => .bad p | .ok w => .ok (BitVec.ofNat 32 (elemAt b i w).code))) x

/-- The same poison in several registers. -/
def Lane.setBad (x : Lane) (ds : List Nat) (p : Payload) : Lane := ds.foldl (fun y d => y.setV d (.bad p)) x

/-- A floating-point compare: the poison of its operands, or its truth and its flags (R311, R314). -/
def cmpRes (ops : List (Option Payload)) (r : Bool × Nat) (also : Bool) : Val Bool × W32 :=
  match firstBad ops with
  | some p => (.bad p, 0)
  | none => (.ok (r.1 && also), fpBits r.2)

/-- The instructions that can meet an invalid operation (08 R250): the flags of a lane, the lane after its results, and the lane whose
destinations receive a poison. -/
def Instr.invForm (i : Instr) : Option ((Lane → W32) × (Lane → Lane) × (Payload → Lane → Lane)) :=
  match i with
  | .dset d a b m =>
    let r (x : Lane) : Val Bool × W32 := cmpRes [(x.rd2 (a - a % 2)).pl?, (x.rd2 (b - b % 2)).pl?]
      (Fmt.f64.cmp m ((x.rd2 (a - a % 2)).getD 0).toNat ((x.rd2 (b - b % 2)).getD 0).toNat) true
    some (fun x => (r x).2, fun x => x.setP d (r x).1, fun p x => x.setP d (.bad p))
  | .maxd2 d a b _ => some (fun x => flagsIf (x.maxd2 a b), fun x => x.setDec d (x.maxd2 a b) (x.decides a b),
      fun p x => { x.setV d (.bad p) with dr := .bad p })
  | .cvt d a b m => if b / 16 = b % 16 then none else
      some (fun x => flagsIf (x.cvtRes a b m), fun x => x.setCvt d (b % 16) (x.cvtRes a b m), fun p x => x.setCvt d (b % 16) (.error p))
  | .cvtxPack d a b m => if packFmt (b % 32) && m == 0 then
      some (fun x => flagsIf (x.packRes a b), fun x => x.setCvt d 0 (x.packRes a b), fun p x => x.setV d (.bad p)) else none
  | .cvtxUnpack d a b m => if packFmt (b % 32) && m == 1 then
      some (fun x => x.unpackFlags a b, fun x => x.setUnpack d a b,
        fun p x => x.setBad ((List.range (packK (b % 32))).map (fun j => d - d % packK (b % 32) + j)) p) else none
  | i => match Instr.laneFp i, Instr.laneFp64 i, Instr.laneFcmp i with
    | some (d, rs, g), _, _ => some (fun x => x.flagsOf rs g, fun x => x.setV d (x.calc rs (fun v => BitVec.ofNat 32 (g v).code)),
        fun p x => x.setV d (.bad p))
    | none, some (d, rs, g), _ => some (fun x => flagsIf (x.calc64 rs g), fun x => x.setPair (d - d % 2) (x.calc64 rs g),
        fun p x => x.setPair (d - d % 2) (.error p))
    | none, none, some (c, d, a, b, also) =>
      let r (x : Lane) : Val Bool × W32 := cmpRes ([(x.rd a).pl?, (x.rd b).pl?] ++ (if also then [(x.pr d).pl?] else []))
        (Fmt.f32.cmp c ((x.rd a).getD 0).toNat ((x.rd b).getD 0).toNat) (!also || x.pTrue d)
      some (fun x => (r x).2, fun x => x.setP d (r x).1, fun p x => x.setP d (.bad p))
    | none, none, none => none

/-! Terms: results of uniform instructions (11 R329 to R341). -/

/-- A value computed from uniform registers, or the first poison in reading order (05 R157). -/
def Ctx.calcS (c : Ctx) (rs : List Nat) (g : List W64 → W64) : Val W64 :=
  match firstBad (rs.map (fun r => (c.rs r).pl?)) with
  | some p => .bad p
  | none => .ok (g (rs.map (fun r => (c.rs r).getD 0)))

/-- A context with a uniform register written; s0 discards it (09 R273). -/
def Ctx.setS (c : Ctx) (d : Nat) (v : Val W64) : Ctx := if d % 64 = 0 then c else { c with s := Tbl.put c.s (d % 64) v }

/-- A context with a uniform predicate written; q0 discards it (09 R273). -/
def Ctx.setQ (c : Ctx) (d : Nat) (v : Val Bool) : Ctx := if d % 8 = 0 then c else { c with q := Tbl.put c.q (d % 8) v }

/-- A context with further warnings. -/
def Ctx.warned (c : Ctx) (w : W32) : Ctx := { c with warn := c.warn ||| w }

/-- The warning of a field that must be 0 (09 R295). -/
def ignored (b : Bool) : W32 := if b then flag wModIgn else 0

/-- A uniform word as an exact integer by m[0] (R334). -/
def asInt64 (m : Nat) (w : W64) : Int := if m % 2 = 1 then (w.toNat : Int) else w.toInt

/-- An exact integer as a uniform word by m (R334). -/
def fit64 (m : Nat) (n : Int) : W64 :=
  if m = 2 then (if n < -(2 ^ 63) then 0x8000000000000000 else if 2 ^ 63 - 1 < n then 0x7FFFFFFFFFFFFFFF else BitVec.ofInt 64 n)
  else if m = 3 then (if n < 0 then 0 else if 2 ^ 64 - 1 < n then 0xFFFFFFFFFFFFFFFF else BitVec.ofInt 64 n)
  else BitVec.ofInt 64 n

/-- The 10-bit immediate, sign-extended. -/
def imm10s (i : Nat) : W64 := (BitVec.ofNat 10 i).signExtend 64

/-- Functions of the one or two uniform values read. -/
def on1 (f : W64 → W64) : List W64 → W64 | [a] => f a | _ => 0
def on2 (f : W64 → W64 → W64) : List W64 → W64 | [a, b] => f a b | _ => 0

/-- The scalar instructions that write s[d]: destination, registers read, guard field, whether a field that must be 0 is not,
result (R334, R338, R339). -/
def Instr.uniInt : Instr → Option (Nat × List Nat × Nat × Bool × (List W64 → W64))
  | .sadd d a b g m => some (d, [a, b], g, false, on2 (fun x y => fit64 m (asInt64 m x + asInt64 m y)))
  | .ssub d a b g m => some (d, [a, b], g, false, on2 (fun x y => fit64 m (asInt64 m x - asInt64 m y)))
  | .smul d a b g m => some (d, [a, b], g, m != 0, on2 (fun x y => x * y))
  | .smulh d a b g m => some (d, [a, b], g, 2 ≤ m, on2 (fun x y => BitVec.ofInt 64 (asInt64 m x * asInt64 m y / 2 ^ 64)))
  | .sand d a b g m => some (d, [a, b], g, m != 0, on2 (fun x y => x &&& y))
  | .sor d a b g m => some (d, [a, b], g, m != 0, on2 (fun x y => x ||| y))
  | .sxor d a b g m => some (d, [a, b], g, m != 0, on2 (fun x y => x ^^^ y))
  | .sshl d a b g m => some (d, [a, b], g, m != 0, on2 (fun x y => x <<< (y.toNat % 256)))
  | .sshr d a b g m => some (d, [a, b], g, m != 0, on2 (fun x y => x >>> (y.toNat % 256)))
  | .ssar d a b g m => some (d, [a, b], g, m != 0, on2 (fun x y => x.sshiftRight (y.toNat % 256)))
  | .smin d a b g m => some (d, [a, b], g, 2 ≤ m, on2 (fun x y => if asInt64 m y < asInt64 m x then y else x))
  | .smax d a b g m => some (d, [a, b], g, 2 ≤ m, on2 (fun x y => if asInt64 m x < asInt64 m y then y else x))
  | .spopc d a b g m => some (d, [a], g, b != 0 || m != 0, on1 (fun x => BitVec.ofNat 64 ((List.range 64).countP (fun i => x.getLsbD i))))
  | .sclz d a b g m => some (d, [a], g, b != 0 || m != 0,
      on1 (fun x => BitVec.ofNat 64 ((List.range 64).takeWhile (fun i => !x.getLsbD (63 - i))).length))
  | .smov d a b g m => some (d, [a], g, b != 0 || m != 0, on1 (fun x => x))
  | .saddi d a i => some (d, [a], 0, false, on1 (fun x => x + imm10s i))
  | .sandi d a i => some (d, [a], 0, false, on1 (fun x => x &&& imm10s i))
  | .sori d a i => some (d, [a], 0, false, on1 (fun x => x ||| imm10s i))
  | .sxori d a i => some (d, [a], 0, false, on1 (fun x => x ^^^ imm10s i))
  | .sshli d a i => some (d, [a], 0, 64 ≤ i, on1 (fun x => x <<< (i % 64)))
  | .sshri d a i => some (d, [a], 0, 64 ≤ i, on1 (fun x => x >>> (i % 64)))
  | .ssari d a i => some (d, [a], 0, 64 ≤ i, on1 (fun x => x.sshiftRight (i % 64)))
  | .smuli d a i => some (d, [a], 0, false, on1 (fun x => x * imm10s i))
  | .smovi d i => some (d, [], 0, false, fun _ => (BitVec.ofNat 18 i).signExtend 64)
  | .shi18 d i => some (d, [d], 0, false, on1 (fun x => (x <<< 18) + BitVec.ofNat 64 i))
  | _ => none

/-- The scalar compares: predicate, registers, guard field, whether the predicate is read too, whether a field that must be 0 is not,
condition (R335, R338). -/
def Instr.uniCmp : Instr → Option (Nat × List Nat × Nat × Bool × Bool × (List W64 → Bool))
  | .ssetLt d a b g m => some (d, [a, b], g, 2 ≤ m, 8 ≤ d, fun v => match v with | [x, y] => holds 0 (asInt64 m x) (asInt64 m y) | _ => false)
  | .ssetLe d a b g m => some (d, [a, b], g, 2 ≤ m, 8 ≤ d, fun v => match v with | [x, y] => holds 1 (asInt64 m x) (asInt64 m y) | _ => false)
  | .ssetEq d a b g m => some (d, [a, b], g, 2 ≤ m, 8 ≤ d, fun v => match v with | [x, y] => holds 2 (asInt64 m x) (asInt64 m y) | _ => false)
  | .ssetNe d a b g m => some (d, [a, b], g, 2 ≤ m, 8 ≤ d, fun v => match v with | [x, y] => holds 3 (asInt64 m x) (asInt64 m y) | _ => false)
  | .ssetiLt d a i => some (d, [a], 0, false, 8 ≤ d, fun v => match v with | [x] => holds 0 x.toInt (imm10s i).toInt | _ => false)
  | .ssetiEq d a i => some (d, [a], 0, false, 8 ≤ d, fun v => match v with | [x] => holds 2 x.toInt (imm10s i).toInt | _ => false)
  | .ssetiLtn d a i => some (d, [a], 0, false, 8 ≤ d, fun v => match v with | [x] => holds 0 x.toNat i | _ => false)
  | _ => none

/-- The value a lane contributes to a vote or a reduction: the payload of the lowest lane that has poison, else all values. -/
def overLanes {α : Type} (s : State) (f : Lane → Val α) (d : α) : Except Payload (List (Nat × α)) :=
  match firstBad (s.active.map (fun l => (f (s.me.ln l)).pl?)) with
  | some p => .error p
  | none => .ok (s.active.map (fun l => (l, (f (s.me.ln l)).getD d)))

/-- The reductions by their 3-bit operation (R340; the sign of a signed minimum or maximum is extended, log entry 16). -/
def reduceBy (op : Nat) (v : List W32) : W64 :=
  let sum (f : W32 → Int) : W64 := BitVec.ofInt 64 (v.foldl (fun n w => n + f w) 0)
  let pick (f : W32 → Int) (le : Int → Int → Bool) : W64 :=
    match v with
    | [] => 0
    | a :: r => BitVec.ofInt 64 (r.foldl (fun n w => if le n (f w) then n else f w) (f a))
  if op = 0 then sum (·.toInt) else if op = 1 then sum (fun w => (w.toNat : Int))
  else if op = 2 then pick (·.toInt) (fun a b => decide (a ≤ b)) else if op = 3 then pick (fun w => (w.toNat : Int)) (fun a b => decide (a ≤ b))
  else if op = 4 then pick (·.toInt) (fun a b => decide (b ≤ a)) else if op = 5 then pick (fun w => (w.toNat : Int)) (fun a b => decide (b ≤ a))
  else match v with
    | [] => 0
    | a :: r => (r.foldl (fun n w => if op = 6 then n &&& w else n ||| w) a).setWidth 64

/-- The mask of lanes whose predicate holds. -/
def ballot (v : List (Nat × Bool)) : W64 := v.foldl (fun w e => if e.2 then w ||| (1 <<< e.1) else w) 0

/-- The address a GB word names: its own plus the offset in halfwords (R344). -/
def State.goal (s : State) (off : Nat) : W64 := s.cur.pc + (BitVec.ofNat 21 off).signExtend 64 * 2

/-- A lane continues at an address: some split of the context holds it there. -/
def Ctx.goesOn (c : Ctx) (l : Nat) (pc : W64) : Prop := ∃ x, (x ∈ c.splits.map Prod.snd ∨ x ∈ c.pool) ∧ bit x.mask l = true ∧ x.pc = pc

/-- A branching instruction of a lane context completes: nothing outside the context changes, there only splits and sticky warnings,
and each active lane continues at its own address. -/
def State.branches (s : State) (i : Instr) (allowed : W32) (f : Nat → W64) : Prop :=
  ∃ w sp pl, exec i s = .next (s.setCtx s.cur.act ({ s.me with warn := w }.withSplits sp pl))
    ∧ (∀ l ∈ s.active, ({ s.me with warn := w }.withSplits sp pl).goesOn l (f l))
    ∧ w &&& s.me.warn = s.me.warn ∧ w &&& ~~~allowed = s.me.warn &&& ~~~allowed

/-- An instruction changes no register and no predicate of its context. -/
def State.keepsRegs (s t : State) : Prop :=
  t.me.s = s.me.s ∧ t.me.q = s.me.q ∧ ∀ l, (t.me.ln l).v = (s.me.ln l).v ∧ (t.me.ln l).p = (s.me.ln l).p ∧ (t.me.ln l).dr = (s.me.ln l).dr

/-- A lone split of the context ends as `x`. -/
def State.endsAs (s t : State) (x : Split) : Prop := s.lone → t.me.splits = [(s.cur.act.slot, x)] ∧ t.me.pool = []

/-- Each live active lane is marked (05 R158, R167): P in an open region, else ORPH. -/
def State.marks (s t : State) : Prop :=
  ∀ l ∈ s.active, (s.me.ln l).life = .live →
    (if (s.me.ln l).rgn.opn then (t.me.ln l).rgn.p = true else (t.me.ln l).rgn.orph = true)

/-- A BAR completes: memory has become `m`, the arrivals recorded under a barrier's key are `arr`, no register has changed, and a lone split
ends as `x`. -/
def State.atBar (s : State) (i : Instr) (m : Mem) (arr key : Nat) (x : Split) : Prop :=
  ∃ t, exec i s = .next t ∧ t.mem = m ∧ Tbl.get 0 t.me.arr key = arr ∧ s.keepsRegs t ∧ s.endsAs t x

/-- The commit instructions by their mode (R348). -/
def Instr.commitMode : Instr → Option Nat
  | .cmtBr _ => some 0
  | .cmtSv _ => some 1
  | .cmtRl _ => some 2
  | _ => none

/-- The fences by kind and scope (R353): 0 ACQ, 1 REL, 2 AR. -/
def Instr.fenceKind : Instr → Option (Nat × Nat)
  | .fenceAcq scope _ _ => some (0, scope)
  | .fenceRel scope _ _ => some (1, scope)
  | .fenceAr scope _ _ => some (2, scope)
  | _ => none

/-- The widest sharing class of a 3-bit scope code: none for workgroup; pack, die and device; team counts as device, reserved codes as
system (03 R83; 02 R56). -/
def widest (scope : Nat) : Nat := if scope ≤ 2 then scope else if scope ≤ 4 then 3 else 4

/-- The instructions that only a split in supervisor mode or a control core performs, with their status register (R332). -/
def Instr.privilegedAt : Instr → Option Nat
  | .harv d _ _ _ _ => some d
  | .tlbiGen d _ _ _ _ => some d
  | .tlbiPage d _ _ _ _ => some d
  | .tlbiHold d _ _ _ _ => some d
  | .tlbiRel d _ _ _ _ => some d
  | .flushst d _ _ _ _ => some d
  | .hashsw d _ _ => some d
  | _ => none

/-- The instructions that a split in supervisor mode does not perform (R332). -/
def Instr.userOnly : Instr → Bool
  | .bar _ _ _ _ => true
  | .trig _ => true
  | .tready _ _ _ => true
  | .twait _ _ _ => true
  | .svc _ => true
  | .cmtBr _ => true
  | .cmtSv _ => true
  | .cmtRl _ => true
  | _ => false

/-- The instructions that recall an ejected lane before they execute (06 R201). -/
def Instr.recalls : Instr → Bool
  | .bar _ _ _ _ => true
  | .trig _ => true
  | .tready _ _ _ => true
  | .twait _ _ _ => true
  | .svc _ => true
  | .cmtBr _ => true
  | .cmtSv _ => true
  | .cmtRl _ => true
  | .brE _ _ => true
  | .brk _ => true
  | .waitev _ _ _ => true
  | .vote _ _ _ _ _ => true
  | .redx _ _ _ _ _ => true
  | .vtou _ _ _ _ _ => true
  | .bcast _ _ _ _ => true
  | .shfl _ _ _ _ => true
  | .shfli _ _ _ => true
  | .mmaQ _ _ _ _ _ _ _ _ => true
  | .mmaPk _ _ _ _ _ _ _ _ _ => true
  | .mzero _ _ _ _ _ => true
  | .cpy _ _ _ _ _ => true
  | .cpyr _ _ _ _ _ => true
  | .dispSend _ _ _ _ _ _ => true
  | .dispOpen _ _ _ _ _ _ => true
  | .dispClose _ _ _ _ _ _ => true
  | .cstl _ _ _ _ => true
  | .fork _ _ _ _ => true
  | .rdv _ _ _ _ => true
  | .xch _ _ _ _ => true
  | _ => false

/-- Whether an instruction is a word of the lane set, whose bit 31 is 0 (09 R277). -/
def Instr.laneWord (i : Instr) : Bool := encodedBits i == 32 && (match encode i with | some w => decide (w < 2 ^ 31) | none => false)

/-- The control-only instructions: illegal off a control core (R332). -/
def Instr.ctlOnly : Instr → Bool
  | .waitev _ _ _ => true
  | .launch _ _ _ => true
  | .vacateSave _ _ _ _ _ => true
  | .vacateOpen _ _ _ _ _ => true
  | .vacateKill _ _ _ _ _ => true
  | .dict _ _ _ _ => true
  | _ => false

/-! Terms: memory accesses (10 R320 to R328; 11 R342, R343). -/

/-- s[base] plus the sign-extended index register. -/
def indexed (base ix : Nat) (c : Ctx) (x : Lane) : Except Payload Nat :=
  match c.rs base, x.rd ix with
  | .bad p, _ => .error p
  | .ok _, .bad p => .error p
  | .ok b, .ok w => .ok (b + w.signExtend 64).toNat

/-- An even pair plus the sign-extended immediate. -/
def paired (r imm : Nat) (_c : Ctx) (x : Lane) : Except Payload Nat :=
  match x.rd2 (r - r % 2) with
  | .bad p => .error p
  | .ok w => .ok (w + (BitVec.ofNat 9 imm).signExtend 64).toNat

/-- The global loads of a lane: first register, size, sign bits, lookahead, address (R320). -/
def Instr.load : Instr → Option (Nat × Nat × Nat × Nat × (Ctx → Lane → Except Payload Nat))
  | .ldw _ d x base la => some (d, 4, 0, la, indexed base x)
  | .ldd _ d x base la => some (d - d % 2, 8, 0, la, indexed base x)
  | .ldq _ d x base la => some (d - d % 4, 16, 0, la, indexed base x)
  | .ldbS d a imm => some (d, 1, 8, 0, paired a imm)
  | .ldbN d a imm => some (d, 1, 0, 0, paired a imm)
  | .ldhS d a imm => some (d, 2, 16, 0, paired a imm)
  | .ldhN d a imm => some (d, 2, 0, 0, paired a imm)
  | _ => none

/-- The atomics of a lane: first register, size, scope, operation, lookahead, address (R327). -/
def Instr.atomic : Instr → Option (Nat × Nat × Nat × Nat × Nat × (Ctx → Lane → Except Payload Nat))
  | .atomAdd32 d x sc base la => some (d, 4, sc, 0, la, indexed base x)
  | .atomAdd64 d x sc base la => some (d - d % 2, 8, sc, 1, la, indexed base x)
  | .atomAddf32 d x sc base la => some (d, 4, sc, 2, la, indexed base x)
  | .atomMinS32 d x sc base la => some (d, 4, sc, 3, la, indexed base x)
  | .atomMinN32 d x sc base la => some (d, 4, sc, 4, la, indexed base x)
  | .atomMaxS32 d x sc base la => some (d, 4, sc, 5, la, indexed base x)
  | .atomMaxN32 d x sc base la => some (d, 4, sc, 6, la, indexed base x)
  | .atomAnd32 d x sc base la => some (d, 4, sc, 7, la, indexed base x)
  | .atomOr32 d x sc base la => some (d, 4, sc, 8, la, indexed base x)
  | .atomXor32 d x sc base la => some (d, 4, sc, 9, la, indexed base x)
  | .atomXchg32 d x sc base la => some (d, 4, sc, 10, la, indexed base x)
  | .atomXchg64 d x sc base la => some (d - d % 2, 8, sc, 11, la, indexed base x)
  | .atomCas32 d x sc base la => some (d - d % 2, 4, sc, 12, la, indexed base x)
  | .atomCas64 d x sc base la => some (d - d % 4, 8, sc, 13, la, indexed base x)
  | .atomIncN32 d x sc base la => some (d, 4, sc, 14, la, indexed base x)
  | .atomAddbf16x2 d x sc base la => some (d, 4, sc, 15, la, indexed base x)
  | _ => none

/-- The global stores of a lane: first register, size, hint, address (R320). -/
def Instr.store : Instr → Option (Nat × Nat × Nat × (Ctx → Lane → Except Payload Nat))
  | .stw hint d x base _ => some (d, 4, hint, indexed base x)
  | .std hint d x base _ => some (d - d % 2, 8, hint, indexed base x)
  | .stq hint d x base _ => some (d - d % 4, 16, hint, indexed base x)
  | .stb d a imm => some (d, 1, 0, paired a imm)
  | .sth d a imm => some (d, 2, 0, paired a imm)
  | _ => none

/-- The first request of a global access of the lanes, its size and its address: a read; a probe of a store or of an atomic of workgroup
scope; a bypass store; an atomic (02 R49, R52, R70, R71, R444). -/
def Instr.reach (i : Instr) : Option (ReqKind × Nat × (Ctx → Lane → Except Payload Nat)) :=
  match i with
  | .pref _ _ x base _ => some (.read, 128, indexed base x)
  | i => match Instr.load i, Instr.store i, Instr.atomic i with
    | some (_, n, _, _, ad), _, _ => some (.read, n, ad)
    | none, some (_, n, hint, ad), _ => some (if hint = 3 then .bypass else .probe, n, ad)
    | none, none, some (_, n, sc, _, _, ad) => some (if sc = 0 then .probe else .atomic, n, ad)
    | none, none, none => none

/-- The words that a load of n bytes writes: the bytes as a number, sign-extended or cut into registers (R320). -/
def loadWord (sgn n k : Nat) : W32 :=
  if sgn = 8 then (BitVec.ofNat 8 n).signExtend 32 else if sgn = 16 then (BitVec.ofNat 16 n).signExtend 32 else BitVec.ofNat 32 (n / 2 ^ (32 * k))

/-- The number of n bytes of a table, the lowest address in the low bits (R322). -/
def bytesOf (t : Tbl Byte) (off n : Nat) : Nat := (List.range n).foldr (fun i x => (Tbl.get 0 t (off + i)).toNat + 256 * x) 0

/-- Registers that n bytes take. -/
def wordsOf (n : Nat) : Nat := if n = 16 then 4 else if n = 8 then 2 else 1

/-- The local forms of a lane: a load or a store, space code, first register, size, address register, immediate (R325). -/
def Instr.localForm : Instr → Option (Bool × Nat × Nat × Nat × Nat × Nat)
  | .ldlw sp d a imm => some (true, sp, d, 4, a, imm)
  | .ldld sp d a imm => some (true, sp, d - d % 2, 8, a, imm)
  | .ldlq sp d a imm => some (true, sp, d - d % 4, 16, a, imm)
  | .ldlb sp d a imm => some (true, sp, d, 1, a, imm)
  | .stlw sp d a imm => some (false, sp, d, 4, a, imm)
  | .stld sp d a imm => some (false, sp, d - d % 2, 8, a, imm)
  | .stlq sp d a imm => some (false, sp, d - d % 4, 16, a, imm)
  | .stlb sp d a imm => some (false, sp, d, 1, a, imm)
  | _ => none

/-- The low n bytes of the registers from d. -/
def Lane.bytes (x : Lane) (d n : Nat) : Nat :=
  ((List.range (wordsOf n)).foldr (fun k y => ((x.rd (d + k)).getD 0).toNat + 2 ^ 32 * y) 0) % 2 ^ (8 * n)

/-- Nothing of the executing group's core is cached or held, and no lane of it is in a region or away. -/
def State.bare (s : State) : Prop :=
  s.mem.lines1 (s.coreOf s.cur.act) = [] ∧ (s.core (s.coreOf s.cur.act)).quar = [] ∧ Tbl.get [] s.mem.dc (s.dieOf s.cur.act) = []
    ∧ ∀ l ∈ s.active, (s.me.ln l).life = .live ∧ (s.me.ln l).rgn.opn = false

/-- A lane's results under lookahead (09 R283): written with lookahead 0, else held for `la` further instructions. -/
def State.loadsTo (s t : State) (l d k la : Nat) (v : Nat → Val W32) : Prop :=
  (la = 0 → ∀ r < 128, (t.me.ln l).rd r = if d ≤ r ∧ r < d + k then v (r - d) else (s.me.ln l).rd r)
    ∧ (la ≠ 0 → (∀ r < 128, (t.me.ln l).rd r = (s.me.ln l).rd r)
      ∧ ∃ h, t.me.pend.map Prod.snd = [h] ∧ h.regs = (List.range k).map (d + ·) ∧ h.uni = false ∧ h.win = [(l, la)] ∧ h.gone = []
        ∧ h.val = some [(l, (List.range k).map (fun j => match v j with | .bad p => Val.bad p | .ok w => .ok (w.setWidth 64)))])

/-! Terms: engines (12 R377 to R388). -/

/-- The collective instructions of a copy queue: kind (0 copy, 1 peer copy, 2 dispatch), status register, registers read (R377, R384,
R385). -/
def Instr.collective : Instr → Option (Nat × Nat × Nat × List Nat)
  | .cpy _ d a _ la => some (0, d, la, [a])
  | .cpyr _ d a b la => some (1, d, la, [a, b - b % 2, b - b % 2 + 1])
  | .dispSend _ d a _ _ la => some (2, d, la, [a])
  | .dispOpen _ d a _ _ la => some (2, d, la, [a])
  | .dispClose _ d a _ _ la => some (2, d, la, [a])
  | _ => none

/-- Operations of a workgroup (07 R240). -/
def State.opsOf (s : State) : List CopyOp := (s.wgOf s.cur.act).ops

/-- A context waits, with no window open, for the one result that goes to s[d]. -/
def State.awaits (s : State) (a : Actor) (hid d : Nat) : Prop :=
  ∃ h, (s.ctx a).pend = [(hid, h)] ∧ h.uni = true ∧ (∀ w ∈ h.win, w.2 = 0) ∧ h.val = none ∧ h.gone = [] ∧ h.maybe = [] ∧ h.regs = [d] ∧ 0 < d ∧ d < 64

/-- A whole operation of a workgroup with one arrival, of a group, that named a clean address. -/
def State.wholeOp (s : State) (core wg n : Nat) (o : CopyOp) (v : Arrival) (u : W64) : Prop :=
  s.opAt core wg n = some o ∧ s.opWhole core wg o = true ∧ o.arr = [v] ∧ v.a = .ok u ∧ (∃ g k, v.act = .split core g k) ∧ (s.ctx v.act).wslot = wg
    ∧ (o.seqr = true → (s.ctx (.cseq core)).wslot = wg)

/-- Where the status of an operation goes: to the group that issued it, or to the copy sequencer for its program (12 R375). -/
def CopyOp.dest (o : CopyOp) (core : Nat) (v : Arrival) : Actor := if o.seqr then .cseq core else v.act

/-- What a copy of an arrival comes to: its descriptor is read and its elements move; their number, or its fault (12 R377 to R382). -/
def State.copyOf (s : State) (v : Arrival) : State × Except EFlt Nat :=
  match s.localDesc (s.opEng v) v.la 160 with
  | (s1, .error f) => (s1, .error f)
  | (s1, .ok x) => match s1.copyGo (s.opEng v) x false with
    | (s2, _, some f) => (s2, .error f)
    | (s2, k, none) => (s2, .ok k)

/-- A context has received a status in s[d]: the word, or poison of the fault's cause. -/
def State.statusIs (t : State) (a : Actor) (d : Nat) (r : Except EFlt W64) : Prop :=
  match r with
  | .ok w => (t.ctx a).rs d = .ok w
  | .error f => ∃ p, (t.ctx a).rs d = .bad p ∧ plCause p = f.flt.cause % 64

/-- The entry of an operation is free again. -/
def State.opFreed (s t : State) (core wg n : Nat) : Prop :=
  (Tbl.get ({} : Wg) (t.core core).wgs wg).ops = listDel (Tbl.get ({} : Wg) (s.core core).wgs wg).ops n

/-! Terms: system instructions and events. -/

/-- A privileged instruction executes: its place and mode admit it (11 R332). -/
def State.mayRun (s : State) : Prop := s.allows Legal.noSeq [] = true ∧ s.priv = true ∧ s.quiet

/-- An instruction completes at once with a status: memory becomes `m`, no other uniform register, no predicate and no lane changes. -/
def State.answers (s : State) (i : Instr) (d : Nat) (v : Val W64) (m : Mem) : Prop :=
  ∃ t, exec i s = .next t ∧ t.mem = m ∧ s.endsAs t s.after ∧ (d % 64 ≠ 0 → t.me.rs d = v) ∧ (∀ r, r % 64 ≠ d % 64 → t.me.rs r = s.me.rs r)
    ∧ t.me.q = s.me.q ∧ ∀ l, t.me.ln l = s.me.ln l

/-- An instruction completes at once, and its status is the poison of a cause. -/
def State.faults (s : State) (i : Instr) (d cause : Nat) : Prop := ∃ p, plCause p = cause ∧ s.answers i d (.bad p) s.mem

/-- An instruction has started, memory has become `m`, and its split is held until it completes (11 R333). -/
def State.waits (s : State) (i : Instr) (b : Blk) (m : Mem) (also : State → Prop) : Prop :=
  ∃ t, exec i s = .next t ∧ t.mem = m ∧ s.endsAs t { s.after with blk := some b } ∧ t.me.s = s.me.s ∧ t.me.q = s.me.q
    ∧ (∀ l, t.me.ln l = s.me.ln l) ∧ also t

/-- One instruction holds the split of an actor. -/
def State.waitsAt (s : State) (a : Actor) (b : Blk) : Prop := s.blkOf a = some b ∧ ((s.ctx a).split a.slot).also = []

/-- One instruction holds the split of an actor that is among those held. -/
def State.heldAt (s : State) (a : Actor) (b : Blk) : Prop := (a, b) ∈ s.blocked (fun _ => true) ∧ s.waitsAt a b

/-- A held instruction has completed with its status; a status register s0 discards it (09 R273). -/
def State.completed (t : State) (a : Actor) (d : Nat) (v : Val W64) : Prop := t.blkOf a = none ∧ (d % 64 ≠ 0 → (t.ctx a).rs d = v)

/-- An event happens, with what holds after it. -/
def State.event? (s : State) (i : Instr) (post : State → Prop) : Prop := ∃ t, exec i s = .next t ∧ post t

/-- An event record has been offered to a die: its type, its status, and its data (07 R215). -/
def State.offers (s t : State) (die type status data : Nat) : Prop :=
  ∃ r : BitVec 128, t.mem.offer = s.mem.offer ++ [(die, r)] ∧ r.toNat / 2 ^ 120 = type ∧ r.toNat / 2 ^ 112 % 256 = status ∧ r.toNat % 2 ^ 64 = data % 2 ^ 64

/-! Terms: instructions by form, with their fields and results. -/

/-- A context has a memory instruction in flight with a request under way. -/
def State.hasReq (s : State) (a : Actor) (o : MemOp) (r : Req) : Prop := s.opOf a = some o ∧ o.req = some r

/-- The request of a context stands at a point. -/
def State.reqAt (t : State) (a : Actor) (st : ReqSt) : Prop := ∃ o r, t.hasReq a o r ∧ r.st = st

/-- One group is out for the service of its commit, and no other pack exists. -/
def State.oneOut (s : State) (g : Grid) (p : Pack) (w : Saved) (c : Ctx) (v : Svc) : Prop :=
  s.grids = [g] ∧ g.packs = [p] ∧ p.saved = [w] ∧ w.groups = [(0, c)] ∧ c.svc = some v

end Sys2Proof.Machine

open Sys2Proof Sys2Proof.Machine

/-! ## Reset, decoding, the step -/

/-- The value that a register of the MF's BAR0 has at module cold reset: 0, but for PTO (13 R414), FECFG (13 R416) and SLHC (04 R134). -/
def mfResetValue (off : Nat) : Nat :=
  if off / 8 * 8 = 0x98 then 1100000
  else if 0x200 ≤ off ∧ off < 0x240 then 1 * 2 ^ 32 + 30 * 2 ^ 24
  else if 0x10040 ≤ off ∧ off < 0x10080 then 2 ^ 18
  else 0

/-- O1. Module cold reset leaves nothing resident, no line in an L1, a slice or a die cache, and the seal table empty. Every register of the
MF's BAR0 but DBGCH, whose nonce is free, and every register of a die's BAR0 has the value in its table's Reset column: 0, but for PTO
1,100,000, FECFG.NSID 1 and TMO 30, SLHC.ENG 1 and PTOK.POOL 256 (13 R400, R401, R414, R416; 04 R134; 07 R231). SLCS and SLTS read 0 (02
R77; 04 R131), and every cycle counter is 0 (07 R244). The state after reset is safe. The model's choices: HBM, which nothing has written,
lists nothing (log entry 3); each TDI is in CONFIG_UNLOCKED (log entry 4). -/
def Obligations.ResetState : Prop :=
  State.reset.grids = [] ∧ State.reset.groups = [] ∧ State.reset.cores = [] ∧ State.reset.mem.hbm = []
    ∧ State.reset.mem.l1 = [] ∧ State.reset.mem.slices = [] ∧ State.reset.mem.dc = [] ∧ State.reset.mem.seals = []
    ∧ (∀ off o n x, ¬ (0x400 ≤ off ∧ off < 0x440) → State.reset.mfReg off = some (o, n, x) → x = mfResetValue off)
    ∧ (∀ d off o n x, State.reset.dieReg d off = some (o, n, x) → x = if o = 0x428 then 256 * 2 ^ 12 else 0)
    ∧ (∀ i, (State.reset.mem.slice i).slcs = 0 ∧ (State.reset.mem.slice i).slts = 0)
    ∧ (∀ d, (State.reset.die d).cycles = 0 ∧ (State.reset.die d).used = 0 ∧ (State.reset.die d).tdi = .unlocked)
    ∧ (∀ a, (State.reset.ctx a).on = false)
    ∧ State.reset.safe = true

/-! ## Lane instructions -/

/-- O2. The integer, logic, shift, bit-field and move instructions write their destination in every active lane with the result of
the tables of 10 R300 to R302, R306 and R309, or with the first poison of the operands; they set no exception flag, and change
nothing else but the PC and sticky warnings. -/
def Obligations.LaneIntegerResults : Prop :=
  ∀ (i : Instr) (d : Nat) (rs : List Nat) (g : List W32 → W32), Instr.laneInt i = some (d, rs, g) → i.WellFormed →
    ∀ s : State, s.cur.act.lanes = true → s.quiet → s.lanesDo i laneWarns s.me.fpx (fun _ x => x.setV d (x.calc rs g))

/-- O3. ISET and ISETI write their predicate in every active lane, and nothing else (10 R303). -/
def Obligations.LaneCompareResults : Prop :=
  ∀ (i : Instr) (d : Nat) (rs : List Nat) (also : Bool) (g : List W32 → Bool), Instr.laneCmp i = some (d, rs, also, g) → i.WellFormed →
    ∀ s : State, s.cur.act.lanes = true → s.quiet → s.lanesDo i laneWarns s.me.fpx (fun _ x => x.setP d (x.compare d rs also g))

/-- O4. SEL takes only the selected operand's poison (10 R304); PLOP combines predicates (10 R305); ADDC adds with the carry of p7
into the destination and p7 (10 R300). -/
def Obligations.LaneSelectAndCarry : Prop :=
  ∀ (s : State) (d a b m : Nat), s.cur.act.lanes = true → s.quiet → m < 4 →
    s.lanesDo (.sel d a b m) laneWarns s.me.fpx (fun _ x => x.setV d (match x.pr (m + 1) with
      | .bad p => .bad p | .ok true => x.rd a | .ok false => x.rd b))
    ∧ s.lanesDo (.plop d a b m) laneWarns s.me.fpx (fun _ x => x.setP d (match x.pr a, x.pr b with
      | .bad p, _ => .bad p
      | .ok _, .bad p => .bad p
      | .ok u, .ok v => .ok (if m = 0 then u && v else if m = 1 then u || v else if m = 2 then xor u v else u && !v)))
    ∧ s.lanesDo (.addc d a b m) laneWarns s.me.fpx (fun _ x => match x.rd a, x.rd b, x.pr 7 with
      | .bad p, _, _ => (x.setV d (.bad p)).setP 7 (.bad p)
      | .ok _, .bad p, _ => (x.setV d (.bad p)).setP 7 (.bad p)
      | .ok _, .ok _, .bad p => (x.setV d (.bad p)).setP 7 (.bad p)
      | .ok u, .ok v, .ok c =>
        let t := u.toNat + v.toNat + (if c then 1 else 0)
        (x.setV d (.ok (BitVec.ofNat 32 t))).setP 7 (.ok (decide (4294967296 ≤ t))))

/-- O5. BCAST, SHFL and SHFLI of a group's split read the source lanes before any lane is written, whether or not they are active
(10 R306 to R308); GETL reads the lane number, the quarter and %dr with its poison (09 R274; 10 R306). -/
def Obligations.LaneShuffles : Prop :=
  (∀ (s : State) (c g k d a b m imm : Nat), s.cur.act = .split c g k → s.quiet → m < 4 → imm < 512 → b < 128 →
      s.lanesDo (.bcast d a b 1) laneWarns s.me.fpx (fun _ x => x.setV d ((s.me.ln (b % 32)).rd a))
      ∧ s.lanesDo (.shfl d a b m) laneWarns s.me.fpx (fun l x => x.setV d (match x.rd b with
        | .bad p => .bad p | .ok n => (s.me.ln (shuffleFrom m n.toNat l)).rd a))
      ∧ s.lanesDo (.shfli d a imm) laneWarns s.me.fpx (fun l x => x.setV d ((s.me.ln (shuffleFrom (imm / 128) (imm % 32) l)).rd a)))
  ∧ (∀ (s : State) (d : Nat), s.cur.act.lanes = true → s.quiet →
      s.lanesDo (.getl d 0 0 2) laneWarns s.me.fpx (fun l x => x.setV d (.ok (BitVec.ofNat 32 l)))
      ∧ s.lanesDo (.getl d 1 0 2) laneWarns s.me.fpx (fun l x => x.setV d (.ok (BitVec.ofNat 32 (l / 8))))
      ∧ (∀ l ∈ s.active, l < 32)
      ∧ s.lanesDo (.getl d 9 0 2) laneWarns s.me.fpx (fun _ x => x.setV d x.dr))

/-- O6. With INVP clear, the FP32 and packed BF16 instructions write the rounded result, or the first poison, and OR the flags of
the active lanes into %fpx (10 R310 to R313, R315; 08 R251). The model's choice in it: log entry 6. -/
def Obligations.LaneFpResults : Prop :=
  ∀ (i : Instr) (d : Nat) (rs : List Nat) (g : List W32 → FR), Instr.laneFp i = some (d, rs, g) → i.WellFormed →
    ∀ s : State, s.cur.act.lanes = true → s.quiet → s.me.invp = false →
      s.lanesDo i laneWarns (s.flagged (fun x => x.flagsOf rs g)) (fun _ x => x.setV d (x.calc rs (fun v => BitVec.ofNat 32 (g v).code)))

/-- O7. With INVP clear, the FP64 instructions write both registers of the destination pair; odd register numbers read as even
(10 R314; 09 R279, R296). -/
def Obligations.LaneFp64Results : Prop :=
  ∀ (i : Instr) (d : Nat) (rs : List Nat) (g : List Nat → FR), Instr.laneFp64 i = some (d, rs, g) → i.WellFormed →
    ∀ s : State, s.cur.act.lanes = true → s.quiet → s.me.invp = false →
      s.lanesDo i wideWarns (s.flagged (fun x => flagsIf (x.calc64 rs g))) (fun _ x => x.setPair (d - d % 2) (x.calc64 rs g))

/-- O8. With INVP clear, FSET and DSET write their predicate and the flags of the comparison (10 R311, R314). -/
def Obligations.LaneFpCompares : Prop :=
  (∀ (i : Instr) (c d a b : Nat) (also : Bool), Instr.laneFcmp i = some (c, d, a, b, also) → i.WellFormed →
    ∀ s : State, s.cur.act.lanes = true → s.quiet → s.me.invp = false →
      s.lanesDo i laneWarns
        (s.flagged (fun x => match firstBad ([(x.rd a).pl?, (x.rd b).pl?] ++ (if also then [(x.pr d).pl?] else [])) with
          | some _ => 0
          | none => fpBits (Fmt.f32.cmp c ((x.rd a).getD 0).toNat ((x.rd b).getD 0).toNat).2))
        (fun _ x => x.setP d (x.compare d [a, b] also (fun v => match v with
          | [u, w] => (Fmt.f32.cmp c u.toNat w.toNat).1 | _ => false))))
  ∧ (∀ (s : State) (d a b m : Nat), s.cur.act.lanes = true → s.quiet → s.me.invp = false → m < 4 →
      s.lanesDo (.dset d a b m) wideWarns
        (s.flagged (fun x => match firstBad [(x.rd2 (a - a % 2)).pl?, (x.rd2 (b - b % 2)).pl?] with
          | some _ => 0
          | none => fpBits (Fmt.f64.cmp m ((x.rd2 (a - a % 2)).getD 0).toNat ((x.rd2 (b - b % 2)).getD 0).toNat).2))
        (fun _ x => x.setP d (match firstBad [(x.rd2 (a - a % 2)).pl?, (x.rd2 (b - b % 2)).pl?] with
          | some p => .bad p
          | none => .ok (Fmt.f64.cmp m ((x.rd2 (a - a % 2)).getD 0).toNat ((x.rd2 (b - b % 2)).getD 0).toNat).1)))

/-- O9. With INVP clear, MAXD2 writes the greater element of each half, and shifts its two decision bits into %dr; a poisoned operand
poisons both, a poisoned %dr stays (10 R316). -/
def Obligations.LaneDecision : Prop :=
  ∀ (s : State) (d a b m : Nat), s.cur.act.lanes = true → s.quiet → s.me.invp = false →
    s.lanesDo (.maxd2 d a b m) laneWarns (s.flagged (fun x => flagsIf (x.maxd2 a b))) (fun _ x => x.setDec d (x.maxd2 a b) (x.decides a b))

/-- O10. With INVP clear, CVT writes the converted value or the operand's poison, to a pair for a 64-bit type; equal types, a reserved code,
move (10 R317, R318; 09 R296). -/
def Obligations.LaneConvert : Prop :=
  ∀ (s : State) (d a b m : Nat), s.cur.act.lanes = true → s.quiet → b < 128 →
    (b / 16 = b % 16 → s.lanesDo (.cvt d a b m) wideWarns s.me.fpx (fun _ x => x.setV d (x.rd a)))
    ∧ (b / 16 ≠ b % 16 → s.me.invp = false →
      s.lanesDo (.cvt d a b m) wideWarns (s.flagged (fun x => flagsIf (x.cvtRes a b m))) (fun _ x => x.setCvt d (b % 16) (x.cvtRes a b m)))

/-- O11. CVTX: with INVP clear, PACK puts two or four converted elements into one register, and UNPACK takes them apart; DECODE and ENCODE
convert the `.t5p` byte of five ternary digits; a reserved subcode moves (10 R319; 08 R257, R258; 09 R296). -/
def Obligations.LanePackedFormats : Prop :=
  ∀ (s : State) (d a b m : Nat), s.cur.act.lanes = true → s.quiet → b < 128 →
    (packFmt (b % 32) = true → s.me.invp = false →
      s.lanesDo (.cvtxPack d a b 0) wideWarns (s.flagged (fun x => flagsIf (x.packRes a b))) (fun _ x => x.setCvt d 0 (x.packRes a b))
      ∧ s.lanesDo (.cvtxUnpack d a b 1) wideWarns (s.flagged (fun x => x.unpackFlags a b)) (fun _ x => x.setUnpack d a b))
    ∧ (b % 32 = 20 →
      s.lanesDo (.cvtxDecode d a b 2) wideWarns s.me.fpx (fun _ x => x.setV d (match x.rd a with
        | .bad p => .bad p | .ok w => .ok (BitVec.ofNat 32 (t5dec (w.toNat % 256)).1)))
      ∧ s.lanesDo (.cvtxEncode d a b 3) wideWarns s.me.fpx (fun _ x => x.setV d (match x.rd a with
        | .bad p => .bad p | .ok w => .ok (BitVec.ofNat 32 (t5enc (w.toNat % 1024)).1))))
    ∧ ((packFmt (b % 32) = false ∨ m ≠ 0) → s.lanesDo (.cvtxPack d a b m) wideWarns s.me.fpx (fun _ x => x.setV d (x.rd a)))
    ∧ ((packFmt (b % 32) = false ∨ m ≠ 1) → s.lanesDo (.cvtxUnpack d a b m) wideWarns s.me.fpx (fun _ x => x.setV d (x.rd a)))
    ∧ (b % 32 ≠ 20 → s.lanesDo (.cvtxDecode d a b 2) wideWarns s.me.fpx (fun _ x => x.setV d (x.rd a))
      ∧ s.lanesDo (.cvtxEncode d a b 3) wideWarns s.me.fpx (fun _ x => x.setV d (x.rd a)))

/-- O12. With INVP set, the lanes of a floating-point instruction whose operation is invalid receive one FP_INVALID poison in every destination,
and set NV; the other lanes receive their results as with INVP clear (08 R250; 10 R310 to R319). -/
def Obligations.InvalidPoisons : Prop :=
  ∀ (i : Instr) (fl : Lane → W32) (f : Lane → Lane) (bd : Payload → Lane → Lane), Instr.invForm i = some (fl, f, bd) → i.WellFormed →
    ∀ s : State, s.cur.act.lanes = true → s.quiet → s.me.invp = true →
      ∃ t p, exec i s = .next t ∧ s.endsAs t s.after ∧ t.me.fpx = s.flagged fl ∧ plCause p = cFpInvalid
        ∧ t.me.s = s.me.s ∧ t.me.q = s.me.q ∧ t.mem = s.mem
        ∧ ∀ l, t.me.ln l = if l ∉ s.active then s.me.ln l else if fl (s.me.ln l) &&& 16 = 0 then f (s.me.ln l) else bd p (s.me.ln l)

/-! ## Uniform instructions -/

/-- O13. The scalar arithmetic, logic, shift, immediate and move instructions write s[d] under their guard with the result of the
tables of 11 R334, R338 and R339, or with the first poison of the operands; nothing else changes but the PC and MOD_IGN (09 R295),
which a false guard does not set (11 R330). -/
def Obligations.ScalarResults : Prop :=
  ∀ (i : Instr) (d : Nat) (rs : List Nat) (g : Nat) (ign : Bool) (f : List W64 → W64), Instr.uniInt i = some (d, rs, g, ign, f) → i.WellFormed →
    ∀ (s : State) (b : Bool), s.allows Legal.all (d :: rs) = true → s.quiet → s.takes g = some b →
      if b then s.becomesW i (ignored ign) (fun c => c.setS d (s.me.calcS rs f)) s.after else s.becomes i s.me s.after

/-- O14. SSET and SSETI write q[d[2:0]], read after a and b under `.and` (11 R335, R338). SSEL passes only the selected operand's poison (11
R336); QLOP combines uniform predicates (11 R337); SADDC adds with the carry of q7 (11 R334); SADR forms an address relative to the
instruction (11 R339). -/
def Obligations.ScalarCompares : Prop :=
  (∀ (i : Instr) (d : Nat) (rs : List Nat) (g : Nat) (also ign : Bool) (f : List W64 → Bool),
      Instr.uniCmp i = some (d, rs, g, also, ign, f) → i.WellFormed →
      ∀ (s : State) (b : Bool), s.allows Legal.all rs = true → s.quiet → s.takes g = some b →
        if b then s.becomesW i (ignored ign) (fun x => x.setQ d
          (match firstBad (rs.map (fun r => (s.me.rs r).pl?) ++ (if also then [(s.me.rq d).pl?] else [])) with
            | some p => .bad p
            | none => .ok (f (rs.map (fun r => (s.me.rs r).getD 0)) && (!also || s.me.rq d == .ok true)))) s.after
        else s.becomes i s.me s.after)
  ∧ (∀ (s : State) (b : Bool) (d a c g m imm : Nat), s.quiet → m < 4 → g < 4 → c < 64 → d < 64 → a < 64 → imm < 262144 →
      (s.allows Legal.all [d, a, c] = true →
        s.becomesW (.ssel d a c g m) (ignored (m != 0)) (fun x => x.setS d (match s.me.rq (g + 1) with
          | .bad p => .bad p | .ok true => s.me.rs a | .ok false => s.me.rs c)) s.after)
      ∧ (s.allows Legal.all [] = true → s.takes g = some b →
        if b then s.becomesW (.qlop d a c g m) (ignored (decide (8 ≤ d) || decide (8 ≤ a) || c / 8 % 2 == 1 || m != 0)) (fun x => x.setQ d
          (match s.me.rq a, s.me.rq c with
            | .bad p, _ => .bad p
            | .ok _, .bad p => .bad p
            | .ok u, .ok v => .ok (if c / 16 = 0 then u && v else if c / 16 = 1 then u || v else if c / 16 = 2 then xor u v else u && !v))) s.after
        else s.becomes (.qlop d a c g m) s.me s.after)
      ∧ (s.allows Legal.all [d, a, c] = true → s.takes g = some b →
        if b then s.becomesW (.saddc d a c g m) (ignored (m != 0)) (fun x => match s.me.rs a, s.me.rs c, s.me.rq 7 with
          | .bad p, _, _ => (x.setS d (.bad p)).setQ 7 (.bad p)
          | .ok _, .bad p, _ => (x.setS d (.bad p)).setQ 7 (.bad p)
          | .ok _, .ok _, .bad p => (x.setS d (.bad p)).setQ 7 (.bad p)
          | .ok u, .ok v, .ok k =>
            let t := u.toNat + v.toNat + (if k then 1 else 0)
            (x.setS d (.ok (BitVec.ofNat 64 t))).setQ 7 (.ok (decide (2 ^ 64 ≤ t)))) s.after
        else s.becomes (.saddc d a c g m) s.me s.after)
      ∧ (s.allows Legal.all [d] = true →
        s.becomesW (.sadr d imm) 0 (fun x => x.setS d (.ok (s.cur.pc + (BitVec.ofNat 18 imm).signExtend 64 * 2))) s.after))

/-- O15. SDIV and SREM truncate toward zero; a poisoned operand poisons the result; with a result that does not exist (a divisor of 0, and
the signed quotient of -2^63 by -1), s[d] receives INVALID_OP poison and the other uniform registers stay (11 R334). -/
def Obligations.ScalarDivision : Prop :=
  ∀ (s : State) (d a b g m : Nat), s.allows Legal.all [d, a, b] = true → s.quiet → s.takes g = some true → m < 4 →
    (∀ x y, s.me.rs a = .ok x → s.me.rs b = .ok y → y ≠ 0 →
      (m % 2 = 1 ∨ ¬ (x.toInt = -(2 ^ 63) ∧ y.toInt = -1) →
        s.becomesW (.sdiv d a b g m) (ignored (decide (2 ≤ m))) (fun c => c.setS d (.ok (BitVec.ofInt 64 (Int.tdiv (asInt64 m x) (asInt64 m y))))) s.after)
      ∧ s.becomesW (.srem d a b g m) (ignored (decide (2 ≤ m))) (fun c => c.setS d (.ok (BitVec.ofInt 64 (Int.tmod (asInt64 m x) (asInt64 m y))))) s.after)
    ∧ (∀ p, firstBad [(s.me.rs a).pl?, (s.me.rs b).pl?] = some p →
      s.becomesW (.sdiv d a b g m) (ignored (decide (2 ≤ m))) (fun c => c.setS d (.bad p)) s.after
      ∧ s.becomesW (.srem d a b g m) (ignored (decide (2 ≤ m))) (fun c => c.setS d (.bad p)) s.after)
    ∧ (∀ x y, s.me.rs a = .ok x → s.me.rs b = .ok y → d % 64 ≠ 0 → ∀ i,
      (y = 0 ∧ (i = .sdiv d a b g m ∨ i = .srem d a b g m) ∨ x.toInt = -(2 ^ 63) ∧ y.toInt = -1 ∧ m % 2 = 0 ∧ i = .sdiv d a b g m) →
      ∃ t p, exec i s = .next t ∧ t.me.rs d = .bad p ∧ plCause p = cInvalidOp ∧ ∀ r, r % 64 ≠ d % 64 → t.me.rs r = s.me.rs r)

/-- O16. A group's VTOU reads any lane; VOTE and REDX join the active lanes in a group, the lowest poisoned lane's payload prevailing
(11 R340). That a signed minimum or maximum is sign-extended is the model's reading: log entry 16. -/
def Obligations.CrossLane : Prop :=
  ∀ (s : State) (d a b g m : Nat), s.allows Legal.home [] = true → s.quiet → s.takes g = some true → b < 64 → m < 4 →
    s.becomes (.vtou d a b g m) ((s.me.warned (ignored (decide (32 ≤ b) || m != 0))).setS d (match (s.me.ln (b % 32)).rd a with
      | .bad p => .bad p | .ok w => .ok (w.setWidth 64))) s.after
    ∧ s.becomes (.redx d a b g m) ((s.me.warned (ignored (decide (8 ≤ b) || m != 0))).setS d (match overLanes s (fun x => x.rd a) 0 with
      | .error p => .bad p | .ok v => .ok (reduceBy (b % 8) (v.map Prod.snd)))) s.after
    ∧ (b % 4 = 0 → s.becomes (.vote d a b g m) ((s.me.warned (ignored (decide (8 ≤ a) || decide (4 ≤ b) || m != 0))).setS d
      (match overLanes s (fun x => x.pr a) false with | .error p => .bad p | .ok v => .ok (ballot v))) s.after)
    ∧ (b % 4 ≠ 0 → s.becomes (.vote d a b g m) ((s.me.warned (ignored (decide (8 ≤ a) || decide (4 ≤ b) || m != 0 || decide (8 ≤ d)))).setQ d
      (match overLanes s (fun x => x.pr a) false with
        | .error p => .bad p
        | .ok v => .ok (if b % 4 = 1 then v.any Prod.snd else if b % 4 = 2 then v.all Prod.snd else v.all Prod.snd || v.all (fun e => !e.2)))) s.after)

/-- O17. GETS reads the split's, group's, workgroup's and die's special registers, zero-extended, a register kept per lane from the lowest
active lane, and 0 with MOD_RSVD from a reserved number (06 R180; 05 R166). PUTS
replaces the writable bits of %dr in the active lanes, of %lc in the split and of %warn, %fpx and %fpm in the group, and has no
effect on a read-only register (09 R274; 11 R341; 08 R251, R252). -/
def Obligations.SpecialRegisters : Prop :=
  ∀ (s : State) (d a b g m : Nat), s.allows Legal.noSeq [] = true → s.quiet → s.takes g = some true → a < 64 → d < 64 →
    (∀ n v, (n, v) ∈ [(2, BitVec.ofNat 64 s.me.gid), (6, BitVec.ofNat 64 (s.dieOf s.cur.act)), (8, (s.die (s.dieOf s.cur.act)).cycles),
        (10, s.sp.lc.setWidth 64), (11, s.me.warn.setWidth 64), (13, s.me.fpx.setWidth 64), (14, s.me.fpm.setWidth 64)] →
      s.becomes (.gets d n b g m) ((s.me.warned (ignored (b != 0 || m != 0))).setS d (.ok v)) s.after)
    ∧ (∀ l ∈ s.active, (∀ j ∈ s.active, l ≤ j) → s.cur.act.lanes = true → ∀ n v, (n, v) ∈ [(0, .ok (BitVec.ofNat 64 l)), (1, .ok (BitVec.ofNat 64 (l / 8))),
        (3, .ok (BitVec.ofNat 64 (s.wgOf s.cur.act).w)), (4, .ok (BitVec.ofNat 64 ((s.wgOf s.cur.act).w / 2 ^ (s.desc s.cur.act).nlog))),
        (5, .ok (BitVec.ofNat 64 (s.wgOf s.cur.act).member)), (7, .ok (s.wgOf s.cur.act).teams),
        (9, (match (s.me.ln l).dr with | .ok w => .ok (w.setWidth 64) | .bad p => .bad p))] →
      s.becomes (.gets d n b g m) ((s.me.warned (ignored (b != 0 || m != 0))).setS d v) s.after)
    ∧ (∀ c h k, s.cur.act = .split c h k →
      s.becomes (.gets d 12 b g m) ((s.me.warned (ignored (b != 0 || m != 0))).setS d (.ok (BitVec.ofNat 64
        (s.me.seq % 2 ^ 16 * 2 ^ 48 + ((s.core c).quar.filter (fun e => e.slot == h)).length % 2 ^ 10 * 2 ^ 38 + s.me.kexp % 2 ^ 3 * 2 ^ 35
          + (if s.me.ovf then 2 ^ 34 else 0)
          + (ballot ((List.range 32).map (fun l => let r := s.rgnAt s.cur.act l; (l, (r.opn && r.p) || r.orph)))).toNat)))) s.after)
    ∧ (15 ≤ a → s.becomes (.gets d a b g m) ((s.me.warned (ignored (b != 0 || m != 0) ||| flag wModRsvd)).setS d (.ok 0)) s.after)
    ∧ (∀ v, s.me.rs a = .ok v →
      (15 ≤ d → s.becomes (.puts d a b g m) (s.me.warned (ignored (b != 0 || m != 0) ||| flag wModRsvd)) s.after)
      ∧ ((d < 9 ∨ d = 12) → s.becomes (.puts d a b g m) (s.me.warned (ignored (b != 0 || m != 0))) s.after)
      ∧ s.becomes (.puts 10 a b g m) (s.me.warned (ignored (b != 0 || m != 0))) { s.after with lc := v.setWidth 32 }
      ∧ s.becomes (.puts 11 a b g m) { s.me with warn := v.setWidth 32 &&& 0x000FFFFF } s.after
      ∧ s.becomes (.puts 13 a b g m) { s.me.warned (ignored (b != 0 || m != 0)) with fpx := v.setWidth 32 &&& 0x1F } s.after
      ∧ s.becomes (.puts 14 a b g m) { s.me.warned (ignored (b != 0 || m != 0)) with fpm := v.setWidth 32 &&& 1 } s.after
      ∧ ∃ t, s.becomes (.puts 9 a b g m) { s.me.warned (ignored (b != 0 || m != 0)) with lanes := t } s.after
        ∧ ∀ l, Tbl.get ({} : Lane) t l = if l ∈ s.active then { s.me.ln l with dr := .ok (v.setWidth 32) } else s.me.ln l)

/-- O18. A scalar instruction with a poisoned guard of a group is not performed: no uniform register changes, and each live active
lane is marked: an open region gets P, a lane outside a region ORPH (11 R330; 05 R158). -/
def Obligations.PoisonedGuardMarks : Prop :=
  ∀ (i : Instr) (d : Nat) (rs : List Nat) (g : Nat) (ign : Bool) (f : List W64 → W64), Instr.uniInt i = some (d, rs, g, ign, f) → i.WellFormed →
    ∀ (s : State) (c k e : Nat), s.cur.act = .split c k e → s.quiet → s.takes g = none → (∀ l ∈ s.active, (s.me.ln l).life = .live) →
      ∃ t, exec i s = .next t ∧ t.me.s = s.me.s ∧ t.me.q = s.me.q
        ∧ ∀ l ∈ s.active, (t.me.ln l).v = (s.me.ln l).v
          ∧ (if (s.me.ln l).rgn.opn then (t.me.ln l).rgn.p = true else (t.me.ln l).rgn.orph = true)

/-! ## Control flow -/

/-- O19. BRA, CALL, RET and LOOP set the PC of a context (11 R344 to R346; 12 R375). A BRA whose predicate and a RET whose register is poisoned
mark and go on past it (11 R331); so does a LOOP off the lanes with a poisoned predicate, with %lc counted down as in 11 R345's own
pseudocode. JOINAT sets the join point (06 R198). -/
def Obligations.Jumps : Prop :=
  ∀ (s : State) (c off y a z : Nat), s.quiet →
    (s.allows Legal.all [] = true → ∀ t, s.me.rq c = .ok t →
      s.becomes (.bra c off) s.me { s.sp with pc := if t then s.goal off else s.cur.npc })
    ∧ (s.allows Legal.all [] = true → ∀ p, s.me.rq c = .bad p →
      ∃ t, exec (.bra c off) s = .next t ∧ s.keepsRegs t ∧ (s.cur.act.lanes = true → s.marks t) ∧ s.endsAs t s.after)
    ∧ (s.allows Legal.all [] = true →
      s.becomesW (.call c off) (ignored (c != 0)) (fun x => x.setS (if s.cur.act.isSeq then 15 else 62) (.ok s.cur.npc))
        { s.sp with pc := s.goal off })
    ∧ (s.allows Legal.lane [] = true →
      s.becomes (.joinat c off) (s.me.warned (ignored (c != 0))) { s.after with join := some (s.goal off) })
    ∧ (let r := if s.cur.act.isSeq && a == 62 then 15 else a
      s.allows Legal.all [r] = true → ∀ w, s.me.rs r = .ok w →
        s.becomesW (.ret y a z) (ignored (y != 0 || z != 0) ||| (if w.getLsbD 0 then flag wPcOdd else 0)) id { s.sp with pc := w &&& ~~~1 })
    ∧ (let r := if s.cur.act.isSeq && a == 62 then 15 else a
      s.allows Legal.all [r] = true → ∀ p, s.me.rs r = .bad p →
        ∃ t, exec (.ret y a z) s = .next t ∧ s.keepsRegs t ∧ (s.cur.act.lanes = true → s.marks t) ∧ s.endsAs t s.after)
    ∧ (s.allows Legal.all [] = true →
      (s.sp.lc = 0 → s.becomes (.loop c off) s.me s.after)
      ∧ (s.sp.lc ≠ 0 → s.cur.act.lanes = false →
        (∀ t, s.me.rq c = .ok t → s.becomes (.loop c off) s.me { s.sp with lc := s.sp.lc - 1, pc := if t then s.goal off else s.cur.npc })
        ∧ (∀ p, s.me.rq c = .bad p → ∃ t, exec (.loop c off) s = .next t ∧ s.keepsRegs t ∧ s.endsAs t { s.after with lc := s.sp.lc - 1 })))

/-- O20. BR, BR.E without ejection (EJT = 0), BRX and LOOP of a lane context send each active lane to its own address; LOOP counts %lc
down (06 R190; 11 R345, R346; 06 R194). -/
def Obligations.LaneBranches : Prop :=
  ∀ (s : State) (c off y a z : Nat), s.cur.act.lanes = true → s.allows Legal.lane [] = true → s.quiet → s.cur.act.slot < 4 →
    (∀ b : Nat → Bool, (∀ l ∈ s.active, (s.me.ln l).pr c = .ok (b l)) →
      s.branches (.br c off) 0 (fun l => if b l then s.goal off else s.cur.npc)
      ∧ (s.allows Legal.home [] = true → (s.desc s.cur.act).ejt = 0 →
        s.branches (.brE c off) 0 (fun l => if b l then s.goal off else s.cur.npc))
      ∧ (s.sp.lc ≠ 0 → ∃ t, exec (.loop c off) s = .next t
        ∧ (∀ l ∈ s.active, t.me.goesOn l (if b l then s.goal off else s.cur.npc))
        ∧ (s.lone → (∀ x ∈ t.me.splits, x.2.mask ≠ 0 → x.2.lc = s.sp.lc - 1) ∧ t.me.pool = [])
        ∧ s.keepsRegs t))
    ∧ (∀ w : Nat → W64, (∀ l ∈ s.active, (s.me.ln l).rd2 (a - a % 2) = .ok (w l)) →
      s.branches (.brx y a z) (flag wModIgn ||| flag wRegAlign ||| flag wPcOdd ||| flag wEjectUnmapped) (fun l => w l &&& ~~~1))

/-- O21. BR.E ejects the smaller outcome when it fits EJT and the free threads: each of its lanes continues on a Retriever thread of the
die at its own address with copies of the group's uniform registers; the larger outcome stays (06 R194, R195). -/
def Obligations.Ejection : Prop :=
  ∀ (s : State) (core g k c off : Nat) (b : Nat → Bool) (side : Bool), s.cur.act = .split core g k → s.sp.sup = false → s.quiet → s.lone →
    (∀ l ∈ s.active, (s.me.ln l).pr c = .ok (b l)) → s.sp.join ≠ none →
    let few := s.active.filter (fun l => b l == side)
    let many := s.active.filter (fun l => b l != side)
    let goal (taken : Bool) : W64 := if taken then s.goal off else s.cur.npc
    1 ≤ few.length → few.length < many.length → few.length ≤ (s.desc s.cur.act).ejt →
    few.length ≤ ((List.range 128).filter (fun t => !(s.ctx (.thread (core / 64) t)).on)).length →
    ∃ t, exec (.brE c off) s = .next t
      ∧ (∀ l ∈ many, t.me.goesOn l (goal !side) ∧ t.me.ln l = s.me.ln l)
      ∧ (∀ l ∈ few, ∃ th, th < 128 ∧ (s.ctx (.thread (core / 64) th)).on = false ∧ (t.me.ln l).life = .ejected th
        ∧ (let e := t.ctx (.thread (core / 64) th)
          e.on = true ∧ e.lane = l ∧ e.s = s.me.s ∧ e.q = s.me.q ∧ e.jrec = s.sp.join ∧ e.goesOn l (goal side)))

/-- O22. JOIN passes when no lane of the group is away from that join point, and else waits; the JOIN of an ejected lane at its join
point brings the lane home with its live registers. It joins the mask of the split that waits there, which goes on once no other lane is
away from that join point; where none waits, it forms a split at the next instruction (06 R195, R198, R199). That the waiting split in the
lowest slot takes the lane is the model's choice: log entry 28. -/
def Obligations.Join : Prop :=
  ∀ (s : State) (z : Nat), s.quiet →
    (∀ c g k, s.cur.act = .split c g k →
      ((∀ l < 32, ∀ t, (s.me.ln l).life = .ejected t → (s.ctx (.thread (c / 64) t)).jrec ≠ some s.cur.pc) →
        s.becomes (.join z) (s.me.warned (ignored (z != 0))) s.after)
      ∧ (∀ l t, l < 32 → (s.me.ln l).life = .ejected t → (s.ctx (.thread (c / 64) t)).jrec = some s.cur.pc →
        s.becomes (.join z) (s.me.warned (ignored (z != 0))) { s.after with wait := .join s.cur.pc }))
    ∧ (∀ d th, s.cur.act = .thread d th →
      (s.me.jrec ≠ some s.cur.pc → s.becomes (.join z) (s.me.warned (ignored (z != 0))) s.after)
      ∧ (s.me.jrec = some s.cur.pc →
        let home : Actor := .split s.me.core s.me.home 0
        ∃ t, exec (.join z) s = .next t ∧ (t.ctx (.thread d th)).on = false
          ∧ ((∀ x, (x ∈ (s.ctx home).splits.map Prod.snd ∨ x ∈ (s.ctx home).pool) → x.wait = .none) → (t.ctx home).goesOn s.me.lane s.cur.npc)
          ∧ (∀ k < 4, ((s.ctx home).split k).wait = .join s.cur.pc → ((s.ctx home).split k).mask ≠ 0 →
            (∀ j < k, ((s.ctx home).split j).wait ≠ .join s.cur.pc) →
            ((t.ctx home).split k).mask = ((s.ctx home).split k).mask + 2 ^ s.me.lane ∧ ((t.ctx home).split k).pc = ((s.ctx home).split k).pc
              ∧ ((∀ l < 32, l ≠ s.me.lane → ∀ u, ((s.ctx home).ln l).life = .ejected u → (s.ctx (.thread (s.me.core / 64) u)).jrec ≠ some s.cur.pc) →
                ((t.ctx home).split k).wait = .none))
          ∧ (let x := (t.ctx home).ln s.me.lane
            x.life = .live ∧ x.p = (s.me.ln s.me.lane).p ∧ x.dr = (s.me.ln s.me.lane).dr
            ∧ ∀ r < 128, x.rd r = if bit (s.desc s.cur.act).hset r then (s.me.ln s.me.lane).rd r else ((s.ctx home).ln s.me.lane).rd r)
          ∧ (t.ctx home).fpx = (s.ctx home).fpx ||| s.me.fpx))

/-- O23. EXIT ends the active lanes of a group or an ejected lane; it ends a control program, advancing HEAD of its queue, and an engine
program (11 R347; 07 R211; 12 R375). NOP changes the PC and, with nonzero reserved bits, MOD_IGN alone (11 R346; 09 R295); YIELD holds
its split back until the other ready split has issued (11 R346). -/
def Obligations.Exit : Prop :=
  (∀ (s : State) (z : Nat), s.quiet → s.allows Legal.all [] = true →
      ∃ t, exec (.exit z) s = .next t
        ∧ (∀ c g k, s.cur.act = .split c g k → s.sp.inHandler = false → ∀ l ∈ s.active, (t.me.ln l).life = .exited)
        ∧ (∀ d th, s.cur.act = .thread d th → (t.ctx (.thread d th)).on = false
          ∧ (s.me.lane < 32 → ((t.ctx (.split s.me.core s.me.home 0)).ln s.me.lane).life = .exited))
        ∧ (∀ d th, s.cur.act = .ctl d th → t.me.on = false ∧ (s.me.fw = false →
          let w : BitVec 128 := Tbl.get 0 (s.die d).sqd s.me.queue
          fld (Tbl.get (0 : BitVec 128) (t.die d).sqd s.me.queue).toNat 20 20 = (fld w.toNat 20 20 + 1) % 2 ^ (fld w.toNat 80 4 + 4)))
        ∧ (∀ c, s.cur.act = .mseq c → t.me.on = false ∧ (Tbl.get ({} : Wg) (t.core c).wgs s.me.wslot).mrun = false)
        ∧ (∀ c, s.cur.act = .cseq c → t.me.on = false ∧ (Tbl.get ({} : Wg) (t.core c).wgs s.me.wslot).crun = false))
  ∧ (∀ (s : State) (z : Nat), s.quiet →
      (s.allows Legal.all [] = true → s.becomesW (.nop z) (ignored (z != 0)) id s.after)
      ∧ (s.allows Legal.lane [] = true →
        s.becomes (.yield z) (s.me.warned (ignored (z != 0))) { s.after with yld := [] }
        ∧ (∀ y, s.cur.act.lanes = true → s.cur.act.slot = 0 → s.me.splits = [(0, s.sp), (1, y)] → s.me.pool = [] → s.sp.mask ≠ 0 → y.mask ≠ 0 →
          y.wait = .none → y.halted = false → y.pc ≠ s.cur.npc →
          ∃ t, exec (.yield z) s = .next t ∧ t.me.split 0 = { s.after with yld := [1] })))

/-! ## Regions and poison -/

/-- O24. RGN.I and RGN.H open a region in each active lane without one: start, recovery target, the group's next sequence number; P, NSV
and the replay count clear, ORPH and RECV stay (05 R165; 11 R348). -/
def Obligations.RegionOpens : Prop :=
  ∀ (s : State) (core g k c off : Nat), s.cur.act = .split core g k → s.quiet →
    (∀ l ∈ s.active, (s.me.ln l).rgn.opn = false) → ∀ i kind, (i = .rgnI c off ∧ kind = false ∨ i = .rgnH c off ∧ kind = true) →
      ∃ t, exec i s = .next t ∧ s.keepsRegs t ∧ s.endsAs t s.after ∧ t.me.seq = (s.me.seq + 1) % 65536
        ∧ t.me.warn = s.me.warn ||| ignored (c != 0)
        ∧ ∀ l, (t.me.ln l).rgn = if l ∈ s.active then { (s.me.ln l).rgn with
            opn := true, kind := kind, p := false, nsv := false, rpl := 0, recp := 0, seq := (s.me.seq + 1) % 65536,
            start := s.cur.npc, recov := s.goal off } else (s.me.ln l).rgn

/-- O25. A commit closes the regions of the active lanes: clean lanes go on; poisoned lanes go to recovery with RECV, under CMT.RL they
go on with ORPH; where no lane is serviceable CMT.SV acts as CMT.BR (05 R171; 11 R348). No held byte of these lanes outside the reserve
stays owned by one of them (05 R171). Without any region the commit only sets CMT_NOREGION. The model's choice in it: log entry 29. -/
def Obligations.Commits : Prop :=
  ∀ (i : Instr) (mode : Nat), Instr.commitMode i = some mode → ∀ (s : State) (core g k : Nat), s.cur.act = .split core g k →
    s.sp.sup = false → s.quiet → s.cur.act.slot < 4 → (∀ l ∈ s.active, (s.me.ln l).life = .live) →
    ((∀ l ∈ s.active, (s.me.ln l).rgn.opn = true) → (mode = 1 → ∀ l ∈ s.active, (s.me.ln l).rgn.p = true → (s.me.ln l).rgn.nsv = true) →
      ∃ t, exec i s = .next t ∧ s.keepsRegs t
        ∧ (∀ l ∈ s.active,
          let r := (s.me.ln l).rgn
          let r' := (t.me.ln l).rgn
          r'.opn = false ∧ r'.rpl = 0 ∧ r'.recp = r.recp
          ∧ (r.p = false → r'.recv = false ∧ r'.orph = r.orph ∧ t.me.goesOn l s.cur.npc)
          ∧ (r.p = true → mode ≠ 2 → r'.p = false ∧ r'.recv = true ∧ r'.orph = r.orph ∧ t.me.goesOn l r.recov)
          ∧ (r.p = true → mode = 2 → r'.p = false ∧ r'.orph = true ∧ t.me.goesOn l s.cur.npc))
        ∧ (∀ e ∈ (t.core core).quar, e.slot = g → e.reserve = false → ∀ b ∈ e.bytes, ∀ l ∈ s.active, bit b.2.own l = false))
    ∧ ((∀ l ∈ s.active, (s.me.ln l).rgn.opn = false) → s.active ≠ [] →
      ∃ t, exec i s = .next t ∧ s.keepsRegs t ∧ s.endsAs t s.after ∧ t.me.warn &&& flag wCmtNoRegion ≠ 0
        ∧ ∀ l, (t.me.ln l).rgn = (s.me.ln l).rgn)

/-- O26. CMT.SV of a lone lane whose REC names a FIRST_TOUCH record of its region: with four permits in use nothing but the back-off
changes; else it holds a permit and enters the handler at SVEC in supervisor mode, and the region stays open (05 R172, R173; 04 R140,
R141). The model's choice in it: log entry 29. -/
def Obligations.CommitService : Prop :=
  ∀ (s : State) (core g k z l : Nat), s.cur.act = .split core g k → s.sp.sup = false → s.quiet → s.lone → s.active = [l] →
    (s.me.ln l).life = .live → s.me.svc = none →
    (let r := (s.me.ln l).rgn
      let e := (s.core core).entry (plIdx r.recp)
      r.opn = true ∧ r.p = true ∧ r.nsv = false ∧ r.rpl < 15 ∧ plIdx r.recp < 1023 ∧ e.live = true ∧ e.serv = true ∧ e.stale = false
        ∧ e.cause = cFirstTouch ∧ e.seq = r.seq ∧ e.wgs = s.me.wslot ∧ e.group = s.me.gid ∧ e.lane = l
        ∧ (s.core core).side = [(plIdx r.recp, e)]) →
    (4 ≤ (s.core core).permits → ∃ t, exec (.cmtSv z) s = .next t ∧ t.me.backoff = true ∧ t.me.kexp = min 6 (s.me.kexp + 1)
      ∧ (t.me.ln l).rgn = (s.me.ln l).rgn ∧ t.core core = s.core core ∧ s.endsAs t s.sp)
    ∧ ((s.core core).permits < 4 → ∃ t, exec (.cmtSv z) s = .next t ∧ (t.core core).permits = (s.core core).permits + 1
      ∧ (t.me.ln l).rgn.opn = true ∧ t.me.svc ≠ none ∧ t.me.kexp = 0
      ∧ (t.me.split k).pc = s.mem.svec s.me.asid &&& ~~~1 ∧ (t.me.split k).sup = true ∧ bit (t.me.split k).mask l = true)

/-- O27. PCHK writes whether its register is poisoned, and the payload, without taking the poison in (11 R349); SIDE reads a word of a
record (11 R351; 05 R160). -/
def Obligations.PoisonChecks : Prop :=
  ∀ (s : State) (u p y a pl e z d k : Nat), s.quiet → a < 128 → e < 128 → p < 8 →
    (u ≠ 0 → s.allows Legal.noSeq [] = true →
      s.becomes (.pchk u p y a pl e z)
        (let c := (s.me.warned (ignored (y != 0 || z != 0 || (pl == 0 && e != 0) || decide (64 ≤ a) || decide (64 ≤ e)))).setQ p
            (.ok (s.me.rs a).pl?.isSome)
          if pl = 0 then c else c.setS e (.ok (match s.me.rs a with | .bad q => BitVec.ofNat 64 q.toNat | .ok _ => 0))) s.after)
    ∧ (s.cur.act.lanes = true → s.allows Legal.lane [] = true →
      s.lanesDo (.pchk 0 p y a pl e z) laneWarns s.me.fpx (fun _ x =>
        let x1 := x.setP p (.ok (x.rd a).pl?.isSome)
        if pl = 0 then x1 else x1.setV e (.ok (match x.rd a with | .bad q => BitVec.ofNat 32 q.toNat | .ok _ => 0))))
    ∧ (s.allows Legal.lane [] = true → k < 4 → ∀ i r, (match s.me.rs a with | .ok w => w.toNat % 1024 | .bad q => plIdx q) = i →
      (s.core (s.coreOf s.cur.act)).entry i = r →
      s.becomes (.side d a k z) ((s.me.warned (ignored (z != 0))).setS d (.ok (if s.sp.sup = false ∧ r.wgs ≠ s.me.wslot then 0
        else if k = 3 then r.pc else if k = 2 then r.detail else BitVec.ofNat 64 (r.bits / 2 ^ (64 * k))))) s.after)

/-- O28. PCLR clears the poison of the registers f to f + n - 1, of the predicates under .pq and of the uniform registers under .s, of each
active lane; clean registers keep their values; ORPH and RECV clear, and the group's OVF (11 R350; 05 R168). -/
def Obligations.PoisonCleared : Prop :=
  ∀ (s : State) (core g k f n q sx z : Nat), s.cur.act = .split core g k → s.quiet → n ≤ 128 →
    ∃ t, exec (.pclr f n q sx z) s = .next t ∧ s.endsAs t s.after ∧ t.me.ovf = false
      ∧ (∀ l ∈ s.active,
        (∀ r < 128, (t.me.ln l).rd r = match (s.me.ln l).rd r with
          | .ok w => .ok w
          | .bad p => if (r + 128 - f % 128) % 128 < n then .ok 0 else .bad p)
        ∧ (∀ r < 8, (t.me.ln l).pr r = match (s.me.ln l).pr r with
          | .ok b => .ok b
          | .bad p => if q = 0 then .bad p else .ok false)
        ∧ (t.me.ln l).rgn.orph = false ∧ (t.me.ln l).rgn.recv = false)
      ∧ (∀ r < 64, t.me.rs r = match s.me.rs r with | .ok w => .ok w | .bad p => if sx = 0 then .bad p else .ok 0)
      ∧ (∀ r < 8, t.me.rq r = match s.me.rq r with | .ok b => .ok b | .bad p => if q = 0 then .bad p else .ok false)

/-! ## Supervisor mode, legality, faults of fetch -/

/-- O29. SVC enters supervisor mode at SVEC + 0x40 and keeps the next instruction as the return; SRET goes back to it; SRET outside
supervisor mode marks the lanes and goes on; the SRET that ends a part of a handler frees its slot (11 R355; 04 R141).
BRK acts as NOP while debug is off; else, without HALT_PACK, it halts its split at its own address and sets HALTED (06 R206 to R208; 11
R356). The model's choice in it: log entry 29. -/
def Obligations.SupervisorAndBreakpoint : Prop :=
  (∀ (s : State) (z : Nat), s.quiet →
      (s.allows Legal.homeUser [] = true → s.becomes (.svc z) (s.me.warned (ignored (z != 0)))
        { s.sp with pc := (s.mem.svec s.me.asid + 0x40) &&& ~~~1, sup := true, ret := some s.cur.npc })
      ∧ (s.allows Legal.lane [] = true → s.sp.sup = true → ∀ r, s.sp.ret = some r →
        s.becomes (.sret z) (s.me.warned (ignored (z != 0))) { s.sp with pc := r, sup := false, ret := none })
      ∧ (∀ c g k, s.cur.act = .split c g k → s.sp.sup = false →
        ∃ t, exec (.sret z) s = .next t ∧ s.keepsRegs t ∧ s.marks t ∧ s.endsAs t s.after)
      ∧ (∀ c g k v, s.cur.act = .split c g k → s.sp.sup = true → s.sp.ret = none → s.me.svc = some v → without v.handler s.mask ≠ 0 → s.lone →
        ∃ t, exec (.sret z) s = .next t ∧ s.keepsRegs t ∧ (t.me.split k).mask = 0
          ∧ t.me.svc = some { v with handler := without v.handler s.mask }))
  ∧ (∀ (s : State) (z : Nat), s.allows Legal.home [] = true → s.quiet →
      ((s.die (s.dieOf s.cur.act)).dbgEn = false → s.becomes (.brk z) (s.me.warned (ignored (z != 0))) s.after)
      ∧ ((s.die (s.dieOf s.cur.act)).dbgEn = true → (s.die (s.dieOf s.cur.act)).haltPack = false →
        ∃ t, exec (.brk z) s = .next t ∧ s.keepsRegs t ∧ (t.die (s.dieOf s.cur.act)).halted = true
          ∧ s.endsAs t { s.sp with halted := true, brk := some s.cur.npc }))

/-- O30. Where an instruction may not execute (11 R332; 09 R294; 06 R201): a privileged one outside supervisor mode gives PROT poison in its
status register; in supervisor mode the user forms mark the lanes; an ejected lane is recalled, unchanged, at each instruction of R201; lane
instructions off the lanes, the instructions of R201 on a control core, and control-only ones off a control core, take the fate of an
unassigned encoding. -/
def Obligations.Legality : Prop :=
  ∀ (s : State) (i : Instr), i.WellFormed → s.quiet →
    (∀ d, Instr.privilegedAt i = some d → s.cur.act.lanes = true → s.sp.sup = false → d % 64 ≠ 0 →
      ∃ t p, exec i s = .next t ∧ t.me.rs d = .bad p ∧ plCause p = cProt ∧ (∀ r, r % 64 ≠ d % 64 → t.me.rs r = s.me.rs r) ∧ s.endsAs t s.after)
    ∧ (∀ c g k, s.cur.act = .split c g k → Instr.userOnly i = true → s.sp.sup = true →
      ∃ t, exec i s = .next t ∧ s.keepsRegs t ∧ s.marks t ∧ s.endsAs t s.after)
    ∧ (∀ d th, s.cur.act = .thread d th → Instr.recalls i = true → exec i s = .next (s.setCtx s.cur.act { s.me with timedOut := true }))
    ∧ (Instr.ctlOnly i = true → s.cur.act.isCtl = false → (s.cur.act.isThread = true → Instr.recalls i = false) → exec i s = exec (.unassignedEncoding s.cur.word) s)
    ∧ (Instr.recalls i = true → Instr.ctlOnly i = false → s.cur.act.isCtl = true → exec i s = exec (.unassignedEncoding s.cur.word) s)
    ∧ (Instr.laneWord i = true → s.cur.act.lanes = false → exec i s = exec (.unassignedEncoding s.cur.word) s)

/-- O31. An unassigned encoding marks the lanes of a group with ILLEGAL_ENC and goes on; on a control core it writes ILLEGAL_ENC poison to
s61 and goes on; it ends an engine program (09 R294; 07 R209; 12 R375). A dictionary code makes its rebased entry the instruction to
execute next, at the address of the code; a code without an entry takes the fate of R294 (09 R282; 07 R224). -/
def Obligations.UnassignedEncoding : Prop :=
  (∀ (s : State) (detail : Nat), s.quiet →
      (∀ c g k, s.cur.act = .split c g k →
        ∃ t, exec (.unassignedEncoding detail) s = .next t ∧ s.keepsRegs t ∧ s.marks t ∧ s.endsAs t s.after
          ∧ (∀ l ∈ s.active, (s.me.ln l).life = .live → (s.me.ln l).rgn.opn = true → (s.me.ln l).rgn.p = false →
            plCause (t.me.ln l).rgn.recp = cIllegalEnc))
      ∧ (∀ d th, s.cur.act = .ctl d th →
        s.becomes (.unassignedEncoding detail) (s.me.setS 61 (.bad (mkPl cIllegalEnc 1023))) s.after)
      ∧ (∀ c, s.cur.act = .mseq c ∨ s.cur.act = .cseq c → ∃ t, exec (.unassignedEncoding detail) s = .next t ∧ t.me.on = false))
  ∧ (∀ (s : State) (rb idx : Nat), s.cur.act.isCtl = false → rb < 4 → idx < 1024 →
      (∀ d w i, (s.core (s.coreOf s.cur.act)).dict = some d → idx < d.dcnt → Tbl.get none d.words idx = some w → isCode (w.toNat / 65536) = false →
        decodeWord w.toNat = .ok i →
        exec (.dictionaryCode rb idx) s
          = .next { s with next := some (i.rebase rb), cur := { s.cur with word := (encode (i.rebase rb)).getD 0 } })
      ∧ ((s.core (s.coreOf s.cur.act)).dict = none →
        exec (.dictionaryCode rb idx) s = exec (.unassignedEncoding (0xF000 + rb * 1024 + idx)) s))

/-- O32. A fetch fault: lanes without an open region exit; lanes of open regions go to recovery where the fault is not serviceable; it ends a
control program and an engine program, and recalls an ejected lane (01 R28; 07 R209; 12 R375; 06 R201). -/
def Obligations.FetchFault : Prop :=
  ∀ (s s0 : State) (f : Flt) (va : Nat), s.quiet → s.sp.due = false → s.fetch s.cur.act s.cur.pc = (s0, .fault f va) →
    (∀ c g k, s.cur.act = .split c g k → s.sp.inHandler = false → k < 4 → (∀ l ∈ s.active, (s.me.ln l).life = .live) →
      ((∀ l ∈ s.active, (s.me.ln l).rgn.opn = false) →
        ∃ t, exec .instructionFetchFault s = .next t ∧ ∀ l ∈ s.active, (t.me.ln l).life = .exited)
      ∧ ((∀ l ∈ s.active, (s.me.ln l).rgn.opn = true) → servCause s0.mem s.me.asid f.cause false = false →
        ∃ t, exec .instructionFetchFault s = .next t ∧ s.keepsRegs t
          ∧ ∀ l ∈ s.active, (t.me.ln l).rgn.opn = false ∧ (t.me.ln l).rgn.recv = true ∧ t.me.goesOn l (s.me.ln l).rgn.recov))
    ∧ (∀ d th, s.cur.act = .ctl d th → ∃ t, exec .instructionFetchFault s = .next t ∧ t.me.on = false)
    ∧ (∀ d th, s.cur.act = .thread d th → exec .instructionFetchFault s = .next (s0.setCtx s.cur.act { s0.me with timedOut := true }))
    ∧ (∀ c, s.cur.act = .mseq c ∨ s.cur.act = .cseq c → ∃ t, exec .instructionFetchFault s = .next t ∧ t.me.on = false)

/-! ## Barriers, fences, tile flags -/

/-- O33. BAR of a user-mode group. At workgroup scope, while a lane of the group is missing, an arriving wait leaves the split waiting with
its lanes recorded; the last arrival of a workgroup of one group ends the episode and the split goes on. A team barrier without a
team goes on with TEAM_NONE. At every scope, where no slice refuses a write-back, an arrival is a release and records the lanes; a wait
with an arrival pending waits for the episode, and one without is an acquire that goes on at once; an arrive-only BAR goes on; where the
group's workgroup is alone to count, its last arrival ends the episode, and a wait is then an acquire (03 R101; 06 R188, R189; 11 R352). -/
def Obligations.Barriers : Prop :=
  (∀ (s : State) (core g k kind act slot z : Nat), s.cur.act = .split core g k → s.sp.sup = false → s.quiet → s.lone →
    s.sp.halted = false → s.sp.wait = .none → s.me.on = true → kind < 4 → act < 4 →
    let w := s.wgOf s.cur.act
    let key := if kind = 3 then 16 + w.teams.toNat / 2 ^ (8 * slot) % 2 ^ 8 else kind
    let scope := if kind = 3 then 4 else kind
    let rel := s.mem.release core scope
    let arr := Tbl.get 0 s.me.arr key
    let missing := ∃ l < 32, (s.me.ln l).life ≠ .exited ∧ bit (arr ||| s.mask) l = false
    let due := match s.gridAt w.grid with
      | none => 0
      | some gr => if kind = 2 then gr.dieTotal (core / 64) - Tbl.get 0 gr.goneDie (core / 64) else Tbl.get 0 gr.teamCnt (key - 16) - Tbl.get 0 gr.goneTeam (key - 16)
    (kind = 3 → bit w.teams.toNat (32 + slot) = true) → rel.2 = [] →
    (missing → g ∈ w.slots → w.done = false → (2 ≤ kind → s.barDone core w key = false) →
      (act ≠ 2 → s.atBar (.bar kind act slot z) rel.1 (arr ||| s.mask) key { s.after with wait := if act = 1 then .none else .bar key })
      ∧ (act = 2 → arr &&& s.mask ≠ 0 → s.atBar (.bar kind act slot z) s.mem arr key { s.after with wait := .bar key })
      ∧ (act = 2 → arr &&& s.mask = 0 → s.atBar (.bar kind act slot z) (s.mem.acquire core scope) arr key s.after))
    ∧ (¬ missing → act ≠ 2 → w.slots = [g] → w.done = false → s.cores.map Prod.fst = [core] → (s.core core).wgs.map Prod.fst = [s.me.wslot] →
      (2 ≤ kind → (s.gridAt w.grid).isSome = true ∧ due ≤ 1) → (kind = 3 → slot < 4) →
      s.atBar (.bar kind act slot z) (if act = 1 then rel.1 else rel.1.acquire core scope) 0 key s.after))
  ∧ ∀ (s : State) (core g k act slot z : Nat), s.cur.act = .split core g k → s.sp.sup = false → s.quiet → s.lone →
    s.sp.halted = false → s.me.on = true → act = 0 ∨ act = 3 →
    let w := s.wgOf s.cur.act
    let warned := s.me.warned (ignored (z != 0 || slot != 0) ||| (if act = 0 then flag wModRsvd else 0))
    ((∃ l < 32, (s.me.ln l).life ≠ .exited ∧ bit (Tbl.get 0 s.me.arr 0 ||| s.mask) l = false) → g ∈ w.slots →
      s.becomes (.bar 0 act slot z) { warned with arr := Tbl.upd 0 s.me.arr 0 (· ||| s.mask) } { s.after with wait := .bar 0 })
    ∧ ((∀ l < 32, (s.me.ln l).life ≠ .exited → bit (Tbl.get 0 s.me.arr 0 ||| s.mask) l = true) → w.slots = [g] → w.done = false →
      s.sp.wait = .none → s.cores.map Prod.fst = [core] → (s.core core).wgs.map Prod.fst = [s.me.wslot] →
      s.becomes (.bar 0 act slot z) { warned with arr := Tbl.del (Tbl.upd 0 s.me.arr 0 (· ||| s.mask)) 0 } s.after)
    ∧ (bit w.teams.toNat (32 + slot) = false →
      s.becomes (.bar 3 act slot z) (s.me.warned (ignored (z != 0) ||| (if act = 0 then flag wModRsvd else 0) ||| flag wTeamNone)) s.after)

/-- O34. A release at a scope leaves in the core's L1 no dirty line of an acted-on class and no dirty unclassified line, but for lines that a slice
refused; an acquire advances the generation of every acted-on class, modulo 16, and of no other; neither changes a register; a
workgroup fence only advances the PC (02 R56, R58, R76; 03 R94, R95; 11 R353). -/
def Obligations.Fences : Prop :=
  ∀ (i : Instr) (kind scope : Nat), Instr.fenceKind i = some (kind, scope) → i.WellFormed → ∀ (s : State), s.allows Legal.all [] = true → s.quiet →
    s.cur.act.isCtl = false →
    let core := s.coreOf s.cur.act
    ∃ t, exec i s = .next t ∧ s.keepsRegs t ∧ s.endsAs t s.after
      ∧ (scope = 0 → t.mem = s.mem)
      ∧ (kind ≠ 0 → 1 ≤ scope → ∀ l ∈ t.mem.lines1 core,
          (l.cls = 7 ∨ (l.cls ≠ 0 ∧ l.cls ≤ widest scope)) → l.dirty = 0 ∨ l.refused = true)
      ∧ (∀ c, t.mem.clsGen core c = if kind ≠ 1 ∧ 1 ≤ c ∧ c ≤ widest scope then (s.mem.clsGen core c + 1) % 16 else s.mem.clsGen core c)

/-- O35. TRIG adds the active lanes to the group's triggers, and the group has triggered when every live lane has; a later TRIG has no effect (11
R354; 07 R221). TREADY and
TWAIT beyond TCNT mark the lanes and touch no flag; a TREADY that counts notifies every placement unit; a TWAIT waits on its flag
until it is set (11 R354; 07 R222). The model's choice in it: log entry 31. -/
def Obligations.TileFlags : Prop :=
  ∀ (s : State) (core g k y a z : Nat), s.cur.act = .split core g k → s.sp.sup = false → s.quiet → s.lone →
    (s.me.trigd = true → ∃ t, exec (.trig z) s = .next t ∧ s.keepsRegs t ∧ s.endsAs t s.after ∧ t.mem = s.mem ∧ t.me.trig = s.me.trig)
    ∧ (s.me.trigd = false → ∃ t, exec (.trig z) s = .next t ∧ s.keepsRegs t ∧ s.endsAs t s.after ∧ t.me.trig = s.me.trig ||| s.mask
      ∧ (s.me.on = true → (∀ l < 32, (s.me.ln l).life ≠ .exited → bit (s.me.trig ||| s.mask) l = true) → s.active ≠ [] →
        (∀ l ∈ s.active, (s.me.ln l).life ≠ .exited) → t.me.trigd = true))
    ∧ (∀ p, s.me.rs a = .bad p → ∀ i, (i = .tready y a z ∨ i = .twait y a z) →
      ∃ t, exec i s = .next t ∧ s.keepsRegs t ∧ s.marks t ∧ s.endsAs t s.after)
    ∧ (∀ v, s.me.rs a = .ok v → (s.desc s.cur.act).tcnt ≤ v.toNat % 2 ^ 32 → ∀ i, (i = .tready y a z ∨ i = .twait y a z) →
      ∃ t, exec i s = .next t ∧ t.mem = s.mem ∧ s.keepsRegs t ∧ s.marks t ∧ s.endsAs t s.after)
    ∧ (∀ v, s.me.rs a = .ok v → v.toNat % 2 ^ 32 < (s.desc s.cur.act).tcnt →
      (∃ t, exec (.tready y a z) s = .next t ∧ s.keepsRegs t ∧ s.endsAs t s.after
        ∧ (s.mem.lines1 core = [] → (s.desc s.cur.act).tflag % 4 = 0 →
          let r := s.mem.updG (s.who s.cur.act) s.me.asid ((s.desc s.cur.act).tflag + 4 * (v.toNat % 2 ^ 32)) 4 (fun x => (x + 1) % 2 ^ 32)
          ∀ x, r.2 = .ok x → t.mem = { r.1 with shc := false } ∧ ∀ d < 4, (t.die d).notes = true))
      ∧ ((s.desc s.cur.act).tflag % 4 = 0 →
        let r := s.mem.readG (s.who s.cur.act) s.me.asid ((s.desc s.cur.act).tflag + 4 * (v.toNat % 2 ^ 32)) 4 0
        ∀ x, r.2 = .ok x → ∃ t, exec (.twait y a z) s = .next t ∧ s.keepsRegs t
          ∧ s.endsAs t (if (s.desc s.cur.act).texp ≤ x then s.after else { s.after with wait := .tile (v.toNat % 2 ^ 32) s.cur.pc })))

/-! ## Memory instructions -/

/-- O36. A global access of a group that finds nothing in its core is in flight after its issue, with one access for each active lane in
ascending order and its first request under way: a read, a store's probe, a bypass store, or the atomics of one line; no register
changes and the split goes on (02 R49, R52, R70, R71, R444; 10 R320 to R322, R324, R327, R328). The model's choice in it: log entry 17. -/
def Obligations.AccessesIssue : Prop :=
  ∀ (i : Instr) (k : ReqKind) (n : Nat) (ad : Ctx → Lane → Except Payload Nat), Instr.reach i = some (k, n, ad) → i.WellFormed →
    ∀ (s : State) (core g e l : Nat) (rest : List Nat) (ea : Nat → Nat), s.cur.act = .split core g e → s.quiet → s.me.memops = [] → s.bare →
      s.active = l :: rest → (∀ j ∈ s.active, ∀ r, ((s.me.ln j).rd r).pl? = none) →
      (∀ j ∈ s.active, ad s.me (s.me.ln j) = .ok (ea j) ∧ ea j % n = 0 ∧ ea j < 2 ^ 55) →
      ∃ t o r, exec i s = .next t ∧ s.keepsRegs t ∧ s.endsAs t s.after
        ∧ t.opOf s.cur.act = some o ∧ o.ins = i ∧ o.pc = s.cur.pc ∧ o.mask = s.mask
        ∧ o.todo.map (fun x => (x.lane, x.addr, x.size)) = s.active.map (fun j => (j, ea j, n))
        ∧ o.req = some r ∧ r.kind = k ∧ r.addr = ea l ∧ r.st = .sent
        ∧ (k = .bypass ∨ k = .atomic → r.accs = o.todo.filter (fun x => x.addr / 128 == ea l / 128))

/-- O37. A load of one lane that its core's L1 can serve gives the bytes at its address, sign-extended or zero-extended, to its registers;
a misaligned one gives MISALIGN, one beyond 55 bits BOUNDS, one with a poisoned address its payload, without touching memory (02
R52; 10 R320 to R322; 09 R283). -/
def Obligations.LoadResults : Prop :=
  ∀ (i : Instr) (d n sgn la : Nat) (ad : Ctx → Lane → Except Payload Nat), Instr.load i = some (d, n, sgn, la, ad) → i.WellFormed →
    d + wordsOf n ≤ 128 →
    ∀ (s : State) (core g e l : Nat), s.cur.act = .split core g e → s.quiet → s.me.memops = [] → s.active = [l] → s.lone →
      (s.core core).quar = [] → (s.me.ln l).life = .live →
      (∀ ea y, ad s.me (s.me.ln l) = .ok ea → ea % n = 0 → ea < 2 ^ 55 → s.mem.look1 core s.me.asid (ea / 128) = (s.mem, some y) →
        y.has (ea % 128) n = true → y.bad (ea % 128) n = false →
        ∃ t, exec i s = .next t ∧ t.me.memops = [] ∧ s.endsAs t s.after
          ∧ s.loadsTo t l d (wordsOf n) la (fun k => .ok (loadWord sgn (bytesOf y.data (ea % 128) n) k)))
      ∧ (∀ ea, ad s.me (s.me.ln l) = .ok ea → (ea % n ≠ 0 ∨ 2 ^ 55 ≤ ea) →
        ∃ t p, exec i s = .next t ∧ t.me.memops = [] ∧ t.mem = s.mem ∧ s.endsAs t s.after
          ∧ plCause p = (if ea % n ≠ 0 then cMisalign else cBounds) ∧ s.loadsTo t l d (wordsOf n) la (fun _ => .bad p))
      ∧ (∀ p, ad s.me (s.me.ln l) = .error p →
        ∃ t, exec i s = .next t ∧ t.me.memops = [] ∧ t.mem = s.mem ∧ s.endsAs t s.after ∧ s.loadsTo t l d (wordsOf n) la (fun _ => .bad p))

/-- O38. LDF names its page by s[N] without its low 16 bits and first probes its translation; each lane keeps its element number (10 R323;
log entry 17). The model's choice in it: log entry 17. -/
def Obligations.FormatLoadIssues : Prop :=
  ∀ (s : State) (core g e l : Nat) (rest : List Nat) (hint d x base la : Nat) (b : W64), s.cur.act = .split core g e → s.quiet → s.me.memops = [] →
    s.active = l :: rest → s.me.rs base = .ok b → b.toNat < 2 ^ 55 → (∀ j ∈ s.active, ((s.me.ln j).rd x).pl? = none) →
    ∃ t o r, exec (.ldf hint d x base la) s = .next t ∧ s.keepsRegs t ∧ s.endsAs t s.after
      ∧ t.opOf s.cur.act = some o ∧ o.ins = .ldf hint d x base la ∧ o.page = b.toNat / 65536 * 65536
      ∧ o.idx = s.active.map (fun j => (j, (((s.me.ln j).rd x).getD 0).toNat))
      ∧ o.req = some r ∧ r.kind = .probe ∧ r.addr = b.toNat / 65536 * 65536 ∧ r.st = .sent

/-- O39. A local access of one lane to its own scratchpad, its A-buffer or its C-buffer happens at issue: a load gives the bytes of the frame;
a store writes its bytes and no other byte on chip; a wrong address gives MISALIGN or BOUNDS; a pack access is under way to its
member (01 R34, R37; 10 R325, R326; 03 R102). -/
def Obligations.LocalAccesses : Prop :=
  ∀ (i : Instr) (load : Bool) (sc d n a imm : Nat), Instr.localForm i = some (load, sc, d, n, a, imm) → i.WellFormed → d + wordsOf n ≤ 128 →
    ∀ (s : State) (core g e l : Nat) (w : W32), s.cur.act = .split core g e → s.quiet → s.me.memops = [] → s.active = [l] → s.lone → s.bare →
      (s.me.ln l).rd a = .ok w → (∀ k < wordsOf n, ((s.me.ln l).rd (d + k)).pl? = none) →
      let la := (w + (BitVec.ofNat 9 imm).signExtend 32).toNat
      (sc = 1 → ∃ t o, exec i s = .next t ∧ s.endsAs t s.after ∧ t.opOf s.cur.act = some o ∧ o.ins = i ∧ o.remote = true ∧ o.req = none
        ∧ o.todo.map (fun x => (x.lane, x.addr, x.size)) = [(l, la, n)])
      ∧ (sc ≠ 1 → ∀ p, s.laddr s.cur.act sc la n = .ok p → (s.mem.osecAt p.core (ocKey p.sp p.byte / 32)).tag = s.owner s.cur.act →
        (s.mem.osecAt p.core (ocKey p.sp p.byte / 32)).ecc = none →
        (load = true → (s.mem.osecAt p.core (ocKey p.sp p.byte / 32)).bad p.sp (ocKey p.sp p.byte) n = false →
          ∃ t, exec i s = .next t ∧ t.me.memops = [] ∧ s.endsAs t s.after ∧ t.mem = s.mem
            ∧ s.loadsTo t l d (wordsOf n) 0 (fun k => .ok (loadWord 0 (bytesOf (Tbl.get [] s.mem.oc p.core) (ocKey p.sp p.byte) n) k)))
        ∧ (load = false →
          ∃ t, exec i s = .next t ∧ t.me.memops = [] ∧ s.endsAs t s.after ∧ s.keepsRegs t
            ∧ ∀ b, Tbl.get 0 (Tbl.get [] t.mem.oc p.core) b =
              if ocKey p.sp p.byte ≤ b ∧ b < ocKey p.sp p.byte + n
              then BitVec.ofNat 8 ((s.me.ln l).bytes d n / 2 ^ (8 * (b - ocKey p.sp p.byte))) else Tbl.get 0 (Tbl.get [] s.mem.oc p.core) b))
      ∧ (sc ≠ 1 → ∀ f, s.laddr s.cur.act sc la n = .error f →
        (load = true → ∃ t q, exec i s = .next t ∧ t.mem = s.mem ∧ plCause q = f.cause ∧ (f.cause = cMisalign ∨ f.cause = cBounds)
          ∧ s.endsAs t s.after ∧ s.loadsTo t l d (wordsOf n) 0 (fun _ => .bad q))
        ∧ (load = false → ∃ t, exec i s = .next t ∧ t.mem = s.mem ∧ s.keepsRegs t ∧ s.marks t ∧ s.endsAs t s.after))

/-- O40. A scalar access of a group is one access in flight: a read, a probe or an atomic at s[base] plus the offset times 8; a local one
happens at issue. On a control core it happens in one step at its home slice, and local forms give BOUNDS; its result is written after the
lookahead (11 R342, R343; 03 R99; 09 R283).
The model's choice in it: log entry 10. -/
def Obligations.ScalarAccesses : Prop :=
  ∀ (s : State) (hint d base off la : Nat) (b : W64), s.quiet → s.me.memops = [] → s.me.rs base = .ok b → d < 64 → hint < 4 →
    let ea := (b + (BitVec.ofNat 7 off).signExtend 64 * 8).toNat
    (∀ core g e, s.cur.act = .split core g e → s.bare → s.lone → (s.me.rs d).pl? = none → (s.me.rs (d - d % 2 + 1)).pl? = none → (s.me.rs (d - d % 2)).pl? = none →
      ea % 8 = 0 → ea < 2 ^ 55 → s.active ≠ [] →
      ∀ i k n, (i, k, n) ∈ [(Instr.sldW hint d base off la, ReqKind.read, 4), (.sldD hint d base off la, .read, 8),
          (.sstW hint d base off la, if hint = 3 then .bypass else .probe, 4), (.sstD hint d base off la, if hint = 3 then .bypass else .probe, 8),
          (.satomAdd64 hint d base off la, .atomic, 8), (.scas64 hint d base off la, .atomic, 8)] →
        ∃ t o r, exec i s = .next t ∧ s.keepsRegs t ∧ s.endsAs t s.after ∧ t.opOf s.cur.act = some o ∧ o.ins = i
          ∧ o.todo.map (fun x => (x.lane, x.addr, x.size)) = [(32, ea, n)] ∧ o.req = some r ∧ r.kind = k ∧ r.addr = ea ∧ r.st = .sent)
    ∧ (∀ core g e, s.cur.act = .split core g e → s.bare → s.lone → s.active ≠ [] → hint ≠ 1 → d ≠ 0 →
      ∀ p, s.laddr s.cur.act hint (ea % 2 ^ 32) 8 = .ok p → (s.mem.osecAt p.core (ocKey p.sp p.byte / 32)).tag = s.owner s.cur.act →
        (s.mem.osecAt p.core (ocKey p.sp p.byte / 32)).ecc = none →
        ((s.mem.osecAt p.core (ocKey p.sp p.byte / 32)).bad p.sp (ocKey p.sp p.byte) 8 = false → la = 0 →
          ∃ t, exec (.sldl hint d base off la) s = .next t ∧ s.endsAs t s.after ∧ t.mem = s.mem
            ∧ t.me.rs d = .ok (BitVec.ofNat 64 (bytesOf (Tbl.get [] s.mem.oc p.core) (ocKey p.sp p.byte) 8)))
        ∧ (∀ v, s.me.rs d = .ok v →
          ∃ t, exec (.sstl hint d base off la) s = .next t ∧ s.endsAs t s.after ∧ s.keepsRegs t
            ∧ ∀ x, Tbl.get 0 (Tbl.get [] t.mem.oc p.core) x =
              if ocKey p.sp p.byte ≤ x ∧ x < ocKey p.sp p.byte + 8 then BitVec.ofNat 8 (v.toNat / 2 ^ (8 * (x - ocKey p.sp p.byte)))
              else Tbl.get 0 (Tbl.get [] s.mem.oc p.core) x))
    ∧ (∀ die th, s.cur.act = .ctl die th → d ≠ 0 →
      (∀ i n, (i, n) ∈ [(Instr.sldW hint d base off la, 4), (.sldD hint d base off la, 8)] → ea % n = 0 → ea < 2 ^ 55 →
        let r := s.mem.readG (s.who s.cur.act) s.me.asid ea n hint
        ∀ x, r.2 = .ok x → ∃ t, exec i s = .next t ∧ t.mem = { r.1 with shc := false } ∧ s.endsAs t s.after
          ∧ t.me.rs d = (if la = 0 then .ok (BitVec.ofNat 64 x) else s.me.rs d)
          ∧ (la ≠ 0 → ∃ h, t.me.pend.map Prod.snd = [h] ∧ h.regs = [d] ∧ h.uni = true ∧ h.win = [(32, la)] ∧ h.val = some [(32, [.ok (BitVec.ofNat 64 x)])]))
      ∧ (∀ i n v, (i, n) ∈ [(Instr.sstW hint d base off la, 4), (.sstD hint d base off la, 8)] → ea % n = 0 → ea < 2 ^ 55 → s.me.rs d = .ok v →
        let r := s.mem.writeG (s.who s.cur.act) s.me.asid ea n (v.toNat % 2 ^ (8 * n)) 0 hint
        r.2 = none → ∃ t, exec i s = .next t ∧ t.mem = { r.1 with shc := false } ∧ t.me.s = s.me.s ∧ s.endsAs t s.after)
      ∧ (∃ t q, exec (.sldl hint d base off la) s = .next t ∧ t.mem = { s.mem with shc := false } ∧ t.me.rs d = (if la = 0 then .bad q else s.me.rs d)
        ∧ plCause q = (if ea % 2 ^ 32 % 8 ≠ 0 then cMisalign else cBounds) ∧ s.endsAs t s.after)
      ∧ (∀ v, s.me.rs d = .ok v → ∃ t q, exec (.sstl hint d base off la) s = .next t ∧ t.mem = { s.mem with shc := false } ∧ t.me.rs 61 = .bad q
        ∧ plCause q = (if ea % 2 ^ 32 % 8 ≠ 0 then cMisalign else cBounds) ∧ s.endsAs t s.after))

/-! ## Matrix and engines -/

/-- O41. An integer pass without saturation adds the exact sum of all its products to C modulo 2^32, whatever the number of its k-blocks
(12 R365; 08 R268). -/
def Obligations.IntegerPass : Prop :=
  ∀ (p : Pass) (c : Nat) (xs : List (List Nat × Nat × List Nat × Nat)), intArr (pwAf p.word) = true → p.sat = false → c < 2 ^ 32 →
    BitVec.ofNat 32 (cellOf p c (xs.map (fun k => (k.1, k.2.1))) (xs.map (fun k => k.2.2)))
      = BitVec.ofInt 32 ((c : Int) + (xs.map (fun k =>
          (((k.1.map (intVal (pwAf p.word))).zip (k.2.2.1.map (intVal (pwBf p.word)))).map (fun e => e.1 * e.2)).sum)).sum)

/-- O42. MMA.Q of a group whose operands give no fault puts its passes at the end of the core's queue and spends its grant; each row belongs
to an active lane and its pass word is that of its quarter's lowest active lane; the block form of a sequencer issues one pass of 32
rows; MMA.PK issues its pass when its group is the first to reach that execution and else nothing; MZERO issues the elements it clears, and
nothing for a count of 0 (12 R365, R368, R370 to R373; 07 R230). The model's choices in it: log entries 22 and 24. -/
def Obligations.MatrixIssue : Prop :=
  ∀ (s : State) (a b view se acc sat sp y z la : Nat), s.quiet →
    (∀ core g k, s.cur.act = .split core g k →
      (let f := s.formQ s.cur.act s.mask a view sp se (acc != 0) (sat != 0);
        (∀ p ∈ f.passes, ∀ r ∈ p.rows, r.lane ∈ s.active ∧ ∃ j ∈ s.active, j / 8 = r.lane / 8
          ∧ (∀ i ∈ s.active, i / 8 = j / 8 → j ≤ i) ∧ ((s.me.ln j).rd (a - a % 4 + 2)) = .ok (BitVec.ofNat 32 p.word))
        ∧ (f.faults = [] → f.marks = [] → ∃ t, exec (.mmaQ a view se acc sat sp z la) s = .next t ∧ s.keepsRegs t ∧ s.endsAs t s.after
          ∧ t.me.tok = .none ∧ (f.passes = [] → (t.core core).mq = (s.core core).mq)
          ∧ (f.passes ≠ [] → ∃ o, (t.core core).mq = (s.core core).mq ++ [o] ∧ o.act = s.cur.act ∧ o.mask = s.mask ∧ o.passes = f.passes)))
      ∧ (let n := Tbl.get 0 s.me.counts 3 + 1
        let w := s.wgOf s.cur.act;
        (n ≤ w.pkN → w.pk = [] → ∃ t, exec (.mmaPk y a view se acc sat sp z la) s = .next t ∧ s.keepsRegs t ∧ s.endsAs t s.after
          ∧ Tbl.get 0 t.me.counts 3 = n ∧ (t.core core).mq = (s.core core).mq)
        ∧ (w.pkN < n → w.pk = [] → s.lone → s.sp.pc = s.cur.pc → s.sp.wait = .none → ∀ p,
          (s.formPk s.cur.act (a - a % 4) view sp se (acc != 0) (sat != 0)).2.2 = .ok p →
          ∃ t o, exec (.mmaPk y a view se acc sat sp z la) s = .next t ∧ s.keepsRegs t ∧ s.endsAs t s.after ∧ Tbl.get 0 t.me.counts 3 = n
            ∧ (t.core core).mq = (s.core core).mq ++ [o] ∧ o.whole = true ∧ o.passes = [p] ∧ p.rows.length = 32))
      ∧ (∀ u v, s.me.rs a = .ok u → s.me.rs b = .ok v →
        (v = 0 → ∃ t, exec (.mzero y a b z la) s = .next t ∧ s.keepsRegs t ∧ s.endsAs t s.after ∧ (t.core core).mq = (s.core core).mq)
        ∧ (v ≠ 0 → ∀ q, u.toNat % 4 = 0 → s.localRun s.cur.act 3 (u.toNat % 2 ^ 32) 4 (4 * v.toNat) = .ok q →
          ∃ t o p, exec (.mzero y a b z la) s = .next t ∧ s.keepsRegs t ∧ s.endsAs t s.after ∧ (t.core core).mq = (s.core core).mq ++ [o]
            ∧ o.passes = [p] ∧ p.zero = some v.toNat ∧ p.tokens = 1 ∧ p.rows.map MRow.c = [q])))
    ∧ (∀ core, s.cur.act = .mseq core → a - a % 4 < 16 → ∀ p,
      (s.formBlock s.cur.act none (a - a % 4) view sp se (acc != 0) (sat != 0)).2.2 = .ok p →
      ∃ t o, exec (.mmaQ a view se acc sat sp z la) s = .next t ∧ t.me.s = s.me.s ∧ s.endsAs t s.after
        ∧ (t.core core).mq = (s.core core).mq ++ [o] ∧ o.whole = true ∧ o.passes = [p] ∧ p.rows.length = 32)

/-- O43. A pass completes: its tokens return to the die and the queue moves on; the C elements of an MZERO of a workgroup that has not exited are
then 0 and no other byte of the core's spaces has changed; with nothing queued nothing happens (12 R370, R373; 07 R230, R231). A grant takes the tokens of the head request
when the pool covers it, and else nothing happens. -/
def Obligations.MatrixCompletes : Prop :=
  (∀ (s : State) (core : Nat) (o : MatOp) (p : Pass) (ps : List Pass) (r : List MatOp), (s.core core).mq = o :: r → o.passes = p :: ps →
    ∃ t, exec (.matrixPassComplete core) s = .next t ∧ (t.die (core / 64)).used = (s.die (core / 64)).used - p.tokens
      ∧ (t.core core).mq = (if ps = [] then r else { o with passes := ps } :: r)
      ∧ (∀ n x, p.zero = some n → p.rows = [x] → (Tbl.get ({} : Wg) (s.core core).wgs o.wslot).done = false → x.c.byte % 4 = 0 → (s.mem.osecAt x.c.core ((ocKey 2 x.c.byte) / 32)).tag = o.owner →
        (∀ k < n, (s.mem.osecAt x.c.core (ocKey 2 (x.c.byte + 4 * k) / 32)).tag = o.owner) →
        ∀ b, Tbl.get 0 (Tbl.get [] t.mem.oc x.c.core) b
          = if ocKey 2 x.c.byte ≤ b ∧ b < ocKey 2 x.c.byte + 4 * n then 0 else Tbl.get 0 (Tbl.get [] s.mem.oc x.c.core) b))
  ∧ (∀ (s : State) (core : Nat), (s.core core).mq = [] → exec (.matrixPassComplete core) s = .next s)
  ∧ (∀ (s : State) (die : Nat) (a : Actor) (n : Nat) (r : List (Actor × Nat)), (s.die die).ptq = (a, n) :: r → (s.wgOf a).pk = [] →
    ((s.die die).used + n ≤ max 64 (s.die die).pool → (s.ctx a).tok = .asked →
      ∃ t, exec (.powerTokenGrant die) s = .next t ∧ (t.die die).used = (s.die die).used + n ∧ (t.die die).ptq = r ∧ (t.ctx a).tok = .granted)
    ∧ (max 64 (s.die die).pool < (s.die die).used + n → exec (.powerTokenGrant die) s = .next s))

/-- O44. A copy, peer copy or dispatch with a clean operand arrives at its group's next episode of that kind: it opens an operation of the
workgroup, or joins one that is open; its status register is written later (12 R377, R384, R385; 07 R240). CSTL holds its split until
its castling cycle, in which FRONT and SHADOW of each named enabled shadowed view exchange and FLIP toggles (12 R390; 03 R104). -/
def Obligations.EnginesIssue : Prop :=
  (∀ (i : Instr) (kind d la : Nat) (rs : List Nat), Instr.collective i = some (kind, d, la, rs) → i.WellFormed →
    ∀ (s : State) (core g k : Nat), s.cur.act = .split core g k → s.quiet → (∀ r ∈ rs, (s.me.rs r).pl? = none) →
      let n := Tbl.get 0 s.me.counts kind + 1
      let open? (o : CopyOp) : Bool := !o.seqr && o.kind == kind && o.epi == n
      ∃ t v, exec i s = .next t ∧ t.me.s = s.me.s ∧ s.endsAs t s.after ∧ Tbl.get 0 t.me.counts kind = n
        ∧ v.act = s.cur.act ∧ v.a = s.me.rs (rs.headD 0) ∧ v.mask = s.mask
        ∧ (s.opsOf.any open? = false → ∃ o, t.opsOf = s.opsOf ++ [o] ∧ o.ins = i ∧ o.kind = kind ∧ o.epi = n ∧ o.arr = [v] ∧ o.seqr = false)
        ∧ (s.opsOf.any open? = true → t.opsOf = s.opsOf.map (fun o => if open? o then { o with arr := o.arr ++ [v] } else o)))
  ∧ (∀ (s : State) (y mask sp z : Nat), s.quiet → s.allows { ctl := false, thread := false } [] = true →
    s.becomesW (.cstl y mask sp z) (ignored (y != 0 || z != 0)) id { s.after with blk := some (.cstl sp mask) })
  ∧ (∀ (s : State) (core g k sp mask : Nat), (s.ctx (.split core g k)).on = true →
    s.waitsAt (.split core g k) (.cstl sp mask) → (s.wgOf (.split core g k)).ops = [] →
    ∃ t, exec (.castling (.split core g k)) s = .next t ∧ ((t.ctx (.split core g k)).split k).blk = none
      ∧ ∀ i < 16, ∀ v, Tbl.get ({} : View) (s.wgOf (.split core g k)).views (sp * 16 + i) = v →
        Tbl.get ({} : View) (t.wgOf (.split core g k)).views (sp * 16 + i)
          = if bit mask i && v.en && v.shd then { v with front := v.shadow, shadow := v.front, flip := !v.flip } else v)

/-- O45. An operation waits until every group of its workgroup has arrived; then a copy and a peer copy move their elements and write their
count, or the poison of their fault; a dispatch makes its checks, sends its tokens one by one, a refused one once more at its second choice,
and writes its counts; OPEN and CLOSE enter and remove a receive buffer (12 R377, R379, R383 to R388). The status of an operation of an engine
program goes to the copy sequencer (12 R375). The model's choice in it: log entry 10. -/
def Obligations.EnginesComplete : Prop :=
  ∀ (s : State) (core wg n : Nat) (o : CopyOp),
    (s.opAt core wg n = some o → s.opWhole core wg o = false →
      exec (.copyComplete core wg n) s = .next s ∧ (∀ f, exec (.cpyrAck core wg n f) s = .next s) ∧ exec (.dispatchDone core wg n) s = .next s
        ∧ ∀ f, exec (.dispatchDeliver core wg n f) s = .next s)
    ∧ (∀ v u d, s.wholeOp core wg n o v u → s.awaits (o.dest core v) v.hid d → let e := s.opEng v;
      (o.kind = 0 → let r := s.copyOf v;
        ∃ t, exec (.copyComplete core wg n) s = .next t ∧ s.opFreed t core wg n ∧ t.mem = { r.1.mem with shc := false }
          ∧ t.statusIs (o.dest core v) d (r.2.map (fun k => statusWord 0 k 0 0)))
      ∧ (o.kind = 1 → ∀ fault, let r := s.peerCopy v (fun fab => if fault = 0 then none else some (remoteFlt false fab s.uaPort));
        ∃ t, exec (.cpyrAck core wg n fault) s = .next t ∧ s.opFreed t core wg n ∧ t.mem = { r.1.mem with shc := false }
          ∧ t.statusIs (o.dest core v) d r.2)
      ∧ (∀ y f a z m la, o.kind = 2 → o.ins = .dispSend y f a z m la →
        (m ≠ 0 → ∃ t, exec (.dispatchDone core wg n) s = .next t ∧ s.opFreed t core wg n ∧ t.statusIs (o.dest core v) d (.error { flt := engFlt 3 0 }))
        ∧ (m = 0 → ∀ q, (s.dispStart v o).2.disp = some q →
          (∀ x, q.stop = some x → ∃ t, exec (.dispatchDone core wg n) s = .next t ∧ s.opFreed t core wg n ∧ t.statusIs (o.dest core v) d (.error x))
          ∧ (q.stop = none → q.next = none → ∃ t, exec (.dispatchDone core wg n) s = .next t ∧ s.opFreed t core wg n
            ∧ t.statusIs (o.dest core v) d (.ok (statusWord 2 q.first q.second q.drop)))
          ∧ (q.stop = none → q.next ≠ none → ∃ t, exec (.dispatchDone core wg n) s = .next t ∧ t.opAt core wg n = some { o with disp := some q })))
      ∧ (∀ y f a z la q i tok alt tag rest h buf answer, o.ins = .dispSend y f a z 0 la → o.disp = some q → q.stop = none →
        q.sends = (i, tok, alt, tag) :: rest → q.dests[i]? = some (h, buf) → let r := s.payload e q tok;
        (∀ x, r.2 = .error x → ∃ t, exec (.dispatchDeliver core wg n answer) s = .next t
          ∧ t.opAt core wg n = some { o with disp := some { q with sends := rest, stop := some x } })
        ∧ (∀ pay poi fab rasid, r.2 = .ok (pay, poi) → r.1.peerOf e.asid h = .dev fab rasid →
          ∃ t, exec (.dispatchDeliver core wg n answer) s = .next t
            ∧ t.mem.out = r.1.mem.out ++ [{ kind := 256 + fab
                                            addr := rasid * 2 ^ 64 + (2 ^ 72 + buf)
                                            data := slotHdr s.mf.fabn tok tag 0 q.tsz (s.wgOf v.act).w + pay * 2 ^ 256
                                            size := 32 + q.tsz
                                            mask := 2 ^ (32 + q.tsz) - 1
                                            poi := sectorPoison 0 (32 + q.tsz) (poi * 2 ^ 32) }]
            ∧ (answer = 0 → t.opAt core wg n = some { o with disp := some { q with sends := rest, first := q.first + 1 } })
            ∧ (answer = 1 → t.opAt core wg n = some { o with disp := some (if alt = 0xFF then { q with sends := rest, drop := q.drop + 1 }
                else { q with sends := rest, retry := q.retry ++ [(alt, tok, alt, tag)] }) })))
      ∧ (∀ y f a z m la, o.kind = 2 → o.ins = .dispClose y f a z m la → ∃ t, exec (.dispatchDone core wg n) s = .next t ∧ s.opFreed t core wg n
        ∧ (∀ b, Tbl.find s.bufs (u.toNat % 256) = some b → b.asid = e.asid → Tbl.find t.bufs (u.toNat % 256) = none
          ∧ t.statusIs (o.dest core v) d (.ok (statusWord 3 b.claim 0 0)))
        ∧ ((∀ b, Tbl.find s.bufs (u.toNat % 256) = some b → b.asid ≠ e.asid) → t.bufs = s.bufs
          ∧ t.statusIs (o.dest core v) d (.error { flt := engFlt 3 0 })))
      ∧ (∀ y f a z m la, o.kind = 2 → o.ins = .dispOpen y f a z m la → ∃ t, exec (.dispatchDone core wg n) s = .next t ∧ s.opFreed t core wg n
        ∧ (∀ x, (s.localDesc e v.la 32).2 = .error x → t.bufs = s.bufs ∧ t.statusIs (o.dest core v) d (.error x))
        ∧ (∀ x, (s.localDesc e v.la 32).2 = .ok x → fld x 0 72 = 0 → Tbl.find s.bufs (fld x 72 8) = none →
          Tbl.find t.bufs (fld x 72 8) = some { asid := e.asid, base := fld x 192 64, donea := fld x 128 64, cap := fld x 96 32, slot := fld x 80 16 }
          ∧ t.statusIs (o.dest core v) d (.ok (statusWord 3 0 0 0)))
        ∧ (∀ x, (s.localDesc e v.la 32).2 = .ok x → (fld x 0 72 ≠ 0 ∨ Tbl.find s.bufs (fld x 72 8) ≠ none) → t.bufs = s.bufs
          ∧ t.statusIs (o.dest core v) d (.error { flt := engFlt 3 0 }))))

/-- O46. FORK starts the sequencers whose PC is not 0 with e1 to e15 of the group's registers and does nothing while a program runs; RDV gives
the marks when nothing is outstanding and else at RDV_COMPLETE; XCH of a group with itself gives it its own values, and waits for a
partner that has not issued; XCH_TIMEOUT poisons the lanes of the oldest (12 R374, R376, R391, R393; 07 R228).
The model's choice in it: log entry 24. -/
def Obligations.ProgramsAndExchanges : Prop :=
  (∀ (s : State) (core g k y a b z : Nat), s.cur.act = .split core g k → s.quiet →
    (s.seqIdle core = false → exec (.fork y a b z) s = .next s)
    ∧ (s.seqIdle core = true → ∀ u v, s.me.rs a = .ok u → s.me.rs b = .ok v →
      ∃ t, exec (.fork y a b z) s = .next t ∧ s.keepsRegs t ∧ s.endsAs t s.after
        ∧ (∀ e pc, ((e, pc) = (Actor.mseq core, u) ∨ (e, pc) = (Actor.cseq core, v)) →
          (pc = 0 → t.ctx e = s.ctx e)
          ∧ (pc ≠ 0 → (t.ctx e).on = true ∧ ((t.ctx e).split 0).pc = pc &&& ~~~1 ∧ (t.ctx e).rs 0 = .ok 0 ∧ (∀ r < 15, (t.ctx e).rs (r + 1) = s.me.rs (r + 1))
            ∧ (∀ r < 8, r ≠ 0 → (t.ctx e).rq r = .ok false) ∧ ((t.ctx e).split 0).lc = 0 ∧ (t.ctx e).asid = s.me.asid))
        ∧ (t.wgOf s.cur.act).forker = g ∧ (t.wgOf s.cur.act).fmask = s.mask))
  ∧ (∀ (s : State) (core g k y d z : Nat), s.cur.act = .split core g k → s.quiet → 0 < d → d < 64 → s.seqBusy core s.me.wslot = false →
    (s.wgOf s.cur.act).rdv = [] →
    ∃ t, exec (.rdv y d z 0) s = .next t ∧ s.endsAs t s.after
      ∧ t.me.rs d = .ok (BitVec.ofNat 64 ((if (s.wgOf s.cur.act).mmark then 1 else 0) + (if (s.wgOf s.cur.act).cmark then 2 else 0)))
      ∧ (t.wgOf s.cur.act).mmark = false ∧ (t.wgOf s.cur.act).cmark = false)
  ∧ (∀ (s : State) (core wg g hid d : Nat), (Tbl.get ({} : Wg) (s.core core).wgs wg).rdv = [(g, hid)] → s.awaits (.split core g 0) hid d →
    (s.seqBusy core wg = true → exec (.rdvComplete core wg) s = .next s)
    ∧ (s.seqBusy core wg = false → ∃ t, exec (.rdvComplete core wg) s = .next t
      ∧ (t.ctx (.split core g 0)).rs d = .ok (Tbl.get ({} : Wg) (s.core core).wgs wg).marks
      ∧ (Tbl.get ({} : Wg) (t.core core).wgs wg).rdv = []))
  ∧ (∀ (s : State) (core wg : Nat), (Tbl.get ({} : Wg) (s.core core).wgs wg).rdv = [] → exec (.rdvComplete core wg) s = .next s)
  ∧ (∀ (s : State) (core g k d a b : Nat) (w : W64), s.cur.act = .split core g k → s.quiet → s.me.rs b = .ok w → d < 128 → a < 128 → s.me.xch = [] →
    let p := w.toNat / 2 ^ 32
    let m := w.toNat / 2 ^ 28 % 16
    let gd := w.toNat / 2 ^ 23 % 32
    (s.desc s.cur.act).hasGroup p m gd = true → ∀ gr, s.gridAt (s.wgOf s.cur.act).grid = some gr → Tbl.find gr.lost p = none →
    (s.groupNamed (s.wgOf s.cur.act).grid p m gd = none →
      ∃ t x, exec (.xch d a b 0) s = .next t ∧ s.keepsRegs t ∧ s.endsAs t s.after ∧ t.me.xch = [x] ∧ x.pack = p ∧ x.member = m ∧ x.gid = gd
        ∧ x.mask = s.mask ∧ x.vals = s.active.map (fun l => (l, (s.me.ln l).rd a)))
    ∧ (s.groupNamed (s.wgOf s.cur.act).grid p m gd = some (core, g) → s.me.gid = gd → (s.wgOf s.cur.act).w / 2 ^ (s.desc s.cur.act).nlog = p →
      (s.wgOf s.cur.act).w % 2 ^ (s.desc s.cur.act).nlog = m →
      ∃ t, exec (.xch d a b 0) s = .next t ∧ s.endsAs t s.after ∧ t.me.xch = []
        ∧ ∀ l ∈ s.active, (t.me.ln l).rd d = (s.me.ln l).rd a ∧ ∀ r < 128, r ≠ d → (t.me.ln l).rd r = (s.me.ln l).rd r))
  ∧ (∀ (s : State) (core g : Nat), (s.ctx (.split core g 0)).xch = [] → exec (.xchTimeout core g) s = .next s)
  ∧ (∀ (s : State) (core g d : Nat) (x : Xch) (h : Held), (s.ctx (.split core g 0)).xch = [x] → (s.ctx (.split core g 0)).pend = [(x.hid, h)] →
    h.uni = false → h.regs = [d] → d < 128 → h.val = none → h.gone = [] → h.maybe = [] → h.win = (lanesOf x.mask).map (fun l => (l, 0)) → s.xchSaved core g x = false →
    ∃ t, exec (.xchTimeout core g) s = .next t ∧ (t.ctx (.split core g 0)).xch = []
      ∧ ∀ l ∈ lanesOf x.mask, ∃ p, ((t.ctx (.split core g 0)).ln l).rd d = .bad p ∧ plCause p = cRemoteTimeout)

/-! ## Translation, ranges, seals -/

/-- O47. HARV starts the harvest of an ASID and completes at HARVEST_DONE; a descriptor that is not aligned gives MISALIGN, and one that cannot
be read its fault (04 R137; 11 R357). TLBI.GEN raises GEN in the context entry and sends it to the 16 slices and 4 dies; each adopts it and
drops what is older; the last acknowledgement completes it (04 R125). TLBI.PAGE and TLBI.HOLD send the page to the slices that the directory
names, TLBI.HOLD also to those of the domain's MASK; each holds the page's requests from then on, once no broadcast of the ASID is under way
(04 R130), a hold only while fewer than 16 pages are held; with all acknowledgements, and no broadcast of the ASID under way, the form
completes, and what no hold holds proceeds;
TLBI.REL frees a held page (04 R128, R129). HASHSW gives 2 for an empty mask or a domain that is not enabled, 1 while a switch runs, and else
sets SW in every copy and completes with SW clear and the new MASK in every copy, EPOCH one on (02 R66, R67; 11 R362). A control program may
name only its own ASID and domain: PROT. The model's choices in it: log entries 37, 38 and 39. -/
def Obligations.TranslationForms : Prop :=
  (∀ (s : State) (d a b f z clr : Nat) (u v : W64), s.mayRun → s.me.rs a = .ok u → s.me.rs b = .ok v → d < 64 →
    (let asid := v.toNat % 65536;
      let desc := u.toNat % 2 ^ 56;
      (s.mayName asid = false → s.faults (.harv d a b clr z) d cProt)
      ∧ (s.mayName asid = true →
        (u.toNat % 16 ≠ 0 → s.faults (.harv d a b clr z) d cMisalign)
        ∧ (∀ x, u.toNat % 16 = 0 → s.mem.tblEntry (s.mem.harvSlot s.me.asid asid) desc = .error x → s.faults (.harv d a b clr z) d (x.cause % 64))
        ∧ (u.toNat % 16 = 0 → populated desc = true → (s.mem.key (s.mem.harvSlot s.me.asid asid)).revoked = false → s.mem.secFault (desc / 32) = none →
          s.waits (.harv d a b clr z) (.harv d) (s.mem.harvest s.me.asid asid desc (clr != 0)).1 (fun _ => True))))
    ∧ (s.mayName (u.toNat % 65536) = false →
      s.faults (.tlbiGen d a b f z) d cProt ∧ s.faults (.tlbiPage d a b f z) d cProt ∧ s.faults (.tlbiHold d a b f z) d cProt
        ∧ s.faults (.tlbiRel d a b f z) d cProt)
    ∧ (s.mayName (u.toNat % 65536) = true → let asid := u.toNat % 65536;
      let at' := s.mem.ctxb * 65536 + asid * 32 + 8;
      let w := s.mem.num 0 at' 8;
      let g := (w / 2 ^ 56 % 256 + 1) % 256;
      (∀ x, s.mem.ctxWord asid 1 = .error x → s.faults (.tlbiGen d a b f z) d (x.cause % 64))
      ∧ (populated at' = true → s.mem.secFault (at' / 32) = none →
        let m := s.mem.putNum 0 at' 8 (w % 2 ^ 56 + g * 2 ^ 56);
        s.waits (.tlbiGen d a b f z) (.tlbi d asid true g) (if g = 0 then m.wrapGen asid else m)
          (fun t => t.bcasts = s.bcasts ++ [⟨asid, g, List.range 20⟩]))
      ∧ (v.toNat < 2 ^ 55 → (∀ i ∈ s.invals, ¬ (i.asid = asid ∧ i.page = (s.mem.dirPage asid v.toNat).1)) →
        ∀ hold i, (i = .tlbiPage d a b f z ∧ hold = false ∨ i = .tlbiHold d a b f z ∧ hold = true) →
        s.waits i (.tlbi d asid false (s.mem.dirPage asid v.toNat).1) s.mem (fun t => ∃ x, t.invals = s.invals ++ [x] ∧ x.asid = asid
          ∧ x.page = (s.mem.dirPage asid v.toNat).1 ∧ x.hold = hold ∧ (∀ sl ∈ s.mem.dirNames asid x.page, sl ∈ x.left)
          ∧ (hold = true → ∀ sl < 16, (Tbl.get (0 : W32) (s.mem.slice sl).slhm (s.mem.dom asid)).getLsbD sl = true → sl ∈ x.left)))
      ∧ (2 ^ 55 ≤ v.toNat → s.faults (.tlbiPage d a b f z) d cBounds ∧ s.faults (.tlbiHold d a b f z) d cBounds)
      ∧ (∃ m, s.answers (.tlbiRel d a b f z) d (.ok 0) m
        ∧ ∀ sl < 16, ∀ h ∈ (m.slice sl).held, h.sticky = true → h.asid = asid → v.toNat < h.page ∨ h.page + 2 ^ h.size ≤ v.toNat))
    ∧ (let dom := u.toNat % 16;
      let mask := u.toNat / 65536 % 65536;
      let r : W32 := Tbl.get 0 s.mf.slhm dom;
      (s.cur.act.isCtl = true → s.me.fw = false → dom ≠ s.mem.dom s.me.asid → s.faults (.hashsw d a z) d cProt)
      ∧ ((s.cur.act.isCtl = false ∨ s.me.fw = true ∨ dom = s.mem.dom s.me.asid) →
        (mask = 0 ∨ r.getLsbD 31 = false → s.answers (.hashsw d a z) d (.ok 2) s.mem)
        ∧ (mask ≠ 0 → r.getLsbD 31 = true → r.getLsbD 16 = true → s.answers (.hashsw d a z) d (.ok 1) s.mem)
        ∧ (mask ≠ 0 → r.getLsbD 31 = true → r.getLsbD 16 = false →
          ∃ m, s.waits (.hashsw d a z) (.hashsw d dom) m (fun t => t.switches = s.switches ++ [(dom, mask)]
            ∧ (Tbl.get 0 t.mf.slhm dom) = r ||| 0x10000 ∧ (∀ sl < 16, Tbl.get 0 (m.slice sl).slhm dom = Tbl.get 0 (s.mem.slice sl).slhm dom ||| 0x10000)
            ∧ ∀ k < 4, Tbl.get 0 (Tbl.get [] m.dslhm k) dom = Tbl.get 0 (Tbl.get [] s.mem.dslhm k) dom ||| 0x10000)))))
  ∧ (∀ (s : State) (a : Actor) (d asid g page dom mask r sl : Nat),
    (s.waitsAt a (.harv d) → s.event? (.harvestDone a) (fun t => t.completed a d (.ok 0) ∧ t.mem = s.mem))
    ∧ (∀ b, s.bcasts = [b] → b.asid = asid →
      (r ∈ b.left → s.event? (.genBroadcastReceive asid r) (fun t => t.bcasts = [{ b with left := b.left.filter (· != r) }]
        ∧ (r < 16 → (t.mem.slice r).gen asid = b.gen ∧ (∀ l ∈ (t.mem.slice r).lines, l.asid ≠ asid) ∧ ∀ e ∈ (t.mem.slice r).tlb, e.asid ≠ asid)
        ∧ (16 ≤ r → Tbl.get 0 (Tbl.get [] t.mem.dgen (r - 16)) asid = b.gen
          ∧ ∀ l ∈ Tbl.get [] t.mem.dc (r - 16), l.asid = asid → l.gen = b.gen)))
      ∧ (b.left = [] → b.gen = g → s.heldAt a (.tlbi d asid true g) →
        s.event? (.genBroadcastDone asid) (fun t => t.bcasts = [] ∧ t.completed a d (.ok 0) ∧ t.mem = s.mem))
      ∧ (b.left ≠ [] → exec (.genBroadcastDone asid) s = .next s))
    ∧ (sl ∈ s.mem.notices → s.event? (.dropNotice sl) (fun t => (t.mem.slice sl).gendrop = min 0xFFFFFF ((s.mem.slice sl).gendrop + 1)
      ∧ t.mem.notices = s.mem.notices.erase sl))
    ∧ (∀ i, s.invals = [i] → i.asid = asid → i.page = page →
      let full := i.hold = true ∧ 16 ≤ ((s.mem.slice sl).held.filter (fun h => h.sticky && !(h.asid == asid && h.page == page))).length;
      (sl ∈ i.left → (∀ b ∈ s.bcasts, b.asid ≠ asid) → ¬ full →
        s.event? (.pageInvalidateReceive sl asid page) (fun t => t.invals = [{ i with left := i.left.filter (· != sl) }]
          ∧ ∃ h ∈ (t.mem.slice sl).held, h.asid = asid ∧ h.page = page ∧ h.size = i.size ∧ (i.hold = true → h.sticky = true)))
      ∧ (sl ∈ i.left → ((∃ b ∈ s.bcasts, b.asid = asid) ∨ full) → exec (.pageInvalidateReceive sl asid page) s = .next s)
      ∧ (i.left = [] → (∀ b ∈ s.bcasts, b.asid ≠ asid) → s.heldAt a (.tlbi d asid false page) →
        s.event? (.pageInvalidationDone asid page) (fun t => t.invals = [] ∧ t.completed a d (.ok 0)
          ∧ ∀ k < 16, ∀ h ∈ (t.mem.slice k).held, h.asid = asid → h.page = page → h.sticky = true))
      ∧ ((i.left ≠ [] ∨ ∃ b ∈ s.bcasts, b.asid = asid) → exec (.pageInvalidationDone asid page) s = .next s))
    ∧ (s.switches = [(dom, mask)] → mask < 65536 → s.heldAt a (.hashsw d dom) →
      let w : W32 := Tbl.get 0 s.mf.slhm dom;
      let set (x : W32) : Prop := x.toNat % 2 ^ 24 = mask;
      s.event? (.domainSwitchDone dom) (fun t => t.switches = [] ∧ t.completed a d (.ok 0)
        ∧ Tbl.get 0 t.mf.slhm dom = slhmWord (w.getLsbD 31) (w.toNat / 2 ^ 24 % 16 + 1) false mask
        ∧ (∀ k < 16, set (Tbl.get 0 (t.mem.slice k).slhm dom)) ∧ ∀ k < 4, set (Tbl.get 0 (Tbl.get [] t.mem.dslhm k) dom))))

/-- O48. CWB and CINV of no bytes give 0 and do nothing; of a range beyond 55 bits they give BOUNDS; else they act on the issuing core's L1 and, at
slice level, on the slices, and complete later (02 R73; 11 R357). SEAL.CLOSE makes an entry SEALED with the next version and tells the
peers; SEAL.OPEN retires the version and completes when the peers have acknowledged; a wrong state, a full table, an unknown buffer
give 2, 1 and 3; a die drops its lines of a retired version, and acknowledges when its reads of the buffer have completed (03 R115; 11 R358; 13
R412). EVT offers its record to its die (11 R359). FLUSHST of a page that is not in HBM gives PAGE_MISS,
on a port that is not ready 0xFFFF, and else completes with the NVMe status of its command (11 R361).
The model's choices in it: log entries 40 and 41. -/
def Obligations.RangesAndSeals : Prop :=
  (∀ (s : State) (d a b lvl mode op z fua y : Nat) (u v : W64), s.allows Legal.noSeq [] = true → s.quiet → s.me.rs a = .ok u → s.me.rs b = .ok v → d < 64 →
    (∀ i inv disc, (i, inv, disc) ∈ [(Instr.cwb d a b lvl z, false, false), (.cinv d a b lvl mode z, true, mode != 0)] →
      (v = 0 → s.answers i d (.ok 0) s.mem)
      ∧ (v ≠ 0 → (2 ^ 55 ≤ u.toNat ∨ 2 ^ 55 < u.toNat + v.toNat) → s.faults i d cBounds)
      ∧ (v ≠ 0 → u.toNat < 2 ^ 55 → u.toNat + v.toNat ≤ 2 ^ 55 →
        let r := if s.cur.act.isCtl then (s.mem, []) else s.mem.range1 (s.coreOf s.cur.act) s.me.asid u.toNat (u.toNat + v.toNat) inv disc;
        let m := if lvl = 0 then r.1 else r.1.rangeS (s.dieOf s.cur.act) s.me.asid u.toNat (u.toNat + v.toNat) inv disc;
        (r.2 = [] → s.waits i (.range d (.ok 0)) m (fun _ => True))
        ∧ (∀ sl rest, r.2 = sl :: rest → ∃ p, plCause p = cCompressSpill ∧ s.waits i (.range d (.bad p)) m (fun _ => True))))
    ∧ (let base := u.toNat;
      let len := v.toNat % 65536;
      let buf := v.toNat / 65536 % 65536;
      ((base % 65536 ≠ 0 ∨ len = 0) → s.faults (.sealClose d a b op z) d cBounds)
      ∧ (base % 65536 = 0 → len ≠ 0 →
        ((∀ e ∈ s.mem.seals, ¬ (e.asid = s.me.asid ∧ e.buf = buf)) →
          (s.mem.seals.length < 1024 → s.answers (.sealClose d a b op z) d (.ok 65536)
            { s.mem with seals := s.mem.seals ++ [⟨s.me.asid, base, len, buf, 1, true⟩]
                         out := s.mem.out ++ [{ kind := 512, addr := buf, data := 1 }] })
          ∧ (1024 ≤ s.mem.seals.length → s.answers (.sealClose d a b op z) d (.ok 1) s.mem)
          ∧ s.answers (.sealOpen d a b op z) d (.ok 3) s.mem)
        ∧ (∀ e, s.mem.seals.find? (fun e => e.asid == s.me.asid && e.buf == buf) = some e → e.ver < 65536 →
          (e.sealed = false → let ver := (e.ver + 1) % 65536;
            s.answers (.sealClose d a b op z) d (.ok (BitVec.ofNat 64 (ver * 65536)))
              { s.mem with seals := s.mem.seals.map (fun x => if x.asid = s.me.asid ∧ x.buf = buf then ⟨s.me.asid, base, len, buf, ver, true⟩ else x)
                           out := s.mem.out ++ [{ kind := 512, addr := buf, data := ver }] }
            ∧ s.answers (.sealOpen d a b op z) d (.ok (BitVec.ofNat 64 (e.ver * 65536 + 2))) s.mem)
          ∧ (e.sealed = true → s.answers (.sealClose d a b op z) d (.ok (BitVec.ofNat 64 (e.ver * 65536 + 2))) s.mem
            ∧ ∃ i, s.mem.seals[i]? = some e ∧ s.waits (.sealOpen d a b op z) (.sealOpen d i s.cur.pc)
              { s.mem with out := s.mem.out ++ [{ kind := 513, addr := buf, data := e.ver }] } (fun _ => True)))))
    ∧ (∃ t, exec (.evt y a z) s = .next t ∧ s.offers t (s.dieOf s.cur.act) 10 (u.toNat % 256) u.toNat ∧ s.keepsRegs t ∧ s.endsAs t s.after)
    ∧ (s.priv = true →
      (2 ^ 55 ≤ u.toNat → s.faults (.flushst d a b fua z) d cBounds)
      ∧ (u.toNat < 2 ^ 55 →
        (∀ f, s.mem.flushLeaf s.me.asid u.toNat = .error f → s.faults (.flushst d a b fua z) d (f.cause % 64))
        ∧ (∀ l, s.mem.flushLeaf s.me.asid u.toNat = .ok l → let p := v.toNat / 2 ^ 40 % 8;
          let page := u.toNat / 65536 * 65536;
          let m := (s.rangeOp s.me.asid page (page + 65536) true false false).1.mem;
          ((s.port p).ready = false → s.answers (.flushst d a b fua z) d (.ok 0xFFFF) m)
          ∧ ((s.port p).ready = true → s.waits (.flushst d a b fua z) (.flush d p s.me.asid page) m (fun t =>
            let q := s.port p;
            t.port p = ({ q with flushes := q.flushes ++ [⟨s.cur.act, s.me.asid, page, v.toNat % 2 ^ 37, fua != 0, q.cmdsFor s.me.asid page⟩] } : Port).submit))))))
  ∧ (∀ (s : State) (a : Actor) (d i die dev buf ver : Nat) (v : Val W64) (pc : W64) (e : Seal),
    (s.waitsAt a (.range d v) → s.event? (.rangeOperationDone a) (fun t => t.completed a d v ∧ t.mem = s.mem))
    ∧ (s.waitsAt a (.sealOpen d i pc) → s.mem.seals[i]? = some e → e.ver < 65536 →
      s.event? (.sealRetireAck a) (fun t => t.completed a d (.ok (BitVec.ofNat 64 (e.ver * 65536)))
        ∧ t.mem.seals[i]? = some { e with sealed := false }))
    ∧ s.event? (.sealVersionNotice dev buf ver) (fun t => (∀ k < 4, (k, dev, buf, ver) ∈ t.mem.vers)
      ∧ ∀ x ∈ t.mem.vers, x.2.1 = dev → x.2.2.1 = buf → x.2.2.2 = ver)
    ∧ s.event? (.sealRetire die dev buf ver) (fun t => (die, dev, buf, ver) ∉ t.mem.vers
      ∧ (∀ l ∈ Tbl.get [] t.mem.dc die, l.ver ≠ some (dev, buf, ver))
      ∧ (s.mem.retires = [] → if s.readsBuf die dev buf then t.mem.out = s.mem.out ∧ t.mem.retires = [(die, dev, buf, ver)]
        else t.mem.out = s.mem.out ++ [{ kind := 514, addr := dev * 65536 + buf, data := ver }] ∧ t.mem.retires = []))
    ∧ (s.mem.retires = [(die, dev, buf, ver)] → s.readsBuf die dev buf = false →
      s.ackRetires.mem.out = s.mem.out ++ [{ kind := 514, addr := dev * 65536 + buf, data := ver }] ∧ s.ackRetires.mem.retires = []))

/-! ## Control cores, events of the queue, placement -/

/-- O49. On a control core WAITEV takes the oldest record on chip, or waits; a limit that elapses gives 0 (11 R360; 07 R214). LAUNCH of a valid
descriptor puts a grid in flight and gives 0; else it gives the reason and reports LAUNCH_FAILED (07 R219, R220). VACATE.SAVE marks the
packs on the cores it names and takes those cores out of their grids' masks; with none it is done at once; its reserved mode gives 1;
OPEN adds cores to a mask; KILL and OPEN end with VACATE_DONE (07 R236; 11 R360; 09 R296). DICT loads the named cores that have no
resident of another kernel (07 R225). The model's choice in it: log entry 43. -/
def Obligations.ControlCore : Prop :=
  (∀ (s : State) (die th d a b z mode : Nat) (u v : W64), s.cur.act = .ctl die th → th < 8 → s.quiet → s.me.rs a = .ok u → s.me.rs b = .ok v → d < 64 →
    ((s.die die).evOn = [] → s.waits (.waitev d a z) (.waitev (d - d % 2) (s.die die).waitN u.toNat) s.mem (fun _ => True))
    ∧ (∀ r rest, (s.die die).evOn = r :: rest → (s.die die).ringLen = 0 → s.waiter die = none → s.me.on = true → 2 ≤ d → s.lone →
      s.event? (.waitev d a z) (fun t => t.me.rs (d - d % 2) = .ok (r.setWidth 64) ∧ t.me.rs (d - d % 2 + 1) = .ok ((r >>> 64).setWidth 64)
        ∧ (t.die die).evOn = rest ∧ t.me.splits = [(s.cur.act.slot, { s.after with blk := none, also := [] })]))
    ∧ (∀ m r x tc, s.validate (s.who s.cur.act) s.me.asid u.toNat = ({ s with mem := m }, r, x, tc) →
      (r ≠ 0 → s.event? (.launch d a z) (fun t => t.grids = s.grids ∧ ({ s with mem := m } : State).offers t die 2 (r % 256) u.toNat
        ∧ (d ≠ 0 → t.me.rs d = .ok (BitVec.ofNat 64 r)) ∧ s.endsAs t s.after))
      ∧ (r = 0 → s.event? (.launch d a z) (fun t => t.mem = { m with shc := false } ∧ t.me.rs d = .ok 0 ∧ s.endsAs t s.after ∧ t.gridN = s.gridN + 1
        ∧ ∃ g, t.grids = s.grids ++ [g] ∧ g.desc = x ∧ g.tag = x.gtag ∧ g.num = s.gridN ∧ g.home = die ∧ g.queue = s.me.queue ∧ g.packs = []
          ∧ g.retired = 0 ∧ g.started = false ∧ ∀ k ∈ x.dies, Tbl.get 0 g.masks k = 2 ^ 64 - 1)))
    ∧ (u.toNat % 256 ≠ 0 → (s.validate (s.who s.cur.act) s.me.asid u.toNat).2.1 = 1)
    ∧ s.answers (.vacateSave d a b 3 z) d (.ok 1) s.mem
    ∧ (s.vacs = [] → (∀ g ∈ s.grids, g.hitBy die u.toNat = []) →
      s.event? (.vacateSave d a b 0 z) (fun t => s.offers t die 9 0 0 ∧ t.grids = s.grids ∧ t.vacs = [] ∧ t.me.rs d = .ok 0 ∧ s.endsAs t s.after))
    ∧ (∀ g, s.vacs = [] → s.grids = [g] → g.hitBy die u.toNat ≠ [] →
      s.event? (.vacateSave d a b 0 z) (fun t => t.mem = s.mem ∧ t.me.rs d = .ok 0 ∧ s.endsAs t s.after
        ∧ t.vacs = [⟨die, th, s.me.asid, (g.hitBy die u.toNat).map (fun p => (g.key, p.die, p.p)), 0⟩]
        ∧ ∃ g', t.grids = [g'] ∧ Tbl.get 0 g'.masks die = without (Tbl.get 0 g.masks die) u.toNat
          ∧ ∀ p ∈ g'.packs, p.saving = true ∨ p ∈ g.packs ∧ p ∉ g.hitBy die u.toNat))
    ∧ (let tag := v.toNat % 65536;
      (s.gridOn tag die = none →
        (∀ i, (i = .vacateOpen d a b mode z ∨ i = .vacateKill d a b mode z) →
          s.event? i (fun t => s.offers t die 9 0 0 ∧ t.grids = s.grids ∧ t.me.rs d = .ok 0 ∧ s.endsAs t s.after)))
      ∧ (∀ g, s.gridOn tag die = some g → s.grids = [g] →
        s.event? (.vacateOpen d a b mode z) (fun t => s.offers t die 9 0 0 ∧ t.me.rs d = .ok 0 ∧ s.endsAs t s.after
          ∧ ∃ g', t.grids = [g'] ∧ Tbl.get 0 g'.masks die = Tbl.get 0 g.masks die ||| u.toNat)
        ∧ (g.packs = [] → g.desc.memb = 0 → s.residents = [] → s.event? (.vacateKill d a b mode z) (fun t => s.offers t die 9 0 0
          ∧ t.me.rs d = .ok 0 ∧ s.endsAs t s.after ∧ ∃ g', t.grids = [g'] ∧ g'.status = (if g.status = 3 then 3 else 2) ∧ g'.freshOn die = []
            ∧ g'.retired = g.retired + (g.freshOn die).length))))
    ∧ (∀ w, s.me.rs d = .ok w →
      (1024 < w.toNat % 2048 → s.faults (.dict d a b z) d cBounds)
      ∧ (w.toNat % 2048 ≤ 1024 →
        let go := (List.range 64).filter (fun c => bit v.toNat c && (s.tenants (die * 64 + c)).all (fun r => r.2.asid == s.me.asid && r.2.dicta == u.toNat));
        s.event? (.dict d a b z) (fun t => (d ≠ 0 → t.me.rs d = .ok (BitVec.ofNat 64 ((go.map (fun c => 2 ^ c)).sum))) ∧ s.endsAs t s.after
          ∧ (∀ c ∈ go, ∃ x, (t.core (die * 64 + c)).dict = some x ∧ x.asid = s.me.asid ∧ x.dicta = u.toNat ∧ x.dcnt = w.toNat % 2048)
          ∧ ∀ c < 64, c ∉ go → t.core (die * 64 + c) = s.core (die * 64 + c)))))

/-- O50. EVENT_INSERT puts the oldest record offered to a die at the end of its queue, or gives it to the thread that waits; a full queue keeps
held types at their source, for the next room, and counts others as dropped (07 R212 to R214, R216). A free thread takes the next submission entry (07 R211).
PACK_PLACE puts the next fresh pack of a grid on the block that has room (07 R222, R223); PACK_SAVE_COMPLETE takes a drained pack off its
cores (07 R237); QUANTUM_EXPIRY reports a queue once for each start (07 R234); GRID_COMPLETION ends a grid whose packs have all retired
with GRID_DONE (07 R219). TILE_FLAG_NOTIFY takes a notification once (07 R222). The model's choices in it: log entries 36 and 42. -/
def Obligations.QueuesAndPlacement : Prop :=
  ∀ (s : State) (die t0 d o lim q : Nat),
    (∀ r rest, (s.die die).evHeld = [] → s.mem.offer = (die, r) :: rest →
      ((s.die die).evOn.length < 256 → (s.die die).ringLen = 0 → s.waiter die = none →
        s.event? (.eventInsert die) (fun t => (t.die die).evOn = (s.die die).evOn ++ [r] ∧ t.mem.offer = rest
          ∧ (evHost (r.toNat / 2 ^ 120) = true → (s.die die).hnr.getLsbD 63 = false → t.mf.mfes.getLsbD 0 = true)))
      ∧ ((s.die die).evOn = [] → (s.die die).ringLen = 0 → s.waiter die = some (t0, d) → t0 < 8 → d % 64 ≠ 0 → d % 2 = 0 →
        s.event? (.eventInsert die) (fun t => (t.die die).evOn = [] ∧ t.mem.offer = rest ∧ t.blkOf (.ctl die t0) = none
          ∧ (t.ctx (.ctl die t0)).rs d = .ok (r.setWidth 64) ∧ (t.ctx (.ctl die t0)).rs (d + 1) = .ok ((r >>> 64).setWidth 64)))
      ∧ (256 ≤ (s.die die).evOn.length → (s.die die).ringSize ≤ (s.die die).ringLen →
        s.event? (.eventInsert die) (fun t => (t.die die).evOn = (s.die die).evOn ∧ t.mem.offer = rest
          ∧ (evHeldType (r.toNat / 2 ^ 120) = true → (t.die die).evHeld = [r])
          ∧ (evHeldType (r.toNat / 2 ^ 120) = false → (t.die die).evHeld = [] ∧ (t.die die).evDrop = min 0x7FFFFF ((s.die die).evDrop + 1)))))
    ∧ (∀ r rest, (s.die die).evHeld = r :: rest → (s.die die).evOn.length < 256 → (s.die die).ringLen = 0 → s.waiter die = none →
      s.event? (.eventInsert die) (fun t => (t.die die).evOn = (s.die die).evOn ++ [r] ∧ (t.die die).evHeld = rest ∧ t.mem.offer = s.mem.offer))
    ∧ (s.waitsAt (.ctl die t0) (.waitev d o lim) →
      (lim = 0 → exec (.waitevTimeout die t0) s = .next s)
      ∧ (lim ≠ 0 → s.event? (.waitevTimeout die t0) (fun t => t.completed (.ctl die t0) d (.ok 0) ∧ t.completed (.ctl die t0) (d + 1) (.ok 0))))
    ∧ (((s.die die).inRst = true ∨ s.nextQueue die = none) → exec (.submissionTake die) s = .next s)
    ∧ ((s.die die).inRst = false → (∀ k < t0, (s.ctx (.ctl die k)).on = true) → t0 < 8 → (s.ctx (.ctl die t0)).on = false → s.nextQueue die = some q →
      let w := (Tbl.get (0 : BitVec 128) (s.die die).sqd q).toNat;
      let at' := w / 2 ^ 84 * 4096 + 16 * (w / 2 ^ 20 % 2 ^ 20 % 2 ^ (w / 2 ^ 80 % 16 + 4));
      populated at' = true → populated (at' + 8) = true →
      let key := s.mem.oslot (w / 2 ^ 64 % 65536);
      s.event? (.submissionTake die) (fun t => let c := t.ctx (.ctl die t0);
        c.on = true ∧ c.asid = w / 2 ^ 64 % 65536 ∧ c.queue = q ∧ c.fw = false ∧ (c.split 0).pc = BitVec.ofNat 64 (s.mem.num key (at' + 8) 8) &&& ~~~1
          ∧ c.rs 1 = .ok (BitVec.ofNat 64 (s.mem.num key at' 8)) ∧ (t.die die).lastq = q))
    ∧ (s.grids = [] → (s.stopped die = [] → exec (.packPlace die) s = .next s)
      ∧ exec (.gridCompletion die) s = .next s ∧ exec (.packSaveComplete die) s = .next s)
    ∧ (∀ g p b, s.grids = [g] → s.stopped die = [] → (g.packs.map (fun q => (q.p, q.die))).Nodup → (∀ q ∈ g.packs, q.p ≠ p ∧ q.load = none) → (s.die die).inRst = false → bit g.desc.dmask die = true → g.desc.cosched = false → g.firstBack die = none →
      g.packOn die (Tbl.get 0 g.next die) = some p → p ∉ g.ahead → g.desc.depm = 0 → s.block223 g.desc (Tbl.get 0 g.masks die) die = some b →
      s.event? (.packPlace die) (fun t => ∃ g', t.grids = [g'] ∧ Tbl.get 0 g'.next die = Tbl.get 0 g.next die + 1 ∧ g'.started = true
        ∧ ∃ x, g'.packs = g.packs ++ [x] ∧ x.p = p ∧ x.base = some b ∧ x.die = b / 64))
    ∧ (∀ g p b, s.grids = [g] → g.packs = [p] → p.base = some b → b / 64 = die → p.die = die → p.saving = true →
      (s.drained (s.packWgs g.key (p.p * 2 ^ g.desc.nlog) die) = true →
        s.event? (.packSaveComplete die) (fun t => ∀ g' ∈ t.grids, g'.key = g.key → ∀ x ∈ g'.packs, x.p = p.p → x.die = die → x.base = none))
      ∧ (s.drained (s.packWgs g.key (p.p * 2 ^ g.desc.nlog) die) = false → exec (.packSaveComplete die) s = .next s))
    ∧ (Tbl.find (s.die die).quanta q = none → exec (.quantumExpiry die q) s = .next s)
    ∧ (∀ asid, Tbl.find (s.die die).quanta q = some asid → s.event? (.quantumExpiry die q) (fun t => t.grids = s.grids
      ∧ Tbl.find (t.die die).quanta q = none ∧ s.offers t die 8 0 (s.die die).cycles.toNat))
    ∧ (∀ g, s.grids = [g] → g.home = die → g.finished = true →
      s.event? (.gridCompletion die) (fun t => t.grids = [] ∧ s.offers t die 1 (g.status % 256) g.desc.udata))
    ∧ ((s.die die).notes = false → exec (.tileFlagNotify die) s = .next s)
    ∧ ((s.die die).notes = true → s.event? (.tileFlagNotify die) (fun t => (t.die die).notes = false))

/-! ## Events of the memory path -/

/-- O51. The four arrivals. A request whose hash failed is answered with its fault (01 R28); a base die in reset, a slice that is no longer the
line's home, another generation, a held page do not serve it (02 R68; 04 R126, R128); without a translation it joins the walk of its page,
starts one, or waits while 64 run (04 R121); for a page that another core owns it starts the reclaim and waits (02 R60); else the slice
performs it: it is answered, or goes out, and a read's answer waits for its fill (02 R49, R52, R71, R444). A read that hits gets the line's
bytes; an atomic that hits gives the old bytes and writes the new ones (02 R69, R71; 10 R327). A request at a slice that is not its home, or that has
adopted a later generation, bounces and is sent again under the copies of its die once they differ; one of a later generation than the slice's
waits there (02 R68; 04 R126). A walk's fault answers its requests; a walk that succeeds installs its translation and
its requests are performed; one of an older generation or of a held page installs nothing (04 R121, R122, R126). The model's choices in it:
log entries 8, 35 and 63. -/
def Obligations.SliceRequests : Prop :=
  (∀ (s : State) (a : Actor) (ev : Nat) (o : MemOp) (r : Req) (i : Instr) (k : ReqKind),
    (i, k) ∈ [(Instr.sliceReadMiss a ev, .read), (.storeTranslationProbe a ev, .probe), (.bypassStore a ev, .bypass), (.sliceAtomic a ev, .atomic)] →
    s.hasReq a o r → r.kind = k → let asid := (s.ctx a).asid;
    ((∀ sl, r.st = .walking sl → (s.mem.slice sl).parks a = true) → r.st ≠ .sent → exec i s = .next s)
    ∧ (∀ f, r.st = .sent → r.sl = none → s.mem.hash (s.dieOf a) asid r.addr = .error f → exec i s = .next (s.respond a r { fault := some f }))
    ∧ (∀ sl, r.st = .sent → r.sl = some sl → let x := s.mem.slice sl;
      ((x.inRst = true ∨ s.current sl asid r = false ∨ x.holds asid r.addr = true) → exec i s = .next s)
      ∧ (x.inRst = false → s.current sl asid r = true → x.holds asid r.addr = false →
        (x.findEnt asid r.addr = none → let here (w : Walk) : Prop := w.asid = asid ∧ w.page = pageOf r.addr;
          s.event? i (fun t => t.reqAt a (.walking sl)
            ∧ ((∀ w ∈ x.walks, ¬ here w) → x.walks.length < 64 → (t.mem.slice sl).walks = x.walks ++ [⟨asid, x.gen asid, pageOf r.addr, [a]⟩])
            ∧ ((∀ w ∈ x.walks, ¬ here w) → 64 ≤ x.walks.length → (t.mem.slice sl).walks = x.walks ∧ (t.mem.slice sl).queue = x.queue ++ [a])
            ∧ (∀ w, x.walks = [w] → here w → (t.mem.slice sl).walks = [{ w with waiters := w.waiters ++ [a] }])))
        ∧ (∀ e y, x.findEnt asid r.addr = some e → e.owner = some y → (s.opWho a o).core ≠ some y → e.rcl = none →
          s.event? i (fun t => t.reqAt a (.walking sl)
            ∧ (t.mem.slice sl).findEnt asid r.addr = some { e with rcl := some (s.opWho a o).core }
            ∧ ∃ w ∈ (t.mem.slice sl).waits, w.asid = asid ∧ w.page = pageOf r.addr ∧ a ∈ w.waiters))
        ∧ (∀ e, x.findEnt asid r.addr = some e → (e.owner = none ∨ e.owner = (s.opWho a o).core) → e.rcl = none → e.inval = false →
          (e.rep = true → k ≠ .bypass ∧ k ≠ .atomic) → exec i s = .next (s.serveReq a o r sl ev)
            ∧ match s.mem.serve (s.opWho a o) asid r o.info sl ev with
              | (_, .out tr accs) => ∃ o', (s.serveReq a o r sl ev).hasReq a o' { r with st := .remote tr, accs := accs }
              | (m, .answer p) => k = .read → p.fault = none → p.peer = false → o.info.hint ≠ 3 → ∀ y rest, o.todo = y :: rest →
                let s1 := ({ s with mem := { m with shc := s.mem.shc } }).warnOf a (flagIf p.shc wShcRsvd);
                (s1.mem.reserve1 (s1.coreOf a) asid (y.addr / 128) o.info.hint a).2 ≠ .full → (s.serveReq a o r sl ev).reqAt a (.back p)))))
  ∧ (∀ (m m' : Mem) (w : Who) (asid : Nat) (r : Req) (i : MInfo) (sl ev : Nat) (e : TEnt) (l : SLine) (p : Resp),
    (m.slice sl).findEnt asid r.addr = some e →
    (∀ y ∈ (m.slice sl).tlb, y.asid = asid → y.gen = (m.slice sl).gen asid → y.leaf.covers r.addr = true → y = e) →
    (e.owner = none ∨ e.owner = w.core) → w.eng = false → (m.slice sl).findLine asid (r.addr / 128) = some l →
    m.serve w asid r i sl ev = (m', .answer p) → p.fault = none →
    (r.kind = .read → p.bytes = l.data ∧ p.pois = l.pois ∧ p.cls = e.cls)
    ∧ (∀ x, r.kind = .atomic → e.rep = false → l.ecc = [] → l.pois = 0 → r.accs = [x] → x.addr / 128 = r.addr / 128 → x.addr % 128 + x.size ≤ 128 →
      let old := tblNum l.data (x.addr % 128) x.size;
      p.old = [(x.lane, .num old)] ∧ ∃ l', (m'.slice sl).findLine asid (r.addr / 128) = some l' ∧ ∀ b < 128, Tbl.get 0 l'.data b =
        if x.addr % 128 ≤ b ∧ b < x.addr % 128 + x.size then BitVec.ofNat 8 (atomNew i.op old x.data x.aux / 2 ^ (8 * (b - x.addr % 128)))
        else Tbl.get 0 l.data b))
  ∧ (∀ (s : State) (a : Actor) (o : MemOp) (r : Req) (sl : Nat), s.hasReq a o r → let asid := (s.ctx a).asid;
    (r.st = .sent → r.sl = some sl →
      let ahead := ((s.mem.slice sl).gen asid + 256 - r.gen % 256) % 256;
      let rejects := homeIn (s.mem.slice sl).slhm (s.mem.dom asid) asid r.addr ≠ some sl ∨ 0 < ahead ∧ ahead < 128;
      (¬ rejects → exec (.requestBounce a) s = .next s)
      ∧ (rejects → s.event? (.requestBounce a) (fun t => t.reqAt a .bounced ∧ t.mem = s.mem)))
    ∧ ((r.st ≠ .sent ∨ r.sl = none) → exec (.requestBounce a) s = .next s)
    ∧ (r.st ≠ .bounced → exec (.requestReplay a) s = .next s)
    ∧ (r.st = .bounced → let q := s.newReq a r.kind r.addr r.hint r.accs;
      (q.epoch = (Tbl.get (0 : W32) (Tbl.get [] s.mem.dslhm (s.dieOf a)) (s.mem.dom asid)).toNat / 2 ^ 24 % 16 ∧ q.gen = s.mem.dieGen (s.dieOf a) asid
        ∧ q.st = .sent ∧ ∀ h, s.mem.hash (s.dieOf a) asid r.addr = .ok h → q.sl = some h)
      ∧ (q.epoch = r.epoch → q.gen = r.gen → exec (.requestReplay a) s = .next s)
      ∧ ((q.epoch ≠ r.epoch ∨ q.gen ≠ r.gen) → s.event? (.requestReplay a) (fun t => t.hasReq a { o with req := some q } q ∧ t.mem = s.mem)))
    ∧ (∀ ev w, r.st = .walking sl → (s.mem.slice sl).walks = [w] → w.asid = asid → w.page = pageOf r.addr → w.waiters = [a] →
      ((w.gen ≠ (s.mem.slice sl).gen asid ∨ (s.mem.slice sl).holds asid r.addr = true) → (s.mem.slice sl).queue = [] →
        s.event? (.walkComplete a ev) (fun t => t.reqAt a .sent ∧ (t.mem.slice sl).walks = [] ∧ (t.mem.slice sl).tlb = (s.mem.slice sl).tlb))
      ∧ (w.gen = (s.mem.slice sl).gen asid → (s.mem.slice sl).holds asid r.addr = false → (s.mem.slice sl).findEnt asid r.addr = none →
        match s.mem.walkInstall sl asid r.addr { s.who a with sup := o.sup } (r.kind == .bypass || r.kind == .atomic) ev with
        | (m, .error f) => let u := ({ s with mem := m }).endWalk sl asid (pageOf r.addr);
          exec (.walkComplete a ev) s = .next ((u.1.respond a r { fault := some f }).arriveAll sl ev u.2 false)
        | (m, .ok e) => let u := ({ s with mem := m }).endWalk sl asid (pageOf r.addr);
          exec (.walkComplete a ev) s = .next ((u.1.arriveAll sl ev [a] true).arriveAll sl ev u.2 false)
            ∧ e.asid = asid ∧ e.owner = (s.who a).core ∧ e.a = true ∧ e.d = (r.kind == .bypass || r.kind == .atomic)
            ∧ (((s.who a).core ≠ none ∨ e.leaf.raw / 2 ^ 49 % 8 ≠ 0) → e ∈ (m.slice sl).tlb))))

/-- O52. A fill merges the answer into the line that waits for it, classified, under the dirty bytes, and completes its load (02 R52, R54, R74);
without that line the request goes again (03 R90); a fault in an answer is the lane's result (05 R158). Once its probes have returned a store
takes effect (02 R444): its bytes stand in the L1, unclassified and dirty (02 R54). A full set of an L1 makes room by writing its least recently
used line back to the line's home slice, where the dirty bytes merge (02 R51, R52, R89); a refused line stays (02 R76). A reclaim empties the
owner's L1 of the page, but for dirty bytes that the slice refused, and ends with the page shared, private to the requester, or dropped (02
R60). Replica invalidation empties each die's cache of the page before the held write (02 R64). Accesses that travel go on at their place, those to
pack scratchpads in their group's issue order (03 R87, R102). Completions from outside give data, poison, REMOTE_FAULT or REMOTE_TIMEOUT (13 R408, R414). The model's choices in it: log entries
10, 18, 21 and 54. -/
def Obligations.MemoryEvents : Prop :=
  (∀ (s : State) (a : Actor) (o : MemOp) (r : Req) (p : Resp) (x : Acc) (rest : List Acc), s.hasReq a o r → r.kind = .read → o.todo = x :: rest →
    let cn := s.coreOf a;
    let asid := (s.ctx a).asid;
    let o1 : MemOp := { o with req := none };
    (∀ f, p.fault = some f → let s1 := s.warnOf a (flagIf p.shc wShcRsvd);
      s.respond a r p = (({ s1 with mem := s1.mem.unreserve1 (s1.coreOf a) (fun b => b == a) }).setOp a (some (o1.done x (gFault f x.addr)))).memGo memFuel a)
    ∧ (r.st = .back p → o.info.hint ≠ 3 → p.peer = false →
      ((∀ l ∈ s.mem.lines1 cn, a ∉ l.rsv) → exec (.l1Fill a) s = .next ((s.setOp a (some o1)).memGo memFuel a))
      ∧ (∀ l, o.info.kind = .load → s.mem.lines1 cn = [l] → l.asid = asid → l.gen = s.mem.coreGen cn asid → l.line = x.addr / 128 → a ∈ l.rsv →
        l.pois = 0 → p.pois = 0 → (s.core cn).quar = [] →
        ∃ (m : Mem) (l' : L1Line), exec (.l1Fill a) s = .next ((({ s with mem := m }).setOp a (some (o1.done x (.num (tblNum l'.data (x.addr % 128) x.size))))).memGo memFuel a)
          ∧ m.lines1 cn = [l'] ∧ l'.asid = asid ∧ l'.line = x.addr / 128 ∧ l'.cls = p.cls ∧ l'.dirty = l.dirty ∧ a ∉ l'.rsv
          ∧ l'.valid = l.valid ||| secMask x.addr x.size
          ∧ ∀ i < 128, bit (secMask x.addr x.size) (i / 32) = true →
            Tbl.get 0 l'.data i = if bit l.dirty i || bit l.valid (i / 32) then Tbl.get 0 l.data i else Tbl.get 0 p.bytes i)))
  ∧ (∀ (s : State) (a : Actor) (o : MemOp), s.opOf a = some o → o.req = none → o.mesh = false → o.probed = false →
    (o.probes ≠ [] → exec (.probeReturn a) s = .next s)
    ∧ (o.probes = [] → exec (.probeReturn a) s = .next ((s.setOp a (some { o with probed := true })).memGo memFuel a))
    ∧ (∀ x, o.probes = [] → (s.ctx a).first o = true → o.info.kind = .store → o.info.space = none → o.remote = false → o.peers = [] → o.todo = [x] → x.bad = none → o.res = [] →
      (∀ l, (s.rgnAt (s.marker a) l).opn = false) → s.mem.lines1 (s.coreOf a) = [] → let g := s.marker a;
      s.event? (.probeReturn a) (fun t => t.opOf a = none
        ∧ t.mem = (s.mem.storeG (s.who g) (s.coreOf g) (s.ctx a).asid x.addr x.size x.data o.info.hint).1)))
  ∧ (∀ (m : Mem) (w : Who) (core asid va n x hint : Nat), m.peerVa w.die asid va = false → m.lines1 core = [] → hint ≠ 3 → va % 128 + n ≤ 128 →
    let r := m.storeG w core asid va n x hint;
    r.2 = none ∧ ∃ l, r.1.lines1 core = [l] ∧ l.asid = asid ∧ l.line = va / 128 ∧ l.cls = 7 ∧ l.dirty = ones (va % 128) n
      ∧ ∀ i < n, Tbl.get 0 l.data (va % 128 + i) = BitVec.ofNat 8 (x / 2 ^ (8 * i)))
  ∧ (∀ (s : State) (core n : Nat), let set := (s.mem.lines1 core).filter (fun l => l.line % 256 == n % 256);
    (set.length < 12 → exec (.writeBack core n) s = .next s)
    ∧ ((∀ v ∈ set, v.refused = true ∨ v.rsv ≠ []) → exec (.writeBack core n) s = .next s)
    ∧ (∀ v rest, set = v :: rest → set.length = 12 → v.refused = false → v.rsv = [] →
      (v.dirty = 0 → exec (.writeBack core n) s = .next { s with mem := s.mem.drop1 core v })
      ∧ match s.mem.writeBack1 core v with
        | (m, none) => m.lines1 core = s.mem.lines1 core → exec (.writeBack core n) s = .next { s with mem := m.drop1 core v }
        | (m, some _) => m.lines1 core = s.mem.lines1 core → (∀ w ∈ rest, w.refused = true ∨ w.rsv ≠ []) →
          exec (.writeBack core n) s = .next { s with mem := m.set1 core { v with refused := true } }))
  ∧ (∀ (m : Mem) (core sl : Nat) (l : L1Line), l.dirty ≠ 0 → m.hash (core / 64) l.asid (l.line * 128) = .ok sl → l.gen = m.coreGen core l.asid →
    match m.translate sl l.asid (l.line * 128) 2 ⟨some core, core / 64, true, false⟩ false false with
    | (m1, .error _) => (m.writeBack1 core l).2 = none ∧ (m.writeBack1 core l).1.slices = m1.slices
    | (m1, .ok t) => (m1.refuses sl t.loc = true → (m.writeBack1 core l).2 = some sl)
      ∧ (m1.refuses sl t.loc = false → m.writeBack1 core l
          = (({ m1 with shc := m.shc }).merge sl (core / 64) l.asid l.line t l.hint l.data l.dirty l.pois, none)))
  ∧ (∀ (m : Mem) (sl die asid line hint mask pois : Nat) (t : Tr) (data : Tbl Byte) (l : SLine), (m.slice sl).findLine asid line = some l →
    t.loc.isFar = false → ∃ l', ((m.merge sl die asid line t hint data mask pois).slice sl).findLine asid line = some l'
      ∧ l'.dirty = l.dirty ||| mask ∧ ∀ i < 128, Tbl.get 0 l'.data i = if bit mask i then Tbl.get 0 data i else Tbl.get 0 l.data i)
  ∧ (∀ (s : State) (sl asid page die : Nat) (e : TEnt), (s.mem.slice sl).findEnt asid page = some e →
    (∀ y x, e.rcl = some y → e.owner = some x →
      (e.acked = false → s.event? (.reclaim sl asid page) (fun t => (∃ e', (t.mem.slice sl).findEnt asid page = some e' ∧ e'.acked = true)
        ∧ ∀ l ∈ t.mem.lines1 x, l.asid = e.asid → l.gen = s.mem.coreGen x e.asid → e.leaf.covers (l.line * 128) = true →
          homeIn (Tbl.get [] s.mem.dslhm (x / 64)) (s.mem.dom e.asid) e.asid (l.line * 128) = some sl → l.refused = true ∧ l.valid = 0))
      ∧ (e.acked = false → exec (.reclaimAck sl asid page) s = .next s)
      ∧ (e.acked = true → (s.mem.slice sl).waits = [] →
        (e.leaf.raw / 2 ^ 49 % 8 ≠ 0 → s.event? (.reclaimAck sl asid page) (fun t =>
          (t.mem.slice sl).findEnt asid page = some { e with owner := none, rcl := none, acked := false }))
        ∧ (∀ c, e.leaf.raw / 2 ^ 49 % 8 = 0 → y = some c → s.event? (.reclaimAck sl asid page) (fun t =>
          (t.mem.slice sl).findEnt asid page = some { e with owner := some c, rcl := none, acked := false }))))
    ∧ (e.inval = false → exec (.replicaInvalidate sl asid page die) s = .next s ∧ exec (.replicaInvalidateAck sl asid page) s = .next s)
    ∧ (e.inval = true → bit e.repMask die = true → s.event? (.replicaInvalidate sl asid page die) (fun t =>
      (t.mem.slice sl).findEnt asid page = some { e with repMask := without e.repMask (2 ^ die) }
        ∧ ∀ l ∈ Tbl.get [] t.mem.dc die, l.ver = none → l.asid = asid → e.leaf.covers (l.line * 128) = false))
    ∧ (e.inval = true → e.repMask = 0 → (s.mem.slice sl).waits = [] → s.event? (.replicaInvalidateAck sl asid page) (fun t =>
      (t.mem.slice sl).findEnt asid page = some { e with inval := false, rep := false, rrd := 0, rwr := 0 })))
  ∧ (∀ (s : State) (a : Actor) (o : MemOp), s.opOf a = some o →
    (o.mesh = true → exec (.retrieverAccess a) s = .next ((s.setOp a (some { o with mesh := false })).memGo memFuel a)
      ∧ exec (.remoteScratchpadAccess a) s = .next s)
    ∧ (o.mesh = false → exec (.retrieverAccess a) s = .next s
      ∧ (o.remote = true → exec (.remoteScratchpadAccess a) s = .next (if (∀ e ∈ (s.ctx a).memops, o.ord ≤ e.2.ord ∨ e.2.toPack ≠ o.toPack)
        then (s.setOp a (some { o with remote := false })).memGo memFuel a else s)))
    ∧ (∀ r tr sl v, o.req = some r → r.st = .remote tr → r.sl = some sl →
      let ans : Resp := { shc := 5 ≤ tr.raw / 2 ^ 49 % 8, slot := tr.slot, peer := tr.peer.isSome, cls := tr.cls, rep := tr.rep };
      (tr.peer.isSome = true → ∀ k, exec (.cxlCompletion a k v) s = .next s)
      ∧ (tr.peer = none → ∀ k, exec (.peerAccessCompletion a k v) s = .next s)
      ∧ (∀ i k, (tr.peer = none ∧ i = .cxlCompletion a k v ∨ tr.peer.isSome = true ∧ i = .peerAccessCompletion a k v) →
        (k = 2 → ∃ f : Flt, f.cause = cRemoteFault ∧ exec i s = .next (s.respond a r { fault := some f }))
        ∧ (k < 2 → r.kind = .read →
          ∃ m, exec i s = .next (({ s with mem := m }).respond a r { ans with bytes := tblPut [] 0 128 v, pois := if k ≠ 1 then 0 else if v / 2 ^ 1024 % 16 = 0 then 15 else v / 2 ^ 1024 % 16 }))
        ∧ (k < 2 → r.kind = .atomic → (o.info.scope = 3 ∨ tr.peer.isSome = true) → exec i s
          = .next (({ s with mem := s.mem.farDrop sl (s.dieOf a) (s.ctx a).asid r.addr } : State).respond a r { ans with
          old := r.accs.map (fun x => (x.lane, if k = 1 then gFault ⟨cPoisonMem, 0⟩ x.addr else Res.num (v % 2 ^ (8 * x.size)))) }))
        ∧ (k = 0 → (r.kind = .bypass ∨ r.kind = .uncached) → exec i s = .next (s.respond a r ans)))
      ∧ ∃ f : Flt, f.cause = cRemoteTimeout ∧ exec (.peerTimeout a) s = .next (s.respond a r { fault := some f })))
  ∧ (∀ (s : State) (a : Actor) (d n : Nat) (pc : W64), s.opOf a = none → s.waitsAt a (.sealOpen d n pc) →
    s.event? (.peerTimeout a) (fun t => ∃ p, plCause p = cRemoteTimeout ∧ t.completed a d (.bad p)))

/-! ## Storage, recall, debug -/

/-- O53. A Fetch engine takes a page of a request: it joins the fetch table with a frame of the pool; with no frame the page goes to the host
with a token and an event; an engine that does not serve fails it with 0xFFFF (04 R142, R144, R145; 13 R416). A fetch that succeeds
fills the frame from the drive and maps the leaf by one compare-and-swap, else the frame is reported as an orphan (04 R143, R145); a flush
writes the page to the drive and gives its status (11 R361). A link that comes up is identified; one that goes down fails what is in
flight with 0xFFFF (13 R415, R416). FRDB ends the service of its token, as a success or as PAGE_HOST; an unknown token sets MFES (04
R147, R148). The model's choices in it: log entries 11, 40 and 44. -/
def Obligations.StorageEvents : Prop :=
  (∀ (s : State) (port pg : Nat) (r : FReq), let q := s.port port;
    (q.intake = [] → exec (.fetchRequestIntake port) s = .next s)
    ∧ (q.intake = [r] → q.offered = [] → r.pages = [pg] → let s0 := s.setPort port { q with intake := [{ r with pages := [] }] };
      (q.serves = false → s.event? (.fetchRequestIntake port) (fun t => (t.port port).intake = [] ∧ (t.port port).table = q.table
        ∧ t.grids = (s0.pageDone port r.asid pg (some 0xFFFF)).grids
        ∧ ∀ m f, s.mem.takeFrame r.asid = (m, .ok f) → ({ s with mem := m } : State).offers t (port / 2) 6 1 f))
      ∧ (∀ f ∈ q.table, q.serves = true → f.asid = r.asid → f.page = pg → s.event? (.fetchRequestIntake port) (fun t =>
        (t.port port).intake = [] ∧ (t.port port).table = q.table ∧ t.grids = s.grids))
      ∧ (∀ at' leaf, q.serves = true → q.table.length < 1024 → (∀ f ∈ q.table, ¬ (f.asid = r.asid ∧ f.page = pg)) →
        s.mem.storageLeaf r.asid pg = some (at', leaf) →
        (∀ m f, s.mem.takeFrame r.asid = (m, .ok f) → s.event? (.fetchRequestIntake port) (fun t => t.mem = m ∧ (t.port port).intake = []
          ∧ t.port port = ({ q with intake := [], table := q.table ++ [⟨r.asid, pg, leaf, at', f, q.cmdsFor r.asid pg⟩] } : Port).submit ∧ t.grids = s.grids))
        ∧ (∀ m st g p w c v, s.mem.takeFrame r.asid = (m, .error st) → s.oneOut g p w c v → g.key = r.grid → w.wg.w = r.w → c.gid = r.gid →
          v.pages = [(port, pg)] → s.event? (.fetchRequestIntake port) (fun t => ({ s with mem := m } : State).offers t p.die 4 (st % 256) pg
            ∧ let k := (s.die p.die).nextTok % 65536;
            (t.die p.die).tokens = (s.die p.die).tokens ++ [⟨k, r.asid, pg⟩] ∧ (t.die p.die).nextTok = (k + 1) % 65536
            ∧ ∃ g' p' w' c' v', t.oneOut g' p' w' c' v' ∧ v'.pages = [] ∧ v'.tokens = v.tokens ++ [k])))))
  ∧ (∀ (m : Mem) (q : Port) (port slot frame lba i : Nat) (c : NvmeCmds), frame % 65536 = 0 → populated (frame + 65535) = true → i < 65536 →
    let t := m.fillFrame q port slot frame lba c;
    t.byte slot (frame + i) = q.byte port (c.nsid * 2 ^ 64 + lba * 65536 + i)
      ∧ (Tbl.get {} t.sec ((frame + i) / 32)).pois = (c.pois.testBit (i / 32) || q.bad.contains ((c.nsid * 2 ^ 64 + lba * 65536 + i) / 32)))
  ∧ (∀ (q : Port) (asid page : Nat), let c := q.cmdsFor asid page;
    c.nsid = q.nsid.toNat ∧ c.pair = (page / 65536 % 65536 ^^^ asid) % q.qp ∧ c.todo = (if q.mdts = 0 ∨ 4 ≤ q.mdts then 1 else 16 / 2 ^ q.mdts))
  ∧ (∀ (s : State) (port n status lbs ident : Nat) (f : Fetch) (g : Flush) (d : Nat) (b : Blk), let q := s.port port;
    exec (.nvmeCommandTimeout port n) s = exec (.nvmeCommandComplete port n 7) s
    ∧ (q.table = [] → q.flushes = [] → exec (.nvmeCommandComplete port n status) s = .next s)
    ∧ (q.table = [f] → f.cmds.sent = 0 → exec (.nvmeCommandComplete port 0 status) s = .next s)
    ∧ (q.table = [f] → q.flushes = [] → 1 < f.cmds.sent → s.event? (.nvmeCommandComplete port 0 status) (fun t => t.grids = s.grids ∧ t.mem = s.mem
      ∧ ∃ x, (t.port port).table = [x] ∧ x.frame = f.frame ∧ x.cmds.fail = (if f.cmds.fail = 0 then status % 2 ^ 15 else f.cmds.fail)
        ∧ x.cmds.pois = f.cmds.pois ||| status / 2 ^ 16 ∧ (x.cmds.fail ≠ 0 → x.cmds.todo = 0)))
    ∧ (q.table = [f] → f.cmds.sent = 1 → f.cmds.todo = 0 → f.cmds.fail = 0 →
      (status % 2 ^ 15 ≠ 0 → s.event? (.nvmeCommandComplete port 0 status) (fun t => s.offers t (port / 2) 6 1 f.frame ∧ (t.port port).table = []
        ∧ t.grids = ((s.setPort port { q with table := [] }).pageDone port f.asid f.page (some (status % 2 ^ 15))).grids))
      ∧ (status % 2 ^ 15 = 0 → let k := s.mem.oslot f.asid;
        let m := s.mem.fillFrame q port k f.frame (f.leaf % 2 ^ 37) { f.cmds with sent := 0, pois := f.cmds.pois ||| status / 2 ^ 16 };
        (populated f.leafAt = true → m.num k f.leafAt 8 = f.leaf → s.event? (.nvmeCommandComplete port 0 status) (fun t => (t.port port).table = []
          ∧ t.mem = m.putNum k f.leafAt 8 (f.leaf / 2 ^ 63 * 2 ^ 63 + 2 ^ 60 + f.leaf / 2 ^ 53 % 2 ^ 7 * 2 ^ 53 + f.leaf / 2 ^ 40 % 2 ^ 12 * 2 ^ 40 + f.frame / 65536)
          ∧ t.grids = ((s.setPort port { q with table := [] }).pageDone port f.asid f.page none).grids))
        ∧ (m.num k f.leafAt 8 ≠ f.leaf → s.event? (.nvmeCommandComplete port 0 status) (fun t => (t.port port).table = []
          ∧ ({ s with mem := m } : State).offers t (port / 2) 6 0 f.frame))))
    ∧ (q.table = [] → q.flushes = [g] → s.heldAt g.act b → b = .flush d port g.asid g.page →
      (g.cmds.sent = 1 → g.cmds.todo = 0 → g.cmds.fail = 0 →
        s.event? (.nvmeCommandComplete port 0 status) (fun t => (t.port port).flushes = [] ∧ t.completed g.act d (.ok (BitVec.ofNat 64 (status % 2 ^ 15)))
        ∧ (status % 2 ^ 15 ≠ 0 → (t.port port).drive = q.drive)
        ∧ ∀ l, status % 2 ^ 15 = 0 → s.mem.flushLeaf g.asid g.page = .ok l → let r := (s.mem.pageBytes (port / 2) g.asid g.page).2;
          (∀ e ∈ r.1, Tbl.find (t.port port).drive (g.cmds.nsid * 2 ^ 64 + g.lba * 65536 + e.1) = some e.2)
          ∧ ∀ j ∈ r.2, (g.cmds.nsid * 2 ^ 64 + g.lba * 65536 + 32 * j) / 32 ∈ (t.port port).bad))
      ∧ s.event? (.storageLinkDown port) (fun t => (t.port port).flushes = [] ∧ t.completed g.act d (.ok 0xFFFF)))
    ∧ s.event? (.storageLinkUp port lbs ident) (fun t => t.port port = { q with
      ready := true, lbs := lbs, qp := min 64 (ident % 2 ^ 16), depth := min 1024 (ident / 2 ^ 16 % 2 ^ 16 + 1), mdts := ident / 2 ^ 32 % 2 ^ 8 } ∧ t.mem = s.mem)
    ∧ (q.table = [] → q.flushes = [] → s.event? (.storageLinkDown port) (fun t => t.port port = { q with ready := false } ∧ t.mem = s.mem))
    ∧ (q.table = [f] → q.flushes = [] → s.event? (.storageLinkDown port) (fun t => t.port port = { q with ready := false, table := [] }
      ∧ s.offers t (port / 2) 6 1 f.frame)))
  ∧ (∀ (s : State) (die k : Nat),
    ((∀ t ∈ (s.die die).tokens, t.token ≠ k) → ∀ i, (i = .frdbServiced die k ∨ i = .frdbFail die k) →
      exec i s = .next { s with mf := { s.mf with mfes := s.mf.mfes ||| 2 } })
    ∧ (∀ tk g p w c v, (s.die die).tokens = [tk] → tk.token = k → s.oneOut g p w c v → p.die = die → v.tokens = [k] →
      s.event? (.frdbServiced die k) (fun t => (t.die die).tokens = [] ∧ ∃ g' p' w', t.oneOut g' p' w' { c with svc := some { v with tokens := [] } } { v with tokens := [] }
        ∧ w'.recs = w.recs)
      ∧ s.event? (.frdbFail die k) (fun t => (t.die die).tokens = [] ∧ ∃ g' p' w' c' v', t.oneOut g' p' w' c' v' ∧ v'.tokens = []
        ∧ v'.failed = v.failed ++ w.recsOf v [cPageStorage, cPageHost] tk.page
        ∧ ∀ x ∈ w.recsOf v [cPageStorage, cPageHost] tk.page, ∀ e, Tbl.find w.recs x = some e → Tbl.find w'.recs x = some { e with cause := cPageHost })))

/-- O54. A Retriever thread issues once its lane has been handed over (06 R197); a lane whose rejoin timeout elapses, unless the grid has
none, comes home once its accesses are acknowledged, at its thread's PC, with its predicates, as a split of its own, halted in a halted pack (06 R200
to R202, R207). A
group in commit back-off may issue its commit again (05 R173). DBGCTL resumes halted splits of the die after their BRK and clears HALTED
(06 R207). While a core is stopped for a context load neither time runs (07 R235). The model's choice in it: log entry 60. -/
def Obligations.RecallAndDebug : Prop :=
  (∀ (s : State) (die th : Nat), let a : Actor := .thread die th;
    ((s.ctx a).on = false → exec (.handOverDone die th) s = .next s ∧ exec (.rejoinTimeout die th) s = .next s ∧ exec (.recallComplete die th) s = .next s)
    ∧ ((s.ctx a).on = true → s.event? (.handOverDone die th) (fun t => t.ctx a = { s.ctx a with moved := true } ∧ t.mem = s.mem)
      ∧ (((s.desc a).rjt = 15 ∨ (s.core (s.coreOf a)).stop = true) → exec (.rejoinTimeout die th) s = .next s)
      ∧ ((s.desc a).rjt ≠ 15 → (s.core (s.coreOf a)).stop = false → s.event? (.rejoinTimeout die th) (fun t => t.ctx a = { s.ctx a with timedOut := true } ∧ t.mem = s.mem))
      ∧ (((s.ctx a).timedOut = false ∨ (s.ctx a).quiet = false) → exec (.recallComplete die th) s = .next s)
      ∧ ((s.ctx a).timedOut = true → (s.ctx a).quiet = true → (s.ctx a).pend = [] → let c := s.ctx a;
        let h : Actor := .split c.core c.home 0;
        c.core / 64 = die → c.lane < 32 → (s.ctx h).splits = [] → (s.ctx h).pool = [] → s.event? (.recallComplete die th) (fun t => (t.ctx a).on = false
          ∧ (t.ctx h).splits = [(0, { pc := (c.split 0).pc, mask := 2 ^ c.lane, lc := (c.split 0).lc, join := c.jrec, halted := (s.ctx h).hpack })]
          ∧ (die < 4 → (s.ctx h).hpack = true → (t.die die).halted = true)
          ∧ let x := (t.ctx h).ln c.lane;
          x.life = .live ∧ x.p = (c.ln c.lane).p ∧ x.dr = (c.ln c.lane).dr ∧ x.rgn = (c.ln c.lane).rgn
            ∧ ∀ r < 128, x.rd r = if bit (s.desc a).hset r then (c.ln c.lane).rd r else ((s.ctx h).ln c.lane).rd r))))
  ∧ (∀ (s : State) (core slot die : Nat),
    ((s.core core).stop = true ∨ (s.ctx (.split core slot 0)).hpack = true → exec (.commitBackoffExpiry core slot) s = .next s)
    ∧ ((s.core core).stop = false → (s.ctx (.split core slot 0)).hpack = false → s.event? (.commitBackoffExpiry core slot) (fun t => t.ctx (.split core slot 0) = { s.ctx (.split core slot 0) with backoff := false } ∧ t.mem = s.mem))
    ∧ s.event? (.dbgctlHaltedClear die) (fun t => t.die die = { s.die die with halted := false } ∧ t.groups = s.groups)
    ∧ ((∀ c g n, Tbl.get 0 (s.ctx (.split c g 0)).arr n = 0) → (∀ g ∈ s.grids, ∀ p ∈ g.packs, ∀ w ∈ p.saved, ∀ c ∈ w.groups, ∀ n, Tbl.get 0 c.2.arr n = 0) →
      s.event? (.dbgctlResume die) (fun t => t.mem = s.mem ∧ t.dies = s.dies
      ∧ (∀ k e, core / 64 ≠ die → k < 32 → t.ctx (.split core k e) = s.ctx (.split core k e))
      ∧ (∀ k e x, core / 64 = die → k < 32 → e < 4 → (s.ctx (.split core k 0)).splits = [(e, x)] → (s.ctx (.split core k 0)).pool = [] →
        x.mask ≠ 0 → x.halted = true → (t.ctx (.split core k 0)).hpack = false
        ∧ (t.ctx (.split core k 0)).splits = [(e, { x with halted := false, pc := x.brk.getD x.pc, brk := none })]))))

/-! ## The management function and the host -/

/-- O55. KSCMD: slot 0 gives STAT 1, a slot that a locked TDI uses 2, a busy one sets MFES; else it runs, and its end gives the slot a new key or
revokes it, with no line left under it (13 R397; 01 R48). MFES and ALM sources clear by 1; an alarm sets its source, counts, and acts by POL
(13 R398, R420, R421). Debug unlock: GO, then EN or the DBG alarm; a live TDI refuses (13 R407, R422). A TDI locks unless debug is
unlocked, starts from locked, stops to unlocked; KEY_PROGRAM needs a locked one and a slot other than 0 (13 R395, R396, R418, R422). SLHM keeps MASK
while EN (02 R66); SLHC reaches every slice (04 R134); SLCS and SLTS clear their counts (02 R77; 04 R131). CMCMD sets and reads block
words (02 R78, R79). A write of a register through BAR0, or of half of one of 8 bytes, has the register's effect; one of another size or
place, or of a function that is not enabled, changes nothing, and a read there is an Unsupported Request, or 0 where no register is and in a
write-only window (13 R394, R400; 00 R10, R19). A function's MSI-X table is in its BAR4, and a pending vector whose mask goes is sent (13
R401). The model's choices in it: log entries 12, 39, 48 and 66. -/
def Obligations.ManagementCommands : Prop :=
  ∀ (s : State) (slot die v code src dom sl : Nat),
    (∀ i o, (i = .kscmdLoad slot ∧ o = 1 ∨ i = .kscmdRevoke slot ∧ o = 2) →
      (s.mf.ksBusy = true → exec i s = .next { s with mf := { s.mf with mfes := s.mf.mfes ||| 8 } })
      ∧ (s.mf.ksBusy = false →
        (slot = 0 → exec i s = .next { s with mf := { s.mf with ksSlot := 0, ksStat := 1 } })
        ∧ (slot ≠ 0 → s.slotLocked slot = true → exec i s = .next { s with mf := { s.mf with ksSlot := slot, ksStat := 2 } })
        ∧ (slot ≠ 0 → s.slotLocked slot = false → exec i s = .next { s with mf := { s.mf with ksSlot := slot, ksStat := 0, ksBusy := true, ksOp := o } })))
    ∧ ((∀ d x, d < 4 → s.die d = x → x.ownSlot ≠ some slot ∨ (x.tdi ≠ .locked ∧ x.tdi ≠ .run)) → s.slotLocked slot = false)
    ∧ (s.mf.ksBusy = false → exec .keySlotOpDone s = .next s)
    ∧ (s.mf.ksBusy = true → let k := s.mf.ksSlot;
      (s.mf.ksOp = 1 → s.event? .keySlotOpDone (fun t => t.mf = { s.mf with ksBusy := false, ksStat := 0, kskey := 0 }
        ∧ t.mem = { s.mem with keys := Tbl.put s.mem.keys k ⟨(s.mem.key k).ver + 1, false⟩ }))
      ∧ (s.mf.ksOp = 2 → s.event? .keySlotOpDone (fun t => t.mf = { s.mf with ksBusy := false, ksStat := 0 } ∧ (t.mem.key k).revoked = true
        ∧ (∀ i < 16, (∀ l ∈ (t.mem.slice i).lines, l.slot ≠ k) ∧ ∀ p ∈ (t.mem.slice i).spill, p.slot ≠ k)
        ∧ (∀ c, ∀ l ∈ t.mem.lines1 c, l.slot.getD (s.mem.lineSlot l.asid l.line) ≠ k)
        ∧ (∀ c, ∀ l ∈ Tbl.get [] t.mem.dc c, l.ver = none → s.mem.lineSlot l.asid l.line ≠ k) ∧ (∀ j, j ≠ k → t.mem.key j = s.mem.key j) ∧ t.mem.hbm = s.mem.hbm)))
    ∧ s.event? (.mfesClear v) (fun t => t = { s with mf := { s.mf with mfes := s.mf.mfes &&& ~~~(BitVec.ofNat 4 v) } })
    ∧ s.event? (.almClear v) (fun t => t = { s with mf := { s.mf with almSrc := s.mf.almSrc &&& ~~~(BitVec.ofNat 5 v) } })
    ∧ s.event? .almLock (fun t => t = { s with mf := { s.mf with almLock := true } })
    ∧ (src < 5 → s.event? (.securityAlarm src) (fun t => t.mf.almSrc = s.mf.almSrc ||| BitVec.ofNat 5 (2 ^ src)
      ∧ t.mf.almCount = satAdd 255 s.mf.almCount 1 ∧ (let e := Tbl.get (BitVec.ofNat 128 (2 ^ 96)) s.mf.msix 0;
        (e.getLsbD 96 = false → t.mf.pba = s.mf.pba
          ∧ t.mem.out = s.mem.out ++ [{ kind := 3, addr := 0, data := 0, mask := e.toNat % 2 ^ 64, aux := e.toNat / 2 ^ 64 % 2 ^ 32 }])
        ∧ (e.getLsbD 96 = true → 0 ∈ t.mf.pba ∧ t.mem.out = s.mem.out)) ∧ t.mf.halted = (s.mf.halted || s.mf.pol != 0)
      ∧ (t.mem.erased = (s.mem.erased || 2 ≤ s.mf.pol)) ∧ (2 ≤ s.mf.pol → s.mf.ksBusy = true → s.mf.ksOp = 1 → t.mf.ksBusy = false ∧ t.mf.ksStat = 3)))
    ∧ s.event? (.dbggoGo die) (fun t => t = { s with mf := { s.mf with dbgDie := die, dbgStat := 1, nonce := s.mf.nonce + 1 } })
    ∧ (s.mf.dbgStat ≠ 1 → exec (.debugUnlockResult v) s = .next s)
    ∧ (s.mf.dbgStat = 1 → let d := s.die s.mf.dbgDie;
      ((d.tdi = .locked ∨ d.tdi = .run) → s.event? (.debugUnlockResult v) (fun t => t = { s with mf := { s.mf with dbgStat := 3, dbgunl := [] } }))
      ∧ (d.tdi ≠ .locked → d.tdi ≠ .run →
        s.event? (.debugUnlockResult 1) (fun t => t.mf = { s.mf with dbgStat := 2, dbgunl := [] } ∧ t.die s.mf.dbgDie = { d with dbgEn := true })
        ∧ (v ≠ 1 → s.event? (.debugUnlockResult v) (fun t => t.mf.dbgStat = 3 ∧ t.mf.dbgunl = [] ∧ t.dies = s.dies ∧ t.mf.almSrc = s.mf.almSrc ||| 2))))
    ∧ (let d := s.die die;
      ((d.tdi = .unlocked ∧ d.dbgEn = false) → s.event? (.lockInterface die) (fun t => t = s.setDie die { d with tdi := .locked }))
      ∧ ((d.tdi ≠ .unlocked ∨ d.dbgEn = true) → exec (.lockInterface die) s = .next s)
      ∧ (d.tdi = .locked → s.event? (.startInterface die) (fun t => t = s.setDie die { d with tdi := .run })
        ∧ (slot ≠ 0 → s.event? (.keyProgram die slot) (fun t => t.die die = { d with ownSlot := some slot, tdiSlots := d.tdiSlots ++ [slot] }
          ∧ t.mem = { s.mem with keys := Tbl.put s.mem.keys slot ⟨(s.mem.key slot).ver + 1, false⟩ })))
      ∧ (d.tdi ≠ .locked → exec (.startInterface die) s = .next s ∧ exec (.keyProgram die slot) s = .next s)
      ∧ s.event? (.stopInterface die) (fun t => t = s.setDie die { d with tdi := .unlocked, ownSlot := none, tdiSlots := [] })
      ∧ exec (.spdmRequest die code) s = .next { s with mem := { s.mem with out := s.mem.out ++ [{ kind := 4, addr := die, data := spdmResponse code }] } })
      ∧ (code ∈ [0x81, 0x82, 0x83, 0x84, 0xE0, 0xE1, 0xE3, 0xE4, 0xE5, 0xEC, 0xFE] ↔ spdmResponse code % 256 ≠ 0x7F)
    ∧ (let r (w : W32) : W32 := slhmWord (bit v 31) (w.toNat / 2 ^ 24 % 16) (w.getLsbD 16) (if w.getLsbD 31 then w.toNat % 65536 else v % 65536);
      s.event? (.slhmWrite dom v) (fun t => Tbl.get 0 t.mf.slhm dom = r (Tbl.get 0 s.mf.slhm dom)
        ∧ (∀ i < 16, Tbl.get 0 (t.mem.slice i).slhm dom = r (Tbl.get 0 (s.mem.slice i).slhm dom))
        ∧ ∀ d < 4, Tbl.get 0 (Tbl.get [] t.mem.dslhm d) dom = r (Tbl.get 0 (Tbl.get [] s.mem.dslhm d) dom))
      ∧ s.event? (.slhcWrite dom v) (fun t => ∀ i < 16, (t.mem.slice i).heatCfg dom = v / 2 ^ 31 % 2 * 2 ^ 31 + v / 2 ^ 18 % 4 * 2 ^ 18 + v % 8))
    ∧ (s.event? (.slcsClr sl) (fun t => (t.mem.slice sl).spills = 0 ∧ (t.mem.slice sl).refused = 0 ∧ (t.mem.slice sl).lines = (s.mem.slice sl).lines)
      ∧ s.event? (.sltsClr sl) (fun t => (t.mem.slice sl).gendrop = 0 ∧ (t.mem.slice sl).walkN = 0 ∧ (t.mem.slice sl).tlb = (s.mem.slice sl).tlb))
    ∧ (s.mf.cmBusy = true → ∀ i, (i = .cmcmdSet v ∨ i = .cmcmdQuery v) → exec i s = .next { s with mf := { s.mf with mfes := s.mf.mfes ||| 8 } })
    ∧ (s.mf.cmBusy = false → let st := v / 2 ^ 58 % 16;
      let b := v / 2 ^ 54 % 16;
      let nu := v / 2 ^ 52 % 4;
      let ub := v / 2 ^ 26 % 2 ^ 26;
      let rc := v / 8 % 2 ^ 23;
      let at' := Mem.blkWordAt st rc b s.mem;
      let w := s.mem.num 0 at' 8;
      ((s.mem.cmtLen st ≤ rc ∨ 64000000000 < (ub + nu + 1) * 1024) → s.event? (.cmcmdSet v) (fun t => t.mf.cmErr = true ∧ t.mf.cmBusy = false ∧ t.mem = s.mem))
      ∧ (rc < s.mem.cmtLen st → (ub + nu + 1) * 1024 ≤ 64000000000 → s.event? (.cmcmdSet v) (fun t => t.mf.cmErr = false ∧ t.mf.cmBusy = true
        ∧ t.mem = s.mem.putNum 0 at' 8 (nu * 2 ^ 62 + w / 2 ^ 61 % 2 * 2 ^ 61 + 2 ^ 60 + ub)))
      ∧ (s.mem.cmtLen st ≤ rc → s.event? (.cmcmdQuery v) (fun t => t.mf.cmErr = true ∧ t.mem = s.mem))
      ∧ (rc < s.mem.cmtLen st → s.event? (.cmcmdQuery v) (fun t => t.mf.cmErr = false ∧ t.mem = s.mem ∧ t.mf.cmNu = w / 2 ^ 62 % 4
        ∧ t.mf.cmUbase = w % 2 ^ 26 ∧ t.mf.cmSpl = bit w 61))
      ∧ exec .cmcmdSetDone s = .next s)
    ∧ (s.mf.cmBusy = true → s.event? .cmcmdSetDone (fun t => t.mf.cmBusy = false ∧ t.mf.mfes = s.mf.mfes))
    ∧ (∀ fn off size k i w,
      (s.mf.enabled = false → fn ≠ 7 → exec (.registerWrite (fn + 1) off size v) s = .next s ∧ s.bar0 (fn + 1) off size = none)
      ∧ (s.mfReg off = none → exec (.registerWrite 0 off size v) s = .next s ∧ s.bar0 0 off size = some 0)
      ∧ (∀ n x, s.mfReg off = some (off, n, x) →
        (size ≠ n → ¬ (n = 8 ∧ size = 4) → exec (.registerWrite 0 off size v) s = .next s ∧ s.bar0 0 off size = none)
        ∧ s.bar0 0 off n = some (if writeOnly off then 0 else x % 2 ^ (8 * n)))
      ∧ (w < 2 ^ 64 → let put (o : Nat) (j : Instr) : Prop := exec (.registerWrite 0 o 8 w) s = exec j s;
        (w / 2 ^ 62 = 1 → put 0 (.kscmdLoad (w / 2 ^ 32 % 4096))) ∧ (w / 2 ^ 62 = 2 → put 0 (.kscmdRevoke (w / 2 ^ 32 % 4096)))
        ∧ put 0xA0 (.ctxbWrite w) ∧ put 0xA8 (.peerbWrite w) ∧ (w / 2 ^ 62 = 1 → put 0xC8 (.cmcmdSet w)) ∧ (w / 2 ^ 62 = 2 → put 0xC8 (.cmcmdQuery w))
        ∧ (k < 8 → s.event? (.registerWrite 0 (0x40 + 8 * k) 8 w) (fun t => ∃ y, t = { s with mf := { s.mf with kskey := y } }
          ∧ y.toNat / 2 ^ (64 * k) % 2 ^ 64 = w ∧ ∀ j < 8, j ≠ k → y.toNat / 2 ^ (64 * j) % 2 ^ 64 = s.mf.kskey.toNat / 2 ^ (64 * j) % 2 ^ 64))
        ∧ (k < 4 → s.event? (.registerWrite 0 (0x100 + 8 * k) 8 w) (fun t => ∃ y, t = { s with mf := { s.mf with h2w := y } }
          ∧ Tbl.get 0 y k = BitVec.ofNat 64 (w / 2 ^ 47 * 2 ^ 47 + w % 2 ^ 19) ∧ ∀ j, j ≠ k → Tbl.get 0 y j = Tbl.get 0 s.mf.h2w j))
        ∧ (k < 16 → s.event? (.registerWrite 0 (0x180 + 8 * k) 8 w) (fun t => t.mf = s.mf
          ∧ Tbl.get 0 t.mem.cmtb k = BitVec.ofNat 64 (w % 2 ^ 56) ∧ ∀ j, j ≠ k → Tbl.get 0 t.mem.cmtb j = Tbl.get 0 s.mem.cmtb j))
        ∧ (k < 8 → exec (.registerWrite 0 (0x200 + 8 * k) 8 w) s
          = .next (s.setPort k { s.port k with nsid := BitVec.ofNat 32 (w / 2 ^ 32), tmo := w / 2 ^ 24 % 256, en := w.testBit 0 }))
        ∧ (k < 1024 → s.event? (.registerWrite 0 (0x20000 + 8 * k) 8 w) (fun t => ∃ y, t = { s with mf := { s.mf with imap := y } }
          ∧ Tbl.get 0 y k = BitVec.ofNat 64 (w / 2 ^ 63 * 2 ^ 63 + w / 2 ^ 16 % 2 ^ 42 * 2 ^ 16) ∧ ∀ j, j ≠ k → Tbl.get 0 y j = Tbl.get 0 s.mf.imap j)))
      ∧ (w < 2 ^ 32 → let put (o : Nat) (j : Instr) : Prop := exec (.registerWrite 0 o 4 w) s = exec j s;
        put 0x80 (.mfesClear w) ∧ put 0xB0 (.fabnWrite w) ∧ (w.testBit 2 = true → put 0xB8 (.drstGo (w % 4)) ∧ put 0x440 (.dbggoGo (w % 4)))
        ∧ exec (.registerWrite 0 0x98 4 w) s = .next { s with mf := { s.mf with pto := BitVec.ofNat 32 w } }
        ∧ exec (.registerWrite 0 0x88 4 w) s = .next { s with mf := { s.mf with
            almSrc := s.mf.almSrc &&& ~~~(BitVec.ofNat 5 w), pol := if s.mf.almLock then s.mf.pol else w / 2 ^ 16 % 4, almLock := s.mf.almLock || w.testBit 31 } }
        ∧ (i < 16 → w = 2 ^ i → put 0xC0 (.bdrstReset i)) ∧ (k < 16 → put (0x10000 + 4 * k) (.slhmWrite k w) ∧ put (0x10040 + 4 * k) (.slhcWrite k w))
        ∧ (k < 4 → w.testBit 0 = false → exec (.registerWrite 0 (0x300 + 8 * k) 4 w) s
          = .next (s.setDie k { s.die k with haltPack := w.testBit 1, halted := (s.die k).halted && !w.testBit 2 }))
        ∧ (k < 4 → s.mf.enabled = true → exec (.registerWrite (k + 1) 0x428 4 w) s = .next (s.setDie k { s.die k with pool := w / 2 ^ 12 % 1024 })
          ∧ exec (.registerWrite (k + 1) 0x420 4 w) s = exec (if w.testBit 0 then .frdbFail k (w / 2 ^ 16) else .frdbServiced k (w / 2 ^ 16)) s
          ∧ (i < 64 → s.event? (.registerWrite (k + 1) (16 * i + 8) 8 w) (fun t => t = s.setDie k { s.die k with
              sqd := Tbl.put (s.die k).sqd i (BitVec.ofNat 128 (w * 2 ^ 64 + (Tbl.get (0 : BitVec 128) (s.die k).sqd i).toNat % 2 ^ 64)) })))
        ∧ exec (.registerWrite 0 0xA0 4 w) s = exec (.ctxbWrite (s.mem.ctxb / 2 ^ 32 * 2 ^ 32 + w)) s
        ∧ exec (.registerWrite 0 0xA4 4 w) s = exec (.ctxbWrite (w * 2 ^ 32 + s.mem.ctxb % 2 ^ 32)) s)
      ∧ (fn < 5 → k < 256 → fn = 0 ∨ s.mf.enabled = true → let e := (s.mf.msixAt fn k).toNat;
        s.bar0 (8 + fn) (16 * k) 8 = some (e % 2 ^ 64) ∧ s.bar0 (8 + fn) (16 * k + 8) 8 = some (e / 2 ^ 64)
        ∧ exec (.registerWrite (8 + fn) 0x1000 8 w) s = .next s
        ∧ (w < 2 ^ 64 → fn * 256 + k ∉ s.mf.pba → s.event? (.registerWrite (8 + fn) (16 * k + 8) 8 w) (fun t => t.mem = s.mem ∧ t.mf.pba = s.mf.pba
          ∧ t.mf.msixAt fn k = BitVec.ofNat 128 (w * 2 ^ 64 + e % 2 ^ 64) ∧ (∀ j, j < 256 → j ≠ k → t.mf.msixAt fn j = s.mf.msixAt fn j)))
        ∧ (w < 2 ^ 64 → w % 2 ^ 33 / 2 ^ 32 = 0 → fn * 256 + k ∈ s.mf.pba → s.event? (.registerWrite (8 + fn) (16 * k + 8) 8 w) (fun t =>
          fn * 256 + k ∉ t.mf.pba ∧ t.mem.out = s.mem.out ++ [{ kind := 3, addr := fn, data := k, mask := e % 2 ^ 64, aux := w % 2 ^ 32 }]))))

/-! ## Resets, the host and the peers -/

/-- O56. A compute-die reset, by DRST or a function-level reset, takes the die's contexts, its L1s and on-chip memories and the state of its die
function with its MSI-X vectors; a live TDI goes to ERROR; the die accepts work again when the reset completes (13 R403, R417, R418). A base-die reset empties
its slice and keeps its generations (13 R403). CTXB and PEERB are ignored once the die functions are enabled, FABN once UALink has trained (13
R402). Cold reset gives the reset state, with what the firmware writes, or the alarm and a halted module (13 R419). Thermal limits halve the
pool, stop placement, and halt the module (13 R425). A host access outside an open window is an Unsupported Request; an open one reads and writes
memory (13 R405, R409). A peer with no local ASID is rejected and noted; a misaligned access is a fault (13 R406, R413). An uncorrectable error
stands in its sector until it is found (05 R154). The model's choices in it: log entries 23, 45, 46 and 47. -/
def Obligations.ResetsAndHost : Prop :=
  ∀ (s : State) (die sl v ok peerb fab off size value ep rasid cmd addr poi core syn tmax : Nat),
    (∀ i f, (i = .functionLevelReset die ∧ f = s.mf ∨ i = .drstGo die ∧ f = { s.mf with drstDie := die }) → s.grids = [] →
      (∀ x < 16, (s.mem.slice x).tlb = []) → s.event? i (fun t =>
        t.mf = { f with msix := offDie' f.msix die, pba := f.pba.filter (fun k => k / 256 != die + 1) } ∧ let d := s.die die;
        let live := d.tdi = .locked ∨ d.tdi = .run;
        (live → t.die die = { tdi := .error, inRst := true, thermal := d.thermal }) ∧ (¬ live → t.die die = { tdi := d.tdi, inRst := true, thermal := d.thermal })
        ∧ (live → ∀ k, (d.ownSlot = some k ∨ k ∈ d.tdiSlots) → (t.mem.key k).revoked = true)
        ∧ (∀ k, k / 2048 = die → Tbl.find t.groups k = none) ∧ (∀ k, k / 2048 ≠ die → Tbl.find t.groups k = Tbl.find s.groups k)
        ∧ (∀ k, k / 64 = die → t.core k = {} ∧ t.mem.lines1 k = [] ∧ Tbl.get [] t.mem.oc k = []) ∧ (∀ k, k / 8 = die → Tbl.find t.ctls k = none)
        ∧ (∀ k, k / 128 = die → Tbl.find t.threads k = none) ∧ Tbl.get [] t.mem.dc die = [] ∧ Tbl.get [] t.mem.dslhm die = s.mf.slhm
        ∧ (∀ k < 4, k ≠ die → t.die k = s.die k) ∧ t.mem.hbm = s.mem.hbm))
    ∧ s.event? (.dieResetComplete die) (fun t => t = s.setDie die { s.die die with inRst := false })
    ∧ ((s.mem.slice sl).spill = [] → (∀ a ∈ s.actors, s.atSlice a sl = none) → s.event? (.bdrstReset sl) (fun t => (t.mem.slice sl).lines = []
      ∧ (t.mem.slice sl).tlb = [] ∧ (t.mem.slice sl).walks = [] ∧ (t.mem.slice sl).held = [] ∧ (t.mem.slice sl).dir = [] ∧ (t.mem.slice sl).inRst = true
      ∧ (t.mem.slice sl).gens = (s.mem.slice sl).gens ∧ (t.mem.slice sl).slhm = s.mf.slhm ∧ ∀ k, k ≠ sl → t.mem.slice k = s.mem.slice k))
    ∧ s.event? (.baseDieResetComplete sl) (fun t => t.mem.slice sl = { s.mem.slice sl with inRst := false, slhc := s.mf.slhc })
    ∧ (s.mf.enabled = true → exec (.ctxbWrite v) s = .next s ∧ exec (.peerbWrite v) s = .next s)
    ∧ (s.mf.enabled = false → exec (.ctxbWrite v) s = .next { s with mem := { s.mem with ctxb := v % 2 ^ 40 } }
      ∧ exec (.peerbWrite v) s = .next { s with mem := { s.mem with peerb := v % 2 ^ 40 } })
    ∧ (s.mf.trained = true → exec (.fabnWrite v) s = .next s)
    ∧ (s.mf.trained = false → exec (.fabnWrite v) s = .next { s with mf := { s.mf with fabn := v % 1024 } })
    ∧ exec .ualinkPortsTrain s = .next { s with mf := { s.mf with trained := true } }
    ∧ s.event? (.moduleColdReset 1 v peerb fab) (fun t => t.groups = [] ∧ t.grids = [] ∧ t.cores = [] ∧ t.ctls = [] ∧ t.dies = State.reset.dies
      ∧ t.mem.hbm = [] ∧ t.mem.slices = State.reset.mem.slices ∧ t.mem.ctxb = v % 2 ^ 40 ∧ t.mem.peerb = peerb % 2 ^ 40 ∧ t.mf.fabn = fab % 1024
      ∧ t.mf.enabled = true ∧ t.mf.halted = false ∧ t.mf.trained = false)
    ∧ (ok ≠ 1 → s.event? (.moduleColdReset ok v peerb fab) (fun t => t.mf.halted = true ∧ t.mf.enabled = false ∧ t.mf.almSrc = 1 ∧ t.groups = []
      ∧ t.grids = []))
    ∧ (let d := s.die die;
      (d.thermal = 0 → s.event? (.thermalLimit die 0 tmax) (fun t => t = s.setDie die { d with savedPool := some d.pool, pool := max 64 (d.pool / 2), thermal := 1 }))
      ∧ (d.thermal = 1 → s.event? (.thermalLimit die 1 tmax) (fun t => t = s.setDie die { d with thermal := 2 }))
      ∧ s.event? (.thermalLimit die 2 tmax) (fun t => t.mf.halted = true ∧ t.mf.trip = true ∧ t.mf.tdie = die ∧ t.mf.tmax = tmax)
      ∧ (d.thermal = 2 → s.event? (.thermalRecover die 1) (fun t => t = s.setDie die { d with thermal := 1 }))
      ∧ (∀ p, d.savedPool = some p → s.event? (.thermalRecover die 0) (fun t => t = s.setDie die { d with thermal := 0, pool := p, savedPool := none })))
    ∧ (s.bar2 die off size = none → exec (.hostBar2Write die off size value ep) s = .next s
      ∧ exec (.hostBar2Read die off size) s = .next { s with mem := { s.mem with out := s.mem.out ++ [{ kind := 5, addr := 2, data := 0 }] } })
    ∧ (let w : W64 := Tbl.get 0 s.mf.h2w die;
      ((s.mf.enabled = false ∨ w.getLsbD 47 = false ∨ w.toNat / 2 ^ 48 = 0 ∨ 2 ^ 36 < off + size) → s.bar2 die off size = none)
      ∧ (s.mf.enabled = true → w.getLsbD 47 = true → w.toNat / 2 ^ 48 ≠ 0 → off + size ≤ 2 ^ 36 →
        let asid := w.toNat / 2 ^ 48;
        let va := w.toNat % 2 ^ 19 * 2 ^ 36 + off;
        (match s.mem.readN (hostWho die) asid va size 0 with
        | (m, .ok (x, p)) => exec (.hostBar2Read die off size) s
          = .next { s with mem := { m with out := m.out ++ [{ kind := 5, addr := if p = 0 then 0 else 3, data := x }] } }
        | (m, .error _) => exec (.hostBar2Read die off size) s = .next { s with mem := { m with out := m.out ++ [{ kind := 5, addr := 1, data := 0 }] } })
        ∧ match s.mem.writeN (hostWho die) asid va size value (if ep = 1 then 2 ^ size - 1 else 0) 0 with
        | (m, none) => exec (.hostBar2Write die off size value ep) s = .next { s with mem := m }
        | (m, some _) => s.event? (.hostBar2Write die off size value ep) (fun t => ({ s with mem := m } : State).offers t die 11 cRemoteFault 0)))
    ∧ (let i : Instr := .peerRequest fab rasid cmd addr value poi;
      let op := cmd / 8 % 16;
      let size := cmd / 128;
      let told (u t : State) (st x p : Nat) : Prop := t.mem.out = u.mem.out ++ [{ kind := 6, addr := st, data := x, poi := p }];
      (s.mf.localAsid fab rasid = none → s.event? i (fun t => t.mf.mfes = s.mf.mfes ||| 4 ∧ told s t 1 0 0 ∧ t.mem.hbm = s.mem.hbm))
      ∧ (∀ asid, s.mf.localAsid fab rasid = some asid →
        let fails (u : State) : Prop := s.event? i (fun t => ∃ f, u.offers t 0 11 cRemoteFault f ∧ f / 256 = fab % 65536 ∧ told u t 1 0 0);
        (cmd % 8 = 4 → s.event? i (fun t => ∃ f, s.offers t 0 11 cRemoteTimeout f ∧ f / 256 = fab % 65536 ∧ t.mem.out = s.mem.out))
        ∧ (cmd % 8 = 3 → match s.claimSlot (hostWho 0) asid addr (value % 2 ^ 256) (value / 2 ^ 256) (value / 2 ^ 160 % 65536)
            (bytePoison 0 (32 + value / 2 ^ 160 % 65536) poi) with
          | (u, .delivered) => s.event? i (fun t => told u t 0 0 0 ∧ t.bufs = u.bufs)
          | (u, .fault _) => fails u
          | (u, _) => s.event? i (fun t => told u t 4 0 0 ∧ t.bufs = u.bufs))
        ∧ (cmd % 8 = 0 → match s.mem.readN (hostWho 0) asid addr size 0 with
          | (m, .ok (x, p)) => s.event? i (fun t => told { s with mem := m } t (if p = 0 then 0 else 3) x (sectorPoison addr size p) ∧ t.mem.hbm = m.hbm)
          | (m, .error _) => fails { s with mem := m })
        ∧ (cmd % 8 = 1 → match s.mem.writeN (hostWho 0) asid addr size value (bytePoison addr size poi) 0 with
          | (m, none) => s.event? i (fun t => told { s with mem := m } t 0 0 0 ∧ t.mem.hbm = m.hbm ∧ t.mem.slices = m.slices)
          | (m, some _) => fails { s with mem := m })
        ∧ (cmd % 8 = 2 → addr % atomSize op ≠ 0 → fails s)
        ∧ (cmd % 8 = 2 → addr % atomSize op = 0 → let w := 8 * atomSize op;
          match s.mem.updG (hostWho 0) asid addr (atomSize op) (fun x => atomNew op x (value % 2 ^ w) (value / 2 ^ w % 2 ^ w)) (poi.testBit 0) with
            | (m, .ok x) => s.event? i (fun t => told { s with mem := m } t 0 x 0 ∧ t.mem.hbm = m.hbm ∧ t.mem.slices = m.slices)
            | (m, .error f) => if f.cause = cPoisonMem ∨ f.cause = cEccUe then s.event? i (fun t => told { s with mem := m } t 3 0 1) else fails { s with mem := m })))
    ∧ (populated addr = true → (Tbl.get ({} : Sec) s.mem.sec (addr / 32)).pois = false → s.event? (.uncorrectableEccError 4 core addr syn) (fun t =>
      t.mem.hbm = s.mem.hbm ∧ ∃ f, t.mem.secFault (addr / 32) = some f ∧ f.cause = cEccUe))
    ∧ (∀ sp < 4, addr < spaceFrames sp * 4096 → s.event? (.uncorrectableEccError sp core addr syn) (fun t => t.mem.oc = s.mem.oc
      ∧ (t.mem.osecAt core (ocKey sp addr / 32)).ecc = some syn))

/-! ## Encodings, steps, safe states -/

/-- O57. The words that the spec prints decode to the instructions they are printed for: one of each of the 12 word formats, and a dictionary
code (10 "Encodings at a glance"; 11 "Encodings"; 12 "Encodings"; 14; 09 R280). -/
def Obligations.DecodeSanity : Prop :=
  decodeTableWord 32 0x00050C1C = some (.iadd 5 6 7 0) ∧ decodeTableWord 32 0x200307FF = some (.iaddi 3 3 0x1FF)
    ∧ decodeTableWord 32 0x50140C40 = some (.stw 0 10 3 4 0) ∧ decodeTableWord 32 0x60070410 = some (.ldlw 0 7 2 16)
    ∧ decodeTableWord 32 0x7C0C0E20 = some (.atomCas32 6 3 2 2 0) ∧ decodeTableWord 32 0x80051870 = some (.sadd 5 6 7 0 0)
    ∧ decodeTableWord 32 0x90030FFF = some (.saddi 3 3 0x3FF) ∧ decodeTableWord 32 0xA0100800 = some (.smovi 4 0x800)
    ∧ decodeTableWord 32 0xB0400040 = some (.bra 2 0x40) ∧ decodeTableWord 32 0xC0082200 = some (.mmaQ 8 2 0 1 0 0 0 0)
    ∧ decodeTableWord 32 0xD1C00000 = some (.cmtSv 0) ∧ decodeTableWord 32 0xE2104820 = some (.sldD 0 8 9 2 0)
    ∧ decodeTableWord 16 0xF405 = some (.dictionaryCode 1 5)

/-- O58. Decoding the encoding of an instruction gives it back, for every instruction of the stream with every operand at every value its field
admits; and a word that decodes is the encoding of a well-formed instruction of the stream (09 R277 to R280, R288 to R293). -/
def Obligations.EncodingRoundTrip : Prop :=
  (∀ i : Instr, i.WellFormed → i.inStream = true →
    ∃ w, encode i = some w ∧ w < 2 ^ encodedBits i ∧ decodeTableWord (encodedBits i) w = some i)
  ∧ (∀ (w : Nat) (i : Instr), w < 2 ^ 32 → decodeWord w = .ok i → i.WellFormed ∧ i.inStream = true ∧ encode i = some w)
  ∧ (∀ (h : Nat) (r : List Nat), h < 2 ^ 16 → isCode h = true → ∃ rb k, decode (h :: r) = .ok (.dictionaryCode rb k, 2)
    ∧ encode (.dictionaryCode rb k) = some h)

/-- O59. A step with a turn scheduled runs the instruction at the PC of its actor: the word there, decoded, or the rebased dictionary
entry that a code names, with the next PC 4 or 2 bytes on, in the state after time has passed and the fetch (09 R280, R282; 06 R190,
R193). The only split of a group may issue when it is live, waits for nothing, and is not held back; a control-core thread when no
instruction holds it. A step whose head of agenda is an event performs the event. An instruction with an access that must wait at its slice, or
with an event record that finds no room, does not happen yet; where no other split of its group can issue, the step then changes nothing. The model's choices in it: log entries 1, 35 and 42. -/
def Obligations.StepRunsDecoded : Prop :=
  ∀ (s : State) (rest : List Move), let u : State := { s.tick with agenda := rest };
    (∀ core g e, let a : Actor := .split core g e;
      let c := u.ctx a;
      let sp := c.split e;
      u.mf.halted = false → (u.die (u.dieOf a)).inRst = false → c.on = true → u.saving a = false → (u.core core).stop = false → c.svc = none →
      e < 4 → c.splits = [(e, sp)] → c.pool = [] → sp.mask ≠ 0 → sp.wait = .none → sp.blk = none → sp.halted = false → c.backoff = false →
      sp.yld = [] → c.tok = .none → u.prepare a = (u.issue a).issuedBy a)
    ∧ (∀ die th, let a : Actor := .ctl die th;
      u.mf.halted = false → (u.die (u.dieOf a)).inRst = false → (u.ctx a).on = true → ((u.ctx a).split 0).blk = none →
        u.prepare a = (u.issue a).issuedBy a)
    ∧ (∀ a, s.agenda = .run a :: rest → u.prepare a = (u.issue a).issuedBy a → let c := u.ctx a;
      let sp := c.split a.slot;
      let noted (v : State) : State := match a with | .split _ _ k => v.setCtx a { v.ctx a with last := k } | _ => v;
      sp.due = false → c.pend = [] → c.memops = [] → c.tok = .none →
      (∀ u1 w i, u.fetch a sp.pc = (u1, .word w) → decodeWord w = .ok i → let v : State := { u1 with cur := ⟨a, sp.pc, sp.pc + 4, w⟩ };
        v.clearFor a i = true → (∀ x, x = v ∨ x = v.setCtx a (v.ctx a) → x.withTokens a i = .run i x) →
        ∃ x, (x = noted v ∨ x = v.setCtx a (v.ctx a)) ∧ ∀ t, exec i x = .next t → t.next = none → u.stalls t = false → step s = .next t)
      ∧ (∀ u1 w e, u.fetch a sp.pc = (u1, .word w) → decodeWord w = .error e → let v : State := { u1 with cur := ⟨a, sp.pc, sp.pc + 4, w⟩ };
        ∀ t, exec (.unassignedEncoding w) (noted v) = .next t → t.next = none → u.stalls t = false → step s = .next t)
      ∧ (∀ u1 h i, u.fetch a sp.pc = (u1, .code h) → u1.expand a (h / 1024 % 4) (h % 1024) = .ok i → let v : State := { u1 with cur := ⟨a, sp.pc, sp.pc + 2, h⟩ };
        v.clearFor a i = true → (∀ x, x = v ∨ x = v.setCtx a (v.ctx a) → x.withTokens a i = .run i x) →
        ∃ x, (x = noted v ∨ x = v.setCtx a (v.ctx a))
          ∧ ∀ t, exec i { x with next := none, cur := { x.cur with word := (encode i).getD 0 } } = .next t → u.stalls t = false → step s = .next t))
    ∧ (∀ a i v t, s.agenda = .run a :: rest → u.prepare a = .run i v → runInstr i v = .next t → u.stalls t = true →
      (match v.cur.act with
        | .split c g k => ∀ j ∈ (u.ctx (.split c g 0)).rotaAfter k, u.prepareSplit (.split c g j) = .idle
        | .ctl _ _ => t.mem.stall = true
        | _ => True) → step s = .next u)
    ∧ (∀ a, s.agenda = .run a :: rest → u.prepare a = .idle → step s = .next u)
    ∧ (∀ i, s.agenda = .event i :: rest → i.WellFormed → i.inStream = false → u.mf.halted = false → step s = u.unlessStalled (exec i u))

/-- O60. In every safe state a step answers a next state, and that state is safe: HBM keeps its canonical form, and what remains of the agenda
can still be performed. No instruction and no event ends a run or leaves HBM in another form. The model's choice in it: log entry 1. -/
def Obligations.SafeStatesStep : Prop :=
  (∀ (i : Instr) (s : State), Memory.wf s.mem.hbm = true →
    ∃ t, exec i s = .next t ∧ Memory.wf t.mem.hbm = true ∧ t.agenda = s.agenda)
  ∧ (∀ s : State, s.safe = true → ∃ t, step s = .next t ∧ t.safe = true)
end

