-- ==== Sys2Proof/Laws/Table.lean ====
section
/-! SUPPORT. Laws of tables: read after write, and the canonical form. -/

namespace Sys2Proof.Machine

variable {α : Type}

@[simp] theorem Tbl.get_nil (d : α) (k : Nat) : Tbl.get d [] k = d := rfl
@[simp] theorem Tbl.find_nil (k : Nat) : Tbl.find ([] : Tbl α) k = none := rfl
@[simp] theorem Tbl.del_nil (k : Nat) : Tbl.del ([] : Tbl α) k = [] := rfl

/-! Read after write. -/

theorem Tbl.get_ins_same (d : α) (t : Tbl α) (k : Nat) (v : α) (h : Tbl.del t k = t) : Tbl.get d (Tbl.ins t k v) k = v := by
  induction t with
  | nil => simp [Tbl.ins, Tbl.get]
  | cons e r ih =>
    obtain ⟨j, u⟩ := e
    have hj : j ≠ k := by
      rintro rfl
      have h1 := congrArg List.length h
      have h2 : ∀ (t : Tbl α) (k : Nat), (Tbl.del t k).length ≤ t.length := by
        intro t k
        induction t with
        | nil => simp
        | cons e r ih => obtain ⟨a, b⟩ := e; simp only [Tbl.del]; split <;> simp <;> omega
      have := h2 r j
      simp [Tbl.del] at h1
      omega
    have hr : Tbl.del r k = r := by simpa [Tbl.del, hj] using h
    simp only [Tbl.ins]
    split
    · simp [Tbl.get]
    · simp [Tbl.get, hj, ih hr]

theorem Tbl.del_del (t : Tbl α) (k : Nat) : Tbl.del (Tbl.del t k) k = Tbl.del t k := by
  induction t with
  | nil => rfl
  | cons e r ih =>
    obtain ⟨j, u⟩ := e
    by_cases hj : j = k <;> simp [Tbl.del, hj, ih]

@[simp] theorem Tbl.get_put_same (d : α) (t : Tbl α) (k : Nat) (v : α) : Tbl.get d (Tbl.put t k v) k = v :=
  Tbl.get_ins_same d _ k v (Tbl.del_del t k)

theorem Tbl.get_del_ne (d : α) (t : Tbl α) {j k : Nat} (h : k ≠ j) : Tbl.get d (Tbl.del t j) k = Tbl.get d t k := by
  induction t with
  | nil => rfl
  | cons e r ih =>
    obtain ⟨i, u⟩ := e
    by_cases hi : i = j
    · subst hi; simp [Tbl.del, Tbl.get, ih, Ne.symm h]
    · simp [Tbl.del, Tbl.get, hi, ih]

@[simp] theorem Tbl.get_del_same (d : α) (t : Tbl α) (k : Nat) : Tbl.get d (Tbl.del t k) k = d := by
  induction t with
  | nil => rfl
  | cons e r ih =>
    obtain ⟨i, u⟩ := e
    by_cases hi : i = k <;> simp [Tbl.del, Tbl.get, hi, ih]

theorem Tbl.get_ins_ne (d : α) (t : Tbl α) {j k : Nat} (v : α) (h : k ≠ j) : Tbl.get d (Tbl.ins t j v) k = Tbl.get d t k := by
  induction t with
  | nil => simp [Tbl.ins, Tbl.get, Ne.symm h]
  | cons e r ih =>
    obtain ⟨i, u⟩ := e
    simp only [Tbl.ins]
    split
    · simp [Tbl.get, Ne.symm h]
    · simp [Tbl.get, ih]

theorem Tbl.get_put_ne (d : α) (t : Tbl α) {j k : Nat} (v : α) (h : k ≠ j) : Tbl.get d (Tbl.put t j v) k = Tbl.get d t k := by
  rw [Tbl.put, Tbl.get_ins_ne d _ v h, Tbl.get_del_ne d t h]

theorem Tbl.del_ins (t : Tbl α) (k : Nat) (v : α) : Tbl.del (Tbl.ins t k v) k = Tbl.del t k := by
  induction t with
  | nil => simp [Tbl.ins, Tbl.del]
  | cons e r ih =>
    obtain ⟨j, u⟩ := e
    simp only [Tbl.ins]
    split
    · simp [Tbl.del]
    · simp [Tbl.del, ih]

@[simp] theorem Tbl.put_put (t : Tbl α) (k : Nat) (v w : α) : Tbl.put (Tbl.put t k v) k w = Tbl.put t k w := by
  simp [Tbl.put, Tbl.del_ins, Tbl.del_del]

/-- What reading any index gives after one is set. -/
theorem Tbl.get_put (d : α) (t : Tbl α) (j k : Nat) (v : α) : Tbl.get d (Tbl.put t j v) k = if k = j then v else Tbl.get d t k := by
  split
  · next h => rw [h]; exact Tbl.get_put_same d t j v
  · next h => exact Tbl.get_put_ne d t v h

/-- The same for the canonical write of a memory. -/
theorem Tbl.get_set [DecidableEq α] (d : α) (t : Tbl α) (j k : Nat) (v : α) :
    Tbl.get d (Tbl.set d t j v) k = if k = j then v else Tbl.get d t k := by
  unfold Tbl.set
  split
  · next hv =>
    split
    · next h => rw [h, hv]; simp
    · next h => exact Tbl.get_del_ne d t h
  · exact Tbl.get_put d t j k v

/-! The canonical form. -/

theorem Tbl.sorted_iff (t : Tbl α) : Tbl.sorted t = true ↔ (t.map Prod.fst).Pairwise (· < ·) := by
  induction t with
  | nil => simp [Tbl.sorted]
  | cons e r ih =>
    cases r with
    | nil => simp [Tbl.sorted]
    | cons f q =>
      obtain ⟨a, u⟩ := e
      obtain ⟨b, w⟩ := f
      simp only [Tbl.sorted, Bool.and_eq_true, decide_eq_true_eq, ih]
      simp only [List.map_cons, List.pairwise_cons, List.mem_cons]
      constructor
      · rintro ⟨hab, hb, hq⟩
        refine ⟨?_, hb, hq⟩
        rintro x (rfl | hx)
        · exact hab
        · exact Nat.lt_trans hab (hb x hx)
      · rintro ⟨ha, hb, hq⟩
        exact ⟨ha b (Or.inl rfl), hb, hq⟩

theorem Tbl.del_eq_filter (t : Tbl α) (k : Nat) : Tbl.del t k = t.filter (fun e => decide (e.1 ≠ k)) := by
  induction t with
  | nil => rfl
  | cons e r ih => obtain ⟨j, u⟩ := e; by_cases h : j = k <;> simp [Tbl.del, h, ih]

theorem Tbl.mem_ins (t : Tbl α) (k : Nat) (v : α) (e : Nat × α) : e ∈ Tbl.ins t k v ↔ e = (k, v) ∨ e ∈ t := by
  induction t with
  | nil => simp [Tbl.ins]
  | cons f r ih =>
    obtain ⟨j, u⟩ := f
    simp only [Tbl.ins]
    split
    · simp
    · simp only [List.mem_cons, ih]; tauto

theorem Tbl.pairwise_ins (t : Tbl α) (k : Nat) (v : α) (h : (t.map Prod.fst).Pairwise (· < ·)) (hk : ∀ e ∈ t, e.1 ≠ k) :
    ((Tbl.ins t k v).map Prod.fst).Pairwise (· < ·) := by
  induction t with
  | nil => simp [Tbl.ins]
  | cons f r ih =>
    obtain ⟨j, u⟩ := f
    simp only [List.map_cons, List.pairwise_cons, List.mem_map] at h
    simp only [Tbl.ins]
    split
    · next hkj =>
      simp only [List.map_cons, List.pairwise_cons, List.mem_cons, List.mem_map]
      refine ⟨?_, ?_, h.2⟩
      · rintro x (rfl | ⟨e, he, rfl⟩)
        · exact hkj
        · exact Nat.lt_trans hkj (h.1 _ ⟨e, he, rfl⟩)
      · rintro x ⟨e, he, rfl⟩
        exact h.1 _ ⟨e, he, rfl⟩
    · next hkj =>
      have hjk : j ≠ k := hk (j, u) (by simp)
      simp only [List.map_cons, List.pairwise_cons, List.mem_map]
      refine ⟨?_, ih h.2 (fun e he => hk e (by simp [he]))⟩
      rintro x ⟨e, he, rfl⟩
      rcases (Tbl.mem_ins r k v e).1 he with rfl | he
      · exact Nat.lt_of_le_of_ne (Nat.le_of_not_lt hkj) hjk
      · exact h.1 _ ⟨e, he, rfl⟩

theorem Tbl.sorted_del (t : Tbl α) (k : Nat) (h : Tbl.sorted t = true) : Tbl.sorted (Tbl.del t k) = true := by
  rw [Tbl.sorted_iff] at *
  rw [Tbl.del_eq_filter]
  exact h.sublist ((List.filter_sublist).map _)

theorem Tbl.sorted_put (t : Tbl α) (k : Nat) (v : α) (h : Tbl.sorted t = true) : Tbl.sorted (Tbl.put t k v) = true := by
  have hd := Tbl.sorted_del t k h
  rw [Tbl.sorted_iff] at *
  refine Tbl.pairwise_ins _ k v hd ?_
  rw [Tbl.del_eq_filter]
  intro e he
  simpa using (List.mem_filter.1 he).2

theorem Tbl.wf_iff [DecidableEq α] (d : α) (t : Tbl α) : Tbl.wf d t = true ↔ Tbl.sorted t = true ∧ ∀ e ∈ t, e.2 ≠ d := by
  simp [Tbl.wf]

theorem Tbl.wf_nil [DecidableEq α] (d : α) : Tbl.wf d ([] : Tbl α) = true := rfl

/-- A canonical write keeps the canonical form. -/
theorem Tbl.wf_set [DecidableEq α] (d : α) (t : Tbl α) (k : Nat) (v : α) (h : Tbl.wf d t = true) : Tbl.wf d (Tbl.set d t k v) = true := by
  rw [Tbl.wf_iff] at *
  unfold Tbl.set
  split
  · refine ⟨Tbl.sorted_del t k h.1, ?_⟩
    rw [Tbl.del_eq_filter]
    exact fun e he => h.2 e (List.mem_filter.1 he).1
  · next hv =>
    refine ⟨Tbl.sorted_put t k v h.1, ?_⟩
    intro e he
    rcases (Tbl.mem_ins _ k v e).1 he with rfl | he
    · exact hv
    · rw [Tbl.del_eq_filter] at he
      exact h.2 e (List.mem_filter.1 he).1

theorem Memory.wf_nil : Memory.wf [] = true := rfl
theorem Memory.wf_set (m : Memory) (k : Nat) (b : BitVec 8) (h : m.wf = true) : Memory.wf (Tbl.set 0 m k b) = true := Tbl.wf_set 0 m k b h

/-- Canonical writes one after another keep the canonical form. -/
theorem Memory.wf_foldl_set {β : Type} (l : List β) (k : β → Nat) (b : β → BitVec 8) (m : Memory) (h : m.wf = true) :
    Memory.wf (l.foldl (fun m e => Tbl.set 0 m (k e) (b e)) m) = true := by
  induction l generalizing m with
  | nil => exact h
  | cons e r ih => exact ih _ (Memory.wf_set m _ _ h)

end Sys2Proof.Machine
end

