-- ==== Sys2Proof/Laws/Memory.lean ====
section
/-! SUPPORT. The operations that write HBM keep its canonical form, and the memory after reset has it (log entry 3). -/

namespace Sys2Proof.Machine

/-- HBM is in its canonical form. -/
def Mem.canon (m : Mem) : Prop := Memory.wf m.hbm = true

/-- A fold of steps that keep a property keeps it. -/
theorem foldl_keeps {α β : Type} (P : α → Prop) (f : α → β → α) (l : List β) (hf : ∀ a b, P a → P (f a b)) (a : α) (h : P a) : P (l.foldl f a) := by
  induction l generalizing a with
  | nil => exact h
  | cons x r ih => exact ih _ (hf a x h)

theorem State.reset_canon : State.reset.mem.canon := rfl

theorem Mem.poke_canon (m : Mem) (pa : Nat) (b : Byte) (h : m.canon) : (m.poke pa b).canon := Memory.wf_set _ _ _ h

/-- A write of bytes of one sector. -/
theorem Mem.putSec_canon (m : Mem) (slot sn : Nat) (bs : List (Nat × Byte)) (poi : Bool) (h : m.canon) : (m.putSec slot sn bs poi).canon := by
  unfold Mem.putSec
  dsimp only [Mem.canon]
  refine foldl_keeps (fun t : Memory => Memory.wf t = true) _ bs (fun t e ht => Memory.wf_set _ _ _ ht) _ ?_
  split
  · exact h
  · exact foldl_keeps (fun t : Memory => Memory.wf t = true) _ _ (fun t e ht => Memory.wf_set _ _ _ ht) _ h

theorem Mem.putNum_canon (m : Mem) (slot pa n x : Nat) (h : m.canon) : (m.putNum slot pa n x).canon := Mem.putSec_canon _ _ _ _ _ h

theorem Mem.scrub_canon (m : Mem) (sn : Nat) (h : m.canon) : (m.scrub sn).canon := by
  unfold Mem.scrub; dsimp only; split <;> exact h

theorem Mem.scrubBlk_canon (m : Mem) (k : Nat) (h : m.canon) : (m.scrubBlk k).canon := by
  unfold Mem.scrubBlk
  dsimp only
  split
  · exact Mem.scrub_canon m _ h
  · exact Mem.scrub_canon _ _ (Mem.scrub_canon m _ h)

theorem Mem.blkPut_canon (m : Mem) (slot k off : Nat) (bs : List (Nat × Byte)) (poi : Bool) (h : m.canon) : (m.blkPut slot k off bs poi).canon := by
  unfold Mem.blkPut
  dsimp only [Mem.canon]
  split
  · exact Mem.putNum_canon m 0 _ 8 _ h
  · exact h

/-- A write of bytes at a location: HBM, a compressed block, behind the host port. -/
theorem Mem.locPut_canon (m : Mem) (slot : Nat) (l : Loc) (bs : List (Nat × Byte)) (poi : Bool) (h : m.canon) : (m.locPut slot l bs poi).canon := by
  cases l with
  | hbm pa => exact Mem.putSec_canon _ _ _ _ _ h
  | far k a => exact h
  | blk k off =>
    exact Mem.blkPut_canon _ slot k off bs poi (Mem.scrubBlk_canon m k h)

theorem Mem.setSlice_canon (m : Mem) (i : Nat) (x : Slice) (h : m.canon) : (m.setSlice i x).canon := h
theorem Mem.updSlice_canon (m : Mem) (i : Nat) (f : Slice → Slice) (h : m.canon) : (m.updSlice i f).canon := h
theorem Mem.setLines1_canon (m : Mem) (c : Nat) (ls : List L1Line) (h : m.canon) : (m.setLines1 c ls).canon := h
theorem Mem.event_canon (m : Mem) (die : Nat) (r : BitVec 128) (h : m.canon) : (m.event die r).canon := h
theorem Mem.send_canon (m : Mem) (ms : List Msg) (h : m.canon) : (m.send ms).canon := h

/-- A line goes to its location, sector by sector. -/
theorem Mem.lineStore_canon (m : Mem) (slot : Nat) (loc : Loc) (d : Tbl Byte) (mask pois : Nat) (h : m.canon) : (m.lineStore slot loc d mask pois).canon := by
  unfold Mem.lineStore
  refine foldl_keeps Mem.canon _ _ (fun m s hm => ?_) m h
  dsimp only
  split
  · exact hm
  · exact Mem.locPut_canon _ _ _ _ _ hm

theorem Mem.setSpl_canon (m : Mem) (k : Nat) (on : Bool) (h : m.canon) : (m.setSpl k on).canon := Mem.putNum_canon _ _ _ _ _ h

/-- The pinned lines of a block go into its units. -/
theorem Mem.unpin_canon (m : Mem) (k : Nat) (h : m.canon) : (m.unpin k).canon :=
  foldl_keeps Mem.canon _ _ (fun m _ hm => Mem.setSlice_canon _ _ _
    (foldl_keeps Mem.canon _ _ (fun m _ hm => Mem.lineStore_canon m _ _ _ _ _ hm) m hm)) m h

/-- A slice line goes to memory or to the spill area. -/
theorem Mem.lineOut_canon (m : Mem) (sl die : Nat) (l : SLine) (h : m.canon) : (m.lineOut sl die l).canon := by
  unfold Mem.lineOut
  split
  · next k off _ =>
    have hc : Mem.canon { m with ctr := m.ctr + 1 } := h
    dsimp only
    split
    · exact Mem.setSpl_canon _ _ _ (Mem.lineStore_canon _ _ _ _ _ _ (Mem.unpin_canon _ k hc))
    · exact Mem.event_canon _ _ _ (Mem.setSpl_canon _ _ _ (Mem.setSlice_canon _ _ _
        (foldl_keeps Mem.canon _ _ (fun m i hm => Mem.updSlice_canon m i _ hm) _ hc)))
  · exact Mem.lineStore_canon _ _ _ _ _ _ h

theorem Mem.lineDrop_canon (m : Mem) (sl die : Nat) (l : SLine) (w : Bool) (h : m.canon) : (m.lineDrop sl die l w).canon := by
  unfold Mem.lineDrop
  dsimp only
  refine Mem.updSlice_canon _ _ _ ?_
  split
  · exact Mem.lineOut_canon _ _ _ _ h
  · exact h

/-- A read of a line from memory. -/
theorem Mem.lineIn_canon (m : Mem) (slot : Nat) (loc : Loc) (secs : Nat) (h : m.canon) : (m.lineIn slot loc secs).1.canon := by
  unfold Mem.lineIn
  split
  · exact h
  · exact h
  · cases loc with
    | hbm a =>
      refine (foldl_keeps Mem.canon _ _ (fun m s hm => ?_) m h : Mem.canon _)
      split
      · exact Mem.scrub_canon _ _ hm
      · exact hm
    | blk k o => exact Mem.scrubBlk_canon m k h
    | far k a => exact h

theorem Mem.lineInsert_canon (m : Mem) (sl die : Nat) (l : SLine) (h : m.canon) : (m.lineInsert sl die l).canon := by
  unfold Mem.lineInsert
  dsimp only
  refine Mem.updSlice_canon _ _ _ ?_
  split
  · exact Mem.lineDrop_canon _ _ _ _ _ h
  · exact h

theorem Mem.lineUse_canon (m : Mem) (sl hint : Nat) (l : SLine) (h : m.canon) : (m.lineUse sl hint l).canon := h

/-- Written bytes are merged at the slice. -/
theorem Mem.merge_canon (m : Mem) (sl die asid line : Nat) (t : Tr) (hint : Nat) (d : Tbl Byte) (mask pois : Nat) (h : m.canon) :
    (m.merge sl die asid line t hint d mask pois).canon := by
  have send (n : Mem) (hn : n.canon) : (if t.loc.isFar = true then n.lineStore t.slot t.loc d mask pois else n).canon := by
    split
    · exact Mem.lineStore_canon _ _ _ _ _ _ hn
    · exact hn
  have hi := Mem.lineIn_canon m t.slot t.loc 15 h
  unfold Mem.merge
  dsimp only
  split
  · exact send _ (Mem.lineUse_canon _ _ _ _ h)
  · split
    · split
      · exact Mem.lineOut_canon _ _ _ _ hi
      · exact Mem.lineStore_canon _ _ _ _ _ _ h
    · split
      · exact send _ hi
      · exact send _ (Mem.lineInsert_canon _ _ _ _ hi)

theorem Mem.flushCw_canon (m : Mem) (e : TEnt) (h : m.canon) : (m.flushCw e).canon := by
  unfold Mem.flushCw
  split
  · exact h
  · exact Mem.putNum_canon _ _ _ _ _ h

/-! Read after write. -/

/-- What an index holds after a list of canonical writes: the last write to it, or what it held. -/
theorem get_foldl_set (bs : List (Nat × Byte)) (b a : Nat) (h : Memory) :
    Tbl.get 0 (bs.foldl (fun h e => Tbl.set 0 h (b + e.1) e.2) h) a
      = match bs.reverse.find? (fun e => b + e.1 == a) with | some e => e.2 | none => Tbl.get 0 h a := by
  induction bs using List.reverseRecOn with
  | nil => rfl
  | append_singleton l e ih =>
    rw [List.foldl_append, List.foldl_cons, List.foldl_nil, Tbl.get_set, List.reverse_append]
    simp only [List.reverse_cons, List.reverse_nil, List.nil_append, List.singleton_append, List.find?_cons]
    by_cases ha : a = b + e.1
    · simp [ha]
    · have : (b + e.1 == a) = false := by simpa using fun q : b + e.1 = a => ha q.symm
      rw [if_neg ha, this]
      exact ih

/-- The same for writes computed from a list of offsets. -/
theorem get_foldl_range (f : Nat → Byte) (b a n : Nat) (h : Memory) :
    Tbl.get 0 ((List.range n).foldl (fun h i => Tbl.set 0 h (b + i) (f i)) h) a = if b ≤ a ∧ a < b + n then f (a - b) else Tbl.get 0 h a := by
  induction n with
  | zero => simp
  | succ n ih =>
    rw [List.range_succ, List.foldl_append, List.foldl_cons, List.foldl_nil, Tbl.get_set, ih]
    by_cases ha : a = b + n
    · subst ha; simp
    · rw [if_neg ha]
      congr 1
      simp only [eq_iff_iff]
      omega

@[simp] theorem Mem.putSec_ver (m : Mem) (slot sn : Nat) (bs : List (Nat × Byte)) (poi : Bool) (k : Nat) : (m.putSec slot sn bs poi).ver k = m.ver k := by
  unfold Mem.putSec; dsimp only; split <;> rfl

theorem Mem.putSec_sec (m : Mem) (slot sn : Nat) (bs : List (Nat × Byte)) (poi : Bool) (k : Nat) (h : k ≠ sn) :
    Tbl.get ({} : Sec) (m.putSec slot sn bs poi).sec k = Tbl.get {} m.sec k := by
  unfold Mem.putSec
  dsimp only
  rw [Tbl.get_put_ne _ _ _ h]
  split <;> rfl

/-- A write of a sector leaves every byte of the other sectors as it reads. -/
theorem Mem.byte_putSec_other (m : Mem) (slot sn : Nat) (bs : List (Nat × Byte)) (poi : Bool) (k pa : Nat) (hb : ∀ e ∈ bs, e.1 < 32) (h : pa / 32 ≠ sn) :
    (m.putSec slot sn bs poi).byte k pa = m.byte k pa := by
  unfold Mem.byte
  rw [Mem.putSec_sec _ _ _ _ _ _ h]
  simp only [Mem.putSec_ver]
  have hn : bs.reverse.find? (fun e => 32 * sn + e.1 == pa) = none := by
    simp only [List.find?_eq_none, List.mem_reverse, beq_iff_eq]
    intro e he hq
    have := hb e he
    omega
  have : Tbl.get 0 (m.putSec slot sn bs poi).hbm pa = Tbl.get 0 m.hbm pa := by
    unfold Mem.putSec
    dsimp only
    rw [get_foldl_set, hn]
    dsimp only
    split
    · rfl
    · dsimp only
      rw [get_foldl_range, if_neg (by omega)]
  rw [this]

/-- A write of a sector: the written bytes read back under its key slot, and the others as they read before under it. -/
theorem Mem.byte_putSec_same (m : Mem) (slot sn b : Nat) (bs : List (Nat × Byte)) (poi : Bool) (hb : b < 32) :
    (m.putSec slot sn bs poi).byte slot (32 * sn + b)
      = match bs.reverse.find? (fun e => e.1 == b) with | some e => e.2 | none => m.byte slot (32 * sn + b) := by
  have hd : (32 * sn + b) / 32 = sn := by omega
  have hs : Tbl.get ({} : Sec) (m.putSec slot sn bs poi).sec sn = ⟨slot, m.ver slot, poi || (!((List.range 32).all (fun i => bs.any (fun e => e.1 == i)))
      && ((Tbl.get ({} : Sec) m.sec sn).pois || (Tbl.get ({} : Sec) m.sec sn).ecc.isSome)), none⟩ := by
    unfold Mem.putSec
    dsimp only
    rw [Tbl.get_put_same]
  have hr : (m.putSec slot sn bs poi).byte slot (32 * sn + b) = Tbl.get 0 (m.putSec slot sn bs poi).hbm (32 * sn + b) := by
    conv_lhs => unfold Mem.byte
    rw [hd, hs]
    simp
  have hf : (fun e : Nat × Byte => 32 * sn + e.1 == 32 * sn + b) = (fun e => e.1 == b) := by
    funext e
    simp
  rw [hr]
  unfold Mem.putSec
  dsimp only
  rw [get_foldl_set, hf]
  cases hfind : bs.reverse.find? (fun e => e.1 == b) with
  | some e => rfl
  | none =>
    dsimp only
    split
    · next hc =>
      simp only [Bool.or_eq_true, Bool.and_eq_true, decide_eq_true_eq] at hc
      rcases hc with hc | hc
      · simp [Mem.byte, hd, hc.1, hc.2]
      · simp only [List.all_eq_true, List.mem_range, List.any_eq_true, beq_iff_eq] at hc
        obtain ⟨e, he, hq⟩ := hc b hb
        simp only [List.find?_eq_none, List.mem_reverse, beq_iff_eq] at hfind
        exact absurd hq (hfind e he)
    · dsimp only
      rw [get_foldl_range (fun i => m.byte slot (32 * sn + i)), if_pos (by omega)]
      congr 1
      omega

end Sys2Proof.Machine
end

