-- ==== Sys2Proof/Laws/PerInstr.lean ====
section
/-! SUPPORT. Per-instruction statements about encodings: a well-formed instruction of the stream has a word of its length whose first four
bits are no dictionary code's (09 R277 to R280), and no event has one. -/

namespace Sys2Proof.Laws.Encoding

/-- What holds of the encoding of one instruction. -/
def Statement (i : Instr) : Prop :=
  i.WellFormed → match encode i with
    | none => i.inStream = false
    | some w => i.inStream = true ∧ w < 2 ^ encodedBits i ∧ (encodedBits i = 32 → w / 2 ^ 28 < 15)

theorem of_word {i : Instr} {w : Nat} (e : encode i = some w) (b : encodedBits i = 32) (s : i.inStream = true)
    (h : i.wf = true → w < 2 ^ 32 ∧ w / 2 ^ 28 < 15) : Statement i := by
  intro hw
  rw [e]
  exact ⟨s, by rw [b]; exact (h hw).1, fun _ => (h hw).2⟩

theorem of_none {i : Instr} (e : encode i = none) (s : i.inStream = false) : Statement i := by
  intro _
  rw [e]
  exact s

theorem iadd (d : Nat) (a : Nat) (b : Nat) (m : Nat) : Statement (.iadd d a b m) := of_word rfl rfl rfl fun h => by
  have h : (decide (d < 128) && decide (a < 128) && decide (b < 128) && decide (m < 4)) = true := h
  simp only [Bool.and_eq_true, decide_eq_true_eq] at h
  omega
theorem isub (d : Nat) (a : Nat) (b : Nat) (m : Nat) : Statement (.isub d a b m) := of_word rfl rfl rfl fun h => by
  have h : (decide (d < 128) && decide (a < 128) && decide (b < 128) && decide (m < 4)) = true := h
  simp only [Bool.and_eq_true, decide_eq_true_eq] at h
  omega
theorem imul (d : Nat) (a : Nat) (b : Nat) (m : Nat) : Statement (.imul d a b m) := of_word rfl rfl rfl fun h => by
  have h : (decide (d < 128) && decide (a < 128) && decide (b < 128) && decide (m < 4)) = true := h
  simp only [Bool.and_eq_true, decide_eq_true_eq] at h
  omega
theorem imulh (d : Nat) (a : Nat) (b : Nat) (m : Nat) : Statement (.imulh d a b m) := of_word rfl rfl rfl fun h => by
  have h : (decide (d < 128) && decide (a < 128) && decide (b < 128) && decide (m < 4)) = true := h
  simp only [Bool.and_eq_true, decide_eq_true_eq] at h
  omega
theorem imad (d : Nat) (a : Nat) (b : Nat) (m : Nat) : Statement (.imad d a b m) := of_word rfl rfl rfl fun h => by
  have h : (decide (d < 128) && decide (a < 128) && decide (b < 128) && decide (m < 4)) = true := h
  simp only [Bool.and_eq_true, decide_eq_true_eq] at h
  omega
theorem imin (d : Nat) (a : Nat) (b : Nat) (m : Nat) : Statement (.imin d a b m) := of_word rfl rfl rfl fun h => by
  have h : (decide (d < 128) && decide (a < 128) && decide (b < 128) && decide (m < 4)) = true := h
  simp only [Bool.and_eq_true, decide_eq_true_eq] at h
  omega
theorem imax (d : Nat) (a : Nat) (b : Nat) (m : Nat) : Statement (.imax d a b m) := of_word rfl rfl rfl fun h => by
  have h : (decide (d < 128) && decide (a < 128) && decide (b < 128) && decide (m < 4)) = true := h
  simp only [Bool.and_eq_true, decide_eq_true_eq] at h
  omega
theorem iabs (d : Nat) (a : Nat) (b : Nat) (m : Nat) : Statement (.iabs d a b m) := of_word rfl rfl rfl fun h => by
  have h : (decide (d < 128) && decide (a < 128) && decide (b < 128) && decide (m < 4)) = true := h
  simp only [Bool.and_eq_true, decide_eq_true_eq] at h
  omega
theorem and32 (d : Nat) (a : Nat) (b : Nat) (m : Nat) : Statement (.and32 d a b m) := of_word rfl rfl rfl fun h => by
  have h : (decide (d < 128) && decide (a < 128) && decide (b < 128) && decide (m < 4)) = true := h
  simp only [Bool.and_eq_true, decide_eq_true_eq] at h
  omega
theorem or32 (d : Nat) (a : Nat) (b : Nat) (m : Nat) : Statement (.or32 d a b m) := of_word rfl rfl rfl fun h => by
  have h : (decide (d < 128) && decide (a < 128) && decide (b < 128) && decide (m < 4)) = true := h
  simp only [Bool.and_eq_true, decide_eq_true_eq] at h
  omega
theorem xor32 (d : Nat) (a : Nat) (b : Nat) (m : Nat) : Statement (.xor32 d a b m) := of_word rfl rfl rfl fun h => by
  have h : (decide (d < 128) && decide (a < 128) && decide (b < 128) && decide (m < 4)) = true := h
  simp only [Bool.and_eq_true, decide_eq_true_eq] at h
  omega
theorem andn (d : Nat) (a : Nat) (b : Nat) (m : Nat) : Statement (.andn d a b m) := of_word rfl rfl rfl fun h => by
  have h : (decide (d < 128) && decide (a < 128) && decide (b < 128) && decide (m < 4)) = true := h
  simp only [Bool.and_eq_true, decide_eq_true_eq] at h
  omega
theorem shl (d : Nat) (a : Nat) (b : Nat) (m : Nat) : Statement (.shl d a b m) := of_word rfl rfl rfl fun h => by
  have h : (decide (d < 128) && decide (a < 128) && decide (b < 128) && decide (m < 4)) = true := h
  simp only [Bool.and_eq_true, decide_eq_true_eq] at h
  omega
theorem shr (d : Nat) (a : Nat) (b : Nat) (m : Nat) : Statement (.shr d a b m) := of_word rfl rfl rfl fun h => by
  have h : (decide (d < 128) && decide (a < 128) && decide (b < 128) && decide (m < 4)) = true := h
  simp only [Bool.and_eq_true, decide_eq_true_eq] at h
  omega
theorem sar (d : Nat) (a : Nat) (b : Nat) (m : Nat) : Statement (.sar d a b m) := of_word rfl rfl rfl fun h => by
  have h : (decide (d < 128) && decide (a < 128) && decide (b < 128) && decide (m < 4)) = true := h
  simp only [Bool.and_eq_true, decide_eq_true_eq] at h
  omega
theorem rot (d : Nat) (a : Nat) (b : Nat) (m : Nat) : Statement (.rot d a b m) := of_word rfl rfl rfl fun h => by
  have h : (decide (d < 128) && decide (a < 128) && decide (b < 128) && decide (m < 4)) = true := h
  simp only [Bool.and_eq_true, decide_eq_true_eq] at h
  omega
theorem popc (d : Nat) (a : Nat) (b : Nat) (m : Nat) : Statement (.popc d a b m) := of_word rfl rfl rfl fun h => by
  have h : (decide (d < 128) && decide (a < 128) && decide (b < 128) && decide (m < 4)) = true := h
  simp only [Bool.and_eq_true, decide_eq_true_eq] at h
  omega
theorem clz (d : Nat) (a : Nat) (b : Nat) (m : Nat) : Statement (.clz d a b m) := of_word rfl rfl rfl fun h => by
  have h : (decide (d < 128) && decide (a < 128) && decide (b < 128) && decide (m < 4)) = true := h
  simp only [Bool.and_eq_true, decide_eq_true_eq] at h
  omega
theorem brev (d : Nat) (a : Nat) (b : Nat) (m : Nat) : Statement (.brev d a b m) := of_word rfl rfl rfl fun h => by
  have h : (decide (d < 128) && decide (a < 128) && decide (b < 128) && decide (m < 4)) = true := h
  simp only [Bool.and_eq_true, decide_eq_true_eq] at h
  omega
theorem bfx (d : Nat) (a : Nat) (b : Nat) (m : Nat) : Statement (.bfx d a b m) := of_word rfl rfl rfl fun h => by
  have h : (decide (d < 128) && decide (a < 128) && decide (b < 128) && decide (m < 4)) = true := h
  simp only [Bool.and_eq_true, decide_eq_true_eq] at h
  omega
theorem bfi (d : Nat) (a : Nat) (b : Nat) (m : Nat) : Statement (.bfi d a b m) := of_word rfl rfl rfl fun h => by
  have h : (decide (d < 128) && decide (a < 128) && decide (b < 128) && decide (m < 4)) = true := h
  simp only [Bool.and_eq_true, decide_eq_true_eq] at h
  omega
theorem bysel (d : Nat) (a : Nat) (b : Nat) (m : Nat) : Statement (.bysel d a b m) := of_word rfl rfl rfl fun h => by
  have h : (decide (d < 128) && decide (a < 128) && decide (b < 128) && decide (m < 4)) = true := h
  simp only [Bool.and_eq_true, decide_eq_true_eq] at h
  omega
theorem addc (d : Nat) (a : Nat) (b : Nat) (m : Nat) : Statement (.addc d a b m) := of_word rfl rfl rfl fun h => by
  have h : (decide (d < 128) && decide (a < 128) && decide (b < 128) && decide (m < 4)) = true := h
  simp only [Bool.and_eq_true, decide_eq_true_eq] at h
  omega
theorem sad (d : Nat) (a : Nat) (b : Nat) (m : Nat) : Statement (.sad d a b m) := of_word rfl rfl rfl fun h => by
  have h : (decide (d < 128) && decide (a < 128) && decide (b < 128) && decide (m < 4)) = true := h
  simp only [Bool.and_eq_true, decide_eq_true_eq] at h
  omega
theorem isetLt (d : Nat) (a : Nat) (b : Nat) (m : Nat) : Statement (.isetLt d a b m) := of_word rfl rfl rfl fun h => by
  have h : (decide (d < 128) && decide (a < 128) && decide (b < 128) && decide (m < 4)) = true := h
  simp only [Bool.and_eq_true, decide_eq_true_eq] at h
  omega
theorem isetLe (d : Nat) (a : Nat) (b : Nat) (m : Nat) : Statement (.isetLe d a b m) := of_word rfl rfl rfl fun h => by
  have h : (decide (d < 128) && decide (a < 128) && decide (b < 128) && decide (m < 4)) = true := h
  simp only [Bool.and_eq_true, decide_eq_true_eq] at h
  omega
theorem isetEq (d : Nat) (a : Nat) (b : Nat) (m : Nat) : Statement (.isetEq d a b m) := of_word rfl rfl rfl fun h => by
  have h : (decide (d < 128) && decide (a < 128) && decide (b < 128) && decide (m < 4)) = true := h
  simp only [Bool.and_eq_true, decide_eq_true_eq] at h
  omega
theorem isetNe (d : Nat) (a : Nat) (b : Nat) (m : Nat) : Statement (.isetNe d a b m) := of_word rfl rfl rfl fun h => by
  have h : (decide (d < 128) && decide (a < 128) && decide (b < 128) && decide (m < 4)) = true := h
  simp only [Bool.and_eq_true, decide_eq_true_eq] at h
  omega
theorem sel (d : Nat) (a : Nat) (b : Nat) (m : Nat) : Statement (.sel d a b m) := of_word rfl rfl rfl fun h => by
  have h : (decide (d < 128) && decide (a < 128) && decide (b < 128) && decide (m < 4)) = true := h
  simp only [Bool.and_eq_true, decide_eq_true_eq] at h
  omega
theorem plop (d : Nat) (a : Nat) (b : Nat) (m : Nat) : Statement (.plop d a b m) := of_word rfl rfl rfl fun h => by
  have h : (decide (d < 128) && decide (a < 128) && decide (b < 128) && decide (m < 4)) = true := h
  simp only [Bool.and_eq_true, decide_eq_true_eq] at h
  omega
theorem mov (d : Nat) (a : Nat) (b : Nat) (m : Nat) : Statement (.mov d a b m) := of_word rfl rfl rfl fun h => by
  have h : (decide (d < 128) && decide (a < 128) && decide (b < 128) && decide (m < 4) && selOk [0, 3] m) = true := h
  simp only [Bool.and_eq_true, decide_eq_true_eq] at h
  omega
theorem bcast (d : Nat) (a : Nat) (b : Nat) (m : Nat) : Statement (.bcast d a b m) := of_word rfl rfl rfl fun h => by
  have h : (decide (d < 128) && decide (a < 128) && decide (b < 128) && decide (m < 4) && selOk [1] m) = true := h
  simp only [Bool.and_eq_true, decide_eq_true_eq] at h
  omega
theorem getl (d : Nat) (a : Nat) (b : Nat) (m : Nat) : Statement (.getl d a b m) := of_word rfl rfl rfl fun h => by
  have h : (decide (d < 128) && decide (a < 128) && decide (b < 128) && decide (m < 4) && selOk [2] m) = true := h
  simp only [Bool.and_eq_true, decide_eq_true_eq] at h
  omega
theorem shfl (d : Nat) (a : Nat) (b : Nat) (m : Nat) : Statement (.shfl d a b m) := of_word rfl rfl rfl fun h => by
  have h : (decide (d < 128) && decide (a < 128) && decide (b < 128) && decide (m < 4)) = true := h
  simp only [Bool.and_eq_true, decide_eq_true_eq] at h
  omega
theorem fadd (d : Nat) (a : Nat) (b : Nat) (m : Nat) : Statement (.fadd d a b m) := of_word rfl rfl rfl fun h => by
  have h : (decide (d < 128) && decide (a < 128) && decide (b < 128) && decide (m < 4)) = true := h
  simp only [Bool.and_eq_true, decide_eq_true_eq] at h
  omega
theorem fsub (d : Nat) (a : Nat) (b : Nat) (m : Nat) : Statement (.fsub d a b m) := of_word rfl rfl rfl fun h => by
  have h : (decide (d < 128) && decide (a < 128) && decide (b < 128) && decide (m < 4)) = true := h
  simp only [Bool.and_eq_true, decide_eq_true_eq] at h
  omega
theorem fmul (d : Nat) (a : Nat) (b : Nat) (m : Nat) : Statement (.fmul d a b m) := of_word rfl rfl rfl fun h => by
  have h : (decide (d < 128) && decide (a < 128) && decide (b < 128) && decide (m < 4)) = true := h
  simp only [Bool.and_eq_true, decide_eq_true_eq] at h
  omega
theorem ffma (d : Nat) (a : Nat) (b : Nat) (m : Nat) : Statement (.ffma d a b m) := of_word rfl rfl rfl fun h => by
  have h : (decide (d < 128) && decide (a < 128) && decide (b < 128) && decide (m < 4)) = true := h
  simp only [Bool.and_eq_true, decide_eq_true_eq] at h
  omega
theorem fmin (d : Nat) (a : Nat) (b : Nat) (m : Nat) : Statement (.fmin d a b m) := of_word rfl rfl rfl fun h => by
  have h : (decide (d < 128) && decide (a < 128) && decide (b < 128) && decide (m < 4)) = true := h
  simp only [Bool.and_eq_true, decide_eq_true_eq] at h
  omega
theorem fmax (d : Nat) (a : Nat) (b : Nat) (m : Nat) : Statement (.fmax d a b m) := of_word rfl rfl rfl fun h => by
  have h : (decide (d < 128) && decide (a < 128) && decide (b < 128) && decide (m < 4)) = true := h
  simp only [Bool.and_eq_true, decide_eq_true_eq] at h
  omega
theorem fsetLt (d : Nat) (a : Nat) (b : Nat) (m : Nat) : Statement (.fsetLt d a b m) := of_word rfl rfl rfl fun h => by
  have h : (decide (d < 128) && decide (a < 128) && decide (b < 128) && decide (m < 4)) = true := h
  simp only [Bool.and_eq_true, decide_eq_true_eq] at h
  omega
theorem fsetLe (d : Nat) (a : Nat) (b : Nat) (m : Nat) : Statement (.fsetLe d a b m) := of_word rfl rfl rfl fun h => by
  have h : (decide (d < 128) && decide (a < 128) && decide (b < 128) && decide (m < 4)) = true := h
  simp only [Bool.and_eq_true, decide_eq_true_eq] at h
  omega
theorem fsetEq (d : Nat) (a : Nat) (b : Nat) (m : Nat) : Statement (.fsetEq d a b m) := of_word rfl rfl rfl fun h => by
  have h : (decide (d < 128) && decide (a < 128) && decide (b < 128) && decide (m < 4)) = true := h
  simp only [Bool.and_eq_true, decide_eq_true_eq] at h
  omega
theorem fsetNe (d : Nat) (a : Nat) (b : Nat) (m : Nat) : Statement (.fsetNe d a b m) := of_word rfl rfl rfl fun h => by
  have h : (decide (d < 128) && decide (a < 128) && decide (b < 128) && decide (m < 4)) = true := h
  simp only [Bool.and_eq_true, decide_eq_true_eq] at h
  omega
theorem frcp (d : Nat) (a : Nat) (b : Nat) (m : Nat) : Statement (.frcp d a b m) := of_word rfl rfl rfl fun h => by
  have h : (decide (d < 128) && decide (a < 128) && decide (b < 128) && decide (m < 4)) = true := h
  simp only [Bool.and_eq_true, decide_eq_true_eq] at h
  omega
theorem frsq (d : Nat) (a : Nat) (b : Nat) (m : Nat) : Statement (.frsq d a b m) := of_word rfl rfl rfl fun h => by
  have h : (decide (d < 128) && decide (a < 128) && decide (b < 128) && decide (m < 4)) = true := h
  simp only [Bool.and_eq_true, decide_eq_true_eq] at h
  omega
theorem fsqrt (d : Nat) (a : Nat) (b : Nat) (m : Nat) : Statement (.fsqrt d a b m) := of_word rfl rfl rfl fun h => by
  have h : (decide (d < 128) && decide (a < 128) && decide (b < 128) && decide (m < 4)) = true := h
  simp only [Bool.and_eq_true, decide_eq_true_eq] at h
  omega
theorem fexp2 (d : Nat) (a : Nat) (b : Nat) (m : Nat) : Statement (.fexp2 d a b m) := of_word rfl rfl rfl fun h => by
  have h : (decide (d < 128) && decide (a < 128) && decide (b < 128) && decide (m < 4)) = true := h
  simp only [Bool.and_eq_true, decide_eq_true_eq] at h
  omega
theorem flog2 (d : Nat) (a : Nat) (b : Nat) (m : Nat) : Statement (.flog2 d a b m) := of_word rfl rfl rfl fun h => by
  have h : (decide (d < 128) && decide (a < 128) && decide (b < 128) && decide (m < 4)) = true := h
  simp only [Bool.and_eq_true, decide_eq_true_eq] at h
  omega
theorem fsin (d : Nat) (a : Nat) (b : Nat) (m : Nat) : Statement (.fsin d a b m) := of_word rfl rfl rfl fun h => by
  have h : (decide (d < 128) && decide (a < 128) && decide (b < 128) && decide (m < 4)) = true := h
  simp only [Bool.and_eq_true, decide_eq_true_eq] at h
  omega
theorem fcos (d : Nat) (a : Nat) (b : Nat) (m : Nat) : Statement (.fcos d a b m) := of_word rfl rfl rfl fun h => by
  have h : (decide (d < 128) && decide (a < 128) && decide (b < 128) && decide (m < 4)) = true := h
  simp only [Bool.and_eq_true, decide_eq_true_eq] at h
  omega
theorem ftanh (d : Nat) (a : Nat) (b : Nat) (m : Nat) : Statement (.ftanh d a b m) := of_word rfl rfl rfl fun h => by
  have h : (decide (d < 128) && decide (a < 128) && decide (b < 128) && decide (m < 4)) = true := h
  simp only [Bool.and_eq_true, decide_eq_true_eq] at h
  omega
theorem fclass (d : Nat) (a : Nat) (b : Nat) (m : Nat) : Statement (.fclass d a b m) := of_word rfl rfl rfl fun h => by
  have h : (decide (d < 128) && decide (a < 128) && decide (b < 128) && decide (m < 4)) = true := h
  simp only [Bool.and_eq_true, decide_eq_true_eq] at h
  omega
theorem dadd (d : Nat) (a : Nat) (b : Nat) (m : Nat) : Statement (.dadd d a b m) := of_word rfl rfl rfl fun h => by
  have h : (decide (d < 128) && decide (a < 128) && decide (b < 128) && decide (m < 4)) = true := h
  simp only [Bool.and_eq_true, decide_eq_true_eq] at h
  omega
theorem dmul (d : Nat) (a : Nat) (b : Nat) (m : Nat) : Statement (.dmul d a b m) := of_word rfl rfl rfl fun h => by
  have h : (decide (d < 128) && decide (a < 128) && decide (b < 128) && decide (m < 4)) = true := h
  simp only [Bool.and_eq_true, decide_eq_true_eq] at h
  omega
theorem dfma (d : Nat) (a : Nat) (b : Nat) (m : Nat) : Statement (.dfma d a b m) := of_word rfl rfl rfl fun h => by
  have h : (decide (d < 128) && decide (a < 128) && decide (b < 128) && decide (m < 4)) = true := h
  simp only [Bool.and_eq_true, decide_eq_true_eq] at h
  omega
theorem dmin (d : Nat) (a : Nat) (b : Nat) (m : Nat) : Statement (.dmin d a b m) := of_word rfl rfl rfl fun h => by
  have h : (decide (d < 128) && decide (a < 128) && decide (b < 128) && decide (m < 4) && selOk [0, 2] m) = true := h
  simp only [Bool.and_eq_true, decide_eq_true_eq] at h
  omega
theorem dmax (d : Nat) (a : Nat) (b : Nat) (m : Nat) : Statement (.dmax d a b m) := of_word rfl rfl rfl fun h => by
  have h : (decide (d < 128) && decide (a < 128) && decide (b < 128) && decide (m < 4) && selOk [1, 3] m) = true := h
  simp only [Bool.and_eq_true, decide_eq_true_eq] at h
  omega
theorem dset (d : Nat) (a : Nat) (b : Nat) (m : Nat) : Statement (.dset d a b m) := of_word rfl rfl rfl fun h => by
  have h : (decide (d < 128) && decide (a < 128) && decide (b < 128) && decide (m < 4)) = true := h
  simp only [Bool.and_eq_true, decide_eq_true_eq] at h
  omega
theorem hadd2 (d : Nat) (a : Nat) (b : Nat) (m : Nat) : Statement (.hadd2 d a b m) := of_word rfl rfl rfl fun h => by
  have h : (decide (d < 128) && decide (a < 128) && decide (b < 128) && decide (m < 4)) = true := h
  simp only [Bool.and_eq_true, decide_eq_true_eq] at h
  omega
theorem hsub2 (d : Nat) (a : Nat) (b : Nat) (m : Nat) : Statement (.hsub2 d a b m) := of_word rfl rfl rfl fun h => by
  have h : (decide (d < 128) && decide (a < 128) && decide (b < 128) && decide (m < 4)) = true := h
  simp only [Bool.and_eq_true, decide_eq_true_eq] at h
  omega
theorem hmul2 (d : Nat) (a : Nat) (b : Nat) (m : Nat) : Statement (.hmul2 d a b m) := of_word rfl rfl rfl fun h => by
  have h : (decide (d < 128) && decide (a < 128) && decide (b < 128) && decide (m < 4)) = true := h
  simp only [Bool.and_eq_true, decide_eq_true_eq] at h
  omega
theorem hfma2 (d : Nat) (a : Nat) (b : Nat) (m : Nat) : Statement (.hfma2 d a b m) := of_word rfl rfl rfl fun h => by
  have h : (decide (d < 128) && decide (a < 128) && decide (b < 128) && decide (m < 4)) = true := h
  simp only [Bool.and_eq_true, decide_eq_true_eq] at h
  omega
theorem hmax2 (d : Nat) (a : Nat) (b : Nat) (m : Nat) : Statement (.hmax2 d a b m) := of_word rfl rfl rfl fun h => by
  have h : (decide (d < 128) && decide (a < 128) && decide (b < 128) && decide (m < 4)) = true := h
  simp only [Bool.and_eq_true, decide_eq_true_eq] at h
  omega
theorem maxd2 (d : Nat) (a : Nat) (b : Nat) (m : Nat) : Statement (.maxd2 d a b m) := of_word rfl rfl rfl fun h => by
  have h : (decide (d < 128) && decide (a < 128) && decide (b < 128) && decide (m < 4)) = true := h
  simp only [Bool.and_eq_true, decide_eq_true_eq] at h
  omega
theorem cvt (d : Nat) (a : Nat) (b : Nat) (m : Nat) : Statement (.cvt d a b m) := of_word rfl rfl rfl fun h => by
  have h : (decide (d < 128) && decide (a < 128) && decide (b < 128) && decide (m < 4)) = true := h
  simp only [Bool.and_eq_true, decide_eq_true_eq] at h
  omega
theorem cvtxPack (d : Nat) (a : Nat) (b : Nat) (m : Nat) : Statement (.cvtxPack d a b m) := of_word rfl rfl rfl fun h => by
  have h : (decide (d < 128) && decide (a < 128) && decide (b < 128) && decide (m < 4) && selOk [0] m) = true := h
  simp only [Bool.and_eq_true, decide_eq_true_eq] at h
  omega
theorem cvtxUnpack (d : Nat) (a : Nat) (b : Nat) (m : Nat) : Statement (.cvtxUnpack d a b m) := of_word rfl rfl rfl fun h => by
  have h : (decide (d < 128) && decide (a < 128) && decide (b < 128) && decide (m < 4) && selOk [1] m) = true := h
  simp only [Bool.and_eq_true, decide_eq_true_eq] at h
  omega
theorem cvtxDecode (d : Nat) (a : Nat) (b : Nat) (m : Nat) : Statement (.cvtxDecode d a b m) := of_word rfl rfl rfl fun h => by
  have h : (decide (d < 128) && decide (a < 128) && decide (b < 128) && decide (m < 4) && selOk [2] m) = true := h
  simp only [Bool.and_eq_true, decide_eq_true_eq] at h
  omega
theorem cvtxEncode (d : Nat) (a : Nat) (b : Nat) (m : Nat) : Statement (.cvtxEncode d a b m) := of_word rfl rfl rfl fun h => by
  have h : (decide (d < 128) && decide (a < 128) && decide (b < 128) && decide (m < 4) && selOk [3] m) = true := h
  simp only [Bool.and_eq_true, decide_eq_true_eq] at h
  omega
theorem iaddi (d : Nat) (a : Nat) (imm : Nat) : Statement (.iaddi d a imm) := of_word rfl rfl rfl fun h => by
  have h : (decide (d < 128) && decide (a < 128) && decide (imm < 512)) = true := h
  simp only [Bool.and_eq_true, decide_eq_true_eq] at h
  omega
theorem imuli (d : Nat) (a : Nat) (imm : Nat) : Statement (.imuli d a imm) := of_word rfl rfl rfl fun h => by
  have h : (decide (d < 128) && decide (a < 128) && decide (imm < 512)) = true := h
  simp only [Bool.and_eq_true, decide_eq_true_eq] at h
  omega
theorem andi (d : Nat) (a : Nat) (imm : Nat) : Statement (.andi d a imm) := of_word rfl rfl rfl fun h => by
  have h : (decide (d < 128) && decide (a < 128) && decide (imm < 512)) = true := h
  simp only [Bool.and_eq_true, decide_eq_true_eq] at h
  omega
theorem ori (d : Nat) (a : Nat) (imm : Nat) : Statement (.ori d a imm) := of_word rfl rfl rfl fun h => by
  have h : (decide (d < 128) && decide (a < 128) && decide (imm < 512)) = true := h
  simp only [Bool.and_eq_true, decide_eq_true_eq] at h
  omega
theorem xori (d : Nat) (a : Nat) (imm : Nat) : Statement (.xori d a imm) := of_word rfl rfl rfl fun h => by
  have h : (decide (d < 128) && decide (a < 128) && decide (imm < 512)) = true := h
  simp only [Bool.and_eq_true, decide_eq_true_eq] at h
  omega
theorem shli (d : Nat) (a : Nat) (imm : Nat) : Statement (.shli d a imm) := of_word rfl rfl rfl fun h => by
  have h : (decide (d < 128) && decide (a < 128) && decide (imm < 512)) = true := h
  simp only [Bool.and_eq_true, decide_eq_true_eq] at h
  omega
theorem shri (d : Nat) (a : Nat) (imm : Nat) : Statement (.shri d a imm) := of_word rfl rfl rfl fun h => by
  have h : (decide (d < 128) && decide (a < 128) && decide (imm < 512)) = true := h
  simp only [Bool.and_eq_true, decide_eq_true_eq] at h
  omega
theorem sari (d : Nat) (a : Nat) (imm : Nat) : Statement (.sari d a imm) := of_word rfl rfl rfl fun h => by
  have h : (decide (d < 128) && decide (a < 128) && decide (imm < 512)) = true := h
  simp only [Bool.and_eq_true, decide_eq_true_eq] at h
  omega
theorem isetiLt (d : Nat) (a : Nat) (imm : Nat) : Statement (.isetiLt d a imm) := of_word rfl rfl rfl fun h => by
  have h : (decide (d < 128) && decide (a < 128) && decide (imm < 512)) = true := h
  simp only [Bool.and_eq_true, decide_eq_true_eq] at h
  omega
theorem isetiLe (d : Nat) (a : Nat) (imm : Nat) : Statement (.isetiLe d a imm) := of_word rfl rfl rfl fun h => by
  have h : (decide (d < 128) && decide (a < 128) && decide (imm < 512)) = true := h
  simp only [Bool.and_eq_true, decide_eq_true_eq] at h
  omega
theorem isetiEq (d : Nat) (a : Nat) (imm : Nat) : Statement (.isetiEq d a imm) := of_word rfl rfl rfl fun h => by
  have h : (decide (d < 128) && decide (a < 128) && decide (imm < 512)) = true := h
  simp only [Bool.and_eq_true, decide_eq_true_eq] at h
  omega
theorem isetiNe (d : Nat) (a : Nat) (imm : Nat) : Statement (.isetiNe d a imm) := of_word rfl rfl rfl fun h => by
  have h : (decide (d < 128) && decide (a < 128) && decide (imm < 512)) = true := h
  simp only [Bool.and_eq_true, decide_eq_true_eq] at h
  omega
theorem isetiLtn (d : Nat) (a : Nat) (imm : Nat) : Statement (.isetiLtn d a imm) := of_word rfl rfl rfl fun h => by
  have h : (decide (d < 128) && decide (a < 128) && decide (imm < 512)) = true := h
  simp only [Bool.and_eq_true, decide_eq_true_eq] at h
  omega
theorem isetiLen (d : Nat) (a : Nat) (imm : Nat) : Statement (.isetiLen d a imm) := of_word rfl rfl rfl fun h => by
  have h : (decide (d < 128) && decide (a < 128) && decide (imm < 512)) = true := h
  simp only [Bool.and_eq_true, decide_eq_true_eq] at h
  omega
theorem movi (d : Nat) (a : Nat) (imm : Nat) : Statement (.movi d a imm) := of_word rfl rfl rfl fun h => by
  have h : (decide (d < 128) && decide (a < 128) && decide (imm < 512)) = true := h
  simp only [Bool.and_eq_true, decide_eq_true_eq] at h
  omega
theorem movhi (d : Nat) (a : Nat) (imm : Nat) : Statement (.movhi d a imm) := of_word rfl rfl rfl fun h => by
  have h : (decide (d < 128) && decide (a < 128) && decide (imm < 512)) = true := h
  simp only [Bool.and_eq_true, decide_eq_true_eq] at h
  omega
theorem ldbS (d : Nat) (a : Nat) (imm : Nat) : Statement (.ldbS d a imm) := of_word rfl rfl rfl fun h => by
  have h : (decide (d < 128) && decide (a < 128) && decide (imm < 512)) = true := h
  simp only [Bool.and_eq_true, decide_eq_true_eq] at h
  omega
theorem ldbN (d : Nat) (a : Nat) (imm : Nat) : Statement (.ldbN d a imm) := of_word rfl rfl rfl fun h => by
  have h : (decide (d < 128) && decide (a < 128) && decide (imm < 512)) = true := h
  simp only [Bool.and_eq_true, decide_eq_true_eq] at h
  omega
theorem ldhS (d : Nat) (a : Nat) (imm : Nat) : Statement (.ldhS d a imm) := of_word rfl rfl rfl fun h => by
  have h : (decide (d < 128) && decide (a < 128) && decide (imm < 512)) = true := h
  simp only [Bool.and_eq_true, decide_eq_true_eq] at h
  omega
theorem ldhN (d : Nat) (a : Nat) (imm : Nat) : Statement (.ldhN d a imm) := of_word rfl rfl rfl fun h => by
  have h : (decide (d < 128) && decide (a < 128) && decide (imm < 512)) = true := h
  simp only [Bool.and_eq_true, decide_eq_true_eq] at h
  omega
theorem stb (d : Nat) (a : Nat) (imm : Nat) : Statement (.stb d a imm) := of_word rfl rfl rfl fun h => by
  have h : (decide (d < 128) && decide (a < 128) && decide (imm < 512)) = true := h
  simp only [Bool.and_eq_true, decide_eq_true_eq] at h
  omega
theorem sth (d : Nat) (a : Nat) (imm : Nat) : Statement (.sth d a imm) := of_word rfl rfl rfl fun h => by
  have h : (decide (d < 128) && decide (a < 128) && decide (imm < 512)) = true := h
  simp only [Bool.and_eq_true, decide_eq_true_eq] at h
  omega
theorem shfli (d : Nat) (a : Nat) (imm : Nat) : Statement (.shfli d a imm) := of_word rfl rfl rfl fun h => by
  have h : (decide (d < 128) && decide (a < 128) && decide (imm < 512)) = true := h
  simp only [Bool.and_eq_true, decide_eq_true_eq] at h
  omega
theorem bfxi (d : Nat) (a : Nat) (imm : Nat) : Statement (.bfxi d a imm) := of_word rfl rfl rfl fun h => by
  have h : (decide (d < 128) && decide (a < 128) && decide (imm < 512)) = true := h
  simp only [Bool.and_eq_true, decide_eq_true_eq] at h
  omega
theorem ldw (hint : Nat) (d : Nat) (x : Nat) (base : Nat) (la : Nat) : Statement (.ldw hint d x base la) := of_word rfl rfl rfl fun h => by
  have h : (decide (hint < 4) && decide (d < 128) && decide (x < 128) && decide (base < 64) && decide (la < 16)) = true := h
  simp only [Bool.and_eq_true, decide_eq_true_eq] at h
  omega
theorem ldd (hint : Nat) (d : Nat) (x : Nat) (base : Nat) (la : Nat) : Statement (.ldd hint d x base la) := of_word rfl rfl rfl fun h => by
  have h : (decide (hint < 4) && decide (d < 128) && decide (x < 128) && decide (base < 64) && decide (la < 16)) = true := h
  simp only [Bool.and_eq_true, decide_eq_true_eq] at h
  omega
theorem ldq (hint : Nat) (d : Nat) (x : Nat) (base : Nat) (la : Nat) : Statement (.ldq hint d x base la) := of_word rfl rfl rfl fun h => by
  have h : (decide (hint < 4) && decide (d < 128) && decide (x < 128) && decide (base < 64) && decide (la < 16)) = true := h
  simp only [Bool.and_eq_true, decide_eq_true_eq] at h
  omega
theorem ldf (hint : Nat) (d : Nat) (x : Nat) (base : Nat) (la : Nat) : Statement (.ldf hint d x base la) := of_word rfl rfl rfl fun h => by
  have h : (decide (hint < 4) && decide (d < 128) && decide (x < 128) && decide (base < 64) && decide (la < 16)) = true := h
  simp only [Bool.and_eq_true, decide_eq_true_eq] at h
  omega
theorem stw (hint : Nat) (d : Nat) (x : Nat) (base : Nat) (la : Nat) : Statement (.stw hint d x base la) := of_word rfl rfl rfl fun h => by
  have h : (decide (hint < 4) && decide (d < 128) && decide (x < 128) && decide (base < 64) && decide (la < 16)) = true := h
  simp only [Bool.and_eq_true, decide_eq_true_eq] at h
  omega
theorem std (hint : Nat) (d : Nat) (x : Nat) (base : Nat) (la : Nat) : Statement (.std hint d x base la) := of_word rfl rfl rfl fun h => by
  have h : (decide (hint < 4) && decide (d < 128) && decide (x < 128) && decide (base < 64) && decide (la < 16)) = true := h
  simp only [Bool.and_eq_true, decide_eq_true_eq] at h
  omega
theorem stq (hint : Nat) (d : Nat) (x : Nat) (base : Nat) (la : Nat) : Statement (.stq hint d x base la) := of_word rfl rfl rfl fun h => by
  have h : (decide (hint < 4) && decide (d < 128) && decide (x < 128) && decide (base < 64) && decide (la < 16)) = true := h
  simp only [Bool.and_eq_true, decide_eq_true_eq] at h
  omega
theorem pref (hint : Nat) (d : Nat) (x : Nat) (base : Nat) (la : Nat) : Statement (.pref hint d x base la) := of_word rfl rfl rfl fun h => by
  have h : (decide (hint < 4) && decide (d < 128) && decide (x < 128) && decide (base < 64) && decide (la < 16)) = true := h
  simp only [Bool.and_eq_true, decide_eq_true_eq] at h
  omega
theorem ldlw (sp : Nat) (d : Nat) (a : Nat) (imm : Nat) : Statement (.ldlw sp d a imm) := of_word rfl rfl rfl fun h => by
  have h : (decide (sp < 4) && decide (d < 128) && decide (a < 128) && decide (imm < 512)) = true := h
  simp only [Bool.and_eq_true, decide_eq_true_eq] at h
  omega
theorem ldld (sp : Nat) (d : Nat) (a : Nat) (imm : Nat) : Statement (.ldld sp d a imm) := of_word rfl rfl rfl fun h => by
  have h : (decide (sp < 4) && decide (d < 128) && decide (a < 128) && decide (imm < 512)) = true := h
  simp only [Bool.and_eq_true, decide_eq_true_eq] at h
  omega
theorem ldlq (sp : Nat) (d : Nat) (a : Nat) (imm : Nat) : Statement (.ldlq sp d a imm) := of_word rfl rfl rfl fun h => by
  have h : (decide (sp < 4) && decide (d < 128) && decide (a < 128) && decide (imm < 512)) = true := h
  simp only [Bool.and_eq_true, decide_eq_true_eq] at h
  omega
theorem stlw (sp : Nat) (d : Nat) (a : Nat) (imm : Nat) : Statement (.stlw sp d a imm) := of_word rfl rfl rfl fun h => by
  have h : (decide (sp < 4) && decide (d < 128) && decide (a < 128) && decide (imm < 512)) = true := h
  simp only [Bool.and_eq_true, decide_eq_true_eq] at h
  omega
theorem stld (sp : Nat) (d : Nat) (a : Nat) (imm : Nat) : Statement (.stld sp d a imm) := of_word rfl rfl rfl fun h => by
  have h : (decide (sp < 4) && decide (d < 128) && decide (a < 128) && decide (imm < 512)) = true := h
  simp only [Bool.and_eq_true, decide_eq_true_eq] at h
  omega
theorem stlq (sp : Nat) (d : Nat) (a : Nat) (imm : Nat) : Statement (.stlq sp d a imm) := of_word rfl rfl rfl fun h => by
  have h : (decide (sp < 4) && decide (d < 128) && decide (a < 128) && decide (imm < 512)) = true := h
  simp only [Bool.and_eq_true, decide_eq_true_eq] at h
  omega
theorem ldlb (sp : Nat) (d : Nat) (a : Nat) (imm : Nat) : Statement (.ldlb sp d a imm) := of_word rfl rfl rfl fun h => by
  have h : (decide (sp < 4) && decide (d < 128) && decide (a < 128) && decide (imm < 512)) = true := h
  simp only [Bool.and_eq_true, decide_eq_true_eq] at h
  omega
theorem stlb (sp : Nat) (d : Nat) (a : Nat) (imm : Nat) : Statement (.stlb sp d a imm) := of_word rfl rfl rfl fun h => by
  have h : (decide (sp < 4) && decide (d < 128) && decide (a < 128) && decide (imm < 512)) = true := h
  simp only [Bool.and_eq_true, decide_eq_true_eq] at h
  omega
theorem atomAdd32 (d : Nat) (x : Nat) (scope : Nat) (base : Nat) (la : Nat) : Statement (.atomAdd32 d x scope base la) := of_word rfl rfl rfl fun h => by
  have h : (decide (d < 128) && decide (x < 128) && decide (scope < 4) && decide (base < 16) && decide (la < 16)) = true := h
  simp only [Bool.and_eq_true, decide_eq_true_eq] at h
  omega
theorem atomAdd64 (d : Nat) (x : Nat) (scope : Nat) (base : Nat) (la : Nat) : Statement (.atomAdd64 d x scope base la) := of_word rfl rfl rfl fun h => by
  have h : (decide (d < 128) && decide (x < 128) && decide (scope < 4) && decide (base < 16) && decide (la < 16)) = true := h
  simp only [Bool.and_eq_true, decide_eq_true_eq] at h
  omega
theorem atomAddf32 (d : Nat) (x : Nat) (scope : Nat) (base : Nat) (la : Nat) : Statement (.atomAddf32 d x scope base la) := of_word rfl rfl rfl fun h => by
  have h : (decide (d < 128) && decide (x < 128) && decide (scope < 4) && decide (base < 16) && decide (la < 16)) = true := h
  simp only [Bool.and_eq_true, decide_eq_true_eq] at h
  omega
theorem atomMinS32 (d : Nat) (x : Nat) (scope : Nat) (base : Nat) (la : Nat) : Statement (.atomMinS32 d x scope base la) := of_word rfl rfl rfl fun h => by
  have h : (decide (d < 128) && decide (x < 128) && decide (scope < 4) && decide (base < 16) && decide (la < 16)) = true := h
  simp only [Bool.and_eq_true, decide_eq_true_eq] at h
  omega
theorem atomMinN32 (d : Nat) (x : Nat) (scope : Nat) (base : Nat) (la : Nat) : Statement (.atomMinN32 d x scope base la) := of_word rfl rfl rfl fun h => by
  have h : (decide (d < 128) && decide (x < 128) && decide (scope < 4) && decide (base < 16) && decide (la < 16)) = true := h
  simp only [Bool.and_eq_true, decide_eq_true_eq] at h
  omega
theorem atomMaxS32 (d : Nat) (x : Nat) (scope : Nat) (base : Nat) (la : Nat) : Statement (.atomMaxS32 d x scope base la) := of_word rfl rfl rfl fun h => by
  have h : (decide (d < 128) && decide (x < 128) && decide (scope < 4) && decide (base < 16) && decide (la < 16)) = true := h
  simp only [Bool.and_eq_true, decide_eq_true_eq] at h
  omega
theorem atomMaxN32 (d : Nat) (x : Nat) (scope : Nat) (base : Nat) (la : Nat) : Statement (.atomMaxN32 d x scope base la) := of_word rfl rfl rfl fun h => by
  have h : (decide (d < 128) && decide (x < 128) && decide (scope < 4) && decide (base < 16) && decide (la < 16)) = true := h
  simp only [Bool.and_eq_true, decide_eq_true_eq] at h
  omega
theorem atomAnd32 (d : Nat) (x : Nat) (scope : Nat) (base : Nat) (la : Nat) : Statement (.atomAnd32 d x scope base la) := of_word rfl rfl rfl fun h => by
  have h : (decide (d < 128) && decide (x < 128) && decide (scope < 4) && decide (base < 16) && decide (la < 16)) = true := h
  simp only [Bool.and_eq_true, decide_eq_true_eq] at h
  omega
theorem atomOr32 (d : Nat) (x : Nat) (scope : Nat) (base : Nat) (la : Nat) : Statement (.atomOr32 d x scope base la) := of_word rfl rfl rfl fun h => by
  have h : (decide (d < 128) && decide (x < 128) && decide (scope < 4) && decide (base < 16) && decide (la < 16)) = true := h
  simp only [Bool.and_eq_true, decide_eq_true_eq] at h
  omega
theorem atomXor32 (d : Nat) (x : Nat) (scope : Nat) (base : Nat) (la : Nat) : Statement (.atomXor32 d x scope base la) := of_word rfl rfl rfl fun h => by
  have h : (decide (d < 128) && decide (x < 128) && decide (scope < 4) && decide (base < 16) && decide (la < 16)) = true := h
  simp only [Bool.and_eq_true, decide_eq_true_eq] at h
  omega
theorem atomXchg32 (d : Nat) (x : Nat) (scope : Nat) (base : Nat) (la : Nat) : Statement (.atomXchg32 d x scope base la) := of_word rfl rfl rfl fun h => by
  have h : (decide (d < 128) && decide (x < 128) && decide (scope < 4) && decide (base < 16) && decide (la < 16)) = true := h
  simp only [Bool.and_eq_true, decide_eq_true_eq] at h
  omega
theorem atomXchg64 (d : Nat) (x : Nat) (scope : Nat) (base : Nat) (la : Nat) : Statement (.atomXchg64 d x scope base la) := of_word rfl rfl rfl fun h => by
  have h : (decide (d < 128) && decide (x < 128) && decide (scope < 4) && decide (base < 16) && decide (la < 16)) = true := h
  simp only [Bool.and_eq_true, decide_eq_true_eq] at h
  omega
theorem atomCas32 (d : Nat) (x : Nat) (scope : Nat) (base : Nat) (la : Nat) : Statement (.atomCas32 d x scope base la) := of_word rfl rfl rfl fun h => by
  have h : (decide (d < 128) && decide (x < 128) && decide (scope < 4) && decide (base < 16) && decide (la < 16)) = true := h
  simp only [Bool.and_eq_true, decide_eq_true_eq] at h
  omega
theorem atomCas64 (d : Nat) (x : Nat) (scope : Nat) (base : Nat) (la : Nat) : Statement (.atomCas64 d x scope base la) := of_word rfl rfl rfl fun h => by
  have h : (decide (d < 128) && decide (x < 128) && decide (scope < 4) && decide (base < 16) && decide (la < 16)) = true := h
  simp only [Bool.and_eq_true, decide_eq_true_eq] at h
  omega
theorem atomIncN32 (d : Nat) (x : Nat) (scope : Nat) (base : Nat) (la : Nat) : Statement (.atomIncN32 d x scope base la) := of_word rfl rfl rfl fun h => by
  have h : (decide (d < 128) && decide (x < 128) && decide (scope < 4) && decide (base < 16) && decide (la < 16)) = true := h
  simp only [Bool.and_eq_true, decide_eq_true_eq] at h
  omega
theorem atomAddbf16x2 (d : Nat) (x : Nat) (scope : Nat) (base : Nat) (la : Nat) : Statement (.atomAddbf16x2 d x scope base la) := of_word rfl rfl rfl fun h => by
  have h : (decide (d < 128) && decide (x < 128) && decide (scope < 4) && decide (base < 16) && decide (la < 16)) = true := h
  simp only [Bool.and_eq_true, decide_eq_true_eq] at h
  omega
theorem sadd (d : Nat) (a : Nat) (b : Nat) (g : Nat) (m : Nat) : Statement (.sadd d a b g m) := of_word rfl rfl rfl fun h => by
  have h : (decide (d < 64) && decide (a < 64) && decide (b < 64) && decide (g < 4) && decide (m < 4)) = true := h
  simp only [Bool.and_eq_true, decide_eq_true_eq] at h
  omega
theorem ssub (d : Nat) (a : Nat) (b : Nat) (g : Nat) (m : Nat) : Statement (.ssub d a b g m) := of_word rfl rfl rfl fun h => by
  have h : (decide (d < 64) && decide (a < 64) && decide (b < 64) && decide (g < 4) && decide (m < 4)) = true := h
  simp only [Bool.and_eq_true, decide_eq_true_eq] at h
  omega
theorem smul (d : Nat) (a : Nat) (b : Nat) (g : Nat) (m : Nat) : Statement (.smul d a b g m) := of_word rfl rfl rfl fun h => by
  have h : (decide (d < 64) && decide (a < 64) && decide (b < 64) && decide (g < 4) && decide (m < 4)) = true := h
  simp only [Bool.and_eq_true, decide_eq_true_eq] at h
  omega
theorem smulh (d : Nat) (a : Nat) (b : Nat) (g : Nat) (m : Nat) : Statement (.smulh d a b g m) := of_word rfl rfl rfl fun h => by
  have h : (decide (d < 64) && decide (a < 64) && decide (b < 64) && decide (g < 4) && decide (m < 4)) = true := h
  simp only [Bool.and_eq_true, decide_eq_true_eq] at h
  omega
theorem sdiv (d : Nat) (a : Nat) (b : Nat) (g : Nat) (m : Nat) : Statement (.sdiv d a b g m) := of_word rfl rfl rfl fun h => by
  have h : (decide (d < 64) && decide (a < 64) && decide (b < 64) && decide (g < 4) && decide (m < 4)) = true := h
  simp only [Bool.and_eq_true, decide_eq_true_eq] at h
  omega
theorem srem (d : Nat) (a : Nat) (b : Nat) (g : Nat) (m : Nat) : Statement (.srem d a b g m) := of_word rfl rfl rfl fun h => by
  have h : (decide (d < 64) && decide (a < 64) && decide (b < 64) && decide (g < 4) && decide (m < 4)) = true := h
  simp only [Bool.and_eq_true, decide_eq_true_eq] at h
  omega
theorem sand (d : Nat) (a : Nat) (b : Nat) (g : Nat) (m : Nat) : Statement (.sand d a b g m) := of_word rfl rfl rfl fun h => by
  have h : (decide (d < 64) && decide (a < 64) && decide (b < 64) && decide (g < 4) && decide (m < 4)) = true := h
  simp only [Bool.and_eq_true, decide_eq_true_eq] at h
  omega
theorem sor (d : Nat) (a : Nat) (b : Nat) (g : Nat) (m : Nat) : Statement (.sor d a b g m) := of_word rfl rfl rfl fun h => by
  have h : (decide (d < 64) && decide (a < 64) && decide (b < 64) && decide (g < 4) && decide (m < 4)) = true := h
  simp only [Bool.and_eq_true, decide_eq_true_eq] at h
  omega
theorem sxor (d : Nat) (a : Nat) (b : Nat) (g : Nat) (m : Nat) : Statement (.sxor d a b g m) := of_word rfl rfl rfl fun h => by
  have h : (decide (d < 64) && decide (a < 64) && decide (b < 64) && decide (g < 4) && decide (m < 4)) = true := h
  simp only [Bool.and_eq_true, decide_eq_true_eq] at h
  omega
theorem sshl (d : Nat) (a : Nat) (b : Nat) (g : Nat) (m : Nat) : Statement (.sshl d a b g m) := of_word rfl rfl rfl fun h => by
  have h : (decide (d < 64) && decide (a < 64) && decide (b < 64) && decide (g < 4) && decide (m < 4)) = true := h
  simp only [Bool.and_eq_true, decide_eq_true_eq] at h
  omega
theorem sshr (d : Nat) (a : Nat) (b : Nat) (g : Nat) (m : Nat) : Statement (.sshr d a b g m) := of_word rfl rfl rfl fun h => by
  have h : (decide (d < 64) && decide (a < 64) && decide (b < 64) && decide (g < 4) && decide (m < 4)) = true := h
  simp only [Bool.and_eq_true, decide_eq_true_eq] at h
  omega
theorem ssar (d : Nat) (a : Nat) (b : Nat) (g : Nat) (m : Nat) : Statement (.ssar d a b g m) := of_word rfl rfl rfl fun h => by
  have h : (decide (d < 64) && decide (a < 64) && decide (b < 64) && decide (g < 4) && decide (m < 4)) = true := h
  simp only [Bool.and_eq_true, decide_eq_true_eq] at h
  omega
theorem smin (d : Nat) (a : Nat) (b : Nat) (g : Nat) (m : Nat) : Statement (.smin d a b g m) := of_word rfl rfl rfl fun h => by
  have h : (decide (d < 64) && decide (a < 64) && decide (b < 64) && decide (g < 4) && decide (m < 4)) = true := h
  simp only [Bool.and_eq_true, decide_eq_true_eq] at h
  omega
theorem smax (d : Nat) (a : Nat) (b : Nat) (g : Nat) (m : Nat) : Statement (.smax d a b g m) := of_word rfl rfl rfl fun h => by
  have h : (decide (d < 64) && decide (a < 64) && decide (b < 64) && decide (g < 4) && decide (m < 4)) = true := h
  simp only [Bool.and_eq_true, decide_eq_true_eq] at h
  omega
theorem ssetLt (d : Nat) (a : Nat) (b : Nat) (g : Nat) (m : Nat) : Statement (.ssetLt d a b g m) := of_word rfl rfl rfl fun h => by
  have h : (decide (d < 64) && decide (a < 64) && decide (b < 64) && decide (g < 4) && decide (m < 4)) = true := h
  simp only [Bool.and_eq_true, decide_eq_true_eq] at h
  omega
theorem ssetLe (d : Nat) (a : Nat) (b : Nat) (g : Nat) (m : Nat) : Statement (.ssetLe d a b g m) := of_word rfl rfl rfl fun h => by
  have h : (decide (d < 64) && decide (a < 64) && decide (b < 64) && decide (g < 4) && decide (m < 4)) = true := h
  simp only [Bool.and_eq_true, decide_eq_true_eq] at h
  omega
theorem ssetEq (d : Nat) (a : Nat) (b : Nat) (g : Nat) (m : Nat) : Statement (.ssetEq d a b g m) := of_word rfl rfl rfl fun h => by
  have h : (decide (d < 64) && decide (a < 64) && decide (b < 64) && decide (g < 4) && decide (m < 4)) = true := h
  simp only [Bool.and_eq_true, decide_eq_true_eq] at h
  omega
theorem ssetNe (d : Nat) (a : Nat) (b : Nat) (g : Nat) (m : Nat) : Statement (.ssetNe d a b g m) := of_word rfl rfl rfl fun h => by
  have h : (decide (d < 64) && decide (a < 64) && decide (b < 64) && decide (g < 4) && decide (m < 4)) = true := h
  simp only [Bool.and_eq_true, decide_eq_true_eq] at h
  omega
theorem ssel (d : Nat) (a : Nat) (b : Nat) (g : Nat) (m : Nat) : Statement (.ssel d a b g m) := of_word rfl rfl rfl fun h => by
  have h : (decide (d < 64) && decide (a < 64) && decide (b < 64) && decide (g < 4) && decide (m < 4)) = true := h
  simp only [Bool.and_eq_true, decide_eq_true_eq] at h
  omega
theorem qlop (d : Nat) (a : Nat) (b : Nat) (g : Nat) (m : Nat) : Statement (.qlop d a b g m) := of_word rfl rfl rfl fun h => by
  have h : (decide (d < 64) && decide (a < 64) && decide (b < 64) && decide (g < 4) && decide (m < 4)) = true := h
  simp only [Bool.and_eq_true, decide_eq_true_eq] at h
  omega
theorem spopc (d : Nat) (a : Nat) (b : Nat) (g : Nat) (m : Nat) : Statement (.spopc d a b g m) := of_word rfl rfl rfl fun h => by
  have h : (decide (d < 64) && decide (a < 64) && decide (b < 64) && decide (g < 4) && decide (m < 4)) = true := h
  simp only [Bool.and_eq_true, decide_eq_true_eq] at h
  omega
theorem sclz (d : Nat) (a : Nat) (b : Nat) (g : Nat) (m : Nat) : Statement (.sclz d a b g m) := of_word rfl rfl rfl fun h => by
  have h : (decide (d < 64) && decide (a < 64) && decide (b < 64) && decide (g < 4) && decide (m < 4)) = true := h
  simp only [Bool.and_eq_true, decide_eq_true_eq] at h
  omega
theorem smov (d : Nat) (a : Nat) (b : Nat) (g : Nat) (m : Nat) : Statement (.smov d a b g m) := of_word rfl rfl rfl fun h => by
  have h : (decide (d < 64) && decide (a < 64) && decide (b < 64) && decide (g < 4) && decide (m < 4)) = true := h
  simp only [Bool.and_eq_true, decide_eq_true_eq] at h
  omega
theorem vtou (d : Nat) (a : Nat) (b : Nat) (g : Nat) (m : Nat) : Statement (.vtou d a b g m) := of_word rfl rfl rfl fun h => by
  have h : (decide (d < 64) && decide (a < 64) && decide (b < 64) && decide (g < 4) && decide (m < 4)) = true := h
  simp only [Bool.and_eq_true, decide_eq_true_eq] at h
  omega
theorem vote (d : Nat) (a : Nat) (b : Nat) (g : Nat) (m : Nat) : Statement (.vote d a b g m) := of_word rfl rfl rfl fun h => by
  have h : (decide (d < 64) && decide (a < 64) && decide (b < 64) && decide (g < 4) && decide (m < 4)) = true := h
  simp only [Bool.and_eq_true, decide_eq_true_eq] at h
  omega
theorem redx (d : Nat) (a : Nat) (b : Nat) (g : Nat) (m : Nat) : Statement (.redx d a b g m) := of_word rfl rfl rfl fun h => by
  have h : (decide (d < 64) && decide (a < 64) && decide (b < 64) && decide (g < 4) && decide (m < 4)) = true := h
  simp only [Bool.and_eq_true, decide_eq_true_eq] at h
  omega
theorem gets (d : Nat) (a : Nat) (b : Nat) (g : Nat) (m : Nat) : Statement (.gets d a b g m) := of_word rfl rfl rfl fun h => by
  have h : (decide (d < 64) && decide (a < 64) && decide (b < 64) && decide (g < 4) && decide (m < 4)) = true := h
  simp only [Bool.and_eq_true, decide_eq_true_eq] at h
  omega
theorem puts (d : Nat) (a : Nat) (b : Nat) (g : Nat) (m : Nat) : Statement (.puts d a b g m) := of_word rfl rfl rfl fun h => by
  have h : (decide (d < 64) && decide (a < 64) && decide (b < 64) && decide (g < 4) && decide (m < 4)) = true := h
  simp only [Bool.and_eq_true, decide_eq_true_eq] at h
  omega
theorem saddc (d : Nat) (a : Nat) (b : Nat) (g : Nat) (m : Nat) : Statement (.saddc d a b g m) := of_word rfl rfl rfl fun h => by
  have h : (decide (d < 64) && decide (a < 64) && decide (b < 64) && decide (g < 4) && decide (m < 4)) = true := h
  simp only [Bool.and_eq_true, decide_eq_true_eq] at h
  omega
theorem saddi (d : Nat) (a : Nat) (imm : Nat) : Statement (.saddi d a imm) := of_word rfl rfl rfl fun h => by
  have h : (decide (d < 64) && decide (a < 64) && decide (imm < 1024)) = true := h
  simp only [Bool.and_eq_true, decide_eq_true_eq] at h
  omega
theorem sandi (d : Nat) (a : Nat) (imm : Nat) : Statement (.sandi d a imm) := of_word rfl rfl rfl fun h => by
  have h : (decide (d < 64) && decide (a < 64) && decide (imm < 1024)) = true := h
  simp only [Bool.and_eq_true, decide_eq_true_eq] at h
  omega
theorem sori (d : Nat) (a : Nat) (imm : Nat) : Statement (.sori d a imm) := of_word rfl rfl rfl fun h => by
  have h : (decide (d < 64) && decide (a < 64) && decide (imm < 1024)) = true := h
  simp only [Bool.and_eq_true, decide_eq_true_eq] at h
  omega
theorem sxori (d : Nat) (a : Nat) (imm : Nat) : Statement (.sxori d a imm) := of_word rfl rfl rfl fun h => by
  have h : (decide (d < 64) && decide (a < 64) && decide (imm < 1024)) = true := h
  simp only [Bool.and_eq_true, decide_eq_true_eq] at h
  omega
theorem sshli (d : Nat) (a : Nat) (imm : Nat) : Statement (.sshli d a imm) := of_word rfl rfl rfl fun h => by
  have h : (decide (d < 64) && decide (a < 64) && decide (imm < 1024)) = true := h
  simp only [Bool.and_eq_true, decide_eq_true_eq] at h
  omega
theorem sshri (d : Nat) (a : Nat) (imm : Nat) : Statement (.sshri d a imm) := of_word rfl rfl rfl fun h => by
  have h : (decide (d < 64) && decide (a < 64) && decide (imm < 1024)) = true := h
  simp only [Bool.and_eq_true, decide_eq_true_eq] at h
  omega
theorem ssari (d : Nat) (a : Nat) (imm : Nat) : Statement (.ssari d a imm) := of_word rfl rfl rfl fun h => by
  have h : (decide (d < 64) && decide (a < 64) && decide (imm < 1024)) = true := h
  simp only [Bool.and_eq_true, decide_eq_true_eq] at h
  omega
theorem ssetiLt (d : Nat) (a : Nat) (imm : Nat) : Statement (.ssetiLt d a imm) := of_word rfl rfl rfl fun h => by
  have h : (decide (d < 64) && decide (a < 64) && decide (imm < 1024)) = true := h
  simp only [Bool.and_eq_true, decide_eq_true_eq] at h
  omega
theorem ssetiEq (d : Nat) (a : Nat) (imm : Nat) : Statement (.ssetiEq d a imm) := of_word rfl rfl rfl fun h => by
  have h : (decide (d < 64) && decide (a < 64) && decide (imm < 1024)) = true := h
  simp only [Bool.and_eq_true, decide_eq_true_eq] at h
  omega
theorem ssetiLtn (d : Nat) (a : Nat) (imm : Nat) : Statement (.ssetiLtn d a imm) := of_word rfl rfl rfl fun h => by
  have h : (decide (d < 64) && decide (a < 64) && decide (imm < 1024)) = true := h
  simp only [Bool.and_eq_true, decide_eq_true_eq] at h
  omega
theorem smuli (d : Nat) (a : Nat) (imm : Nat) : Statement (.smuli d a imm) := of_word rfl rfl rfl fun h => by
  have h : (decide (d < 64) && decide (a < 64) && decide (imm < 1024)) = true := h
  simp only [Bool.and_eq_true, decide_eq_true_eq] at h
  omega
theorem smovi (d : Nat) (imm : Nat) : Statement (.smovi d imm) := of_word rfl rfl rfl fun h => by
  have h : (decide (d < 64) && decide (imm < 262144)) = true := h
  simp only [Bool.and_eq_true, decide_eq_true_eq] at h
  omega
theorem shi18 (d : Nat) (imm : Nat) : Statement (.shi18 d imm) := of_word rfl rfl rfl fun h => by
  have h : (decide (d < 64) && decide (imm < 262144)) = true := h
  simp only [Bool.and_eq_true, decide_eq_true_eq] at h
  omega
theorem sadr (d : Nat) (imm : Nat) : Statement (.sadr d imm) := of_word rfl rfl rfl fun h => by
  have h : (decide (d < 64) && decide (imm < 262144)) = true := h
  simp only [Bool.and_eq_true, decide_eq_true_eq] at h
  omega
theorem bra (c : Nat) (off : Nat) : Statement (.bra c off) := of_word rfl rfl rfl fun h => by
  have h : (decide (c < 8) && decide (off < 2097152)) = true := h
  simp only [Bool.and_eq_true, decide_eq_true_eq] at h
  omega
theorem br (c : Nat) (off : Nat) : Statement (.br c off) := of_word rfl rfl rfl fun h => by
  have h : (decide (c < 8) && decide (off < 2097152)) = true := h
  simp only [Bool.and_eq_true, decide_eq_true_eq] at h
  omega
theorem brE (c : Nat) (off : Nat) : Statement (.brE c off) := of_word rfl rfl rfl fun h => by
  have h : (decide (c < 8) && decide (off < 2097152)) = true := h
  simp only [Bool.and_eq_true, decide_eq_true_eq] at h
  omega
theorem joinat (c : Nat) (off : Nat) : Statement (.joinat c off) := of_word rfl rfl rfl fun h => by
  have h : (decide (c < 8) && decide (off < 2097152)) = true := h
  simp only [Bool.and_eq_true, decide_eq_true_eq] at h
  omega
theorem call (c : Nat) (off : Nat) : Statement (.call c off) := of_word rfl rfl rfl fun h => by
  have h : (decide (c < 8) && decide (off < 2097152)) = true := h
  simp only [Bool.and_eq_true, decide_eq_true_eq] at h
  omega
theorem loop (c : Nat) (off : Nat) : Statement (.loop c off) := of_word rfl rfl rfl fun h => by
  have h : (decide (c < 8) && decide (off < 2097152)) = true := h
  simp only [Bool.and_eq_true, decide_eq_true_eq] at h
  omega
theorem rgnI (c : Nat) (off : Nat) : Statement (.rgnI c off) := of_word rfl rfl rfl fun h => by
  have h : (decide (c < 8) && decide (off < 2097152)) = true := h
  simp only [Bool.and_eq_true, decide_eq_true_eq] at h
  omega
theorem rgnH (c : Nat) (off : Nat) : Statement (.rgnH c off) := of_word rfl rfl rfl fun h => by
  have h : (decide (c < 8) && decide (off < 2097152)) = true := h
  simp only [Bool.and_eq_true, decide_eq_true_eq] at h
  omega
theorem mmaQ (a : Nat) (view : Nat) (se : Nat) (acc : Nat) (sat : Nat) (sp : Nat) (z : Nat) (la : Nat) : Statement (.mmaQ a view se acc sat sp z la) := of_word rfl rfl rfl fun h => by
  have h : (decide (a < 128) && decide (view < 16) && decide (se < 4) && decide (acc < 2) && decide (sat < 2) && decide (sp < 4) && decide (z < 4) && decide (la < 16)) = true := h
  simp only [Bool.and_eq_true, decide_eq_true_eq] at h
  omega
theorem mmaPk (y : Nat) (a : Nat) (view : Nat) (se : Nat) (acc : Nat) (sat : Nat) (sp : Nat) (z : Nat) (la : Nat) : Statement (.mmaPk y a view se acc sat sp z la) := of_word rfl rfl rfl fun h => by
  have h : (decide (y < 2) && decide (a < 64) && decide (view < 16) && decide (se < 4) && decide (acc < 2) && decide (sat < 2) && decide (sp < 4) && decide (z < 4) && decide (la < 16)) = true := h
  simp only [Bool.and_eq_true, decide_eq_true_eq] at h
  omega
theorem mzero (y : Nat) (a : Nat) (b : Nat) (z : Nat) (la : Nat) : Statement (.mzero y a b z la) := of_word rfl rfl rfl fun h => by
  have h : (decide (y < 2) && decide (a < 64) && decide (b < 64) && decide (z < 64) && decide (la < 16)) = true := h
  simp only [Bool.and_eq_true, decide_eq_true_eq] at h
  omega
theorem cpy (y : Nat) (d : Nat) (a : Nat) (z : Nat) (la : Nat) : Statement (.cpy y d a z la) := of_word rfl rfl rfl fun h => by
  have h : (decide (y < 2) && decide (d < 64) && decide (a < 64) && decide (z < 64) && decide (la < 16)) = true := h
  simp only [Bool.and_eq_true, decide_eq_true_eq] at h
  omega
theorem cpyr (y : Nat) (d : Nat) (a : Nat) (b : Nat) (la : Nat) : Statement (.cpyr y d a b la) := of_word rfl rfl rfl fun h => by
  have h : (decide (y < 2) && decide (d < 64) && decide (a < 64) && decide (b < 64) && decide (la < 16)) = true := h
  simp only [Bool.and_eq_true, decide_eq_true_eq] at h
  omega
theorem dispSend (y : Nat) (d : Nat) (a : Nat) (z : Nat) (mode : Nat) (la : Nat) : Statement (.dispSend y d a z mode la) := of_word rfl rfl rfl fun h => by
  have h : (decide (y < 2) && decide (d < 64) && decide (a < 64) && decide (z < 16) && decide (mode < 4) && decide (la < 16) && selOk [0, 3] mode) = true := h
  simp only [Bool.and_eq_true, decide_eq_true_eq] at h
  omega
theorem dispOpen (y : Nat) (d : Nat) (a : Nat) (z : Nat) (mode : Nat) (la : Nat) : Statement (.dispOpen y d a z mode la) := of_word rfl rfl rfl fun h => by
  have h : (decide (y < 2) && decide (d < 64) && decide (a < 64) && decide (z < 16) && decide (mode < 4) && decide (la < 16) && selOk [1] mode) = true := h
  simp only [Bool.and_eq_true, decide_eq_true_eq] at h
  omega
theorem dispClose (y : Nat) (d : Nat) (a : Nat) (z : Nat) (mode : Nat) (la : Nat) : Statement (.dispClose y d a z mode la) := of_word rfl rfl rfl fun h => by
  have h : (decide (y < 2) && decide (d < 64) && decide (a < 64) && decide (z < 16) && decide (mode < 4) && decide (la < 16) && selOk [2] mode) = true := h
  simp only [Bool.and_eq_true, decide_eq_true_eq] at h
  omega
theorem cstl (y : Nat) (mask : Nat) (sp : Nat) (z : Nat) : Statement (.cstl y mask sp z) := of_word rfl rfl rfl fun h => by
  have h : (decide (y < 2) && decide (mask < 65536) && decide (sp < 4) && decide (z < 16)) = true := h
  simp only [Bool.and_eq_true, decide_eq_true_eq] at h
  omega
theorem fork (y : Nat) (a : Nat) (b : Nat) (z : Nat) : Statement (.fork y a b z) := of_word rfl rfl rfl fun h => by
  have h : (decide (y < 128) && decide (a < 64) && decide (b < 64) && decide (z < 16)) = true := h
  simp only [Bool.and_eq_true, decide_eq_true_eq] at h
  omega
theorem rdv (y : Nat) (d : Nat) (z : Nat) (la : Nat) : Statement (.rdv y d z la) := of_word rfl rfl rfl fun h => by
  have h : (decide (y < 2) && decide (d < 64) && decide (z < 4096) && decide (la < 16)) = true := h
  simp only [Bool.and_eq_true, decide_eq_true_eq] at h
  omega
theorem xch (d : Nat) (a : Nat) (b : Nat) (la : Nat) : Statement (.xch d a b la) := of_word rfl rfl rfl fun h => by
  have h : (decide (d < 128) && decide (a < 128) && decide (b < 32) && decide (la < 16)) = true := h
  simp only [Bool.and_eq_true, decide_eq_true_eq] at h
  omega
theorem join (z : Nat) : Statement (.join z) := of_word rfl rfl rfl fun h => by
  have h : (decide (z < 4194304)) = true := h
  simp only [decide_eq_true_eq] at h
  omega
theorem ret (y : Nat) (a : Nat) (z : Nat) : Statement (.ret y a z) := of_word rfl rfl rfl fun h => by
  have h : (decide (y < 64) && decide (a < 64) && decide (z < 1024)) = true := h
  simp only [Bool.and_eq_true, decide_eq_true_eq] at h
  omega
theorem brx (y : Nat) (a : Nat) (z : Nat) : Statement (.brx y a z) := of_word rfl rfl rfl fun h => by
  have h : (decide (y < 32) && decide (a < 128) && decide (z < 1024)) = true := h
  simp only [Bool.and_eq_true, decide_eq_true_eq] at h
  omega
theorem exit (z : Nat) : Statement (.exit z) := of_word rfl rfl rfl fun h => by
  have h : (decide (z < 4194304)) = true := h
  simp only [decide_eq_true_eq] at h
  omega
theorem nop (z : Nat) : Statement (.nop z) := of_word rfl rfl rfl fun h => by
  have h : (decide (z < 4194304)) = true := h
  simp only [decide_eq_true_eq] at h
  omega
theorem yield (z : Nat) : Statement (.yield z) := of_word rfl rfl rfl fun h => by
  have h : (decide (z < 4194304)) = true := h
  simp only [decide_eq_true_eq] at h
  omega
theorem cmtBr (z : Nat) : Statement (.cmtBr z) := of_word rfl rfl rfl fun h => by
  have h : (decide (z < 4194304)) = true := h
  simp only [decide_eq_true_eq] at h
  omega
theorem cmtSv (z : Nat) : Statement (.cmtSv z) := of_word rfl rfl rfl fun h => by
  have h : (decide (z < 4194304)) = true := h
  simp only [decide_eq_true_eq] at h
  omega
theorem cmtRl (z : Nat) : Statement (.cmtRl z) := of_word rfl rfl rfl fun h => by
  have h : (decide (z < 4194304)) = true := h
  simp only [decide_eq_true_eq] at h
  omega
theorem pchk (u : Nat) (p : Nat) (y : Nat) (a : Nat) (pl : Nat) (e : Nat) (z : Nat) : Statement (.pchk u p y a pl e z) := of_word rfl rfl rfl fun h => by
  have h : (decide (u < 2) && decide (p < 8) && decide (y < 2) && decide (a < 128) && decide (pl < 2) && decide (e < 128) && decide (z < 4)) = true := h
  simp only [Bool.and_eq_true, decide_eq_true_eq] at h
  omega
theorem pclr (f : Nat) (n : Nat) (q : Nat) (sx : Nat) (z : Nat) : Statement (.pclr f n q sx z) := of_word rfl rfl rfl fun h => by
  have h : (decide (f < 128) && decide (n < 32) && decide (q < 2) && decide (sx < 2) && decide (z < 256)) = true := h
  simp only [Bool.and_eq_true, decide_eq_true_eq] at h
  omega
theorem side (d : Nat) (a : Nat) (k : Nat) (z : Nat) : Statement (.side d a k z) := of_word rfl rfl rfl fun h => by
  have h : (decide (d < 64) && decide (a < 64) && decide (k < 4) && decide (z < 256)) = true := h
  simp only [Bool.and_eq_true, decide_eq_true_eq] at h
  omega
theorem bar (kind : Nat) (act : Nat) (slot : Nat) (z : Nat) : Statement (.bar kind act slot z) := of_word rfl rfl rfl fun h => by
  have h : (decide (kind < 4) && decide (act < 4) && decide (slot < 4) && decide (z < 65536)) = true := h
  simp only [Bool.and_eq_true, decide_eq_true_eq] at h
  omega
theorem fenceAcq (scope : Nat) (kind : Nat) (z : Nat) : Statement (.fenceAcq scope kind z) := of_word rfl rfl rfl fun h => by
  have h : (decide (scope < 8) && decide (kind < 4) && decide (z < 131072) && selOk [0] kind) = true := h
  simp only [Bool.and_eq_true, decide_eq_true_eq] at h
  omega
theorem fenceRel (scope : Nat) (kind : Nat) (z : Nat) : Statement (.fenceRel scope kind z) := of_word rfl rfl rfl fun h => by
  have h : (decide (scope < 8) && decide (kind < 4) && decide (z < 131072) && selOk [1] kind) = true := h
  simp only [Bool.and_eq_true, decide_eq_true_eq] at h
  omega
theorem fenceAr (scope : Nat) (kind : Nat) (z : Nat) : Statement (.fenceAr scope kind z) := of_word rfl rfl rfl fun h => by
  have h : (decide (scope < 8) && decide (kind < 4) && decide (z < 131072) && selOk [2, 3] kind) = true := h
  simp only [Bool.and_eq_true, decide_eq_true_eq] at h
  omega
theorem trig (z : Nat) : Statement (.trig z) := of_word rfl rfl rfl fun h => by
  have h : (decide (z < 4194304)) = true := h
  simp only [decide_eq_true_eq] at h
  omega
theorem tready (y : Nat) (a : Nat) (z : Nat) : Statement (.tready y a z) := of_word rfl rfl rfl fun h => by
  have h : (decide (y < 64) && decide (a < 64) && decide (z < 1024)) = true := h
  simp only [Bool.and_eq_true, decide_eq_true_eq] at h
  omega
theorem twait (y : Nat) (a : Nat) (z : Nat) : Statement (.twait y a z) := of_word rfl rfl rfl fun h => by
  have h : (decide (y < 64) && decide (a < 64) && decide (z < 1024)) = true := h
  simp only [Bool.and_eq_true, decide_eq_true_eq] at h
  omega
theorem svc (z : Nat) : Statement (.svc z) := of_word rfl rfl rfl fun h => by
  have h : (decide (z < 4194304)) = true := h
  simp only [decide_eq_true_eq] at h
  omega
theorem sret (z : Nat) : Statement (.sret z) := of_word rfl rfl rfl fun h => by
  have h : (decide (z < 4194304)) = true := h
  simp only [decide_eq_true_eq] at h
  omega
theorem brk (z : Nat) : Statement (.brk z) := of_word rfl rfl rfl fun h => by
  have h : (decide (z < 4194304)) = true := h
  simp only [decide_eq_true_eq] at h
  omega
theorem harv (d : Nat) (a : Nat) (b : Nat) (clr : Nat) (z : Nat) : Statement (.harv d a b clr z) := of_word rfl rfl rfl fun h => by
  have h : (decide (d < 64) && decide (a < 64) && decide (b < 64) && decide (clr < 2) && decide (z < 8)) = true := h
  simp only [Bool.and_eq_true, decide_eq_true_eq] at h
  omega
theorem tlbiGen (d : Nat) (a : Nat) (b : Nat) (form : Nat) (z : Nat) : Statement (.tlbiGen d a b form z) := of_word rfl rfl rfl fun h => by
  have h : (decide (d < 64) && decide (a < 64) && decide (b < 64) && decide (form < 4) && decide (z < 4) && selOk [0] form) = true := h
  simp only [Bool.and_eq_true, decide_eq_true_eq] at h
  omega
theorem tlbiPage (d : Nat) (a : Nat) (b : Nat) (form : Nat) (z : Nat) : Statement (.tlbiPage d a b form z) := of_word rfl rfl rfl fun h => by
  have h : (decide (d < 64) && decide (a < 64) && decide (b < 64) && decide (form < 4) && decide (z < 4) && selOk [1] form) = true := h
  simp only [Bool.and_eq_true, decide_eq_true_eq] at h
  omega
theorem tlbiHold (d : Nat) (a : Nat) (b : Nat) (form : Nat) (z : Nat) : Statement (.tlbiHold d a b form z) := of_word rfl rfl rfl fun h => by
  have h : (decide (d < 64) && decide (a < 64) && decide (b < 64) && decide (form < 4) && decide (z < 4) && selOk [2] form) = true := h
  simp only [Bool.and_eq_true, decide_eq_true_eq] at h
  omega
theorem tlbiRel (d : Nat) (a : Nat) (b : Nat) (form : Nat) (z : Nat) : Statement (.tlbiRel d a b form z) := of_word rfl rfl rfl fun h => by
  have h : (decide (d < 64) && decide (a < 64) && decide (b < 64) && decide (form < 4) && decide (z < 4) && selOk [3] form) = true := h
  simp only [Bool.and_eq_true, decide_eq_true_eq] at h
  omega
theorem cwb (d : Nat) (a : Nat) (b : Nat) (lvl : Nat) (z : Nat) : Statement (.cwb d a b lvl z) := of_word rfl rfl rfl fun h => by
  have h : (decide (d < 64) && decide (a < 64) && decide (b < 64) && decide (lvl < 2) && decide (z < 8)) = true := h
  simp only [Bool.and_eq_true, decide_eq_true_eq] at h
  omega
theorem cinv (d : Nat) (a : Nat) (b : Nat) (lvl : Nat) (mode : Nat) (z : Nat) : Statement (.cinv d a b lvl mode z) := of_word rfl rfl rfl fun h => by
  have h : (decide (d < 64) && decide (a < 64) && decide (b < 64) && decide (lvl < 2) && decide (mode < 2) && decide (z < 4)) = true := h
  simp only [Bool.and_eq_true, decide_eq_true_eq] at h
  omega
theorem sealClose (d : Nat) (a : Nat) (b : Nat) (op : Nat) (z : Nat) : Statement (.sealClose d a b op z) := of_word rfl rfl rfl fun h => by
  have h : (decide (d < 64) && decide (a < 64) && decide (b < 64) && decide (op < 2) && decide (z < 8) && selOk [0] op) = true := h
  simp only [Bool.and_eq_true, decide_eq_true_eq] at h
  omega
theorem sealOpen (d : Nat) (a : Nat) (b : Nat) (op : Nat) (z : Nat) : Statement (.sealOpen d a b op z) := of_word rfl rfl rfl fun h => by
  have h : (decide (d < 64) && decide (a < 64) && decide (b < 64) && decide (op < 2) && decide (z < 8) && selOk [1] op) = true := h
  simp only [Bool.and_eq_true, decide_eq_true_eq] at h
  omega
theorem evt (y : Nat) (a : Nat) (z : Nat) : Statement (.evt y a z) := of_word rfl rfl rfl fun h => by
  have h : (decide (y < 64) && decide (a < 64) && decide (z < 1024)) = true := h
  simp only [Bool.and_eq_true, decide_eq_true_eq] at h
  omega
theorem waitev (d : Nat) (a : Nat) (z : Nat) : Statement (.waitev d a z) := of_word rfl rfl rfl fun h => by
  have h : (decide (d < 64) && decide (a < 64) && decide (z < 1024)) = true := h
  simp only [Bool.and_eq_true, decide_eq_true_eq] at h
  omega
theorem launch (d : Nat) (a : Nat) (z : Nat) : Statement (.launch d a z) := of_word rfl rfl rfl fun h => by
  have h : (decide (d < 64) && decide (a < 64) && decide (z < 1024)) = true := h
  simp only [Bool.and_eq_true, decide_eq_true_eq] at h
  omega
theorem vacateSave (d : Nat) (a : Nat) (b : Nat) (mode : Nat) (z : Nat) : Statement (.vacateSave d a b mode z) := of_word rfl rfl rfl fun h => by
  have h : (decide (d < 64) && decide (a < 64) && decide (b < 64) && decide (mode < 4) && decide (z < 4) && selOk [0, 3] mode) = true := h
  simp only [Bool.and_eq_true, decide_eq_true_eq] at h
  omega
theorem vacateOpen (d : Nat) (a : Nat) (b : Nat) (mode : Nat) (z : Nat) : Statement (.vacateOpen d a b mode z) := of_word rfl rfl rfl fun h => by
  have h : (decide (d < 64) && decide (a < 64) && decide (b < 64) && decide (mode < 4) && decide (z < 4) && selOk [1] mode) = true := h
  simp only [Bool.and_eq_true, decide_eq_true_eq] at h
  omega
theorem vacateKill (d : Nat) (a : Nat) (b : Nat) (mode : Nat) (z : Nat) : Statement (.vacateKill d a b mode z) := of_word rfl rfl rfl fun h => by
  have h : (decide (d < 64) && decide (a < 64) && decide (b < 64) && decide (mode < 4) && decide (z < 4) && selOk [2] mode) = true := h
  simp only [Bool.and_eq_true, decide_eq_true_eq] at h
  omega
theorem dict (d : Nat) (a : Nat) (b : Nat) (z : Nat) : Statement (.dict d a b z) := of_word rfl rfl rfl fun h => by
  have h : (decide (d < 64) && decide (a < 64) && decide (b < 64) && decide (z < 16)) = true := h
  simp only [Bool.and_eq_true, decide_eq_true_eq] at h
  omega
theorem flushst (d : Nat) (a : Nat) (b : Nat) (fua : Nat) (z : Nat) : Statement (.flushst d a b fua z) := of_word rfl rfl rfl fun h => by
  have h : (decide (d < 64) && decide (a < 64) && decide (b < 64) && decide (fua < 2) && decide (z < 8)) = true := h
  simp only [Bool.and_eq_true, decide_eq_true_eq] at h
  omega
theorem hashsw (d : Nat) (a : Nat) (z : Nat) : Statement (.hashsw d a z) := of_word rfl rfl rfl fun h => by
  have h : (decide (d < 64) && decide (a < 64) && decide (z < 1024)) = true := h
  simp only [Bool.and_eq_true, decide_eq_true_eq] at h
  omega
theorem sldW (hint : Nat) (d : Nat) (base : Nat) (off : Nat) (la : Nat) : Statement (.sldW hint d base off la) := of_word rfl rfl rfl fun h => by
  have h : (decide (hint < 4) && decide (d < 64) && decide (base < 64) && decide (off < 128) && decide (la < 16)) = true := h
  simp only [Bool.and_eq_true, decide_eq_true_eq] at h
  omega
theorem sldD (hint : Nat) (d : Nat) (base : Nat) (off : Nat) (la : Nat) : Statement (.sldD hint d base off la) := of_word rfl rfl rfl fun h => by
  have h : (decide (hint < 4) && decide (d < 64) && decide (base < 64) && decide (off < 128) && decide (la < 16)) = true := h
  simp only [Bool.and_eq_true, decide_eq_true_eq] at h
  omega
theorem sstW (hint : Nat) (d : Nat) (base : Nat) (off : Nat) (la : Nat) : Statement (.sstW hint d base off la) := of_word rfl rfl rfl fun h => by
  have h : (decide (hint < 4) && decide (d < 64) && decide (base < 64) && decide (off < 128) && decide (la < 16)) = true := h
  simp only [Bool.and_eq_true, decide_eq_true_eq] at h
  omega
theorem sstD (hint : Nat) (d : Nat) (base : Nat) (off : Nat) (la : Nat) : Statement (.sstD hint d base off la) := of_word rfl rfl rfl fun h => by
  have h : (decide (hint < 4) && decide (d < 64) && decide (base < 64) && decide (off < 128) && decide (la < 16)) = true := h
  simp only [Bool.and_eq_true, decide_eq_true_eq] at h
  omega
theorem satomAdd64 (hint : Nat) (d : Nat) (base : Nat) (off : Nat) (la : Nat) : Statement (.satomAdd64 hint d base off la) := of_word rfl rfl rfl fun h => by
  have h : (decide (hint < 4) && decide (d < 64) && decide (base < 64) && decide (off < 128) && decide (la < 16)) = true := h
  simp only [Bool.and_eq_true, decide_eq_true_eq] at h
  omega
theorem scas64 (hint : Nat) (d : Nat) (base : Nat) (off : Nat) (la : Nat) : Statement (.scas64 hint d base off la) := of_word rfl rfl rfl fun h => by
  have h : (decide (hint < 4) && decide (d < 64) && decide (base < 64) && decide (off < 128) && decide (la < 16)) = true := h
  simp only [Bool.and_eq_true, decide_eq_true_eq] at h
  omega
theorem sldl (hint : Nat) (d : Nat) (base : Nat) (off : Nat) (la : Nat) : Statement (.sldl hint d base off la) := of_word rfl rfl rfl fun h => by
  have h : (decide (hint < 4) && decide (d < 64) && decide (base < 64) && decide (off < 128) && decide (la < 16)) = true := h
  simp only [Bool.and_eq_true, decide_eq_true_eq] at h
  omega
theorem sstl (hint : Nat) (d : Nat) (base : Nat) (off : Nat) (la : Nat) : Statement (.sstl hint d base off la) := of_word rfl rfl rfl fun h => by
  have h : (decide (hint < 4) && decide (d < 64) && decide (base < 64) && decide (off < 128) && decide (la < 16)) = true := h
  simp only [Bool.and_eq_true, decide_eq_true_eq] at h
  omega
theorem dictionaryCode (rb : Nat) (index : Nat) : Statement (.dictionaryCode rb index) := by
  intro h
  have h : (decide (rb < 4) && decide (index < 1024)) = true := h
  simp only [Bool.and_eq_true, decide_eq_true_eq] at h
  refine ⟨rfl, ?_, fun h => absurd (show (16 : Nat) = 32 from h) (by decide)⟩
  show _ < 2 ^ 16
  omega
theorem unassignedEncoding (detail : Nat) : Statement (.unassignedEncoding detail) := of_none rfl rfl
theorem instructionFetchFault : Statement (.instructionFetchFault) := of_none rfl rfl
theorem registerWrite (fn : Nat) (off : Nat) (size : Nat) (value : Nat) : Statement (.registerWrite fn off size value) := of_none rfl rfl
theorem storeTranslationProbe (a : Actor) (ev : Nat) : Statement (.storeTranslationProbe a ev) := of_none rfl rfl
theorem probeReturn (a : Actor) : Statement (.probeReturn a) := of_none rfl rfl
theorem l1Fill (a : Actor) : Statement (.l1Fill a) := of_none rfl rfl
theorem sliceReadMiss (a : Actor) (ev : Nat) : Statement (.sliceReadMiss a ev) := of_none rfl rfl
theorem walkComplete (a : Actor) (ev : Nat) : Statement (.walkComplete a ev) := of_none rfl rfl
theorem writeBack (core : Nat) (n : Nat) : Statement (.writeBack core n) := of_none rfl rfl
theorem bypassStore (a : Actor) (ev : Nat) : Statement (.bypassStore a ev) := of_none rfl rfl
theorem sliceAtomic (a : Actor) (ev : Nat) : Statement (.sliceAtomic a ev) := of_none rfl rfl
theorem reclaim (sl : Nat) (asid : Nat) (page : Nat) : Statement (.reclaim sl asid page) := of_none rfl rfl
theorem reclaimAck (sl : Nat) (asid : Nat) (page : Nat) : Statement (.reclaimAck sl asid page) := of_none rfl rfl
theorem replicaInvalidate (sl : Nat) (asid : Nat) (page : Nat) (die : Nat) : Statement (.replicaInvalidate sl asid page die) := of_none rfl rfl
theorem replicaInvalidateAck (sl : Nat) (asid : Nat) (page : Nat) : Statement (.replicaInvalidateAck sl asid page) := of_none rfl rfl
theorem requestBounce (a : Actor) : Statement (.requestBounce a) := of_none rfl rfl
theorem requestReplay (a : Actor) : Statement (.requestReplay a) := of_none rfl rfl
theorem remoteScratchpadAccess (a : Actor) : Statement (.remoteScratchpadAccess a) := of_none rfl rfl
theorem retrieverAccess (a : Actor) : Statement (.retrieverAccess a) := of_none rfl rfl
theorem genBroadcastReceive (asid : Nat) (r : Nat) : Statement (.genBroadcastReceive asid r) := of_none rfl rfl
theorem genBroadcastDone (asid : Nat) : Statement (.genBroadcastDone asid) := of_none rfl rfl
theorem dropNotice (sl : Nat) : Statement (.dropNotice sl) := of_none rfl rfl
theorem pageInvalidateReceive (sl : Nat) (asid : Nat) (page : Nat) : Statement (.pageInvalidateReceive sl asid page) := of_none rfl rfl
theorem pageInvalidationDone (asid : Nat) (page : Nat) : Statement (.pageInvalidationDone asid page) := of_none rfl rfl
theorem harvestDone (a : Actor) : Statement (.harvestDone a) := of_none rfl rfl
theorem rangeOperationDone (a : Actor) : Statement (.rangeOperationDone a) := of_none rfl rfl
theorem domainSwitchDone (dom : Nat) : Statement (.domainSwitchDone dom) := of_none rfl rfl
theorem slcsClr (sl : Nat) : Statement (.slcsClr sl) := of_none rfl rfl
theorem sltsClr (sl : Nat) : Statement (.sltsClr sl) := of_none rfl rfl
theorem cmcmdSet (value : Nat) : Statement (.cmcmdSet value) := of_none rfl rfl
theorem cmcmdQuery (value : Nat) : Statement (.cmcmdQuery value) := of_none rfl rfl
theorem cmcmdSetDone : Statement (.cmcmdSetDone) := of_none rfl rfl
theorem slhmWrite (dom : Nat) (value : Nat) : Statement (.slhmWrite dom value) := of_none rfl rfl
theorem slhcWrite (dom : Nat) (value : Nat) : Statement (.slhcWrite dom value) := of_none rfl rfl
theorem commitBackoffExpiry (core : Nat) (slot : Nat) : Statement (.commitBackoffExpiry core slot) := of_none rfl rfl
theorem fetchRequestIntake (port : Nat) : Statement (.fetchRequestIntake port) := of_none rfl rfl
theorem nvmeCommandComplete (port : Nat) (n : Nat) (status : Nat) : Statement (.nvmeCommandComplete port n status) := of_none rfl rfl
theorem nvmeCommandTimeout (port : Nat) (n : Nat) : Statement (.nvmeCommandTimeout port n) := of_none rfl rfl
theorem storageLinkUp (port : Nat) (lbs : Nat) (ident : Nat) : Statement (.storageLinkUp port lbs ident) := of_none rfl rfl
theorem storageLinkDown (port : Nat) : Statement (.storageLinkDown port) := of_none rfl rfl
theorem frdbServiced (die : Nat) (token : Nat) : Statement (.frdbServiced die token) := of_none rfl rfl
theorem frdbFail (die : Nat) (token : Nat) : Statement (.frdbFail die token) := of_none rfl rfl
theorem handOverDone (die : Nat) (t : Nat) : Statement (.handOverDone die t) := of_none rfl rfl
theorem rejoinTimeout (die : Nat) (t : Nat) : Statement (.rejoinTimeout die t) := of_none rfl rfl
theorem recallComplete (die : Nat) (t : Nat) : Statement (.recallComplete die t) := of_none rfl rfl
theorem powerTokenGrant (die : Nat) : Statement (.powerTokenGrant die) := of_none rfl rfl
theorem matrixPassComplete (core : Nat) : Statement (.matrixPassComplete core) := of_none rfl rfl
theorem copyComplete (core : Nat) (wg : Nat) (n : Nat) : Statement (.copyComplete core wg n) := of_none rfl rfl
theorem cpyrAck (core : Nat) (wg : Nat) (n : Nat) (fault : Nat) : Statement (.cpyrAck core wg n fault) := of_none rfl rfl
theorem dispatchDeliver (core : Nat) (wg : Nat) (n : Nat) (refused : Nat) : Statement (.dispatchDeliver core wg n refused) := of_none rfl rfl
theorem dispatchDone (core : Nat) (wg : Nat) (n : Nat) : Statement (.dispatchDone core wg n) := of_none rfl rfl
theorem peerTimeout (a : Actor) : Statement (.peerTimeout a) := of_none rfl rfl
theorem xchTimeout (core : Nat) (slot : Nat) : Statement (.xchTimeout core slot) := of_none rfl rfl
theorem castling (a : Actor) : Statement (.castling a) := of_none rfl rfl
theorem rdvComplete (core : Nat) (wg : Nat) : Statement (.rdvComplete core wg) := of_none rfl rfl
theorem tileFlagNotify (die : Nat) : Statement (.tileFlagNotify die) := of_none rfl rfl
theorem packPlace (die : Nat) : Statement (.packPlace die) := of_none rfl rfl
theorem packSaveComplete (die : Nat) : Statement (.packSaveComplete die) := of_none rfl rfl
theorem quantumExpiry (die : Nat) (q : Nat) : Statement (.quantumExpiry die q) := of_none rfl rfl
theorem gridCompletion (die : Nat) : Statement (.gridCompletion die) := of_none rfl rfl
theorem submissionTake (die : Nat) : Statement (.submissionTake die) := of_none rfl rfl
theorem eventInsert (die : Nat) : Statement (.eventInsert die) := of_none rfl rfl
theorem waitevTimeout (die : Nat) (t : Nat) : Statement (.waitevTimeout die t) := of_none rfl rfl
theorem dbgctlResume (die : Nat) : Statement (.dbgctlResume die) := of_none rfl rfl
theorem dbgctlHaltedClear (die : Nat) : Statement (.dbgctlHaltedClear die) := of_none rfl rfl
theorem kscmdLoad (slot : Nat) : Statement (.kscmdLoad slot) := of_none rfl rfl
theorem kscmdRevoke (slot : Nat) : Statement (.kscmdRevoke slot) := of_none rfl rfl
theorem keySlotOpDone : Statement (.keySlotOpDone) := of_none rfl rfl
theorem mfesClear (value : Nat) : Statement (.mfesClear value) := of_none rfl rfl
theorem almLock : Statement (.almLock) := of_none rfl rfl
theorem almClear (value : Nat) : Statement (.almClear value) := of_none rfl rfl
theorem securityAlarm (src : Nat) : Statement (.securityAlarm src) := of_none rfl rfl
theorem dbggoGo (die : Nat) : Statement (.dbggoGo die) := of_none rfl rfl
theorem debugUnlockResult (ok : Nat) : Statement (.debugUnlockResult ok) := of_none rfl rfl
theorem drstGo (die : Nat) : Statement (.drstGo die) := of_none rfl rfl
theorem functionLevelReset (die : Nat) : Statement (.functionLevelReset die) := of_none rfl rfl
theorem bdrstReset (sl : Nat) : Statement (.bdrstReset sl) := of_none rfl rfl
theorem ctxbWrite (value : Nat) : Statement (.ctxbWrite value) := of_none rfl rfl
theorem peerbWrite (value : Nat) : Statement (.peerbWrite value) := of_none rfl rfl
theorem fabnWrite (value : Nat) : Statement (.fabnWrite value) := of_none rfl rfl
theorem moduleColdReset (ok : Nat) (ctxb : Nat) (peerb : Nat) (fab : Nat) : Statement (.moduleColdReset ok ctxb peerb fab) := of_none rfl rfl
theorem thermalLimit (die : Nat) (lvl : Nat) (tmax : Nat) : Statement (.thermalLimit die lvl tmax) := of_none rfl rfl
theorem thermalRecover (die : Nat) (lvl : Nat) : Statement (.thermalRecover die lvl) := of_none rfl rfl
theorem spdmRequest (die : Nat) (code : Nat) : Statement (.spdmRequest die code) := of_none rfl rfl
theorem keyProgram (die : Nat) (slot : Nat) : Statement (.keyProgram die slot) := of_none rfl rfl
theorem lockInterface (die : Nat) : Statement (.lockInterface die) := of_none rfl rfl
theorem stopInterface (die : Nat) : Statement (.stopInterface die) := of_none rfl rfl
theorem hostBar2Read (die : Nat) (off : Nat) (size : Nat) : Statement (.hostBar2Read die off size) := of_none rfl rfl
theorem hostBar2Write (die : Nat) (off : Nat) (size : Nat) (value : Nat) (ep : Nat) : Statement (.hostBar2Write die off size value ep) := of_none rfl rfl
theorem peerRequest (fab : Nat) (rasid : Nat) (cmd : Nat) (addr : Nat) (value : Nat) (poi : Nat) : Statement (.peerRequest fab rasid cmd addr value poi) := of_none rfl rfl
theorem cxlCompletion (a : Actor) (kind : Nat) (value : Nat) : Statement (.cxlCompletion a kind value) := of_none rfl rfl
theorem sealVersionNotice (dev : Nat) (buf : Nat) (ver : Nat) : Statement (.sealVersionNotice dev buf ver) := of_none rfl rfl
theorem sealRetire (die : Nat) (dev : Nat) (buf : Nat) (ver : Nat) : Statement (.sealRetire die dev buf ver) := of_none rfl rfl
theorem sealRetireAck (a : Actor) : Statement (.sealRetireAck a) := of_none rfl rfl
theorem startInterface (die : Nat) : Statement (.startInterface die) := of_none rfl rfl
theorem ualinkPortsTrain : Statement (.ualinkPortsTrain) := of_none rfl rfl
theorem peerAccessCompletion (a : Actor) (kind : Nat) (value : Nat) : Statement (.peerAccessCompletion a kind value) := of_none rfl rfl
theorem dieResetComplete (die : Nat) : Statement (.dieResetComplete die) := of_none rfl rfl
theorem baseDieResetComplete (sl : Nat) : Statement (.baseDieResetComplete sl) := of_none rfl rfl
theorem uncorrectableEccError (sp : Nat) (core : Nat) (addr : Nat) (syn : Nat) : Statement (.uncorrectableEccError sp core addr syn) := of_none rfl rfl

end Sys2Proof.Laws.Encoding
end

