-- ==== Sys2Proof/Laws/State.lean ====
section
/-! SUPPORT. What each update of the state leaves as it was, field by field, and reading back what an update wrote. -/

namespace Sys2Proof.Machine

/-! Updates of one component: every other field. -/

@[simp] theorem State.setCore_groups (s : State) (c : Nat) (x : Core) : (s.setCore c x).groups = s.groups := rfl
@[simp] theorem State.setCore_threads (s : State) (c : Nat) (x : Core) : (s.setCore c x).threads = s.threads := rfl
@[simp] theorem State.setCore_ctls (s : State) (c : Nat) (x : Core) : (s.setCore c x).ctls = s.ctls := rfl
@[simp] theorem State.setCore_mseqs (s : State) (c : Nat) (x : Core) : (s.setCore c x).mseqs = s.mseqs := rfl
@[simp] theorem State.setCore_cseqs (s : State) (c : Nat) (x : Core) : (s.setCore c x).cseqs = s.cseqs := rfl
@[simp] theorem State.setCore_dies (s : State) (c : Nat) (x : Core) : (s.setCore c x).dies = s.dies := rfl
@[simp] theorem State.setCore_mem (s : State) (c : Nat) (x : Core) : (s.setCore c x).mem = s.mem := rfl
@[simp] theorem State.setCore_mf (s : State) (c : Nat) (x : Core) : (s.setCore c x).mf = s.mf := rfl
@[simp] theorem State.setCore_grids (s : State) (c : Nat) (x : Core) : (s.setCore c x).grids = s.grids := rfl
@[simp] theorem State.setCore_gridN (s : State) (c : Nat) (x : Core) : (s.setCore c x).gridN = s.gridN := rfl
@[simp] theorem State.setCore_rr (s : State) (c : Nat) (x : Core) : (s.setCore c x).rr = s.rr := rfl
@[simp] theorem State.setCore_ports (s : State) (c : Nat) (x : Core) : (s.setCore c x).ports = s.ports := rfl
@[simp] theorem State.setCore_bufs (s : State) (c : Nat) (x : Core) : (s.setCore c x).bufs = s.bufs := rfl
@[simp] theorem State.setCore_bcasts (s : State) (c : Nat) (x : Core) : (s.setCore c x).bcasts = s.bcasts := rfl
@[simp] theorem State.setCore_invals (s : State) (c : Nat) (x : Core) : (s.setCore c x).invals = s.invals := rfl
@[simp] theorem State.setCore_switches (s : State) (c : Nat) (x : Core) : (s.setCore c x).switches = s.switches := rfl
@[simp] theorem State.setCore_vacs (s : State) (c : Nat) (x : Core) : (s.setCore c x).vacs = s.vacs := rfl
@[simp] theorem State.setCore_leftN (s : State) (c : Nat) (x : Core) : (s.setCore c x).leftN = s.leftN := rfl
@[simp] theorem State.setCore_agenda (s : State) (c : Nat) (x : Core) : (s.setCore c x).agenda = s.agenda := rfl
@[simp] theorem State.setCore_cur (s : State) (c : Nat) (x : Core) : (s.setCore c x).cur = s.cur := rfl
@[simp] theorem State.setCore_next (s : State) (c : Nat) (x : Core) : (s.setCore c x).next = s.next := rfl

@[simp] theorem State.setDie_groups (s : State) (d : Nat) (x : Die) : (s.setDie d x).groups = s.groups := rfl
@[simp] theorem State.setDie_threads (s : State) (d : Nat) (x : Die) : (s.setDie d x).threads = s.threads := rfl
@[simp] theorem State.setDie_ctls (s : State) (d : Nat) (x : Die) : (s.setDie d x).ctls = s.ctls := rfl
@[simp] theorem State.setDie_mseqs (s : State) (d : Nat) (x : Die) : (s.setDie d x).mseqs = s.mseqs := rfl
@[simp] theorem State.setDie_cseqs (s : State) (d : Nat) (x : Die) : (s.setDie d x).cseqs = s.cseqs := rfl
@[simp] theorem State.setDie_cores (s : State) (d : Nat) (x : Die) : (s.setDie d x).cores = s.cores := rfl
@[simp] theorem State.setDie_mem (s : State) (d : Nat) (x : Die) : (s.setDie d x).mem = s.mem := rfl
@[simp] theorem State.setDie_mf (s : State) (d : Nat) (x : Die) : (s.setDie d x).mf = s.mf := rfl
@[simp] theorem State.setDie_grids (s : State) (d : Nat) (x : Die) : (s.setDie d x).grids = s.grids := rfl
@[simp] theorem State.setDie_gridN (s : State) (d : Nat) (x : Die) : (s.setDie d x).gridN = s.gridN := rfl
@[simp] theorem State.setDie_rr (s : State) (d : Nat) (x : Die) : (s.setDie d x).rr = s.rr := rfl
@[simp] theorem State.setDie_ports (s : State) (d : Nat) (x : Die) : (s.setDie d x).ports = s.ports := rfl
@[simp] theorem State.setDie_bufs (s : State) (d : Nat) (x : Die) : (s.setDie d x).bufs = s.bufs := rfl
@[simp] theorem State.setDie_bcasts (s : State) (d : Nat) (x : Die) : (s.setDie d x).bcasts = s.bcasts := rfl
@[simp] theorem State.setDie_invals (s : State) (d : Nat) (x : Die) : (s.setDie d x).invals = s.invals := rfl
@[simp] theorem State.setDie_switches (s : State) (d : Nat) (x : Die) : (s.setDie d x).switches = s.switches := rfl
@[simp] theorem State.setDie_vacs (s : State) (d : Nat) (x : Die) : (s.setDie d x).vacs = s.vacs := rfl
@[simp] theorem State.setDie_leftN (s : State) (d : Nat) (x : Die) : (s.setDie d x).leftN = s.leftN := rfl
@[simp] theorem State.setDie_agenda (s : State) (d : Nat) (x : Die) : (s.setDie d x).agenda = s.agenda := rfl
@[simp] theorem State.setDie_cur (s : State) (d : Nat) (x : Die) : (s.setDie d x).cur = s.cur := rfl
@[simp] theorem State.setDie_next (s : State) (d : Nat) (x : Die) : (s.setDie d x).next = s.next := rfl

@[simp] theorem State.setPort_groups (s : State) (p : Nat) (x : Port) : (s.setPort p x).groups = s.groups := rfl
@[simp] theorem State.setPort_threads (s : State) (p : Nat) (x : Port) : (s.setPort p x).threads = s.threads := rfl
@[simp] theorem State.setPort_ctls (s : State) (p : Nat) (x : Port) : (s.setPort p x).ctls = s.ctls := rfl
@[simp] theorem State.setPort_mseqs (s : State) (p : Nat) (x : Port) : (s.setPort p x).mseqs = s.mseqs := rfl
@[simp] theorem State.setPort_cseqs (s : State) (p : Nat) (x : Port) : (s.setPort p x).cseqs = s.cseqs := rfl
@[simp] theorem State.setPort_cores (s : State) (p : Nat) (x : Port) : (s.setPort p x).cores = s.cores := rfl
@[simp] theorem State.setPort_dies (s : State) (p : Nat) (x : Port) : (s.setPort p x).dies = s.dies := rfl
@[simp] theorem State.setPort_mem (s : State) (p : Nat) (x : Port) : (s.setPort p x).mem = s.mem := rfl
@[simp] theorem State.setPort_mf (s : State) (p : Nat) (x : Port) : (s.setPort p x).mf = s.mf := rfl
@[simp] theorem State.setPort_grids (s : State) (p : Nat) (x : Port) : (s.setPort p x).grids = s.grids := rfl
@[simp] theorem State.setPort_gridN (s : State) (p : Nat) (x : Port) : (s.setPort p x).gridN = s.gridN := rfl
@[simp] theorem State.setPort_rr (s : State) (p : Nat) (x : Port) : (s.setPort p x).rr = s.rr := rfl
@[simp] theorem State.setPort_bufs (s : State) (p : Nat) (x : Port) : (s.setPort p x).bufs = s.bufs := rfl
@[simp] theorem State.setPort_bcasts (s : State) (p : Nat) (x : Port) : (s.setPort p x).bcasts = s.bcasts := rfl
@[simp] theorem State.setPort_invals (s : State) (p : Nat) (x : Port) : (s.setPort p x).invals = s.invals := rfl
@[simp] theorem State.setPort_switches (s : State) (p : Nat) (x : Port) : (s.setPort p x).switches = s.switches := rfl
@[simp] theorem State.setPort_vacs (s : State) (p : Nat) (x : Port) : (s.setPort p x).vacs = s.vacs := rfl
@[simp] theorem State.setPort_leftN (s : State) (p : Nat) (x : Port) : (s.setPort p x).leftN = s.leftN := rfl
@[simp] theorem State.setPort_agenda (s : State) (p : Nat) (x : Port) : (s.setPort p x).agenda = s.agenda := rfl
@[simp] theorem State.setPort_cur (s : State) (p : Nat) (x : Port) : (s.setPort p x).cur = s.cur := rfl
@[simp] theorem State.setPort_next (s : State) (p : Nat) (x : Port) : (s.setPort p x).next = s.next := rfl

@[simp] theorem State.event_groups (s : State) (d : Nat) (r : BitVec 128) : (s.event d r).groups = s.groups := rfl
@[simp] theorem State.event_threads (s : State) (d : Nat) (r : BitVec 128) : (s.event d r).threads = s.threads := rfl
@[simp] theorem State.event_ctls (s : State) (d : Nat) (r : BitVec 128) : (s.event d r).ctls = s.ctls := rfl
@[simp] theorem State.event_mseqs (s : State) (d : Nat) (r : BitVec 128) : (s.event d r).mseqs = s.mseqs := rfl
@[simp] theorem State.event_cseqs (s : State) (d : Nat) (r : BitVec 128) : (s.event d r).cseqs = s.cseqs := rfl
@[simp] theorem State.event_cores (s : State) (d : Nat) (r : BitVec 128) : (s.event d r).cores = s.cores := rfl
@[simp] theorem State.event_dies (s : State) (d : Nat) (r : BitVec 128) : (s.event d r).dies = s.dies := rfl
@[simp] theorem State.event_mf (s : State) (d : Nat) (r : BitVec 128) : (s.event d r).mf = s.mf := rfl
@[simp] theorem State.event_grids (s : State) (d : Nat) (r : BitVec 128) : (s.event d r).grids = s.grids := rfl
@[simp] theorem State.event_gridN (s : State) (d : Nat) (r : BitVec 128) : (s.event d r).gridN = s.gridN := rfl
@[simp] theorem State.event_rr (s : State) (d : Nat) (r : BitVec 128) : (s.event d r).rr = s.rr := rfl
@[simp] theorem State.event_ports (s : State) (d : Nat) (r : BitVec 128) : (s.event d r).ports = s.ports := rfl
@[simp] theorem State.event_bufs (s : State) (d : Nat) (r : BitVec 128) : (s.event d r).bufs = s.bufs := rfl
@[simp] theorem State.event_bcasts (s : State) (d : Nat) (r : BitVec 128) : (s.event d r).bcasts = s.bcasts := rfl
@[simp] theorem State.event_invals (s : State) (d : Nat) (r : BitVec 128) : (s.event d r).invals = s.invals := rfl
@[simp] theorem State.event_switches (s : State) (d : Nat) (r : BitVec 128) : (s.event d r).switches = s.switches := rfl
@[simp] theorem State.event_vacs (s : State) (d : Nat) (r : BitVec 128) : (s.event d r).vacs = s.vacs := rfl
@[simp] theorem State.event_leftN (s : State) (d : Nat) (r : BitVec 128) : (s.event d r).leftN = s.leftN := rfl
@[simp] theorem State.event_agenda (s : State) (d : Nat) (r : BitVec 128) : (s.event d r).agenda = s.agenda := rfl
@[simp] theorem State.event_cur (s : State) (d : Nat) (r : BitVec 128) : (s.event d r).cur = s.cur := rfl
@[simp] theorem State.event_next (s : State) (d : Nat) (r : BitVec 128) : (s.event d r).next = s.next := rfl

@[simp] theorem State.updGrid_groups (s : State) (k : Nat) (f : Grid → Grid) : (s.updGrid k f).groups = s.groups := rfl
@[simp] theorem State.updGrid_threads (s : State) (k : Nat) (f : Grid → Grid) : (s.updGrid k f).threads = s.threads := rfl
@[simp] theorem State.updGrid_ctls (s : State) (k : Nat) (f : Grid → Grid) : (s.updGrid k f).ctls = s.ctls := rfl
@[simp] theorem State.updGrid_mseqs (s : State) (k : Nat) (f : Grid → Grid) : (s.updGrid k f).mseqs = s.mseqs := rfl
@[simp] theorem State.updGrid_cseqs (s : State) (k : Nat) (f : Grid → Grid) : (s.updGrid k f).cseqs = s.cseqs := rfl
@[simp] theorem State.updGrid_cores (s : State) (k : Nat) (f : Grid → Grid) : (s.updGrid k f).cores = s.cores := rfl
@[simp] theorem State.updGrid_dies (s : State) (k : Nat) (f : Grid → Grid) : (s.updGrid k f).dies = s.dies := rfl
@[simp] theorem State.updGrid_mem (s : State) (k : Nat) (f : Grid → Grid) : (s.updGrid k f).mem = s.mem := rfl
@[simp] theorem State.updGrid_mf (s : State) (k : Nat) (f : Grid → Grid) : (s.updGrid k f).mf = s.mf := rfl
@[simp] theorem State.updGrid_gridN (s : State) (k : Nat) (f : Grid → Grid) : (s.updGrid k f).gridN = s.gridN := rfl
@[simp] theorem State.updGrid_rr (s : State) (k : Nat) (f : Grid → Grid) : (s.updGrid k f).rr = s.rr := rfl
@[simp] theorem State.updGrid_ports (s : State) (k : Nat) (f : Grid → Grid) : (s.updGrid k f).ports = s.ports := rfl
@[simp] theorem State.updGrid_bufs (s : State) (k : Nat) (f : Grid → Grid) : (s.updGrid k f).bufs = s.bufs := rfl
@[simp] theorem State.updGrid_bcasts (s : State) (k : Nat) (f : Grid → Grid) : (s.updGrid k f).bcasts = s.bcasts := rfl
@[simp] theorem State.updGrid_invals (s : State) (k : Nat) (f : Grid → Grid) : (s.updGrid k f).invals = s.invals := rfl
@[simp] theorem State.updGrid_switches (s : State) (k : Nat) (f : Grid → Grid) : (s.updGrid k f).switches = s.switches := rfl
@[simp] theorem State.updGrid_vacs (s : State) (k : Nat) (f : Grid → Grid) : (s.updGrid k f).vacs = s.vacs := rfl
@[simp] theorem State.updGrid_leftN (s : State) (k : Nat) (f : Grid → Grid) : (s.updGrid k f).leftN = s.leftN := rfl
@[simp] theorem State.updGrid_agenda (s : State) (k : Nat) (f : Grid → Grid) : (s.updGrid k f).agenda = s.agenda := rfl
@[simp] theorem State.updGrid_cur (s : State) (k : Nat) (f : Grid → Grid) : (s.updGrid k f).cur = s.cur := rfl
@[simp] theorem State.updGrid_next (s : State) (k : Nat) (f : Grid → Grid) : (s.updGrid k f).next = s.next := rfl

@[simp] theorem State.setWg_groups (s : State) (c w : Nat) (x : Wg) : (s.setWg c w x).groups = s.groups := rfl
@[simp] theorem State.setWg_threads (s : State) (c w : Nat) (x : Wg) : (s.setWg c w x).threads = s.threads := rfl
@[simp] theorem State.setWg_ctls (s : State) (c w : Nat) (x : Wg) : (s.setWg c w x).ctls = s.ctls := rfl
@[simp] theorem State.setWg_mseqs (s : State) (c w : Nat) (x : Wg) : (s.setWg c w x).mseqs = s.mseqs := rfl
@[simp] theorem State.setWg_cseqs (s : State) (c w : Nat) (x : Wg) : (s.setWg c w x).cseqs = s.cseqs := rfl
@[simp] theorem State.setWg_dies (s : State) (c w : Nat) (x : Wg) : (s.setWg c w x).dies = s.dies := rfl
@[simp] theorem State.setWg_mem (s : State) (c w : Nat) (x : Wg) : (s.setWg c w x).mem = s.mem := rfl
@[simp] theorem State.setWg_mf (s : State) (c w : Nat) (x : Wg) : (s.setWg c w x).mf = s.mf := rfl
@[simp] theorem State.setWg_grids (s : State) (c w : Nat) (x : Wg) : (s.setWg c w x).grids = s.grids := rfl
@[simp] theorem State.setWg_gridN (s : State) (c w : Nat) (x : Wg) : (s.setWg c w x).gridN = s.gridN := rfl
@[simp] theorem State.setWg_rr (s : State) (c w : Nat) (x : Wg) : (s.setWg c w x).rr = s.rr := rfl
@[simp] theorem State.setWg_ports (s : State) (c w : Nat) (x : Wg) : (s.setWg c w x).ports = s.ports := rfl
@[simp] theorem State.setWg_bufs (s : State) (c w : Nat) (x : Wg) : (s.setWg c w x).bufs = s.bufs := rfl
@[simp] theorem State.setWg_bcasts (s : State) (c w : Nat) (x : Wg) : (s.setWg c w x).bcasts = s.bcasts := rfl
@[simp] theorem State.setWg_invals (s : State) (c w : Nat) (x : Wg) : (s.setWg c w x).invals = s.invals := rfl
@[simp] theorem State.setWg_switches (s : State) (c w : Nat) (x : Wg) : (s.setWg c w x).switches = s.switches := rfl
@[simp] theorem State.setWg_vacs (s : State) (c w : Nat) (x : Wg) : (s.setWg c w x).vacs = s.vacs := rfl
@[simp] theorem State.setWg_leftN (s : State) (c w : Nat) (x : Wg) : (s.setWg c w x).leftN = s.leftN := rfl
@[simp] theorem State.setWg_agenda (s : State) (c w : Nat) (x : Wg) : (s.setWg c w x).agenda = s.agenda := rfl
@[simp] theorem State.setWg_cur (s : State) (c w : Nat) (x : Wg) : (s.setWg c w x).cur = s.cur := rfl
@[simp] theorem State.setWg_next (s : State) (c w : Nat) (x : Wg) : (s.setWg c w x).next = s.next := rfl

@[simp] theorem State.updWg_groups (s : State) (c w : Nat) (f : Wg → Wg) : (s.updWg c w f).groups = s.groups := rfl
@[simp] theorem State.updWg_threads (s : State) (c w : Nat) (f : Wg → Wg) : (s.updWg c w f).threads = s.threads := rfl
@[simp] theorem State.updWg_ctls (s : State) (c w : Nat) (f : Wg → Wg) : (s.updWg c w f).ctls = s.ctls := rfl
@[simp] theorem State.updWg_mseqs (s : State) (c w : Nat) (f : Wg → Wg) : (s.updWg c w f).mseqs = s.mseqs := rfl
@[simp] theorem State.updWg_cseqs (s : State) (c w : Nat) (f : Wg → Wg) : (s.updWg c w f).cseqs = s.cseqs := rfl
@[simp] theorem State.updWg_dies (s : State) (c w : Nat) (f : Wg → Wg) : (s.updWg c w f).dies = s.dies := rfl
@[simp] theorem State.updWg_mem (s : State) (c w : Nat) (f : Wg → Wg) : (s.updWg c w f).mem = s.mem := rfl
@[simp] theorem State.updWg_mf (s : State) (c w : Nat) (f : Wg → Wg) : (s.updWg c w f).mf = s.mf := rfl
@[simp] theorem State.updWg_grids (s : State) (c w : Nat) (f : Wg → Wg) : (s.updWg c w f).grids = s.grids := rfl
@[simp] theorem State.updWg_gridN (s : State) (c w : Nat) (f : Wg → Wg) : (s.updWg c w f).gridN = s.gridN := rfl
@[simp] theorem State.updWg_rr (s : State) (c w : Nat) (f : Wg → Wg) : (s.updWg c w f).rr = s.rr := rfl
@[simp] theorem State.updWg_ports (s : State) (c w : Nat) (f : Wg → Wg) : (s.updWg c w f).ports = s.ports := rfl
@[simp] theorem State.updWg_bufs (s : State) (c w : Nat) (f : Wg → Wg) : (s.updWg c w f).bufs = s.bufs := rfl
@[simp] theorem State.updWg_bcasts (s : State) (c w : Nat) (f : Wg → Wg) : (s.updWg c w f).bcasts = s.bcasts := rfl
@[simp] theorem State.updWg_invals (s : State) (c w : Nat) (f : Wg → Wg) : (s.updWg c w f).invals = s.invals := rfl
@[simp] theorem State.updWg_switches (s : State) (c w : Nat) (f : Wg → Wg) : (s.updWg c w f).switches = s.switches := rfl
@[simp] theorem State.updWg_vacs (s : State) (c w : Nat) (f : Wg → Wg) : (s.updWg c w f).vacs = s.vacs := rfl
@[simp] theorem State.updWg_leftN (s : State) (c w : Nat) (f : Wg → Wg) : (s.updWg c w f).leftN = s.leftN := rfl
@[simp] theorem State.updWg_agenda (s : State) (c w : Nat) (f : Wg → Wg) : (s.updWg c w f).agenda = s.agenda := rfl
@[simp] theorem State.updWg_cur (s : State) (c w : Nat) (f : Wg → Wg) : (s.updWg c w f).cur = s.cur := rfl
@[simp] theorem State.updWg_next (s : State) (c w : Nat) (f : Wg → Wg) : (s.updWg c w f).next = s.next := rfl

@[simp] theorem State.setCtx_cores (s : State) (a : Actor) (x : Ctx) : (s.setCtx a x).cores = s.cores := by cases a <;> rfl
@[simp] theorem State.setCtx_dies (s : State) (a : Actor) (x : Ctx) : (s.setCtx a x).dies = s.dies := by cases a <;> rfl
@[simp] theorem State.setCtx_mem (s : State) (a : Actor) (x : Ctx) : (s.setCtx a x).mem = s.mem := by cases a <;> rfl
@[simp] theorem State.setCtx_mf (s : State) (a : Actor) (x : Ctx) : (s.setCtx a x).mf = s.mf := by cases a <;> rfl
@[simp] theorem State.setCtx_grids (s : State) (a : Actor) (x : Ctx) : (s.setCtx a x).grids = s.grids := by cases a <;> rfl
@[simp] theorem State.setCtx_gridN (s : State) (a : Actor) (x : Ctx) : (s.setCtx a x).gridN = s.gridN := by cases a <;> rfl
@[simp] theorem State.setCtx_rr (s : State) (a : Actor) (x : Ctx) : (s.setCtx a x).rr = s.rr := by cases a <;> rfl
@[simp] theorem State.setCtx_ports (s : State) (a : Actor) (x : Ctx) : (s.setCtx a x).ports = s.ports := by cases a <;> rfl
@[simp] theorem State.setCtx_bufs (s : State) (a : Actor) (x : Ctx) : (s.setCtx a x).bufs = s.bufs := by cases a <;> rfl
@[simp] theorem State.setCtx_bcasts (s : State) (a : Actor) (x : Ctx) : (s.setCtx a x).bcasts = s.bcasts := by cases a <;> rfl
@[simp] theorem State.setCtx_invals (s : State) (a : Actor) (x : Ctx) : (s.setCtx a x).invals = s.invals := by cases a <;> rfl
@[simp] theorem State.setCtx_switches (s : State) (a : Actor) (x : Ctx) : (s.setCtx a x).switches = s.switches := by cases a <;> rfl
@[simp] theorem State.setCtx_vacs (s : State) (a : Actor) (x : Ctx) : (s.setCtx a x).vacs = s.vacs := by cases a <;> rfl
@[simp] theorem State.setCtx_leftN (s : State) (a : Actor) (x : Ctx) : (s.setCtx a x).leftN = s.leftN := by cases a <;> rfl
@[simp] theorem State.setCtx_agenda (s : State) (a : Actor) (x : Ctx) : (s.setCtx a x).agenda = s.agenda := by cases a <;> rfl
@[simp] theorem State.setCtx_cur (s : State) (a : Actor) (x : Ctx) : (s.setCtx a x).cur = s.cur := by cases a <;> rfl
@[simp] theorem State.setCtx_next (s : State) (a : Actor) (x : Ctx) : (s.setCtx a x).next = s.next := by cases a <;> rfl

@[simp] theorem State.updCtx_cores (s : State) (a : Actor) (f : Ctx → Ctx) : (s.updCtx a f).cores = s.cores := by cases a <;> rfl
@[simp] theorem State.updCtx_dies (s : State) (a : Actor) (f : Ctx → Ctx) : (s.updCtx a f).dies = s.dies := by cases a <;> rfl
@[simp] theorem State.updCtx_mem (s : State) (a : Actor) (f : Ctx → Ctx) : (s.updCtx a f).mem = s.mem := by cases a <;> rfl
@[simp] theorem State.updCtx_mf (s : State) (a : Actor) (f : Ctx → Ctx) : (s.updCtx a f).mf = s.mf := by cases a <;> rfl
@[simp] theorem State.updCtx_grids (s : State) (a : Actor) (f : Ctx → Ctx) : (s.updCtx a f).grids = s.grids := by cases a <;> rfl
@[simp] theorem State.updCtx_gridN (s : State) (a : Actor) (f : Ctx → Ctx) : (s.updCtx a f).gridN = s.gridN := by cases a <;> rfl
@[simp] theorem State.updCtx_rr (s : State) (a : Actor) (f : Ctx → Ctx) : (s.updCtx a f).rr = s.rr := by cases a <;> rfl
@[simp] theorem State.updCtx_ports (s : State) (a : Actor) (f : Ctx → Ctx) : (s.updCtx a f).ports = s.ports := by cases a <;> rfl
@[simp] theorem State.updCtx_bufs (s : State) (a : Actor) (f : Ctx → Ctx) : (s.updCtx a f).bufs = s.bufs := by cases a <;> rfl
@[simp] theorem State.updCtx_bcasts (s : State) (a : Actor) (f : Ctx → Ctx) : (s.updCtx a f).bcasts = s.bcasts := by cases a <;> rfl
@[simp] theorem State.updCtx_invals (s : State) (a : Actor) (f : Ctx → Ctx) : (s.updCtx a f).invals = s.invals := by cases a <;> rfl
@[simp] theorem State.updCtx_switches (s : State) (a : Actor) (f : Ctx → Ctx) : (s.updCtx a f).switches = s.switches := by cases a <;> rfl
@[simp] theorem State.updCtx_vacs (s : State) (a : Actor) (f : Ctx → Ctx) : (s.updCtx a f).vacs = s.vacs := by cases a <;> rfl
@[simp] theorem State.updCtx_leftN (s : State) (a : Actor) (f : Ctx → Ctx) : (s.updCtx a f).leftN = s.leftN := by cases a <;> rfl
@[simp] theorem State.updCtx_agenda (s : State) (a : Actor) (f : Ctx → Ctx) : (s.updCtx a f).agenda = s.agenda := by cases a <;> rfl
@[simp] theorem State.updCtx_cur (s : State) (a : Actor) (f : Ctx → Ctx) : (s.updCtx a f).cur = s.cur := by cases a <;> rfl
@[simp] theorem State.updCtx_next (s : State) (a : Actor) (f : Ctx → Ctx) : (s.updCtx a f).next = s.next := by cases a <;> rfl

@[simp] theorem State.upd_cores (s : State) (f : Ctx → Ctx) : (s.upd f).cores = s.cores := State.updCtx_cores s _ f
@[simp] theorem State.upd_dies (s : State) (f : Ctx → Ctx) : (s.upd f).dies = s.dies := State.updCtx_dies s _ f
@[simp] theorem State.upd_mem (s : State) (f : Ctx → Ctx) : (s.upd f).mem = s.mem := State.updCtx_mem s _ f
@[simp] theorem State.upd_mf (s : State) (f : Ctx → Ctx) : (s.upd f).mf = s.mf := State.updCtx_mf s _ f
@[simp] theorem State.upd_grids (s : State) (f : Ctx → Ctx) : (s.upd f).grids = s.grids := State.updCtx_grids s _ f
@[simp] theorem State.upd_gridN (s : State) (f : Ctx → Ctx) : (s.upd f).gridN = s.gridN := State.updCtx_gridN s _ f
@[simp] theorem State.upd_rr (s : State) (f : Ctx → Ctx) : (s.upd f).rr = s.rr := State.updCtx_rr s _ f
@[simp] theorem State.upd_ports (s : State) (f : Ctx → Ctx) : (s.upd f).ports = s.ports := State.updCtx_ports s _ f
@[simp] theorem State.upd_bufs (s : State) (f : Ctx → Ctx) : (s.upd f).bufs = s.bufs := State.updCtx_bufs s _ f
@[simp] theorem State.upd_bcasts (s : State) (f : Ctx → Ctx) : (s.upd f).bcasts = s.bcasts := State.updCtx_bcasts s _ f
@[simp] theorem State.upd_invals (s : State) (f : Ctx → Ctx) : (s.upd f).invals = s.invals := State.updCtx_invals s _ f
@[simp] theorem State.upd_switches (s : State) (f : Ctx → Ctx) : (s.upd f).switches = s.switches := State.updCtx_switches s _ f
@[simp] theorem State.upd_vacs (s : State) (f : Ctx → Ctx) : (s.upd f).vacs = s.vacs := State.updCtx_vacs s _ f
@[simp] theorem State.upd_leftN (s : State) (f : Ctx → Ctx) : (s.upd f).leftN = s.leftN := State.updCtx_leftN s _ f
@[simp] theorem State.upd_agenda (s : State) (f : Ctx → Ctx) : (s.upd f).agenda = s.agenda := State.updCtx_agenda s _ f
@[simp] theorem State.upd_cur (s : State) (f : Ctx → Ctx) : (s.upd f).cur = s.cur := State.updCtx_cur s _ f
@[simp] theorem State.upd_next (s : State) (f : Ctx → Ctx) : (s.upd f).next = s.next := State.updCtx_next s _ f

@[simp] theorem State.warns_cores (s : State) (w : W32) : (s.warns w).cores = s.cores := State.updCtx_cores s _ _
@[simp] theorem State.warns_dies (s : State) (w : W32) : (s.warns w).dies = s.dies := State.updCtx_dies s _ _
@[simp] theorem State.warns_mem (s : State) (w : W32) : (s.warns w).mem = s.mem := State.updCtx_mem s _ _
@[simp] theorem State.warns_mf (s : State) (w : W32) : (s.warns w).mf = s.mf := State.updCtx_mf s _ _
@[simp] theorem State.warns_grids (s : State) (w : W32) : (s.warns w).grids = s.grids := State.updCtx_grids s _ _
@[simp] theorem State.warns_gridN (s : State) (w : W32) : (s.warns w).gridN = s.gridN := State.updCtx_gridN s _ _
@[simp] theorem State.warns_rr (s : State) (w : W32) : (s.warns w).rr = s.rr := State.updCtx_rr s _ _
@[simp] theorem State.warns_ports (s : State) (w : W32) : (s.warns w).ports = s.ports := State.updCtx_ports s _ _
@[simp] theorem State.warns_bufs (s : State) (w : W32) : (s.warns w).bufs = s.bufs := State.updCtx_bufs s _ _
@[simp] theorem State.warns_bcasts (s : State) (w : W32) : (s.warns w).bcasts = s.bcasts := State.updCtx_bcasts s _ _
@[simp] theorem State.warns_invals (s : State) (w : W32) : (s.warns w).invals = s.invals := State.updCtx_invals s _ _
@[simp] theorem State.warns_switches (s : State) (w : W32) : (s.warns w).switches = s.switches := State.updCtx_switches s _ _
@[simp] theorem State.warns_vacs (s : State) (w : W32) : (s.warns w).vacs = s.vacs := State.updCtx_vacs s _ _
@[simp] theorem State.warns_leftN (s : State) (w : W32) : (s.warns w).leftN = s.leftN := State.updCtx_leftN s _ _
@[simp] theorem State.warns_agenda (s : State) (w : W32) : (s.warns w).agenda = s.agenda := State.updCtx_agenda s _ _
@[simp] theorem State.warns_cur (s : State) (w : W32) : (s.warns w).cur = s.cur := State.updCtx_cur s _ _
@[simp] theorem State.warns_next (s : State) (w : W32) : (s.warns w).next = s.next := State.updCtx_next s _ _

@[simp] theorem State.send_groups (s : State) (ms : List Msg) : (s.send ms).groups = s.groups := rfl
@[simp] theorem State.send_threads (s : State) (ms : List Msg) : (s.send ms).threads = s.threads := rfl
@[simp] theorem State.send_ctls (s : State) (ms : List Msg) : (s.send ms).ctls = s.ctls := rfl
@[simp] theorem State.send_mseqs (s : State) (ms : List Msg) : (s.send ms).mseqs = s.mseqs := rfl
@[simp] theorem State.send_cseqs (s : State) (ms : List Msg) : (s.send ms).cseqs = s.cseqs := rfl
@[simp] theorem State.send_cores (s : State) (ms : List Msg) : (s.send ms).cores = s.cores := rfl
@[simp] theorem State.send_dies (s : State) (ms : List Msg) : (s.send ms).dies = s.dies := rfl
@[simp] theorem State.send_mf (s : State) (ms : List Msg) : (s.send ms).mf = s.mf := rfl
@[simp] theorem State.send_grids (s : State) (ms : List Msg) : (s.send ms).grids = s.grids := rfl
@[simp] theorem State.send_gridN (s : State) (ms : List Msg) : (s.send ms).gridN = s.gridN := rfl
@[simp] theorem State.send_rr (s : State) (ms : List Msg) : (s.send ms).rr = s.rr := rfl
@[simp] theorem State.send_ports (s : State) (ms : List Msg) : (s.send ms).ports = s.ports := rfl
@[simp] theorem State.send_bufs (s : State) (ms : List Msg) : (s.send ms).bufs = s.bufs := rfl
@[simp] theorem State.send_bcasts (s : State) (ms : List Msg) : (s.send ms).bcasts = s.bcasts := rfl
@[simp] theorem State.send_invals (s : State) (ms : List Msg) : (s.send ms).invals = s.invals := rfl
@[simp] theorem State.send_switches (s : State) (ms : List Msg) : (s.send ms).switches = s.switches := rfl
@[simp] theorem State.send_vacs (s : State) (ms : List Msg) : (s.send ms).vacs = s.vacs := rfl
@[simp] theorem State.send_leftN (s : State) (ms : List Msg) : (s.send ms).leftN = s.leftN := rfl
@[simp] theorem State.send_agenda (s : State) (ms : List Msg) : (s.send ms).agenda = s.agenda := rfl
@[simp] theorem State.send_cur (s : State) (ms : List Msg) : (s.send ms).cur = s.cur := rfl
@[simp] theorem State.send_next (s : State) (ms : List Msg) : (s.send ms).next = s.next := rfl
@[simp] theorem State.send_mem (s : State) (ms : List Msg) : (s.send ms).mem = { s.mem with out := s.mem.out ++ ms } := rfl

/-! Reading back. -/

@[simp] theorem State.core_setCore (s : State) (c : Nat) (x : Core) : (s.setCore c x).core c = x := Tbl.get_put_same _ _ _ _
theorem State.core_setCore_ne (s : State) {c k : Nat} (x : Core) (h : k ≠ c) : (s.setCore c x).core k = s.core k := Tbl.get_put_ne _ _ _ h
@[simp] theorem State.die_setDie (s : State) (d : Nat) (x : Die) : (s.setDie d x).die d = x := Tbl.get_put_same _ _ _ _
theorem State.die_setDie_ne (s : State) {d k : Nat} (x : Die) (h : k ≠ d) : (s.setDie d x).die k = s.die k := Tbl.get_put_ne _ _ _ h
@[simp] theorem State.port_setPort (s : State) (p : Nat) (x : Port) : (s.setPort p x).port p = x := Tbl.get_put_same _ _ _ _
theorem State.port_setPort_ne (s : State) {p k : Nat} (x : Port) (h : k ≠ p) : (s.setPort p x).port k = s.port k := Tbl.get_put_ne _ _ _ h
@[simp] theorem State.ctx_setCtx (s : State) (a : Actor) (x : Ctx) : (s.setCtx a x).ctx a = x := by
  cases a <;> exact Tbl.get_put_same _ _ _ _
@[simp] theorem State.setCtx_setCtx (s : State) (a : Actor) (x y : Ctx) : (s.setCtx a x).setCtx a y = s.setCtx a y := by
  cases a <;> simp [State.setCtx]
@[simp] theorem State.core_setCtx (s : State) (a : Actor) (x : Ctx) (c : Nat) : (s.setCtx a x).core c = s.core c := by cases a <;> rfl
@[simp] theorem State.die_setCtx (s : State) (a : Actor) (x : Ctx) (d : Nat) : (s.setCtx a x).die d = s.die d := by cases a <;> rfl
@[simp] theorem State.core_setDie (s : State) (d : Nat) (x : Die) (c : Nat) : (s.setDie d x).core c = s.core c := rfl
@[simp] theorem State.die_setCore (s : State) (c : Nat) (x : Core) (d : Nat) : (s.setCore c x).die d = s.die d := rfl

@[simp] theorem State.me_setCtx (s : State) (x : Ctx) : (s.setCtx s.cur.act x).me = x := by simp [State.me]
@[simp] theorem State.me_upd (s : State) (f : Ctx → Ctx) : (s.upd f).me = f s.me := by simp [State.me, State.upd, State.updCtx]
@[simp] theorem State.upd_upd (s : State) (f g : Ctx → Ctx) : (s.upd f).upd g = s.upd (fun c => g (f c)) := by
  simp [State.upd, State.updCtx]
theorem State.upd_eq (s : State) (f : Ctx → Ctx) : s.upd f = s.setCtx s.cur.act (f s.me) := rfl
/-- Outside a sequencer a warning is the context's own (09 R296). -/
theorem State.warns_upd (s : State) (w : W32) (h : s.cur.act.isSeq = false) : s.warns w = s.upd (fun c => c.warns w) := by
  have hm : s.marker s.cur.act = s.cur.act := by cases ha : s.cur.act <;> simp_all [State.marker, Actor.isSeq]
  simp [State.warns, State.warnOf, State.upd, hm]

@[simp] theorem State.me_warns (s : State) (w : W32) (h : s.cur.act.isSeq = false) : (s.warns w).me = s.me.warns w := by
  have hm : s.marker s.cur.act = s.cur.act := by
    cases ha : s.cur.act <;> first | rfl | (rw [ha] at h; cases h)
  simp [State.me, State.warns, State.warnOf, State.updCtx, hm]
theorem State.me_warns_seq (s : State) (w : W32) (h : s.cur.act.isSeq = true) : (s.warns w).me = s.me := by
  unfold State.me State.warns State.warnOf State.updCtx
  rw [State.setCtx_cur]
  cases ha : s.cur.act <;> first | rfl | (rw [ha] at h; cases h)
/-- Either way, what a warning leaves of the executing context. -/
theorem State.me_warns_or (s : State) (w : W32) : (s.warns w).me = s.me.warns w ∨ (s.warns w).me = s.me := by
  cases h : s.cur.act.isSeq
  · exact .inl (State.me_warns s w h)
  · exact .inr (State.me_warns_seq s w h)
@[simp] theorem State.sp_warns (s : State) (w : W32) : (s.warns w).sp = s.sp := by
  rcases State.me_warns_or s w with h | h <;> simp [State.sp, h, Ctx.warns, Ctx.split]
@[simp] theorem State.ln_warns (s : State) (w : W32) (l : Nat) : (s.warns w).me.ln l = s.me.ln l := by
  rcases State.me_warns_or s w with h | h <;> simp [h, Ctx.warns, Ctx.ln]
@[simp] theorem State.mask_warns (s : State) (w : W32) : (s.warns w).mask = s.mask := by simp [State.mask]
@[simp] theorem State.active_warns (s : State) (w : W32) : (s.warns w).active = s.active := by simp [State.active]

/-! Contexts. -/

@[simp] theorem Ctx.split_setSplit (c : Ctx) (k : Nat) (x : Split) : (c.setSplit k x).split k = x := Tbl.get_put_same _ _ _ _
theorem Ctx.split_setSplit_ne (c : Ctx) {k j : Nat} (x : Split) (h : j ≠ k) : (c.setSplit k x).split j = c.split j := Tbl.get_put_ne _ _ _ h
@[simp] theorem Ctx.ln_setLn (c : Ctx) (l : Nat) (x : Lane) : (c.setLn l x).ln l = x := Tbl.get_put_same _ _ _ _
theorem Ctx.ln_setLn_ne (c : Ctx) {l k : Nat} (x : Lane) (h : k ≠ l) : (c.setLn l x).ln k = c.ln k := Tbl.get_put_ne _ _ _ h
@[simp] theorem Ctx.ln_warns (c : Ctx) (w : W32) (l : Nat) : (c.warns w).ln l = c.ln l := rfl
@[simp] theorem Ctx.ln_fpflags (c : Ctx) (w : W32) (l : Nat) : (c.fpflags w).ln l = c.ln l := rfl
@[simp] theorem Ctx.ln_setSplit (c : Ctx) (k : Nat) (x : Split) (l : Nat) : (c.setSplit k x).ln l = c.ln l := rfl

@[simp] theorem Ctx.warns_on (c : Ctx) (w : W32) : (c.warns w).on = c.on := rfl
@[simp] theorem Ctx.warns_core (c : Ctx) (w : W32) : (c.warns w).core = c.core := rfl
@[simp] theorem Ctx.warns_wslot (c : Ctx) (w : W32) : (c.warns w).wslot = c.wslot := rfl
@[simp] theorem Ctx.warns_gid (c : Ctx) (w : W32) : (c.warns w).gid = c.gid := rfl
@[simp] theorem Ctx.warns_asid (c : Ctx) (w : W32) : (c.warns w).asid = c.asid := rfl
@[simp] theorem Ctx.warns_lanes (c : Ctx) (w : W32) : (c.warns w).lanes = c.lanes := rfl
@[simp] theorem Ctx.warns_s (c : Ctx) (w : W32) : (c.warns w).s = c.s := rfl
@[simp] theorem Ctx.warns_q (c : Ctx) (w : W32) : (c.warns w).q = c.q := rfl
@[simp] theorem Ctx.warns_fpx (c : Ctx) (w : W32) : (c.warns w).fpx = c.fpx := rfl
@[simp] theorem Ctx.warns_fpm (c : Ctx) (w : W32) : (c.warns w).fpm = c.fpm := rfl
@[simp] theorem Ctx.warns_splits (c : Ctx) (w : W32) : (c.warns w).splits = c.splits := rfl
@[simp] theorem Ctx.warns_pool (c : Ctx) (w : W32) : (c.warns w).pool = c.pool := rfl
@[simp] theorem Ctx.warns_seq (c : Ctx) (w : W32) : (c.warns w).seq = c.seq := rfl
@[simp] theorem Ctx.warns_kexp (c : Ctx) (w : W32) : (c.warns w).kexp = c.kexp := rfl
@[simp] theorem Ctx.warns_backoff (c : Ctx) (w : W32) : (c.warns w).backoff = c.backoff := rfl
@[simp] theorem Ctx.warns_ovf (c : Ctx) (w : W32) : (c.warns w).ovf = c.ovf := rfl
@[simp] theorem Ctx.warns_lastRec (c : Ctx) (w : W32) : (c.warns w).lastRec = c.lastRec := rfl
@[simp] theorem Ctx.warns_memops (c : Ctx) (w : W32) : (c.warns w).memops = c.memops := rfl
@[simp] theorem Ctx.warns_pend (c : Ctx) (w : W32) : (c.warns w).pend = c.pend := rfl
@[simp] theorem Ctx.warns_hid (c : Ctx) (w : W32) : (c.warns w).hid = c.hid := rfl
@[simp] theorem Ctx.warns_arr (c : Ctx) (w : W32) : (c.warns w).arr = c.arr := rfl
@[simp] theorem Ctx.warns_trig (c : Ctx) (w : W32) : (c.warns w).trig = c.trig := rfl
@[simp] theorem Ctx.warns_trigd (c : Ctx) (w : W32) : (c.warns w).trigd = c.trigd := rfl
@[simp] theorem Ctx.warns_counts (c : Ctx) (w : W32) : (c.warns w).counts = c.counts := rfl
@[simp] theorem Ctx.warns_xchN (c : Ctx) (w : W32) : (c.warns w).xchN = c.xchN := rfl
@[simp] theorem Ctx.warns_xch (c : Ctx) (w : W32) : (c.warns w).xch = c.xch := rfl
@[simp] theorem Ctx.warns_svc (c : Ctx) (w : W32) : (c.warns w).svc = c.svc := rfl
@[simp] theorem Ctx.warns_hit (c : Ctx) (w : W32) : (c.warns w).hit = c.hit := rfl
@[simp] theorem Ctx.warns_tok (c : Ctx) (w : W32) : (c.warns w).tok = c.tok := rfl
@[simp] theorem Ctx.warns_tokN (c : Ctx) (w : W32) : (c.warns w).tokN = c.tokN := rfl
@[simp] theorem Ctx.warns_tokSlot (c : Ctx) (w : W32) : (c.warns w).tokSlot = c.tokSlot := rfl
@[simp] theorem Ctx.warns_last (c : Ctx) (w : W32) : (c.warns w).last = c.last := rfl
@[simp] theorem Ctx.warns_home (c : Ctx) (w : W32) : (c.warns w).home = c.home := rfl
@[simp] theorem Ctx.warns_lane (c : Ctx) (w : W32) : (c.warns w).lane = c.lane := rfl
@[simp] theorem Ctx.warns_jrec (c : Ctx) (w : W32) : (c.warns w).jrec = c.jrec := rfl
@[simp] theorem Ctx.warns_moved (c : Ctx) (w : W32) : (c.warns w).moved = c.moved := rfl
@[simp] theorem Ctx.warns_timedOut (c : Ctx) (w : W32) : (c.warns w).timedOut = c.timedOut := rfl
@[simp] theorem Ctx.warns_queue (c : Ctx) (w : W32) : (c.warns w).queue = c.queue := rfl
@[simp] theorem Ctx.warns_fw (c : Ctx) (w : W32) : (c.warns w).fw = c.fw := rfl
@[simp] theorem Ctx.warns_hpack (c : Ctx) (w : W32) : (c.warns w).hpack = c.hpack := rfl

@[simp] theorem Ctx.fpflags_on (c : Ctx) (w : W32) : (c.fpflags w).on = c.on := rfl
@[simp] theorem Ctx.fpflags_core (c : Ctx) (w : W32) : (c.fpflags w).core = c.core := rfl
@[simp] theorem Ctx.fpflags_wslot (c : Ctx) (w : W32) : (c.fpflags w).wslot = c.wslot := rfl
@[simp] theorem Ctx.fpflags_gid (c : Ctx) (w : W32) : (c.fpflags w).gid = c.gid := rfl
@[simp] theorem Ctx.fpflags_asid (c : Ctx) (w : W32) : (c.fpflags w).asid = c.asid := rfl
@[simp] theorem Ctx.fpflags_lanes (c : Ctx) (w : W32) : (c.fpflags w).lanes = c.lanes := rfl
@[simp] theorem Ctx.fpflags_s (c : Ctx) (w : W32) : (c.fpflags w).s = c.s := rfl
@[simp] theorem Ctx.fpflags_q (c : Ctx) (w : W32) : (c.fpflags w).q = c.q := rfl
@[simp] theorem Ctx.fpflags_warn (c : Ctx) (w : W32) : (c.fpflags w).warn = c.warn := rfl
@[simp] theorem Ctx.fpflags_fpm (c : Ctx) (w : W32) : (c.fpflags w).fpm = c.fpm := rfl
@[simp] theorem Ctx.fpflags_splits (c : Ctx) (w : W32) : (c.fpflags w).splits = c.splits := rfl
@[simp] theorem Ctx.fpflags_pool (c : Ctx) (w : W32) : (c.fpflags w).pool = c.pool := rfl
@[simp] theorem Ctx.fpflags_seq (c : Ctx) (w : W32) : (c.fpflags w).seq = c.seq := rfl
@[simp] theorem Ctx.fpflags_kexp (c : Ctx) (w : W32) : (c.fpflags w).kexp = c.kexp := rfl
@[simp] theorem Ctx.fpflags_backoff (c : Ctx) (w : W32) : (c.fpflags w).backoff = c.backoff := rfl
@[simp] theorem Ctx.fpflags_ovf (c : Ctx) (w : W32) : (c.fpflags w).ovf = c.ovf := rfl
@[simp] theorem Ctx.fpflags_lastRec (c : Ctx) (w : W32) : (c.fpflags w).lastRec = c.lastRec := rfl
@[simp] theorem Ctx.fpflags_memops (c : Ctx) (w : W32) : (c.fpflags w).memops = c.memops := rfl
@[simp] theorem Ctx.fpflags_pend (c : Ctx) (w : W32) : (c.fpflags w).pend = c.pend := rfl
@[simp] theorem Ctx.fpflags_hid (c : Ctx) (w : W32) : (c.fpflags w).hid = c.hid := rfl
@[simp] theorem Ctx.fpflags_arr (c : Ctx) (w : W32) : (c.fpflags w).arr = c.arr := rfl
@[simp] theorem Ctx.fpflags_trig (c : Ctx) (w : W32) : (c.fpflags w).trig = c.trig := rfl
@[simp] theorem Ctx.fpflags_trigd (c : Ctx) (w : W32) : (c.fpflags w).trigd = c.trigd := rfl
@[simp] theorem Ctx.fpflags_counts (c : Ctx) (w : W32) : (c.fpflags w).counts = c.counts := rfl
@[simp] theorem Ctx.fpflags_xchN (c : Ctx) (w : W32) : (c.fpflags w).xchN = c.xchN := rfl
@[simp] theorem Ctx.fpflags_xch (c : Ctx) (w : W32) : (c.fpflags w).xch = c.xch := rfl
@[simp] theorem Ctx.fpflags_svc (c : Ctx) (w : W32) : (c.fpflags w).svc = c.svc := rfl
@[simp] theorem Ctx.fpflags_hit (c : Ctx) (w : W32) : (c.fpflags w).hit = c.hit := rfl
@[simp] theorem Ctx.fpflags_tok (c : Ctx) (w : W32) : (c.fpflags w).tok = c.tok := rfl
@[simp] theorem Ctx.fpflags_tokN (c : Ctx) (w : W32) : (c.fpflags w).tokN = c.tokN := rfl
@[simp] theorem Ctx.fpflags_tokSlot (c : Ctx) (w : W32) : (c.fpflags w).tokSlot = c.tokSlot := rfl
@[simp] theorem Ctx.fpflags_last (c : Ctx) (w : W32) : (c.fpflags w).last = c.last := rfl
@[simp] theorem Ctx.fpflags_home (c : Ctx) (w : W32) : (c.fpflags w).home = c.home := rfl
@[simp] theorem Ctx.fpflags_lane (c : Ctx) (w : W32) : (c.fpflags w).lane = c.lane := rfl
@[simp] theorem Ctx.fpflags_jrec (c : Ctx) (w : W32) : (c.fpflags w).jrec = c.jrec := rfl
@[simp] theorem Ctx.fpflags_moved (c : Ctx) (w : W32) : (c.fpflags w).moved = c.moved := rfl
@[simp] theorem Ctx.fpflags_timedOut (c : Ctx) (w : W32) : (c.fpflags w).timedOut = c.timedOut := rfl
@[simp] theorem Ctx.fpflags_queue (c : Ctx) (w : W32) : (c.fpflags w).queue = c.queue := rfl
@[simp] theorem Ctx.fpflags_fw (c : Ctx) (w : W32) : (c.fpflags w).fw = c.fw := rfl
@[simp] theorem Ctx.fpflags_hpack (c : Ctx) (w : W32) : (c.fpflags w).hpack = c.hpack := rfl

@[simp] theorem Ctx.setLn_on (c : Ctx) (l : Nat) (x : Lane) : (c.setLn l x).on = c.on := rfl
@[simp] theorem Ctx.setLn_core (c : Ctx) (l : Nat) (x : Lane) : (c.setLn l x).core = c.core := rfl
@[simp] theorem Ctx.setLn_wslot (c : Ctx) (l : Nat) (x : Lane) : (c.setLn l x).wslot = c.wslot := rfl
@[simp] theorem Ctx.setLn_gid (c : Ctx) (l : Nat) (x : Lane) : (c.setLn l x).gid = c.gid := rfl
@[simp] theorem Ctx.setLn_asid (c : Ctx) (l : Nat) (x : Lane) : (c.setLn l x).asid = c.asid := rfl
@[simp] theorem Ctx.setLn_s (c : Ctx) (l : Nat) (x : Lane) : (c.setLn l x).s = c.s := rfl
@[simp] theorem Ctx.setLn_q (c : Ctx) (l : Nat) (x : Lane) : (c.setLn l x).q = c.q := rfl
@[simp] theorem Ctx.setLn_warn (c : Ctx) (l : Nat) (x : Lane) : (c.setLn l x).warn = c.warn := rfl
@[simp] theorem Ctx.setLn_fpx (c : Ctx) (l : Nat) (x : Lane) : (c.setLn l x).fpx = c.fpx := rfl
@[simp] theorem Ctx.setLn_fpm (c : Ctx) (l : Nat) (x : Lane) : (c.setLn l x).fpm = c.fpm := rfl
@[simp] theorem Ctx.setLn_splits (c : Ctx) (l : Nat) (x : Lane) : (c.setLn l x).splits = c.splits := rfl
@[simp] theorem Ctx.setLn_pool (c : Ctx) (l : Nat) (x : Lane) : (c.setLn l x).pool = c.pool := rfl
@[simp] theorem Ctx.setLn_seq (c : Ctx) (l : Nat) (x : Lane) : (c.setLn l x).seq = c.seq := rfl
@[simp] theorem Ctx.setLn_kexp (c : Ctx) (l : Nat) (x : Lane) : (c.setLn l x).kexp = c.kexp := rfl
@[simp] theorem Ctx.setLn_backoff (c : Ctx) (l : Nat) (x : Lane) : (c.setLn l x).backoff = c.backoff := rfl
@[simp] theorem Ctx.setLn_ovf (c : Ctx) (l : Nat) (x : Lane) : (c.setLn l x).ovf = c.ovf := rfl
@[simp] theorem Ctx.setLn_lastRec (c : Ctx) (l : Nat) (x : Lane) : (c.setLn l x).lastRec = c.lastRec := rfl
@[simp] theorem Ctx.setLn_memops (c : Ctx) (l : Nat) (x : Lane) : (c.setLn l x).memops = c.memops := rfl
@[simp] theorem Ctx.setLn_pend (c : Ctx) (l : Nat) (x : Lane) : (c.setLn l x).pend = c.pend := rfl
@[simp] theorem Ctx.setLn_hid (c : Ctx) (l : Nat) (x : Lane) : (c.setLn l x).hid = c.hid := rfl
@[simp] theorem Ctx.setLn_arr (c : Ctx) (l : Nat) (x : Lane) : (c.setLn l x).arr = c.arr := rfl
@[simp] theorem Ctx.setLn_trig (c : Ctx) (l : Nat) (x : Lane) : (c.setLn l x).trig = c.trig := rfl
@[simp] theorem Ctx.setLn_trigd (c : Ctx) (l : Nat) (x : Lane) : (c.setLn l x).trigd = c.trigd := rfl
@[simp] theorem Ctx.setLn_counts (c : Ctx) (l : Nat) (x : Lane) : (c.setLn l x).counts = c.counts := rfl
@[simp] theorem Ctx.setLn_xchN (c : Ctx) (l : Nat) (x : Lane) : (c.setLn l x).xchN = c.xchN := rfl
@[simp] theorem Ctx.setLn_xch (c : Ctx) (l : Nat) (x : Lane) : (c.setLn l x).xch = c.xch := rfl
@[simp] theorem Ctx.setLn_svc (c : Ctx) (l : Nat) (x : Lane) : (c.setLn l x).svc = c.svc := rfl
@[simp] theorem Ctx.setLn_hit (c : Ctx) (l : Nat) (x : Lane) : (c.setLn l x).hit = c.hit := rfl
@[simp] theorem Ctx.setLn_tok (c : Ctx) (l : Nat) (x : Lane) : (c.setLn l x).tok = c.tok := rfl
@[simp] theorem Ctx.setLn_tokN (c : Ctx) (l : Nat) (x : Lane) : (c.setLn l x).tokN = c.tokN := rfl
@[simp] theorem Ctx.setLn_tokSlot (c : Ctx) (l : Nat) (x : Lane) : (c.setLn l x).tokSlot = c.tokSlot := rfl
@[simp] theorem Ctx.setLn_last (c : Ctx) (l : Nat) (x : Lane) : (c.setLn l x).last = c.last := rfl
@[simp] theorem Ctx.setLn_home (c : Ctx) (l : Nat) (x : Lane) : (c.setLn l x).home = c.home := rfl
@[simp] theorem Ctx.setLn_lane (c : Ctx) (l : Nat) (x : Lane) : (c.setLn l x).lane = c.lane := rfl
@[simp] theorem Ctx.setLn_jrec (c : Ctx) (l : Nat) (x : Lane) : (c.setLn l x).jrec = c.jrec := rfl
@[simp] theorem Ctx.setLn_moved (c : Ctx) (l : Nat) (x : Lane) : (c.setLn l x).moved = c.moved := rfl
@[simp] theorem Ctx.setLn_timedOut (c : Ctx) (l : Nat) (x : Lane) : (c.setLn l x).timedOut = c.timedOut := rfl
@[simp] theorem Ctx.setLn_queue (c : Ctx) (l : Nat) (x : Lane) : (c.setLn l x).queue = c.queue := rfl
@[simp] theorem Ctx.setLn_fw (c : Ctx) (l : Nat) (x : Lane) : (c.setLn l x).fw = c.fw := rfl
@[simp] theorem Ctx.setLn_hpack (c : Ctx) (l : Nat) (x : Lane) : (c.setLn l x).hpack = c.hpack := rfl

@[simp] theorem Ctx.setSplit_on (c : Ctx) (k : Nat) (x : Split) : (c.setSplit k x).on = c.on := rfl
@[simp] theorem Ctx.setSplit_core (c : Ctx) (k : Nat) (x : Split) : (c.setSplit k x).core = c.core := rfl
@[simp] theorem Ctx.setSplit_wslot (c : Ctx) (k : Nat) (x : Split) : (c.setSplit k x).wslot = c.wslot := rfl
@[simp] theorem Ctx.setSplit_gid (c : Ctx) (k : Nat) (x : Split) : (c.setSplit k x).gid = c.gid := rfl
@[simp] theorem Ctx.setSplit_asid (c : Ctx) (k : Nat) (x : Split) : (c.setSplit k x).asid = c.asid := rfl
@[simp] theorem Ctx.setSplit_lanes (c : Ctx) (k : Nat) (x : Split) : (c.setSplit k x).lanes = c.lanes := rfl
@[simp] theorem Ctx.setSplit_s (c : Ctx) (k : Nat) (x : Split) : (c.setSplit k x).s = c.s := rfl
@[simp] theorem Ctx.setSplit_q (c : Ctx) (k : Nat) (x : Split) : (c.setSplit k x).q = c.q := rfl
@[simp] theorem Ctx.setSplit_warn (c : Ctx) (k : Nat) (x : Split) : (c.setSplit k x).warn = c.warn := rfl
@[simp] theorem Ctx.setSplit_fpx (c : Ctx) (k : Nat) (x : Split) : (c.setSplit k x).fpx = c.fpx := rfl
@[simp] theorem Ctx.setSplit_fpm (c : Ctx) (k : Nat) (x : Split) : (c.setSplit k x).fpm = c.fpm := rfl
@[simp] theorem Ctx.setSplit_pool (c : Ctx) (k : Nat) (x : Split) : (c.setSplit k x).pool = c.pool := rfl
@[simp] theorem Ctx.setSplit_seq (c : Ctx) (k : Nat) (x : Split) : (c.setSplit k x).seq = c.seq := rfl
@[simp] theorem Ctx.setSplit_kexp (c : Ctx) (k : Nat) (x : Split) : (c.setSplit k x).kexp = c.kexp := rfl
@[simp] theorem Ctx.setSplit_backoff (c : Ctx) (k : Nat) (x : Split) : (c.setSplit k x).backoff = c.backoff := rfl
@[simp] theorem Ctx.setSplit_ovf (c : Ctx) (k : Nat) (x : Split) : (c.setSplit k x).ovf = c.ovf := rfl
@[simp] theorem Ctx.setSplit_lastRec (c : Ctx) (k : Nat) (x : Split) : (c.setSplit k x).lastRec = c.lastRec := rfl
@[simp] theorem Ctx.setSplit_memops (c : Ctx) (k : Nat) (x : Split) : (c.setSplit k x).memops = c.memops := rfl
@[simp] theorem Ctx.setSplit_pend (c : Ctx) (k : Nat) (x : Split) : (c.setSplit k x).pend = c.pend := rfl
@[simp] theorem Ctx.setSplit_hid (c : Ctx) (k : Nat) (x : Split) : (c.setSplit k x).hid = c.hid := rfl
@[simp] theorem Ctx.setSplit_arr (c : Ctx) (k : Nat) (x : Split) : (c.setSplit k x).arr = c.arr := rfl
@[simp] theorem Ctx.setSplit_trig (c : Ctx) (k : Nat) (x : Split) : (c.setSplit k x).trig = c.trig := rfl
@[simp] theorem Ctx.setSplit_trigd (c : Ctx) (k : Nat) (x : Split) : (c.setSplit k x).trigd = c.trigd := rfl
@[simp] theorem Ctx.setSplit_counts (c : Ctx) (k : Nat) (x : Split) : (c.setSplit k x).counts = c.counts := rfl
@[simp] theorem Ctx.setSplit_xchN (c : Ctx) (k : Nat) (x : Split) : (c.setSplit k x).xchN = c.xchN := rfl
@[simp] theorem Ctx.setSplit_xch (c : Ctx) (k : Nat) (x : Split) : (c.setSplit k x).xch = c.xch := rfl
@[simp] theorem Ctx.setSplit_svc (c : Ctx) (k : Nat) (x : Split) : (c.setSplit k x).svc = c.svc := rfl
@[simp] theorem Ctx.setSplit_hit (c : Ctx) (k : Nat) (x : Split) : (c.setSplit k x).hit = c.hit := rfl
@[simp] theorem Ctx.setSplit_tok (c : Ctx) (k : Nat) (x : Split) : (c.setSplit k x).tok = c.tok := rfl
@[simp] theorem Ctx.setSplit_tokN (c : Ctx) (k : Nat) (x : Split) : (c.setSplit k x).tokN = c.tokN := rfl
@[simp] theorem Ctx.setSplit_tokSlot (c : Ctx) (k : Nat) (x : Split) : (c.setSplit k x).tokSlot = c.tokSlot := rfl
@[simp] theorem Ctx.setSplit_last (c : Ctx) (k : Nat) (x : Split) : (c.setSplit k x).last = c.last := rfl
@[simp] theorem Ctx.setSplit_home (c : Ctx) (k : Nat) (x : Split) : (c.setSplit k x).home = c.home := rfl
@[simp] theorem Ctx.setSplit_lane (c : Ctx) (k : Nat) (x : Split) : (c.setSplit k x).lane = c.lane := rfl
@[simp] theorem Ctx.setSplit_jrec (c : Ctx) (k : Nat) (x : Split) : (c.setSplit k x).jrec = c.jrec := rfl
@[simp] theorem Ctx.setSplit_moved (c : Ctx) (k : Nat) (x : Split) : (c.setSplit k x).moved = c.moved := rfl
@[simp] theorem Ctx.setSplit_timedOut (c : Ctx) (k : Nat) (x : Split) : (c.setSplit k x).timedOut = c.timedOut := rfl
@[simp] theorem Ctx.setSplit_queue (c : Ctx) (k : Nat) (x : Split) : (c.setSplit k x).queue = c.queue := rfl
@[simp] theorem Ctx.setSplit_fw (c : Ctx) (k : Nat) (x : Split) : (c.setSplit k x).fw = c.fw := rfl
@[simp] theorem Ctx.setSplit_hpack (c : Ctx) (k : Nat) (x : Split) : (c.setSplit k x).hpack = c.hpack := rfl

/-! The instructions that hold a split. -/

@[simp] theorem Split.blks_heldBy (x : Split) (l : List Blk) : (x.heldBy l).blks = l := by cases l <;> rfl
@[simp] theorem Split.heldBy_pc (x : Split) (l : List Blk) : (x.heldBy l).pc = x.pc := rfl
@[simp] theorem Split.heldBy_mask (x : Split) (l : List Blk) : (x.heldBy l).mask = x.mask := rfl
@[simp] theorem Split.heldBy_wait (x : Split) (l : List Blk) : (x.heldBy l).wait = x.wait := rfl
@[simp] theorem Split.heldBy_lc (x : Split) (l : List Blk) : (x.heldBy l).lc = x.lc := rfl
@[simp] theorem Split.heldBy_sup (x : Split) (l : List Blk) : (x.heldBy l).sup = x.sup := rfl
@[simp] theorem Split.heldBy_halted (x : Split) (l : List Blk) : (x.heldBy l).halted = x.halted := rfl

end Sys2Proof.Machine
end

