-- ==== Sys2Proof/Laws/Slices.lean ====
section
/-! SUPPORT. Reading the components of the memory system after one of them is written, or after a sweep over the slices. -/

namespace Sys2Proof.Machine

theorem Mem.slice_setSlice (m : Mem) (i k : Nat) (x : Slice) : (m.setSlice i x).slice k = if k = i then x else m.slice k := by
  simp [Mem.slice, Mem.setSlice, Tbl.get_put]

@[simp] theorem Mem.slice_setSlice_same (m : Mem) (i : Nat) (x : Slice) : (m.setSlice i x).slice i = x := by simp [Mem.slice_setSlice]

theorem Mem.slice_updSlice (m : Mem) (i k : Nat) (f : Slice → Slice) : (m.updSlice i f).slice k = if k = i then f (m.slice i) else m.slice k :=
  Mem.slice_setSlice m i k _

@[simp] theorem Mem.slice_updSlice_same (m : Mem) (i : Nat) (f : Slice → Slice) : (m.updSlice i f).slice i = f (m.slice i) := by
  simp [Mem.slice_updSlice]

/-- A sweep over slices changes each slice listed once. -/
theorem Mem.slice_sweep (f : Nat → Slice → Slice) (l : List Nat) (hl : l.Nodup) (m : Mem) (k : Nat) :
    (l.foldl (fun m i => Mem.updSlice m i (f i)) m).slice k = if k ∈ l then f k (m.slice k) else m.slice k := by
  induction l generalizing m with
  | nil => simp
  | cons a r ih =>
    rw [List.nodup_cons] at hl
    simp only [List.foldl_cons, ih hl.2, Mem.slice_updSlice, List.mem_cons]
    by_cases h : k = a
    · subst h; simp [hl.1]
    · simp [h]

/-- A sweep over slices changes nothing but the slices. -/
theorem Mem.sweep_eq (f : Nat → Slice → Slice) (l : List Nat) (m : Mem) :
    ∃ t, l.foldl (fun m i => Mem.updSlice m i (f i)) m = { m with slices := t } := by
  induction l generalizing m with
  | nil => exact ⟨m.slices, rfl⟩
  | cons a r ih => obtain ⟨t, h⟩ := ih (m.updSlice a (f a)); exact ⟨t, h⟩

end Sys2Proof.Machine
end

