-- ==== Sys2Proof/Laws/Step.lean ====
section
/-! SUPPORT. What the shared operations of straight-line instructions can do: retirement, the lane shape, the guarded scalar
shape. A context without held results (`pend = []`) changes in its splits only, beyond what the instruction writes. -/

namespace Sys2Proof.Machine

/-! Retirement. -/

@[simp] theorem Ctx.withSplits_lanes (c : Ctx) (sp : Tbl Split) (pl : List Split) : (c.withSplits sp pl).lanes = c.lanes := rfl
@[simp] theorem Ctx.withSplits_ln (c : Ctx) (sp : Tbl Split) (pl : List Split) (l : Nat) : (c.withSplits sp pl).ln l = c.ln l := rfl
@[simp] theorem Ctx.withSplits_warn (c : Ctx) (sp : Tbl Split) (pl : List Split) : (c.withSplits sp pl).warn = c.warn := rfl
@[simp] theorem Ctx.withSplits_fpx (c : Ctx) (sp : Tbl Split) (pl : List Split) : (c.withSplits sp pl).fpx = c.fpx := rfl
@[simp] theorem Ctx.withSplits_s (c : Ctx) (sp : Tbl Split) (pl : List Split) : (c.withSplits sp pl).s = c.s := rfl
@[simp] theorem Ctx.withSplits_q (c : Ctx) (sp : Tbl Split) (pl : List Split) : (c.withSplits sp pl).q = c.q := rfl
@[simp] theorem Ctx.withSplits_pend (c : Ctx) (sp : Tbl Split) (pl : List Split) : (c.withSplits sp pl).pend = c.pend := rfl
@[simp] theorem Ctx.withSplits_rs (c : Ctx) (sp : Tbl Split) (pl : List Split) (r : Nat) : (c.withSplits sp pl).rs r = c.rs r := rfl
@[simp] theorem Ctx.withSplits_rq (c : Ctx) (sp : Tbl Split) (pl : List Split) (r : Nat) : (c.withSplits sp pl).rq r = c.rq r := rfl
@[simp] theorem Ctx.withLanes_ln (c : Ctx) (t : Tbl Lane) (fx wn : W32) (l : Nat) : (c.withLanes t fx wn).ln l = Tbl.get {} t l := rfl
@[simp] theorem Ctx.withLanes_warn (c : Ctx) (t : Tbl Lane) (fx wn : W32) : (c.withLanes t fx wn).warn = wn := rfl
@[simp] theorem Ctx.withLanes_fpx (c : Ctx) (t : Tbl Lane) (fx wn : W32) : (c.withLanes t fx wn).fpx = fx := rfl
@[simp] theorem Ctx.withLanes_s (c : Ctx) (t : Tbl Lane) (fx wn : W32) : (c.withLanes t fx wn).s = c.s := rfl
@[simp] theorem Ctx.withLanes_q (c : Ctx) (t : Tbl Lane) (fx wn : W32) : (c.withLanes t fx wn).q = c.q := rfl
@[simp] theorem Ctx.withLanes_pend (c : Ctx) (t : Tbl Lane) (fx wn : W32) : (c.withLanes t fx wn).pend = c.pend := rfl

/-- Changes of splits and pool only. -/
def Ctx.splitsOnly (c d : Ctx) : Prop := d = c.withSplits d.splits d.pool

theorem Ctx.splitsOnly_refl (c : Ctx) : c.splitsOnly c := rfl

theorem Ctx.splitsOnly_trans {a b c : Ctx} (h : a.splitsOnly b) (k : b.splitsOnly c) : a.splitsOnly c := by
  unfold Ctx.splitsOnly at *
  rw [h] at k
  exact k

theorem Ctx.splitsOnly_setSplit (c : Ctx) (k : Nat) (x : Split) : c.splitsOnly (c.setSplit k x) := rfl

theorem Ctx.splitsOnly_pool (c : Ctx) (p : List Split) : c.splitsOnly { c with pool := p } := rfl

theorem Ctx.splitsOnly_foldl {α : Type} (l : List α) (f : Ctx → α → Ctx) (h : ∀ (c : Ctx) (x : α), c.splitsOnly (f c x)) (c : Ctx) :
    c.splitsOnly (l.foldl f c) := by
  induction l generalizing c with
  | nil => exact c.splitsOnly_refl
  | cons x r ih => exact Ctx.splitsOnly_trans (h c x) (ih _)

theorem Ctx.splitsOnly_mergeOne (c : Ctx) (i j : Nat) : c.splitsOnly (c.mergeOne i j) := by
  unfold Ctx.mergeOne; dsimp only; split <;> rfl

theorem Ctx.splitsOnly_merge (c : Ctx) : c.splitsOnly c.merge := by
  unfold Ctx.merge
  generalize [(0, 1), (0, 2), (0, 3), (1, 2), (1, 3), (2, 3)] = l
  exact Ctx.splitsOnly_foldl l (fun c (p : Nat × Nat) => c.mergeOne p.1 p.2) (fun c p => Ctx.splitsOnly_mergeOne c p.1 p.2) c

theorem Ctx.splitsOnly_absorb (c : Ctx) (k : Nat) : c.splitsOnly (c.absorb k) := rfl

theorem Ctx.splitsOnly_fetchPool (c d : Ctx) (k : Nat) (ok : Split → Bool) (h : c.fetchPool k ok = some d) : c.splitsOnly d := by
  unfold Ctx.fetchPool at h
  obtain ⟨e, -, rfl⟩ := Option.map_eq_some_iff.mp h
  exact Ctx.splitsOnly_trans (b := { c.setSplit k e with pool := (c.pool.reverse.erase e).reverse }) rfl (Ctx.splitsOnly_absorb _ k)

theorem Ctx.splitsOnly_promote (c : Ctx) : c.splitsOnly c.promote := by
  unfold Ctx.promote
  refine Ctx.splitsOnly_trans (Ctx.splitsOnly_foldl _ _ (fun c k => ?_) c) (Ctx.splitsOnly_foldl _ _ (fun c k => ?_) _)
  · split
    · exact Ctx.splitsOnly_absorb c k
    · rfl
  · split
    · rfl
    · cases h : c.fetchPool k (fun _ => true) with
      | none => rfl
      | some d => exact Ctx.splitsOnly_fetchPool c d k _ h

theorem Ctx.splitsOnly_tidy (c : Ctx) : c.splitsOnly c.tidy := Ctx.splitsOnly_trans c.splitsOnly_merge (Ctx.splitsOnly_promote _)

@[simp] theorem Ctx.tickWin_quiet (c : Ctx) (h : c.pend = []) (m : Nat) (u : Bool) : c.tickWin m u = c := by
  cases c; simp_all [Ctx.tickWin]

@[simp] theorem Ctx.settle_quiet (c : Ctx) (h : c.pend = []) : c.settle = c := by simp [Ctx.settle, h]

@[simp] theorem Ctx.endWin_quiet (c : Ctx) (h : c.pend = []) (m : Nat) : c.endWin m = c := by cases c; simp_all [Ctx.endWin]

@[simp] theorem Ctx.waw_quiet (c : Ctx) (h : c.pend = []) (u : Bool) (l r : Nat) : c.waw u l r = c := by simp [Ctx.waw, h]

/-- The end of an instruction of a context without held results changes its splits only. -/
theorem State.finish_quiet (s : State) (m : Nat) (h : s.me.pend = []) : ∃ c, s.finish m = s.setCtx s.cur.act c ∧ s.me.splitsOnly c := by
  refine ⟨_, by simp only [State.finish, h, List.isEmpty_nil, Bool.not_true, Bool.and_false, Bool.false_eq_true, ↓reduceIte]; exact State.upd_eq s _, ?_⟩
  simp only [Ctx.tickWin_quiet _ h, Ctx.settle_quiet _ h]
  generalize hc : ({ s.me with splits := _ } : Ctx) = c
  have h1 : s.me.splitsOnly c := by rw [← hc]; rfl
  split
  · exact Ctx.splitsOnly_trans h1 (Ctx.splitsOnly_tidy _)
  · exact h1

theorem State.retire_quiet (s : State) (m : Nat) (h : s.me.pend = []) : ∃ c, s.retire m = s.setCtx s.cur.act c ∧ s.me.splitsOnly c := by
  have ha : s.advance.me.pend = [] := by simp [State.advance, State.updSp, h]
  obtain ⟨c, hc, hs⟩ := State.finish_quiet s.advance m ha
  refine ⟨c, ?_, ?_⟩
  · rw [State.retire, hc]; simp [State.advance, State.updSp, State.upd_eq]
  · refine Ctx.splitsOnly_trans ?_ hs
    simp [State.advance, State.updSp]
    rfl

/-- After a change of the executing context that leaves no held results. -/
theorem State.retire_upd (s : State) (f : Ctx → Ctx) (m : Nat) (h : (f s.me).pend = []) :
    ∃ c, (s.upd f).retire m = s.setCtx s.cur.act c ∧ (f s.me).splitsOnly c := by
  obtain ⟨c, hc, hs⟩ := State.retire_quiet (s.upd f) m (by simpa using h)
  exact ⟨c, by rw [hc]; simp [State.upd_eq], by simpa using hs⟩

/-! A lane's results. -/

/-- A lane after its results are written. -/
def LRes.on (r : LRes) (x : Lane) : Lane :=
  let x := r.vs.foldl (fun x e => { x with v := Tbl.put x.v (e.1 % 128) e.2 }) x
  let x := r.ps.foldl (fun x e => if e.1 % 8 = 0 then x else { x with p := Tbl.put x.p (e.1 % 8) e.2 }) x
  match r.dr with
  | some v => { x with dr := v }
  | none => x

/-- Changes of one lane only. -/
theorem Ctx.wv_quiet (c : Ctx) (h : c.pend = []) (l r : Nat) (v : Val W32) :
    c.wv l r v = c.setLn l { c.ln l with v := Tbl.put (c.ln l).v (r % 128) v } := by simp [Ctx.wv, h]

theorem Ctx.setLn_setLn (c : Ctx) (l : Nat) (x y : Lane) : (c.setLn l x).setLn l y = c.setLn l y := by simp [Ctx.setLn]

/-- The results of a lane change that lane, the flags and the warnings. -/
theorem Ctx.apply_quiet (c : Ctx) (h : c.pend = []) (l : Nat) (r : LRes) :
    ∃ t, c.apply l r = c.withLanes t (c.fpx ||| fpBits r.fl) (c.warn ||| r.wn) ∧
      ∀ k, Tbl.get ({} : Lane) t k = if k = l then r.on (c.ln l) else c.ln k := by
  have hv : ∀ (vs : List (Nat × Val W32)) (c : Ctx), c.pend = [] → ∃ t,
      vs.foldl (fun c e => c.wv l e.1 e.2) c = { c with lanes := t } ∧
        ∀ k, Tbl.get ({} : Lane) t k =
          if k = l then vs.foldl (fun x e => { x with v := Tbl.put x.v (e.1 % 128) e.2 }) (c.ln l) else c.ln k := by
    intro vs
    induction vs with
    | nil => intro c _; exact ⟨c.lanes, rfl, fun k => by split <;> simp_all [Ctx.ln]⟩
    | cons e r ih =>
      intro c hc
      simp only [List.foldl_cons]
      rw [Ctx.wv_quiet c hc]
      obtain ⟨t, ht, hk⟩ := ih (c.setLn l { c.ln l with v := Tbl.put (c.ln l).v (e.1 % 128) e.2 }) (by simpa using hc)
      refine ⟨t, by rw [ht]; rfl, fun k => ?_⟩
      rw [hk k]
      split
      · simp
      · next hkl => rw [Ctx.ln_setLn_ne _ _ hkl]
  have hp : ∀ (ps : List (Nat × Val Bool)) (c : Ctx), ∃ t,
      ps.foldl (fun c e => c.wp l e.1 e.2) c = { c with lanes := t } ∧
        ∀ k, Tbl.get ({} : Lane) t k =
          if k = l then ps.foldl (fun x e => if e.1 % 8 = 0 then x else { x with p := Tbl.put x.p (e.1 % 8) e.2 }) (c.ln l) else c.ln k := by
    intro ps
    induction ps with
    | nil => intro c; exact ⟨c.lanes, rfl, fun k => by split <;> simp_all [Ctx.ln]⟩
    | cons e r ih =>
      intro c
      simp only [List.foldl_cons]
      by_cases he : e.1 % 8 = 0
      · rw [show c.wp l e.1 e.2 = c from by simp [Ctx.wp, he]]
        simpa [he] using ih c
      · rw [show c.wp l e.1 e.2 = c.setLn l { c.ln l with p := Tbl.put (c.ln l).p (e.1 % 8) e.2 } from by simp [Ctx.wp, he]]
        obtain ⟨t, ht, hk⟩ := ih (c.setLn l { c.ln l with p := Tbl.put (c.ln l).p (e.1 % 8) e.2 })
        refine ⟨t, by rw [ht]; rfl, fun k => ?_⟩
        rw [hk k]
        split
        · simp
        · next hkl => rw [Ctx.ln_setLn_ne _ _ hkl]
  obtain ⟨t1, h1, k1⟩ := hv r.vs c h
  obtain ⟨t2, h2, k2⟩ := hp r.ps { c with lanes := t1 }
  unfold Ctx.apply
  dsimp only
  rw [h1, h2]
  have hln : ∀ k, Ctx.ln { c with lanes := t1 } k = Tbl.get {} t1 k := fun _ => rfl
  cases hd : r.dr with
  | none =>
    refine ⟨t2, rfl, fun k => ?_⟩
    rw [k2 k]
    simp only [hln, k1, LRes.on, hd]
    split <;> simp
  | some v =>
    refine ⟨Tbl.put t2 l { Tbl.get ({} : Lane) t2 l with dr := v }, rfl, fun k => ?_⟩
    rw [Tbl.get_put]
    simp only [k2, hln, k1, LRes.on, hd]
    split <;> simp

/-- All lanes of a list, one after the other; no lane twice. -/
theorem Ctx.applies_quiet (rs : List (Nat × LRes)) (hn : (rs.map Prod.fst).Nodup) (c : Ctx) (h : c.pend = []) :
    ∃ t, rs.foldl (fun c r => c.apply r.1 r.2) c
        = c.withLanes t (rs.foldl (fun w r => w ||| fpBits r.2.fl) c.fpx) (rs.foldl (fun w r => w ||| r.2.wn) c.warn) ∧
      ∀ k, Tbl.get ({} : Lane) t k = match rs.find? (fun r => r.1 == k) with | some r => r.2.on (c.ln k) | none => c.ln k := by
  induction rs generalizing c with
  | nil => exact ⟨c.lanes, rfl, fun k => rfl⟩
  | cons e r ih =>
    obtain ⟨t1, h1, k1⟩ := Ctx.apply_quiet c h e.1 e.2
    simp only [List.map_cons, List.nodup_cons, List.mem_map, not_exists, not_and] at hn
    obtain ⟨t, ht, hk⟩ := ih hn.2 (c.apply e.1 e.2) (by rw [h1]; exact h)
    refine ⟨t, ?_, fun k => ?_⟩
    · simp only [List.foldl_cons]
      rw [ht, h1]
      rfl
    · rw [hk k]
      have hc : ∀ k, (c.apply e.1 e.2).ln k = Tbl.get {} t1 k := by rw [h1]; intro k; rfl
      simp only [hc, k1, List.find?_cons]
      by_cases hek : e.1 = k
      · subst hek
        have : r.find? (fun x => x.1 == e.1) = none := by
          simp only [List.find?_eq_none, beq_iff_eq]
          exact fun x hx => hn.1 x hx
        simp [this]
      · have hke : ¬ k = e.1 := fun q => hek q.symm
        have hb : (e.1 == k) = false := by simpa using hek
        simp [hb, hke]

/-- The lanes of a mask, no lane twice. -/
theorem lanesOf_nodup (m : Nat) : (lanesOf m).Nodup := by
  unfold lanesOf
  exact (List.nodup_range).filter _

/-- The lane function of each active lane, in order. -/
theorem find_map_lane {β : Type} (ls : List Nat) (f : Nat → β) (k : Nat) :
    (ls.map (fun l => (l, f l))).find? (fun r => r.1 == k) = if k ∈ ls then some (k, f k) else none := by
  induction ls with
  | nil => rfl
  | cons a r ih =>
    simp only [List.map_cons, List.find?_cons, List.mem_cons]
    by_cases h : a = k
    · subst h; simp
    · have hb : (a == k) = false := by simpa using h
      have h' : ¬ k = a := fun q => h q.symm
      simp [hb, h', ih]

/-- Everything a lane instruction without an invalid operation under INVP can do, in a context without held results: it answers
a next state in which only the executing context has changed, there only its lanes, splits and sticky flags, and of the lanes
only the active ones, each by its own results. -/
theorem State.laneOp_quiet (s : State) (reads : List Nat) (wn : W32) (f : Nat → Lane → LRes) (ha : s.cur.act.lanes = true)
    (hp : s.me.pend = []) (hv : s.me.invp = false ∨ ∀ l ∈ s.active, (f l (s.me.ln l)).inv = false) :
    ∃ t fx w sp pl, s.laneOp reads wn f = .next (s.setCtx s.cur.act ((s.me.withLanes t fx w).withSplits sp pl))
      ∧ (∀ l, Tbl.get ({} : Lane) t l = if l ∈ s.active then (f l (s.me.ln l)).on (s.me.ln l) else s.me.ln l)
      ∧ w = s.active.foldl (fun w l => w ||| (f l (s.me.ln l)).wn) (s.me.warn ||| (wn ||| s.unmapped reads))
      ∧ fx = s.active.foldl (fun w l => w ||| fpBits (f l (s.me.ln l)).fl) s.me.fpx := by
  generalize hw : wn ||| s.unmapped reads = w
  have hb : (if s.me.invp then (s.active.map (fun l => (l, f l (s.me.ln l)))).filter (fun r => r.2.inv) else []) = [] := by
    split
    · next hi =>
      rcases hv with hv | hv
      · simp [hv] at hi
      · simp only [List.filter_eq_nil_iff, List.mem_map]
        rintro r ⟨l, hl, rfl⟩
        simpa using hv l hl
    · rfl
  have hn : ((s.active.map (fun l => (l, f l (s.me.ln l)))).map Prod.fst).Nodup := by
    rw [List.map_map]
    simpa [Function.comp_def, State.active] using lanesOf_nodup s.mask
  obtain ⟨t, ht, hk⟩ := Ctx.applies_quiet _ hn (s.me.warns w) hp
  have he : (s.warns w).eachLane f = s.upd (fun c => (s.active.map (fun l => (l, f l (s.me.ln l)))).foldl (fun c r => c.apply r.1 r.2) (c.warns w)) := by
    unfold State.eachLane
    have hi : (s.me.warns w).invp = s.me.invp := rfl
    have hs : s.cur.act.isSeq = false := by cases hc : s.cur.act <;> simp_all [Actor.lanes, Actor.isSeq]
    simp only [State.active_warns, State.me_warns s w hs, Ctx.ln_warns, hi, hb, List.isEmpty_nil, if_true, Tbl.find_nil]
    rw [State.warns_upd s w hs, State.upd_upd]
  obtain ⟨c, hc, hs⟩ := State.retire_upd s
    (fun c => (s.active.map (fun l => (l, f l (s.me.ln l)))).foldl (fun c r => c.apply r.1 r.2) (c.warns w)) s.mask
    (by rw [ht]; exact hp)
  rw [ht] at hs
  refine ⟨t, s.active.foldl (fun w l => w ||| fpBits (f l (s.me.ln l)).fl) s.me.fpx,
    s.active.foldl (fun w l => w ||| (f l (s.me.ln l)).wn) (s.me.warn ||| w), c.splits, c.pool, ?_, fun l => ?_, rfl, rfl⟩
  · unfold State.laneOp State.laneSet
    rw [if_pos ha]
    dsimp only
    rw [hw, he, hc]
    rw [List.foldl_map, List.foldl_map] at hs
    exact congrArg (fun c => Host.Outcome.next (s.setCtx s.cur.act c)) hs
  · rw [hk l, find_map_lane]
    by_cases hl : l ∈ s.active
    · rw [if_pos hl, if_pos hl]; rfl
    · rw [if_neg hl, if_neg hl]; rfl

/-! Uniform instructions. -/

theorem State.uni_allowed (s : State) (lg : Legal) (regs : List Nat) (k : State → State) (h : s.allows lg regs = true) :
    s.uni lg regs k = .next (k s) := by
  unfold State.allows at h
  unfold State.uni
  dsimp only
  cases hc : s.cur.act.isCtl <;> cases hq : s.cur.act.isSeq <;> cases ht : s.cur.act.isThread <;> cases h1 : lg.thread <;> cases h2 : lg.sup
    <;> cases hu : s.sp.sup <;> simp_all

/-- Everything a guarded scalar instruction with a clean guard can do in a context without held results; a warning of a sequencer goes to the
group of its FORK. -/
theorem State.gr_quiet (s : State) (regs : List Nat) (g : Nat) (wn : W32) (f : Ctx → Ctx) (b : Bool)
    (ha : s.allows Legal.all regs = true) (hg : s.takes g = some b) (hp : s.me.pend = []) (hf : (f (s.warns wn).me).pend = []) :
    ∃ c, s.gr regs g wn f = .next ((if b then s.warns wn else s).setCtx s.cur.act c) ∧ (if b then f (s.warns wn).me else s.me).splitsOnly c := by
  unfold State.gr State.uni1
  rw [State.uni_allowed s _ _ _ ha]
  have hgd : ∀ k : State → State, s.guarded g k = if b then k s else s := by
    intro k
    unfold State.takes at hg
    unfold State.guarded
    split at hg
    · next h0 => simp_all
    · next h0 =>
      rw [if_neg h0]
      cases hr : s.me.rq (if g = 2 then 2 else 1) with
      | bad p => rw [hr] at hg; simp at hg
      | ok v =>
        rw [hr] at hg
        simp only [Option.some.injEq] at hg
        simp only [hg]
  dsimp only
  rw [hgd]
  cases b with
  | true =>
    obtain ⟨c, hc, hs⟩ := State.retire_upd (s.warns wn) f s.mask hf
    exact ⟨c, by simpa using hc, hs⟩
  | false =>
    obtain ⟨c, hc, hs⟩ := State.retire_quiet s s.mask hp
    exact ⟨c, by simpa using hc, hs⟩

end Sys2Proof.Machine
end

