-- ==== Sys2Proof/Tests/Slice0.lean ====
section
/-! SUPPORT. Tests: ill-formed terms, words of the spec's encodings, small instructions whose results the spec gives, and for every
statement states that meet its hypotheses. -/

set_option Elab.async false

namespace Sys2Proof.Tests

open Sys2Proof.Machine

/-! Ill-formed terms: each field in turn at its bound, selectors at the values of other rows, actors that do not exist. -/

def ill1 (f : Nat → Instr) (b0 g0 : Nat) : Bool :=
  (f g0).wf && (b0 == 0 || !(f b0).wf)

def ill2 (f : Nat → Nat → Instr) (b0 b1 g0 g1 : Nat) : Bool :=
  (f g0 g1).wf && (b0 == 0 || !(f b0 g1).wf) && (b1 == 0 || !(f g0 b1).wf)

def ill3 (f : Nat → Nat → Nat → Instr) (b0 b1 b2 g0 g1 g2 : Nat) : Bool :=
  (f g0 g1 g2).wf && (b0 == 0 || !(f b0 g1 g2).wf) && (b1 == 0 || !(f g0 b1 g2).wf) && (b2 == 0 || !(f g0 g1 b2).wf)

def ill4 (f : Nat → Nat → Nat → Nat → Instr) (b0 b1 b2 b3 g0 g1 g2 g3 : Nat) : Bool :=
  (f g0 g1 g2 g3).wf && (b0 == 0 || !(f b0 g1 g2 g3).wf) && (b1 == 0 || !(f g0 b1 g2 g3).wf) && (b2 == 0 || !(f g0 g1 b2 g3).wf) && (b3 == 0 || !(f g0 g1 g2 b3).wf)

def ill5 (f : Nat → Nat → Nat → Nat → Nat → Instr) (b0 b1 b2 b3 b4 g0 g1 g2 g3 g4 : Nat) : Bool :=
  (f g0 g1 g2 g3 g4).wf && (b0 == 0 || !(f b0 g1 g2 g3 g4).wf) && (b1 == 0 || !(f g0 b1 g2 g3 g4).wf) && (b2 == 0 || !(f g0 g1 b2 g3 g4).wf) && (b3 == 0 || !(f g0 g1 g2 b3 g4).wf) && (b4 == 0 || !(f g0 g1 g2 g3 b4).wf)

def ill6 (f : Nat → Nat → Nat → Nat → Nat → Nat → Instr) (b0 b1 b2 b3 b4 b5 g0 g1 g2 g3 g4 g5 : Nat) : Bool :=
  (f g0 g1 g2 g3 g4 g5).wf && (b0 == 0 || !(f b0 g1 g2 g3 g4 g5).wf) && (b1 == 0 || !(f g0 b1 g2 g3 g4 g5).wf) && (b2 == 0 || !(f g0 g1 b2 g3 g4 g5).wf) && (b3 == 0 || !(f g0 g1 g2 b3 g4 g5).wf) && (b4 == 0 || !(f g0 g1 g2 g3 b4 g5).wf) && (b5 == 0 || !(f g0 g1 g2 g3 g4 b5).wf)

def ill7 (f : Nat → Nat → Nat → Nat → Nat → Nat → Nat → Instr) (b0 b1 b2 b3 b4 b5 b6 g0 g1 g2 g3 g4 g5 g6 : Nat) : Bool :=
  (f g0 g1 g2 g3 g4 g5 g6).wf && (b0 == 0 || !(f b0 g1 g2 g3 g4 g5 g6).wf) && (b1 == 0 || !(f g0 b1 g2 g3 g4 g5 g6).wf) && (b2 == 0 || !(f g0 g1 b2 g3 g4 g5 g6).wf) && (b3 == 0 || !(f g0 g1 g2 b3 g4 g5 g6).wf) && (b4 == 0 || !(f g0 g1 g2 g3 b4 g5 g6).wf) && (b5 == 0 || !(f g0 g1 g2 g3 g4 b5 g6).wf) && (b6 == 0 || !(f g0 g1 g2 g3 g4 g5 b6).wf)

def ill8 (f : Nat → Nat → Nat → Nat → Nat → Nat → Nat → Nat → Instr) (b0 b1 b2 b3 b4 b5 b6 b7 g0 g1 g2 g3 g4 g5 g6 g7 : Nat) : Bool :=
  (f g0 g1 g2 g3 g4 g5 g6 g7).wf && (b0 == 0 || !(f b0 g1 g2 g3 g4 g5 g6 g7).wf) && (b1 == 0 || !(f g0 b1 g2 g3 g4 g5 g6 g7).wf) && (b2 == 0 || !(f g0 g1 b2 g3 g4 g5 g6 g7).wf) && (b3 == 0 || !(f g0 g1 g2 b3 g4 g5 g6 g7).wf) && (b4 == 0 || !(f g0 g1 g2 g3 b4 g5 g6 g7).wf) && (b5 == 0 || !(f g0 g1 g2 g3 g4 b5 g6 g7).wf) && (b6 == 0 || !(f g0 g1 g2 g3 g4 g5 b6 g7).wf) && (b7 == 0 || !(f g0 g1 g2 g3 g4 g5 g6 b7).wf)

def ill9 (f : Nat → Nat → Nat → Nat → Nat → Nat → Nat → Nat → Nat → Instr) (b0 b1 b2 b3 b4 b5 b6 b7 b8 g0 g1 g2 g3 g4 g5 g6 g7 g8 : Nat) : Bool :=
  (f g0 g1 g2 g3 g4 g5 g6 g7 g8).wf && (b0 == 0 || !(f b0 g1 g2 g3 g4 g5 g6 g7 g8).wf) && (b1 == 0 || !(f g0 b1 g2 g3 g4 g5 g6 g7 g8).wf) && (b2 == 0 || !(f g0 g1 b2 g3 g4 g5 g6 g7 g8).wf) && (b3 == 0 || !(f g0 g1 g2 b3 g4 g5 g6 g7 g8).wf) && (b4 == 0 || !(f g0 g1 g2 g3 b4 g5 g6 g7 g8).wf) && (b5 == 0 || !(f g0 g1 g2 g3 g4 b5 g6 g7 g8).wf) && (b6 == 0 || !(f g0 g1 g2 g3 g4 g5 b6 g7 g8).wf) && (b7 == 0 || !(f g0 g1 g2 g3 g4 g5 g6 b7 g8).wf) && (b8 == 0 || !(f g0 g1 g2 g3 g4 g5 g6 g7 b8).wf)

theorem test_ill_formed_1_1 : ([Instr.join, Instr.exit, Instr.nop, Instr.yield, Instr.cmtBr, Instr.cmtSv, Instr.cmtRl, Instr.trig, Instr.svc, Instr.sret, Instr.brk].all (fun f => ill1 f 4194304 0)
    && [Instr.unassignedEncoding, Instr.mfesClear, Instr.almClear, Instr.fabnWrite].all (fun f => ill1 f 4294967296 0)
    && [Instr.genBroadcastDone].all (fun f => ill1 f 65536 0)
    && [Instr.dropNotice, Instr.domainSwitchDone, Instr.slcsClr, Instr.sltsClr, Instr.bdrstReset, Instr.baseDieResetComplete].all (fun f => ill1 f 16 0)
    && [Instr.cmcmdSet, Instr.cmcmdQuery, Instr.ctxbWrite, Instr.peerbWrite].all (fun f => ill1 f 18446744073709551616 0)
    && [Instr.fetchRequestIntake, Instr.storageLinkDown].all (fun f => ill1 f 8 0)
    && [Instr.powerTokenGrant, Instr.tileFlagNotify, Instr.packPlace, Instr.packSaveComplete, Instr.gridCompletion, Instr.submissionTake, Instr.eventInsert, Instr.dbgctlResume, Instr.dbgctlHaltedClear, Instr.dbggoGo, Instr.drstGo, Instr.functionLevelReset, Instr.lockInterface, Instr.stopInterface, Instr.startInterface, Instr.dieResetComplete].all (fun f => ill1 f 4 0)
    && [Instr.matrixPassComplete].all (fun f => ill1 f 256 0)
    && [Instr.kscmdLoad, Instr.kscmdRevoke].all (fun f => ill1 f 4096 0)
    && [Instr.securityAlarm].all (fun f => ill1 f 5 0)
    && [Instr.debugUnlockResult].all (fun f => ill1 f 2 0)) = true := by decide +kernel

theorem test_ill_formed_2_1 : ([Instr.smovi, Instr.shi18, Instr.sadr].all (fun f => ill2 f 64 262144 0 0)
    && [Instr.bra, Instr.br, Instr.brE, Instr.joinat, Instr.call, Instr.loop, Instr.rgnI, Instr.rgnH].all (fun f => ill2 f 8 2097152 0 0)
    && [Instr.dictionaryCode].all (fun f => ill2 f 4 1024 0 0)
    && [Instr.writeBack].all (fun f => ill2 f 256 0 0 0)
    && [Instr.genBroadcastReceive].all (fun f => ill2 f 65536 20 0 0)
    && [Instr.pageInvalidationDone].all (fun f => ill2 f 65536 549755813888 0 0)
    && [Instr.slhmWrite, Instr.slhcWrite].all (fun f => ill2 f 16 4294967296 0 0)
    && [Instr.commitBackoffExpiry, Instr.xchTimeout].all (fun f => ill2 f 256 32 0 0)
    && [Instr.nvmeCommandTimeout].all (fun f => ill2 f 8 0 0 0)
    && [Instr.frdbServiced, Instr.frdbFail].all (fun f => ill2 f 4 65536 0 0)
    && [Instr.handOverDone, Instr.rejoinTimeout, Instr.recallComplete].all (fun f => ill2 f 4 128 0 0)
    && [Instr.rdvComplete].all (fun f => ill2 f 256 4 0 0)
    && [Instr.quantumExpiry].all (fun f => ill2 f 4 64 0 0)
    && [Instr.waitevTimeout].all (fun f => ill2 f 4 8 0 0)
    && [Instr.thermalRecover].all (fun f => ill2 f 4 2 0 0)
    && [Instr.spdmRequest].all (fun f => ill2 f 4 256 0 0)
    && [Instr.keyProgram].all (fun f => ill2 f 4 4096 0 0)) = true := by decide +kernel

theorem test_ill_formed_3_1 : ([Instr.iaddi, Instr.imuli, Instr.andi, Instr.ori, Instr.xori, Instr.shli, Instr.shri, Instr.sari, Instr.isetiLt, Instr.isetiLe, Instr.isetiEq, Instr.isetiNe, Instr.isetiLtn, Instr.isetiLen, Instr.movi, Instr.movhi, Instr.ldbS, Instr.ldbN, Instr.ldhS, Instr.ldhN, Instr.stb, Instr.sth, Instr.shfli, Instr.bfxi].all (fun f => ill3 f 128 128 512 0 0 0)
    && [Instr.saddi, Instr.sandi, Instr.sori, Instr.sxori, Instr.sshli, Instr.sshri, Instr.ssari, Instr.ssetiLt, Instr.ssetiEq, Instr.ssetiLtn, Instr.smuli, Instr.ret, Instr.tready, Instr.twait, Instr.evt, Instr.waitev, Instr.launch, Instr.hashsw].all (fun f => ill3 f 64 64 1024 0 0 0)
    && [Instr.brx].all (fun f => ill3 f 32 128 1024 0 0 0)
    && [Instr.fenceAcq].all (fun f => ill3 f 8 4 131072 0 0 0)
    && [Instr.fenceRel].all (fun f => ill3 f 8 4 131072 0 1 0)
    && [Instr.fenceAr].all (fun f => ill3 f 8 4 131072 0 2 0)
    && [Instr.reclaim, Instr.reclaimAck, Instr.replicaInvalidateAck, Instr.pageInvalidateReceive].all (fun f => ill3 f 16 65536 549755813888 0 0 0)
    && [Instr.nvmeCommandComplete].all (fun f => ill3 f 8 0 0 0 0 0)
    && [Instr.storageLinkUp].all (fun f => ill3 f 8 16 1099511627776 0 0 0)
    && [Instr.copyComplete, Instr.dispatchDone].all (fun f => ill3 f 256 4 0 0 0 0)
    && [Instr.thermalLimit].all (fun f => ill3 f 4 3 256 0 0 0)
    && [Instr.hostBar2Read].all (fun f => ill3 f 4 68719476736 0 0 0 0)
    && [Instr.sealVersionNotice].all (fun f => ill3 f 1024 65536 65536 0 0 0)) = true := by decide +kernel

theorem test_ill_formed_4_1 : ([Instr.iadd, Instr.isub, Instr.imul, Instr.imulh, Instr.imad, Instr.imin, Instr.imax, Instr.iabs, Instr.and32, Instr.or32, Instr.xor32, Instr.andn, Instr.shl, Instr.shr, Instr.sar, Instr.rot, Instr.popc, Instr.clz, Instr.brev, Instr.bfx, Instr.bfi, Instr.bysel, Instr.addc, Instr.sad, Instr.isetLt, Instr.isetLe, Instr.isetEq, Instr.isetNe, Instr.sel, Instr.plop, Instr.shfl, Instr.fadd, Instr.fsub, Instr.fmul, Instr.ffma, Instr.fmin, Instr.fmax, Instr.fsetLt, Instr.fsetLe, Instr.fsetEq, Instr.fsetNe, Instr.frcp, Instr.frsq, Instr.fsqrt, Instr.fexp2, Instr.flog2, Instr.fsin, Instr.fcos, Instr.ftanh, Instr.fclass, Instr.dadd, Instr.dmul, Instr.dfma, Instr.dset, Instr.hadd2, Instr.hsub2, Instr.hmul2, Instr.hfma2, Instr.hmax2, Instr.maxd2, Instr.cvt].all (fun f => ill4 f 128 128 128 4 0 0 0 0)) = true := by decide +kernel

theorem test_ill_formed_4_2 : ([Instr.mov, Instr.dmin, Instr.cvtxPack].all (fun f => ill4 f 128 128 128 4 0 0 0 0)
    && [Instr.bcast, Instr.dmax, Instr.cvtxUnpack].all (fun f => ill4 f 128 128 128 4 0 0 0 1)
    && [Instr.getl, Instr.cvtxDecode].all (fun f => ill4 f 128 128 128 4 0 0 0 2)
    && [Instr.cvtxEncode].all (fun f => ill4 f 128 128 128 4 0 0 0 3)
    && [Instr.ldlw, Instr.ldld, Instr.ldlq, Instr.stlw, Instr.stld, Instr.stlq, Instr.ldlb, Instr.stlb].all (fun f => ill4 f 4 128 128 512 0 0 0 0)
    && [Instr.cstl].all (fun f => ill4 f 2 65536 4 16 0 0 0 0)
    && [Instr.fork].all (fun f => ill4 f 128 64 64 16 0 0 0 0)
    && [Instr.rdv].all (fun f => ill4 f 2 64 4096 16 0 0 0 0)
    && [Instr.xch].all (fun f => ill4 f 128 128 32 16 0 0 0 0)
    && [Instr.side].all (fun f => ill4 f 64 64 4 256 0 0 0 0)
    && [Instr.bar].all (fun f => ill4 f 4 4 4 65536 0 0 0 0)
    && [Instr.dict].all (fun f => ill4 f 64 64 64 16 0 0 0 0)
    && [Instr.registerWrite].all (fun f => ill4 f 5 1048576 0 18446744073709551616 0 0 0 0)
    && [Instr.replicaInvalidate].all (fun f => ill4 f 16 65536 549755813888 4 0 0 0 0)
    && [Instr.cpyrAck].all (fun f => ill4 f 256 4 0 2 0 0 0 0)
    && [Instr.dispatchDeliver].all (fun f => ill4 f 256 4 0 3 0 0 0 0)
    && [Instr.moduleColdReset].all (fun f => ill4 f 2 1099511627776 1099511627776 1024 0 0 0 0)
    && [Instr.sealRetire].all (fun f => ill4 f 4 1024 65536 65536 0 0 0 0)
    && [Instr.uncorrectableEccError].all (fun f => ill4 f 5 256 72057594037927936 256 0 0 0 0)) = true := by decide +kernel

theorem test_ill_formed_5_1 : ([Instr.ldw, Instr.ldd, Instr.ldq, Instr.ldf, Instr.stw, Instr.std, Instr.stq, Instr.pref].all (fun f => ill5 f 4 128 128 64 16 0 0 0 0 0)
    && [Instr.atomAdd32, Instr.atomAdd64, Instr.atomAddf32, Instr.atomMinS32, Instr.atomMinN32, Instr.atomMaxS32, Instr.atomMaxN32, Instr.atomAnd32, Instr.atomOr32, Instr.atomXor32, Instr.atomXchg32, Instr.atomXchg64, Instr.atomCas32, Instr.atomCas64, Instr.atomIncN32, Instr.atomAddbf16x2].all (fun f => ill5 f 128 128 4 16 16 0 0 0 0 0)
    && [Instr.sadd, Instr.ssub, Instr.smul, Instr.smulh, Instr.sdiv, Instr.srem, Instr.sand, Instr.sor, Instr.sxor, Instr.sshl, Instr.sshr, Instr.ssar, Instr.smin, Instr.smax, Instr.ssetLt, Instr.ssetLe, Instr.ssetEq, Instr.ssetNe, Instr.ssel, Instr.qlop, Instr.spopc, Instr.sclz, Instr.smov, Instr.vtou, Instr.vote, Instr.redx, Instr.gets, Instr.puts, Instr.saddc].all (fun f => ill5 f 64 64 64 4 4 0 0 0 0 0)
    && [Instr.mzero, Instr.cpy, Instr.cpyr].all (fun f => ill5 f 2 64 64 64 16 0 0 0 0 0)
    && [Instr.pclr].all (fun f => ill5 f 128 32 2 2 256 0 0 0 0 0)
    && [Instr.harv, Instr.cwb, Instr.flushst].all (fun f => ill5 f 64 64 64 2 8 0 0 0 0 0)) = true := by decide +kernel

theorem test_ill_formed_5_2 : ([Instr.tlbiGen, Instr.vacateSave].all (fun f => ill5 f 64 64 64 4 4 0 0 0 0 0)
    && [Instr.tlbiPage, Instr.vacateOpen].all (fun f => ill5 f 64 64 64 4 4 0 0 0 1 0)
    && [Instr.tlbiHold, Instr.vacateKill].all (fun f => ill5 f 64 64 64 4 4 0 0 0 2 0)
    && [Instr.tlbiRel].all (fun f => ill5 f 64 64 64 4 4 0 0 0 3 0)
    && [Instr.sealClose].all (fun f => ill5 f 64 64 64 2 8 0 0 0 0 0)
    && [Instr.sealOpen].all (fun f => ill5 f 64 64 64 2 8 0 0 0 1 0)
    && [Instr.sldW, Instr.sldD, Instr.sstW, Instr.sstD, Instr.satomAdd64, Instr.scas64, Instr.sldl, Instr.sstl].all (fun f => ill5 f 4 64 64 128 16 0 0 0 0 0)
    && [Instr.hostBar2Write].all (fun f => ill5 f 4 68719476736 0 0 2 0 0 0 0 0)) = true := by decide +kernel

theorem test_ill_formed_6_1 : ([Instr.dispSend].all (fun f => ill6 f 2 64 64 16 4 16 0 0 0 0 0 0)
    && [Instr.dispOpen].all (fun f => ill6 f 2 64 64 16 4 16 0 0 0 0 1 0)
    && [Instr.dispClose].all (fun f => ill6 f 2 64 64 16 4 16 0 0 0 0 2 0)
    && [Instr.cinv].all (fun f => ill6 f 64 64 64 2 2 4 0 0 0 0 0 0)
    && [Instr.peerRequest].all (fun f => ill6 f 1024 65536 5 18446744073709551616 0 0 0 0 0 0 0 0 && ill6 f 1024 65536 65536 0 0 0 0 0 0 0 0 0)) = true := by decide +kernel

theorem test_ill_formed_7_1 : ([Instr.pchk].all (fun f => ill7 f 2 8 2 128 2 128 4 0 0 0 0 0 0 0)) = true := by decide +kernel

theorem test_ill_formed_8_1 : ([Instr.mmaQ].all (fun f => ill8 f 128 16 4 2 2 4 4 16 0 0 0 0 0 0 0 0)) = true := by decide +kernel

theorem test_ill_formed_9_1 : ([Instr.mmaPk].all (fun f => ill9 f 2 64 16 4 2 2 4 4 16 0 0 0 0 0 0 0 0 0)) = true := by decide +kernel

theorem test_ill_formed_selectors : ([1, 2].all (fun v => !(Instr.mov 0 0 0 v).wf)
    && [0, 2, 3].all (fun v => !(Instr.bcast 0 0 0 v).wf)
    && [0, 1, 3].all (fun v => !(Instr.getl 0 0 0 v).wf)
    && [1, 3].all (fun v => !(Instr.dmin 0 0 0 v).wf)
    && [0, 2].all (fun v => !(Instr.dmax 0 0 0 v).wf)
    && [1, 2, 3].all (fun v => !(Instr.cvtxPack 0 0 0 v).wf)
    && [0, 2, 3].all (fun v => !(Instr.cvtxUnpack 0 0 0 v).wf)
    && [0, 1, 3].all (fun v => !(Instr.cvtxDecode 0 0 0 v).wf)
    && [0, 1, 2].all (fun v => !(Instr.cvtxEncode 0 0 0 v).wf)
    && [1, 2].all (fun v => !(Instr.dispSend 0 0 0 0 v 0).wf)
    && [0, 2, 3].all (fun v => !(Instr.dispOpen 0 0 0 0 v 0).wf)
    && [0, 1, 3].all (fun v => !(Instr.dispClose 0 0 0 0 v 0).wf)
    && [1, 2, 3].all (fun v => !(Instr.fenceAcq 0 v 0).wf)
    && [0, 2, 3].all (fun v => !(Instr.fenceRel 0 v 0).wf)
    && [0, 1].all (fun v => !(Instr.fenceAr 0 v 0).wf)
    && [1, 2, 3].all (fun v => !(Instr.tlbiGen 0 0 0 v 0).wf)
    && [0, 2, 3].all (fun v => !(Instr.tlbiPage 0 0 0 v 0).wf)
    && [0, 1, 3].all (fun v => !(Instr.tlbiHold 0 0 0 v 0).wf)
    && [0, 1, 2].all (fun v => !(Instr.tlbiRel 0 0 0 v 0).wf)
    && [1].all (fun v => !(Instr.sealClose 0 0 0 v 0).wf)
    && [0].all (fun v => !(Instr.sealOpen 0 0 0 v 0).wf)
    && [1, 2].all (fun v => !(Instr.vacateSave 0 0 0 v 0).wf)
    && [0, 2, 3].all (fun v => !(Instr.vacateOpen 0 0 0 v 0).wf)
    && [0, 1, 3].all (fun v => !(Instr.vacateKill 0 0 0 v 0).wf)) = true := by decide +kernel

/-- Actors that the module does not have. -/
def noActors : List Actor := [.split 256 0 0, .split 0 32 0, .split 0 0 4, .thread 4 0, .thread 0 128, .ctl 4 0, .ctl 0 8, .mseq 256, .cseq 256]

theorem test_ill_formed_actors : noActors.all (fun a => !(Instr.storeTranslationProbe a 0).wf
    && !(Instr.probeReturn a).wf
    && !(Instr.l1Fill a).wf
    && !(Instr.sliceReadMiss a 0).wf
    && !(Instr.walkComplete a 0).wf
    && !(Instr.bypassStore a 0).wf
    && !(Instr.sliceAtomic a 0).wf
    && !(Instr.requestBounce a).wf
    && !(Instr.requestReplay a).wf
    && !(Instr.remoteScratchpadAccess a).wf
    && !(Instr.retrieverAccess a).wf
    && !(Instr.harvestDone a).wf
    && !(Instr.rangeOperationDone a).wf
    && !(Instr.peerTimeout a).wf
    && !(Instr.castling a).wf
    && !(Instr.cxlCompletion a 0 0).wf
    && !(Instr.sealRetireAck a).wf
    && !(Instr.peerAccessCompletion a 0 0).wf) = true := by decide +kernel

theorem test_ill_formed_completions : (!(Instr.cxlCompletion (.ctl 0 0) 3 0).wf
    && !(Instr.peerAccessCompletion (.ctl 0 0) 3 0).wf) = true := by decide +kernel

theorem test_well_formed_always : [Instr.instructionFetchFault, Instr.cmcmdSetDone, Instr.keySlotOpDone, Instr.almLock, Instr.ualinkPortsTrain].all Instr.wf = true := by decide +kernel

/-! Decoding: one word of each row of the stream, its fields laid out as the tables of 09 R288 to R293, 10, 11 and 12 give them. -/

def decodesAll (n : Nat) (l : List (Nat × Instr)) : Bool := l.all (fun e => decodeTableWord n e.1 == some e.2)

theorem test_decode_0_1 : decodesAll 32 [
    (0x000B6156, Instr.iadd 11 48 85 2), (0x008E6761, Instr.isub 14 51 88 1), (0x010E6760, Instr.imul 14 51 88 0), 
    (0x018E6761, Instr.imulh 14 51 88 1), (0x020E6761, Instr.imad 14 51 88 1), (0x028E6761, Instr.imin 14 51 88 1), 
    (0x030E6761, Instr.imax 14 51 88 1), (0x038E6761, Instr.iabs 14 51 88 1), (0x040E6760, Instr.and32 14 51 88 0), 
    (0x048E6760, Instr.or32 14 51 88 0), (0x050E6760, Instr.xor32 14 51 88 0), (0x058E6760, Instr.andn 14 51 88 0), 
    (0x060E6760, Instr.shl 14 51 88 0), (0x068E6760, Instr.shr 14 51 88 0), (0x070E6760, Instr.sar 14 51 88 0), 
    (0x078E6760, Instr.rot 14 51 88 0), (0x080E6600, Instr.popc 14 51 0 0), (0x088E6600, Instr.clz 14 51 0 0), 
    (0x090E6600, Instr.brev 14 51 0 0), (0x098E6761, Instr.bfx 14 51 88 1), (0x0A0E6760, Instr.bfi 14 51 88 0), 
    (0x0A8E6760, Instr.bysel 14 51 88 0), (0x0B0E6760, Instr.addc 14 51 88 0), (0x0B8E6761, Instr.sad 14 51 88 1), 
    (0x0C066761, Instr.isetLt 6 51 88 1), (0x0C866761, Instr.isetLe 6 51 88 1), (0x0D066761, Instr.isetEq 6 51 88 1), 
    (0x0D866761, Instr.isetNe 6 51 88 1), (0x0E0E6761, Instr.sel 14 51 88 1), (0x0E860601, Instr.plop 6 3 0 1), 
    (0x0F0E6600, Instr.mov 14 51 0 0), (0x0F0E6661, Instr.bcast 14 51 24 1)] = true := by decide +kernel

theorem test_decode_0_2 : decodesAll 32 [
    (0x0F0E6602, Instr.getl 14 51 0 2), (0x0F8E6761, Instr.shfl 14 51 88 1)] = true := by decide +kernel

theorem test_decode_1_1 : decodesAll 32 [
    (0x100E6761, Instr.fadd 14 51 88 1), (0x10916D6C, Instr.fsub 17 54 91 0), (0x11116D6C, Instr.fmul 17 54 91 0), 
    (0x11916D6C, Instr.ffma 17 54 91 0), (0x12116D6C, Instr.fmin 17 54 91 0), (0x12916D6C, Instr.fmax 17 54 91 0), 
    (0x13016D6C, Instr.fsetLt 1 54 91 0), (0x13816D6C, Instr.fsetLe 1 54 91 0), (0x14016D6C, Instr.fsetEq 1 54 91 0), 
    (0x14816D6C, Instr.fsetNe 1 54 91 0), (0x15116C00, Instr.frcp 17 54 0 0), (0x15916C00, Instr.frsq 17 54 0 0), 
    (0x16116C03, Instr.fsqrt 17 54 0 3), (0x16916C00, Instr.fexp2 17 54 0 0), (0x17116C00, Instr.flog2 17 54 0 0), 
    (0x17916C00, Instr.fsin 17 54 0 0), (0x18116C00, Instr.fcos 17 54 0 0), (0x18916C00, Instr.ftanh 17 54 0 0), 
    (0x19116C00, Instr.fclass 17 54 0 0), (0x19916D6C, Instr.dadd 17 54 91 0), (0x1A116D6C, Instr.dmul 17 54 91 0), 
    (0x1A916D6C, Instr.dfma 17 54 91 0), (0x1B116D6C, Instr.dmin 17 54 91 0), (0x1B116D6D, Instr.dmax 17 54 91 1), 
    (0x1B816D6C, Instr.dset 1 54 91 0), (0x1C116D6C, Instr.hadd2 17 54 91 0), (0x1C916D6C, Instr.hsub2 17 54 91 0), 
    (0x1D116D6C, Instr.hmul2 17 54 91 0), (0x1D916D6C, Instr.hfma2 17 54 91 0), (0x1E116D6C, Instr.hmax2 17 54 91 0), 
    (0x1E916D6C, Instr.maxd2 17 54 91 0), (0x1F116D6C, Instr.cvt 17 54 91 0)] = true := by decide +kernel

theorem test_decode_1_2 : decodesAll 32 [
    (0x1F916D80, Instr.cvtxPack 17 54 96 0), (0x1F916C6D, Instr.cvtxUnpack 17 54 27 1), (0x1F916C52, Instr.cvtxDecode 17 54 20 2), 
    (0x1F916C53, Instr.cvtxEncode 17 54 20 3)] = true := by decide +kernel

theorem test_decode_2_1 : decodesAll 32 [
    (0x20116C5B, Instr.iaddi 17 54 91), (0x2094725E, Instr.imuli 20 57 94), (0x2114725E, Instr.andi 20 57 94), 
    (0x2194725E, Instr.ori 20 57 94), (0x2214725E, Instr.xori 20 57 94), (0x2294721E, Instr.shli 20 57 30), 
    (0x2314721E, Instr.shri 20 57 30), (0x2394721E, Instr.sari 20 57 30), (0x2404725E, Instr.isetiLt 4 57 94), 
    (0x2484725E, Instr.isetiLe 4 57 94), (0x2504725E, Instr.isetiEq 4 57 94), (0x2584725E, Instr.isetiNe 4 57 94), 
    (0x2604725E, Instr.isetiLtn 4 57 94), (0x2684725E, Instr.isetiLen 4 57 94), (0x27140039, Instr.movi 20 0 57), 
    (0x27940039, Instr.movhi 20 0 57), (0x2814725E, Instr.ldbS 20 57 94), (0x2894725E, Instr.ldbN 20 57 94), 
    (0x2914725E, Instr.ldhS 20 57 94), (0x2994725E, Instr.ldhN 20 57 94), (0x2A14725E, Instr.stb 20 57 94), 
    (0x2A94725E, Instr.sth 20 57 94), (0x2B147303, Instr.shfli 20 57 259), (0x2B9473C3, Instr.bfxi 20 57 451)] = true := by decide +kernel

theorem test_decode_4_1 : decodesAll 32 [
    (0x40737838, Instr.ldw 0 57 94 3 8), (0x4779846B, Instr.ldd 3 60 97 6 11), (0x4B79846B, Instr.ldq 3 60 97 6 11), 
    (0x4F79846B, Instr.ldf 3 60 97 6 11)] = true := by decide +kernel

theorem test_decode_5_1 : decodesAll 32 [
    (0x5379846B, Instr.stw 3 60 97 6 11), (0x567F909E, Instr.std 2 63 100 9 14), (0x5A7F909E, Instr.stq 2 63 100 9 14), 
    (0x5E00FE49, Instr.pref 2 0 63 36 9)] = true := by decide +kernel

theorem test_decode_6_1 : decodesAll 32 [
    (0x613FC889, Instr.ldlw 2 63 100 137), (0x62C2CE8C, Instr.ldld 1 66 103 140), (0x64C2CE8C, Instr.ldlq 1 66 103 140), 
    (0x66C2CE8C, Instr.stlw 1 66 103 140), (0x68C2CE8C, Instr.stld 1 66 103 140), (0x6AC2CE8C, Instr.stlq 1 66 103 140), 
    (0x6CC2CE8C, Instr.ldlb 1 66 103 140), (0x6EC2CE8C, Instr.stlb 1 66 103 140)] = true := by decide +kernel

theorem test_decode_7_1 : decodesAll 32 [
    (0x703B0BC1, Instr.atomAdd32 29 66 3 12 1), (0x714116F4, Instr.atomAdd64 32 69 2 15 4), 
    (0x724116F4, Instr.atomAddf32 32 69 2 15 4), (0x734116F4, Instr.atomMinS32 32 69 2 15 4), 
    (0x744116F4, Instr.atomMinN32 32 69 2 15 4), (0x754116F4, Instr.atomMaxS32 32 69 2 15 4), 
    (0x764116F4, Instr.atomMaxN32 32 69 2 15 4), (0x774116F4, Instr.atomAnd32 32 69 2 15 4), 
    (0x784116F4, Instr.atomOr32 32 69 2 15 4), (0x794116F4, Instr.atomXor32 32 69 2 15 4), 
    (0x7A4116F4, Instr.atomXchg32 32 69 2 15 4), (0x7B4116F4, Instr.atomXchg64 32 69 2 15 4), 
    (0x7C4116F4, Instr.atomCas32 32 69 2 15 4), (0x7D4116F4, Instr.atomCas64 32 69 2 15 4), 
    (0x7E4116F4, Instr.atomIncN32 32 69 2 15 4), (0x7F4116F4, Instr.atomAddbf16x2 32 69 2 15 4)] = true := by decide +kernel

theorem test_decode_8_1 : decodesAll 32 [
    (0x802016AC, Instr.sadd 32 5 42 3 0), (0x806322DB, Instr.ssub 35 8 45 2 3), (0x80A322D8, Instr.smul 35 8 45 2 0), 
    (0x80E322D9, Instr.smulh 35 8 45 2 1), (0x812322D9, Instr.sdiv 35 8 45 2 1), (0x816322D9, Instr.srem 35 8 45 2 1), 
    (0x81A322D8, Instr.sand 35 8 45 2 0), (0x81E322D8, Instr.sor 35 8 45 2 0), (0x822322D8, Instr.sxor 35 8 45 2 0), 
    (0x826322D8, Instr.sshl 35 8 45 2 0), (0x82A322D8, Instr.sshr 35 8 45 2 0), (0x82E322D8, Instr.ssar 35 8 45 2 0), 
    (0x832322D9, Instr.smin 35 8 45 2 1), (0x836322D9, Instr.smax 35 8 45 2 1), (0x838322DB, Instr.ssetLt 3 8 45 2 3), 
    (0x83C322DB, Instr.ssetLe 3 8 45 2 3), (0x840322DB, Instr.ssetEq 3 8 45 2 3), (0x844322DB, Instr.ssetNe 3 8 45 2 3), 
    (0x84A322D8, Instr.ssel 35 8 45 2 0), (0x84C3012C, Instr.qlop 3 0 18 3 0), (0x85232004, Instr.spopc 35 8 0 1 0), 
    (0x85632004, Instr.sclz 35 8 0 1 0), (0x85A32004, Instr.smov 35 8 0 1 0), (0x85E320D8, Instr.vtou 35 8 13 2 0), 
    (0x86230018, Instr.vote 35 0 1 2 0), (0x86632058, Instr.redx 35 8 5 2 0), (0x86A32004, Instr.gets 35 8 0 1 0), 
    (0x86E32004, Instr.puts 35 8 0 1 0), (0x872322D8, Instr.saddc 35 8 45 2 0)] = true := by decide +kernel

theorem test_decode_9_1 : decodesAll 32 [
    (0x9023206D, Instr.saddi 35 8 109), (0x90662C70, Instr.sandi 38 11 112), (0x90A62C70, Instr.sori 38 11 112), 
    (0x90E62C70, Instr.sxori 38 11 112), (0x91262C30, Instr.sshli 38 11 48), (0x91662C30, Instr.sshri 38 11 48), 
    (0x91A62C30, Instr.ssari 38 11 48), (0x91C62C70, Instr.ssetiLt 6 11 112), (0x92062C70, Instr.ssetiEq 6 11 112), 
    (0x92462C70, Instr.ssetiLtn 6 11 112), (0x92A62C70, Instr.smuli 38 11 112)] = true := by decide +kernel

theorem test_decode_a_1 : decodesAll 32 [
    (0xA098004B, Instr.smovi 38 75), (0xA1A4004E, Instr.shi18 41 78), (0xA2A4004E, Instr.sadr 41 78)] = true := by decide +kernel

theorem test_decode_b_1 : decodesAll 32 [
    (0xB020004E, Instr.bra 1 78), (0xB1800051, Instr.br 4 81), (0xB2800051, Instr.brE 4 81), (0xB300002C, Instr.joinat 0 44), 
    (0xB400002C, Instr.call 0 44), (0xB5800051, Instr.loop 4 81), (0xB600002C, Instr.rgnI 0 44), (0xB700002C, Instr.rgnH 0 44)] = true := by decide +kernel

theorem test_decode_c_1 : decodesAll 32 [
    (0xC02C1A4A, Instr.mmaQ 44 1 2 1 0 1 0 10), (0xC0AF450D, Instr.mmaPk 0 47 4 1 0 1 0 0 13), 
    (0xC12F5009, Instr.mzero 0 47 20 0 9), (0xC1AF5009, Instr.cpy 0 47 20 0 9), (0xC22F539E, Instr.cpyr 0 47 20 57 14), 
    (0xC2AF5009, Instr.dispSend 0 47 20 0 0 9), (0xC2AF5019, Instr.dispOpen 0 47 20 0 1 9), 
    (0xC2AF5029, Instr.dispClose 0 47 20 0 2 9), (0xC3000BC0, Instr.cstl 0 47 0 0), (0xC380BD40, Instr.fork 0 47 20 0), 
    (0xC42F0004, Instr.rdv 0 47 0 4), (0xC4AFA99E, Instr.xch 47 84 25 14)] = true := by decide +kernel

theorem test_decode_d_1 : decodesAll 32 [
    (0xD0000000, Instr.join 0), (0xD040C800, Instr.ret 0 50 0), (0xD080C800, Instr.brx 0 50 0), (0xD0C00000, Instr.exit 0), 
    (0xD1000000, Instr.nop 0), (0xD1400000, Instr.yield 0), (0xD1800000, Instr.cmtBr 0), (0xD1C00000, Instr.cmtSv 0), 
    (0xD2000000, Instr.cmtRl 0), (0xD25DF318, Instr.pchk 0 7 0 124 1 70 0), (0xD2995D00, Instr.pclr 50 23 0 1 0), 
    (0xD2F25C00, Instr.side 50 23 0 0), (0xD32C0000, Instr.bar 2 3 0 0), (0xD3500000, Instr.fenceAcq 2 0 0), 
    (0xD3520000, Instr.fenceRel 2 1 0), (0xD3540000, Instr.fenceAr 2 2 0), (0xD3800000, Instr.trig 0), 
    (0xD3C0C800, Instr.tready 0 50 0), (0xD400C800, Instr.twait 0 50 0), (0xD4400000, Instr.svc 0), (0xD4800000, Instr.sret 0), 
    (0xD4C00000, Instr.brk 0), (0xD5325FC8, Instr.harv 50 23 60 1 0), (0xD5725FC0, Instr.tlbiGen 50 23 60 0 0), 
    (0xD5725FC4, Instr.tlbiPage 50 23 60 1 0), (0xD5725FC8, Instr.tlbiHold 50 23 60 2 0), 
    (0xD5725FCC, Instr.tlbiRel 50 23 60 3 0), (0xD5B25FC8, Instr.cwb 50 23 60 1 0), (0xD5F25FC8, Instr.cinv 50 23 60 1 0 0), 
    (0xD6325FC0, Instr.sealClose 50 23 60 0 0), (0xD6325FC8, Instr.sealOpen 50 23 60 1 0), (0xD640C800, Instr.evt 0 50 0)] = true := by decide +kernel

theorem test_decode_d_2 : decodesAll 32 [
    (0xD6B25C00, Instr.waitev 50 23 0), (0xD6F25C00, Instr.launch 50 23 0), (0xD7325FC0, Instr.vacateSave 50 23 60 0 0), 
    (0xD7325FC4, Instr.vacateOpen 50 23 60 1 0), (0xD7325FC8, Instr.vacateKill 50 23 60 2 0), (0xD7725FC0, Instr.dict 50 23 60 0), 
    (0xD7B25FC8, Instr.flushst 50 23 60 1 0), (0xD7F25C00, Instr.hashsw 50 23 0)] = true := by decide +kernel

theorem test_decode_e_1 : decodesAll 32 [
    (0xE12FE216, Instr.sldW 2 23 60 33 6), (0xE2B5FA49, Instr.sldD 1 26 63 36 9), (0xE4B5FA49, Instr.sstW 1 26 63 36 9), 
    (0xE6B5FA49, Instr.sstD 1 26 63 36 9), (0xE86AD7F4, Instr.satomAdd64 0 53 26 127 4), (0xEA6AD7F4, Instr.scas64 0 53 26 127 4), 
    (0xECB5FA49, Instr.sldl 1 26 63 36 9), (0xEEB5FA49, Instr.sstl 1 26 63 36 9)] = true := by decide +kernel

theorem test_decode_code : decodesAll 16 [
    (0xF45A, Instr.dictionaryCode 1 90)] = true := by decide +kernel

theorem test_decode_printed_lane : decodesAll 32 [(0x200307FF, .iaddi 3 3 511), (0x0C020613, .isetLt 2 3 4 3), (0x1F040A11, .cvt 4 5 4 1),
    (0x1E881024, .maxd2 8 8 9 0), (0x2B020384, .shfli 2 1 0x184), (0x50140C40, .stw 0 10 3 4 0), (0x60070410, .ldlw 0 7 2 16),
    (0x7C0C0E20, .atomCas32 6 3 2 2 0), (0x00050C1C, .iadd 5 6 7 0), (0x0F010002, .getl 1 0 0 2), (0x22840202, .shli 4 1 2)] = true := by
  decide +kernel

theorem test_decode_printed_uniform : decodesAll 32 [(0x80051870, .sadd 5 6 7 0 0), (0x80451875, .ssub 5 6 7 1 1), (0x90030FFF, .saddi 3 3 1023),
    (0x86040400, .vote 4 1 0 0 0), (0xB0400040, .bra 2 0x40), (0xB41FFF00, .call 0 0x1FFF00), (0xD040F800, .ret 0 62 0), (0xD30C0000, .bar 0 3 0 0),
    (0xD3640000, .fenceAr 4 2 0), (0xD1C00000, .cmtSv 0), (0xE2104820, .sldD 0 8 9 2 0), (0xA0100800, .smovi 4 0x800), (0xA1100000, .shi18 4 0),
    (0x86810C00, .gets 1 3 0 0 0), (0x92010401, .ssetiEq 1 1 1)] = true := by decide +kernel

theorem test_decode_printed_engines : decodesAll 32 [(0xC0082200, .mmaQ 8 2 0 1 0 0 0 0), (0xC0842200, .mmaPk 0 4 2 0 1 0 0 0 0), (0xC1020C00, .mzero 0 2 3 0 0),
    (0xC1871800, .cpy 0 7 6 0 0), (0xC2071880, .cpyr 0 7 6 8 0), (0xC2871800, .dispSend 0 7 6 0 0 0), (0xC3000050, .cstl 0 1 1 0),
    (0xC3800830, .fork 0 2 3 0), (0xC4080000, .rdv 0 8 0 0), (0xC48A1660, .xch 10 11 6 0)] = true := by decide +kernel

/-- Words of assigned and unassigned opcodes (09 R294 "Worked example"; R278). -/
theorem test_decode_rejects : decodeTableWord 32 0x30000001 = none ∧ decodeTableWord 32 0x0C000000 = some (.isetLt 0 0 0 0)
    ∧ (∃ e, decodeWord 0x30000001 = .error e) ∧ decodeTableWord 16 0xF405 = some (.dictionaryCode 1 5) := by
  refine ⟨by decide +kernel, by decide +kernel, ⟨_, rfl⟩, by decide +kernel⟩

/-! Small states. -/

/-- The state that an outcome answers. -/
def answer (o : Out) : State := match o with | .next t => t | _ => {}

/-- A live lane with register values. -/
def lane (l : List (Nat × Nat)) : Lane := { life := .live, v := l.map (fun e => (e.1, .ok (BitVec.ofNat 32 e.2))) }

/-- Uniform registers with values. -/
def regs (l : List (Nat × Nat)) : Tbl (Val W64) := l.map (fun e => (e.1, .ok (BitVec.ofNat 64 e.2)))

/-- Memory in which ASID 1 maps its addresses to HBM addresses of equal number, with domain 0 over slice 0 and generation 5. -/
def mem1 : Mem :=
  let dom : Tbl W32 := [(0, 0x80000001)]
  let m : Mem := { slices := [(0, { slhm := dom, gens := [(1, 5)] })], dslhm := [(0, dom)], dgen := [(0, [(1, 5)])] }
  ((m.putNum 0 32 8 0x10000).putNum 0 40 8 (1 + 5 * 2 ^ 56)).putNum 0 0x10000 8 0x9002070000000000

/-- The context of a group with these lanes, from lane 0 up, all active. -/
def groupCtx (ls : List Lane) (l : List (Nat × Nat)) : Ctx :=
  { on := true, asid := 1, s := regs l, lanes := (List.range ls.length).zip ls
    splits := [(0, { pc := 0x1000, mask := 2 ^ ls.length - 1 })] }

/-- A state in which the split of a context executes at 0x1000. -/
def inGroup (c : Ctx) : State :=
  { groups := [(0, c)], mem := mem1, cores := [(0, { wgs := [(0, { slots := [0] })] })], cur := ⟨.split 0 0 0, 0x1000, 0x1004, 0x1234⟩
    mf := { slhm := [(0, 0x80000001)] } }

def group (ls : List Lane) (l : List (Nat × Nat)) : State := inGroup (groupCtx ls l)

/-- The same group in supervisor mode. -/
def supGroup (ls : List Lane) (l : List (Nat × Nat)) : State :=
  let c := groupCtx ls l
  inGroup { c with splits := [(0, { pc := 0x1000, mask := 2 ^ ls.length - 1, sup := true })] }

/-- A control-core thread. -/
def ctlAt (l : List (Nat × Nat)) : State :=
  { ctls := [(3, { on := true, asid := 1, s := regs l, splits := [(0, { pc := 0x1000 })] })], mem := mem1
    cur := ⟨.ctl 0 3, 0x1000, 0x1004, 0x1234⟩, mf := { slhm := [(0, 0x80000001)] } }

/-- A Retriever thread that holds lane 3 of group 0, whose home has lane 0 left. -/
def threadAt (x : Lane) (l : List (Nat × Nat)) : State :=
  let c : Ctx := { on := true, asid := 1, s := regs l, lanes := [(3, x)], splits := [(0, { pc := 0x1000, mask := 8 })], lane := 3, moved := true
                   jrec := some 0x1000 }
  let h := groupCtx [lane []] l
  let away : Lane := { life := .ejected 5 }
  { threads := [(5, c)], groups := [(0, { h with lanes := h.lanes ++ [(3, away)] })], mem := mem1
    cores := [(0, { wgs := [(0, { slots := [0] })] })], cur := ⟨.thread 0 5, 0x1000, 0x1004, 0x1234⟩ }

/-- The matrix sequencer of core 0. -/
def seqAt (l : List (Nat × Nat)) : State :=
  { mseqs := [(0, { on := true, asid := 1, s := regs l, splits := [(0, { pc := 0x1000 })] })], mem := mem1
    cores := [(0, { wgs := [(0, { slots := [0], mrun := true })] })], cur := ⟨.mseq 0, 0x1000, 0x1004, 0x1234⟩ }

/-- What lane l holds in register r, and what uniform register r holds, after an instruction. -/
def laneAfter (i : Instr) (s : State) (l r : Nat) : Val W32 := ((answer (exec i s)).me.ln l).rd r
def predAfter (i : Instr) (s : State) (l r : Nat) : Val Bool := ((answer (exec i s)).me.ln l).pr r
def regAfter (i : Instr) (s : State) (r : Nat) : Val W64 := (answer (exec i s)).me.rs r
def flagsAfter (i : Instr) (s : State) : W32 := (answer (exec i s)).me.fpx

/-! Lane instructions: the worked examples of 10. -/

theorem test_iadd_wraps : laneAfter (.iadd 3 1 2 0) (group [lane [(1, 0xFFFFFFFF), (2, 2)]] []) 0 3 = .ok 1 := by decide +kernel
theorem test_iadd_saturates : laneAfter (.iadd 3 1 2 3) (group [lane [(1, 0xFFFFFFFF), (2, 2)]] []) 0 3 = .ok 0xFFFFFFFF := by decide +kernel
theorem test_addc : let s := group [{ lane [(1, 0xFFFFFFFF), (2, 2)] with p := [(7, .ok true)] }] []
    laneAfter (.addc 3 1 2 0) s 0 3 = .ok 2 ∧ predAfter (.addc 3 1 2 0) s 0 7 = .ok true := by decide +kernel
theorem test_bfx : laneAfter (.bfx 3 1 2 0) (group [lane [(1, 0x87654321), (2, 0x0C04)]] []) 0 3 = .ok 0x432 := by decide +kernel
theorem test_bysel : laneAfter (.bysel 3 1 2 0) (group [lane [(1, 0x87654321), (2, 0x8640)]] []) 0 3 = .ok 0x21 := by decide +kernel
theorem test_sar_full : laneAfter (.sar 3 1 2 0) (group [lane [(1, 0x80000000), (2, 32)]] []) 0 3 = .ok 0xFFFFFFFF := by decide +kernel
theorem test_movhi : laneAfter (.movhi 5 85 0x1CD) (group [lane [(5, 0x1234)]] []) 0 5 = .ok 0xABCD1234 := by decide +kernel
theorem test_iset_signs : predAfter (.isetLt 2 1 3 0) (group [lane [(1, 0xFFFFFFFF), (3, 1)]] []) 0 2 = .ok true
    ∧ predAfter (.isetLt 2 1 3 1) (group [lane [(1, 0xFFFFFFFF), (3, 1)]] []) 0 2 = .ok false := by decide +kernel
theorem test_sel_other_poison : let s := group [{ lane [(2, 9)] with v := [(1, .bad 0x0C05), (2, .ok 9)] }] []
    laneAfter (.sel 3 1 2 0) s 0 3 = .ok 9 := by decide +kernel
theorem test_shfli_poison : let s := group ((List.range 8).map (fun l => if l = 6 then { lane [] with v := [(1, .bad 0x0C05)] } else lane [(1, 100 + l)])) []
    (List.range 4).map (fun l => laneAfter (.shfli 2 1 0x184) s l 2) = [.ok 104, .ok 105, .bad 0x0C05, .ok 107] := by decide +kernel
theorem test_maxd2 : let s := group [{ lane [(1, 0x40403F80), (2, 0x40004000)] with dr := .ok 1 }] []
    laneAfter (.maxd2 3 1 2 0) s 0 3 = .ok 0x40404000 ∧ ((answer (exec (.maxd2 3 1 2 0) s)).me.ln 0).dr = .ok 5 := by decide +kernel
theorem test_maxd2_ties : let s := group [{ lane [(2, 0x40004000)] with dr := .ok 5 }] []
    ((answer (exec (.maxd2 4 2 2 0) s)).me.ln 0).dr = .ok 0x14 ∧ flagsAfter (.maxd2 4 2 2 0) s = 0 := by decide +kernel
theorem test_cvt_nearest : laneAfter (.cvt 4 5 4 0) (group [lane [(5, 0x40200000)]] []) 0 4 = .ok 2
    ∧ laneAfter (.cvt 4 5 4 0) (group [lane [(5, 0xC0200000)]] []) 0 4 = .ok 0xFFFFFFFE := by decide +kernel
theorem test_cvt_out_of_range : laneAfter (.cvt 4 5 4 1) (group [lane [(5, 0x4F32D05E)]] []) 0 4 = .ok 0x7FFFFFFF
    ∧ laneAfter (.cvt 4 5 5 1) (group [lane [(5, 0x4F32D05E)]] []) 0 4 = .ok 0xB2D05E00 := by decide +kernel
theorem test_cvtx_ternary : laneAfter (.cvtxEncode 4 5 20 3) (group [lane [(5, 0x10D)]] []) 0 4 = .ok 0x58
    ∧ laneAfter (.cvtxDecode 4 5 20 2) (group [lane [(5, 0x58)]] []) 0 4 = .ok 0x10D := by decide +kernel
theorem test_fadd_inexact : let s := group [lane [(1, 0x3F800000), (2, 0x33000000)]] []
    laneAfter (.fadd 3 1 2 0) s 0 3 = .ok 0x3F800000 ∧ flagsAfter (.fadd 3 1 2 0) s = 1 := by decide +kernel
theorem test_fsqrt : laneAfter (.fsqrt 3 1 0 0) (group [lane [(1, 0x40800000)]] []) 0 3 = .ok 0x40000000 := by decide +kernel
theorem test_frcp_of_zero : laneAfter (.frcp 3 1 0 0) (group [lane [(1, 0x80000000)]] []) 0 3 = .ok 0xFF800000 := by decide +kernel
theorem test_dadd : let s := group [lane [(2, 0), (3, 0x3FF00000), (4, 0), (5, 0x40000000)]] []
    laneAfter (.dadd 6 2 4 0) s 0 7 = .ok 0x40080000 := by decide +kernel
theorem test_hadd2 : laneAfter (.hadd2 3 1 2 0) (group [lane [(1, 0x3F804000), (2, 0x3F803F80)]] []) 0 3 = .ok 0x40004040 := by decide +kernel
theorem test_fset_unordered : predAfter (.fsetLt 1 1 2 0) (group [lane [(1, 0x7FC00000)]] []) 0 1 = .ok false
    ∧ flagsAfter (.fsetLt 1 1 2 0) (group [lane [(1, 0x7FC00000)]] []) = 16 := by decide +kernel

/-! Uniform instructions (11). -/

theorem test_sadd_guard : regAfter (.sadd 3 1 2 0 0) (group [lane []] [(1, 2 ^ 64 - 1), (2, 3)]) 3 = .ok 2
    ∧ regAfter (.sadd 3 1 2 1 0) (group [lane []] [(1, 4), (2, 3)]) 3 = .ok 0 := by decide +kernel
theorem test_sdiv_truncates : regAfter (.sdiv 3 1 2 0 0) (group [lane []] [(1, 2 ^ 64 - 7), (2, 2)]) 3 = .ok (BitVec.ofInt 64 (-3)) := by decide +kernel
theorem test_sdiv_by_zero : (match regAfter (.sdiv 3 1 2 0 0) (group [lane []] [(1, 7)]) 3 with | .bad p => plCause p | .ok _ => 0) = cInvalidOp := by
  decide +kernel
theorem test_saddi_minus : regAfter (.saddi 3 3 1023) (group [lane []] [(3, 5)]) 3 = .ok 4 := by decide +kernel
theorem test_shi18 : regAfter (.shi18 4 0) (group [lane []] [(4, 0x800)]) 4 = .ok 0x20000000 := by decide +kernel
theorem test_vote_ballot : regAfter (.vote 4 1 0 0 0) (group [lane [], { lane [] with p := [(1, .ok true)] }] []) 4 = .ok 2 := by decide +kernel
theorem test_redx_add : regAfter (.redx 4 1 0 0 0) (group [lane [(1, 0xFFFFFFFF)], lane [(1, 3)]] []) 4 = .ok 2 := by decide +kernel
theorem test_s0_discards : regAfter (.smovi 0 5) (group [lane []] []) 0 = .ok 0 := by decide +kernel
theorem test_puts_lc : ((answer (exec (.puts 10 2 0 0 0) (group [lane []] [(2, 2)]))).me.split 0).lc = 2 := by decide +kernel
theorem test_call_links : regAfter (.call 0 0x1FFF00) (group [lane []] []) 62 = .ok 0x1004
    ∧ ((answer (exec (.call 0 0x1FFF00) (group [lane []] []))).me.split 0).pc = 0xE00 := by decide +kernel
theorem test_loop_divides : let p : Lane := { lane [] with p := [(1, .ok true)] }
    let c := groupCtx [p, p, lane [], p] []
    let t := answer (exec (.loop 1 0x1FFFF0) (inGroup { c with splits := [(0, { pc := 0x1000, mask := 15, lc := 2 })] }))
    t.me.splits.map (fun e => (e.2.mask, e.2.lc)) = [(4, 1), (11, 1)] := by decide +kernel
theorem test_exit : ((answer (exec (.exit 0) (group [lane []] []))).me.ln 0).life = .exited := by decide +kernel
theorem test_pchk : let s := group [{ lane [] with v := [(1, .bad 0x0C05)] }] []
    predAfter (.pchk 0 2 0 1 1 3 0) s 0 2 = .ok true ∧ laneAfter (.pchk 0 2 0 1 1 3 0) s 0 3 = .ok 0x0C05 := by decide +kernel
theorem test_unassigned_marks : let r : Rgn := { opn := true }
    let t := answer (exec (.unassignedEncoding 0x30000001) (group [{ lane [] with rgn := r }] []))
    (t.me.ln 0).rgn.p = true ∧ plCause (t.me.ln 0).rgn.recp = 0x0B ∧ (t.me.split 0).pc = 0x1004 := by decide +kernel
theorem test_rgn_opens : let t := answer (exec (.rgnH 0 8) (group [lane []] []))
    (t.me.ln 0).rgn.opn = true ∧ (t.me.ln 0).rgn.start = 0x1004 ∧ (t.me.ln 0).rgn.recov = 0x1010 := by decide +kernel
theorem test_bar_waits : let c := groupCtx [lane [], lane []] []
    ((answer (exec (.bar 0 3 0 0) (inGroup { c with splits := [(0, { pc := 0x1000, mask := 1 })] }))).me.split 0).wait = .bar 0 := by decide +kernel

/-! Memory, matrix and the device. -/

theorem test_home_slice : homeIn [(0, 0x8000FFFF)] 0 0x12 0x40000080 = some 3 ∧ homeIn [(0, 0x8000FF00)] 0 0x12 0x40000080 = some 11 := by
  decide +kernel
theorem test_load_issues : ((answer (exec (.ldw 0 10 3 4 0) (group [lane [(3, 16)]] [(4, 0x2000)]))).opOf (.split 0 0 0)).map (fun o =>
    o.todo.map (fun x => (x.addr, x.size))) = some [(0x2010, 4)] := by decide +kernel
theorem test_load_misaligned : (match laneAfter (.ldw 0 10 3 4 0) (group [lane [(3, 2)]] [(4, 0x2000)]) 0 10 with | .bad p => plCause p | .ok _ => 0)
    = cMisalign := by decide +kernel

/-- A group with two lanes whose atomic stands at slice 0, which has its line; word 0x2000 holds 10. -/
def atomicSent : State :=
  let line : SLine := { asid := 1, gen := 5, line := 64, loc := .hbm 0x2000, slot := 0, data := [(0, 10)] }
  let ent : TEnt := { asid := 1, gen := 5, leaf := ⟨0x9002070000000000, 0, 42, 0, 0⟩, owner := none }
  let t := answer (exec (.atomAdd32 6 3 2 2 0) (group [lane [(6, 1)], lane [(6, 2)]] [(2, 0x2000)]))
  { t with mem := t.mem.updSlice 0 (fun x => { x with lines := [line], tlb := [ent] }) }

theorem test_atomic_order : (match (answer (exec (.sliceAtomic (.split 0 0 0) 0) atomicSent)).groups.map (fun e => (e.2.ln 0, e.2.ln 1)) with
    | [(x, y)] => (x.rd 6, y.rd 6) | _ => (.ok 0, .ok 0)) = (.ok 10, .ok 11) := by decide +kernel

/-- The block of 08 R264 "Worked example": a sum that is exact after truncation to 2^-24, and its tie with C = 2. -/
theorem test_block_sum : blockSum ([0x3F80, 0x3300, 0x3440, 0xB3C0].map (elOf 12)) ([0x3F80, 0x3F80, 0x3F80, 0x3F80].map (elOf 12)) 127 127 = 0x3F800001
    ∧ accF 0x40000000 0x3F800001 = 0x40400000 := by decide +kernel
theorem test_ctl_unassigned : (match regAfter (.unassignedEncoding 7) (ctlAt []) 61 with | .bad p => plCause p | .ok _ => 0) = cIllegalEnc := by decide +kernel
theorem test_launch_bad_address : regAfter (.launch 5 1 0) (ctlAt [(1, 0x20001)]) 5 = .ok 1 := by decide +kernel
theorem test_waitev_waits : (answer (exec (.waitev 4 1 0) (ctlAt []))).blkOf (.ctl 0 3) = some (.waitev 4 0 0) := by decide +kernel
theorem test_user_tlbi_is_prot : (match regAfter (.tlbiGen 5 1 2 0 0) (group [lane []] [(1, 1)]) 5 with | .bad p => plCause p | .ok _ => 0) = cProt := by
  decide +kernel
theorem test_kscmd_slot_zero : (answer (exec (.kscmdLoad 0) State.reset)).mf.ksStat = 1 := by decide +kernel
theorem test_thermal_halves : ((answer (exec (.thermalLimit 1 0 100) State.reset)).die 1).pool = 128 := by decide +kernel
theorem test_pto_reset : State.reset.mf.pto = 1100000 := by decide +kernel
theorem test_reset_canonical : Memory.wf State.reset.mem.hbm = true := by decide +kernel


/-! States and operands that meet the hypotheses of each statement, a witness for each clause. -/

theorem loneOf (s : State) (h : s.me.splits = [(s.cur.act.slot, s.sp)] ∧ s.me.pool = [] ∧ s.cur.act.slot < 4 ∧ s.sp.mask ≠ 0) : s.lone :=
  ⟨h.1, h.2.1, h.2.2.1, fun _ => h.2.2.2⟩

/-- Two lanes, the second with poison, and uniform registers. -/
def two : State :=
  let x : Lane := { lane [(1, 5), (2, 7), (126, 1), (127, 9)] with p := [(1, .ok true), (7, .ok false)] }
  let y : Lane := { lane [(1, 6)] with v := [(1, .ok 6), (2, .bad 0x0C05)], p := [(1, .ok false), (7, .bad 0x0C05)] }
  let c := groupCtx [x, y] [(1, 4), (2, 0), (3, 2 ^ 63), (4, 2 ^ 64 - 1), (63, 0x2001)]
  inGroup { c with q := [(1, .ok true), (2, .bad 0x0C05)], s := Tbl.put c.s 5 (.bad 0x0C05) }

/-- The same with INVP. -/
def twoInv : State := two.setCtx two.cur.act { two.me with fpm := 1 }

theorem witness_LaneIntegerResults : ∃ d rs g, Instr.laneInt (.imad 127 127 0 3) = some (d, rs, g) ∧ (Instr.imad 127 127 0 3).WellFormed
    ∧ two.cur.act.lanes = true ∧ two.quiet := ⟨_, _, _, rfl, by decide +kernel, rfl, rfl⟩
theorem witness_LaneIntegerResults_thread : ∃ d rs g, Instr.laneInt (.movi 127 127 511) = some (d, rs, g)
    ∧ (Instr.movi 127 127 511).WellFormed ∧ (threadAt (lane []) []).cur.act.lanes = true ∧ (threadAt (lane []) []).quiet :=
  ⟨_, _, _, rfl, by decide +kernel, rfl, rfl⟩
theorem witness_LaneCompareResults : ∃ d rs also g, Instr.laneCmp (.isetNe 7 127 0 3) = some (d, rs, also, g) ∧ (Instr.isetNe 7 127 0 3).WellFormed
    ∧ two.cur.act.lanes = true ∧ two.quiet := ⟨_, _, _, _, rfl, by decide +kernel, rfl, rfl⟩
theorem witness_LaneSelectAndCarry : two.cur.act.lanes = true ∧ two.quiet ∧ 3 < 4 := ⟨rfl, rfl, by decide⟩
theorem witness_LaneShuffles : two.cur.act = .split 0 0 0 ∧ two.quiet ∧ 3 < 4 ∧ 511 < 512 ∧ 127 < 128 ∧ two.cur.act.lanes = true :=
  ⟨rfl, rfl, by decide, by decide, by decide, rfl⟩
theorem witness_LaneFpResults : ∃ d rs g, Instr.laneFp (.ffma 127 127 0 3) = some (d, rs, g) ∧ (Instr.ffma 127 127 0 3).WellFormed
    ∧ two.cur.act.lanes = true ∧ two.quiet ∧ two.me.invp = false := ⟨_, _, _, rfl, by decide +kernel, rfl, rfl, by decide +kernel⟩
theorem witness_LaneFp64Results : ∃ d rs g, Instr.laneFp64 (.dfma 127 127 0 3) = some (d, rs, g) ∧ (Instr.dfma 127 127 0 3).WellFormed
    ∧ two.cur.act.lanes = true ∧ two.quiet ∧ two.me.invp = false := ⟨_, _, _, rfl, by decide +kernel, rfl, rfl, by decide +kernel⟩
theorem witness_LaneFpCompares : ∃ c d a b also, Instr.laneFcmp (.fsetNe 7 127 0 3) = some (c, d, a, b, also) ∧ (Instr.fsetNe 7 127 0 3).WellFormed
    ∧ two.cur.act.lanes = true ∧ two.quiet ∧ two.me.invp = false ∧ 3 < 4 := ⟨_, _, _, _, _, rfl, by decide +kernel, rfl, rfl, by decide +kernel, by decide⟩
theorem witness_LaneDecision : two.cur.act.lanes = true ∧ two.quiet ∧ two.me.invp = false := ⟨rfl, rfl, by decide +kernel⟩
theorem witness_LaneConvert : two.cur.act.lanes = true ∧ two.quiet ∧ two.me.invp = false ∧ 127 < 128 ∧ 127 / 16 ≠ 127 % 16 ∧ 119 / 16 = 119 % 16 :=
  ⟨rfl, rfl, by decide +kernel, by decide, by decide, by decide⟩
theorem witness_LanePackedFormats : two.cur.act.lanes = true ∧ two.quiet ∧ two.me.invp = false ∧ packFmt (115 % 32) = true
    ∧ 116 % 32 = 20 ∧ packFmt (127 % 32) = false ∧ 127 % 32 ≠ 20 := by
  and_intros <;> first | decide +kernel | rfl
theorem witness_InvalidPoisons : (∃ fl f bd, Instr.invForm (.fsqrt 127 1 0 3) = some (fl, f, bd)) ∧ (∃ fl f bd, Instr.invForm (.cvt 127 127 4 3) = some (fl, f, bd))
    ∧ (Instr.fsqrt 127 1 0 3).WellFormed ∧ (Instr.cvt 127 127 4 3).WellFormed ∧ twoInv.cur.act.lanes = true ∧ twoInv.quiet ∧ twoInv.me.invp = true :=
  ⟨⟨_, _, _, rfl⟩, ⟨_, _, _, rfl⟩, by decide +kernel, by decide +kernel, rfl, rfl, by decide +kernel⟩

theorem witness_ScalarResults : ∃ d rs g ign f, Instr.uniInt (.sadd 63 63 1 3 3) = some (d, rs, g, ign, f) ∧ (Instr.sadd 63 63 1 3 3).WellFormed
    ∧ two.allows Legal.all (d :: rs) = true ∧ two.quiet ∧ two.takes g = some false := ⟨_, _, _, _, _, rfl, by decide +kernel, by decide +kernel, rfl, by decide +kernel⟩
theorem witness_ScalarResults_seq : ∃ d rs g ign f, Instr.uniInt (.smovi 15 0x3FFFF) = some (d, rs, g, ign, f) ∧ (Instr.smovi 15 0x3FFFF).WellFormed
    ∧ (seqAt []).allows Legal.all (d :: rs) = true ∧ (seqAt []).quiet ∧ (seqAt []).takes g = some true :=
  ⟨_, _, _, _, _, rfl, by decide +kernel, by decide +kernel, rfl, by decide +kernel⟩
theorem witness_ScalarCompares : ∃ d rs g also ign f, Instr.uniCmp (.ssetNe 63 63 1 1 3) = some (d, rs, g, also, ign, f) ∧ (Instr.ssetNe 63 63 1 1 3).WellFormed
    ∧ two.allows Legal.all rs = true ∧ two.quiet ∧ two.takes g = some true := ⟨_, _, _, _, _, _, rfl, by decide +kernel, by decide +kernel, rfl, by decide +kernel⟩
theorem witness_ScalarCompares_forms : two.quiet ∧ 3 < 4 ∧ 63 < 64 ∧ 262143 < 262144 ∧ two.allows Legal.all [63, 63, 63] = true ∧ two.allows Legal.all [] = true
    ∧ two.takes 3 = some false ∧ two.takes 1 = some true ∧ two.allows Legal.all [63] = true := by
  and_intros <;> first | decide +kernel | rfl
theorem witness_ScalarDivision : two.allows Legal.all [63, 1, 4] = true ∧ two.quiet ∧ two.takes 1 = some true ∧ 3 < 4
    ∧ (two.me.rs 3 = .ok (2 ^ 63) ∧ two.me.rs 4 = .ok (2 ^ 64 - 1) ∧ (2 ^ 64 - 1 : W64) ≠ 0 ∧ 3 % 2 = 1)
    ∧ (two.me.rs 1 = .ok 4 ∧ ¬ ((4 : W64).toInt = -(2 ^ 63) ∧ (2 ^ 64 - 1 : W64).toInt = -1)) ∧ firstBad [(two.me.rs 1).pl?, (two.me.rs 5).pl?] = some 0x0C05
    ∧ two.me.rs 2 = .ok 0 ∧ 63 % 64 ≠ 0 ∧ ((2 ^ 63 : W64).toInt = -(2 ^ 63) ∧ (2 ^ 64 - 1 : W64).toInt = -1 ∧ 2 % 2 = 0) := by
  and_intros <;> first | decide +kernel | rfl
theorem witness_CrossLane : two.allows Legal.home [] = true ∧ two.quiet ∧ two.takes 1 = some true ∧ 63 < 64 ∧ 3 < 4 ∧ 60 % 4 = 0 ∧ 63 % 4 ≠ 0 :=
  ⟨by decide +kernel, rfl, by decide +kernel, by decide, by decide, by decide, by decide⟩
theorem witness_SpecialRegisters : two.allows Legal.noSeq [] = true ∧ two.quiet ∧ two.takes 1 = some true ∧ 15 ≤ 63 ∧ 63 < 64
    ∧ two.me.rs 63 = .ok 0x2001 ∧ (8 < 9 ∨ 8 = 12) ∧ 0 ∈ two.active ∧ (∀ j ∈ two.active, 0 ≤ j) ∧ two.cur.act.lanes = true ∧ two.cur.act = .split 0 0 0 := by
  and_intros <;> first | decide +kernel | rfl
theorem witness_PoisonedGuardMarks : ∃ d rs g ign f, Instr.uniInt (.smul 63 63 1 2 3) = some (d, rs, g, ign, f) ∧ (Instr.smul 63 63 1 2 3).WellFormed
    ∧ two.cur.act = .split 0 0 0 ∧ two.quiet ∧ two.takes g = none ∧ ∀ l ∈ two.active, (two.me.ln l).life = .live :=
  ⟨_, _, _, _, _, rfl, by decide +kernel, rfl, rfl, by decide +kernel, by decide +kernel⟩

/-- A control-core thread, and the split of a group, with a loop counter of 2. -/
def ctlLoop : State := (ctlAt [(62, 0x2001)]).updSp (fun x => { x with lc := 2 })
def grpLoop : State := (group [{ lane [(126, 0x3001)] with p := [(1, .ok true)] }, lane [(126, 0x2000)]] []).updSp (fun x => { x with lc := 2 })

theorem witness_Jumps : ctlLoop.quiet ∧ ctlLoop.allows Legal.all [] = true ∧ ctlLoop.me.rq 7 = .ok false ∧ two.me.rq 1 = .ok true
    ∧ two.allows Legal.lane [] = true ∧ ctlLoop.me.rs 62 = .ok 0x2001 ∧ ctlLoop.allows Legal.all [62] = true ∧ (seqAt []).allows Legal.all [15] = true
    ∧ two.sp.lc = 0 ∧ ctlLoop.sp.lc ≠ 0 ∧ ctlLoop.cur.act.lanes = false
    ∧ (let c := ctlLoop.upd (fun c => (c.wq 3 (.bad 5)).ws 9 (.bad 6))
      c.quiet ∧ c.allows Legal.all [9] = true ∧ c.me.rq 3 = .bad 5 ∧ c.me.rs 9 = .bad 6 ∧ c.sp.lc ≠ 0 ∧ c.cur.act.lanes = false) := by
  and_intros <;> first | decide +kernel | rfl
theorem witness_LaneBranches : grpLoop.cur.act.lanes = true ∧ grpLoop.allows Legal.lane [] = true ∧ grpLoop.quiet ∧ grpLoop.cur.act.slot < 4
    ∧ (∀ l ∈ grpLoop.active, (grpLoop.me.ln l).pr 1 = .ok (l == 0)) ∧ grpLoop.allows Legal.home [] = true ∧ (grpLoop.desc grpLoop.cur.act).ejt = 0
    ∧ grpLoop.sp.lc ≠ 0 ∧ grpLoop.lone
    ∧ (∀ l ∈ grpLoop.active, (grpLoop.me.ln l).rd2 (127 - 127 % 2) = .ok (if l = 0 then 0x3001 else 0x2000)) := by
  and_intros <;> first | decide +kernel | rfl | (intro _; decide +kernel)

/-- A group of a grid with EJT 1 and HSET 0x1F; lane 0 takes the branch; the join point is 0x2000. -/
def aGrid : Grid := { tag := 1, home := 0, queue := 0, desc := { tcnt := 3, ejt := 1, hset := 0x1F, tflag := 0x8000, texp := 2 }, started := true }
def ejecting : State :=
  let s := group [{ lane [] with p := [(1, .ok true)] }, lane [], lane []] [(1, 2)]
  let s := s.updSp (fun x => { x with join := some 0x2000 })
  { s with grids := [aGrid], cores := [(0, { wgs := [(0, { slots := [0], grid := 1 })] })] }

theorem witness_Ejection : ejecting.cur.act = .split 0 0 0 ∧ ejecting.sp.sup = false ∧ ejecting.quiet ∧ ejecting.lone
    ∧ (∀ l ∈ ejecting.active, (ejecting.me.ln l).pr 1 = .ok (l == 0)) ∧ ejecting.sp.join ≠ none
    ∧ 1 ≤ (ejecting.active.filter (fun l => (l == 0) == true)).length
    ∧ (ejecting.active.filter (fun l => (l == 0) == true)).length < (ejecting.active.filter (fun l => (l == 0) != true)).length
    ∧ (ejecting.active.filter (fun l => (l == 0) == true)).length ≤ (ejecting.desc ejecting.cur.act).ejt
    ∧ 1 ≤ ((List.range 128).filter (fun t => !(ejecting.ctx (.thread (0 / 64) t)).on)).length := by
  and_intros <;> first | decide +kernel | rfl | (intro _; decide +kernel)

/-- Lane 3 stands at its join point on thread 5, or elsewhere; its home group stands at 0x1000. -/
def joining : State := threadAt { lane [(1, 8)] with p := [(1, .ok true)] } []
def joiningHome : State := { joining with cur := ⟨.split 0 0 0, 0x1000, 0x1004, 0x1234⟩ }

/-- Its home group waits at that JOIN in slot 2. -/
def joinWaits : State :=
  joining.setCtx (.split 0 0 0) { joining.ctx (.split 0 0 0) with splits := [(2, { pc := 0x1004, mask := 1, wait := .join 0x1000 })] }

theorem witness_Join : ((joinWaits.ctx (.split 0 0 0)).split 2).wait = .join joinWaits.cur.pc ∧ ((joinWaits.ctx (.split 0 0 0)).split 2).mask ≠ 0
    ∧ (∀ j < 2, ((joinWaits.ctx (.split 0 0 0)).split j).wait ≠ .join joinWaits.cur.pc) ∧ joinWaits.quiet ∧ joinWaits.cur.act = .thread 0 5
    ∧ joinWaits.me.jrec = some joinWaits.cur.pc ∧ joinWaits.me.core = 0 ∧ joinWaits.me.home = 0
    ∧ (∀ l < 32, l ≠ joinWaits.me.lane → ((joinWaits.ctx (.split 0 0 0)).ln l).life = .live ∨ ((joinWaits.ctx (.split 0 0 0)).ln l).life = .exited) ∧
    joining.quiet ∧ joiningHome.quiet ∧ joiningHome.cur.act = .split 0 0 0 ∧ two.cur.act = .split 0 0 0 ∧ two.quiet
    ∧ (∀ l < 32, ∀ t < 128, (two.me.ln l).life = .ejected t → (two.ctx (.thread (0 / 64) t)).jrec ≠ some two.cur.pc)
    ∧ (3 < 32 ∧ (joiningHome.me.ln 3).life = .ejected 5 ∧ (joiningHome.ctx (.thread (0 / 64) 5)).jrec = some joiningHome.cur.pc)
    ∧ joining.cur.act = .thread 0 5 ∧ joining.me.jrec = some joining.cur.pc
    ∧ (∀ x ∈ (joining.ctx (.split joining.me.core joining.me.home 0)).splits, x.2.wait = .none) ∧ (joining.ctx (.split joining.me.core joining.me.home 0)).pool = []
    ∧ ({ joining with cur := ⟨.thread 0 5, 0x1004, 0x1008, 0⟩ } : State).me.jrec ≠ some 0x1004 := by
  and_intros <;> first | decide +kernel | rfl

/-- A control-core thread of queue 2 whose HEAD wraps, and two ready splits of a group. -/
def queued : State :=
  let s := ctlAt []
  let s := s.setCtx s.cur.act { s.me with queue := 2 }
  s.setDie 0 { s.die 0 with sqd := [(2, BitVec.ofNat 128 (2 ^ 80 + 31 * 2 ^ 20))] }
def twoSplits : State :=
  let s := group [lane [], lane []] []
  s.setCtx s.cur.act { s.me with splits := [(0, { pc := 0x1000, mask := 1 }), (1, { pc := 0x2000, mask := 2 })] }

theorem witness_Exit : (two.quiet ∧ two.allows Legal.all [] = true ∧ two.cur.act = .split 0 0 0 ∧ two.sp.inHandler = false ∧ two.active = [0, 1])
    ∧ (joining.quiet ∧ joining.allows Legal.all [] = true ∧ joining.cur.act = .thread 0 5 ∧ joining.me.lane < 32)
    ∧ (queued.quiet ∧ queued.allows Legal.all [] = true ∧ queued.cur.act = .ctl 0 3 ∧ queued.me.fw = false)
    ∧ ((seqAt []).quiet ∧ (seqAt []).allows Legal.all [] = true ∧ (seqAt []).cur.act = .mseq 0) := by
  and_intros <;> first | decide +kernel | rfl
theorem witness_Exit_yield : twoSplits.quiet ∧ twoSplits.allows Legal.lane [] = true ∧ twoSplits.cur.act.lanes = true ∧ twoSplits.cur.act.slot = 0
    ∧ twoSplits.me.splits = [(0, twoSplits.sp), (1, { pc := 0x2000, mask := 2 })] ∧ twoSplits.me.pool = [] ∧ twoSplits.sp.mask ≠ 0
    ∧ (0x2000 : W64) ≠ twoSplits.cur.npc := by
  and_intros <;> first | decide +kernel | rfl

/-- A group with regions open: lane 0 clean, lane 1 poisoned by a record that is not serviceable. -/
def regions : State :=
  let r : Rgn := { opn := true, start := 0x800, recov := 0x900, seq := 1 }
  group [{ lane [] with rgn := r }, { lane [] with rgn := { r with p := true, nsv := true, recp := 0x0C05 } }] []

theorem witness_RegionOpens : two.cur.act = .split 0 0 0 ∧ two.quiet ∧ (∀ l ∈ two.active, (two.me.ln l).rgn.opn = false) := ⟨rfl, rfl, by decide +kernel⟩
theorem witness_Commits : Instr.commitMode (.cmtSv 7) = some 1 ∧ regions.cur.act = .split 0 0 0 ∧ regions.sp.sup = false ∧ regions.quiet
    ∧ regions.cur.act.slot < 4 ∧ (∀ l ∈ regions.active, (regions.me.ln l).life = .live) ∧ (∀ l ∈ regions.active, (regions.me.ln l).rgn.opn = true)
    ∧ (∀ l ∈ regions.active, (regions.me.ln l).rgn.p = true → (regions.me.ln l).rgn.nsv = true) := by
  and_intros <;> first | decide +kernel | rfl
theorem witness_Commits_without : two.cur.act = .split 0 0 0 ∧ two.sp.sup = false ∧ two.quiet ∧ two.cur.act.slot < 4
    ∧ (∀ l ∈ two.active, (two.me.ln l).life = .live) ∧ (∀ l ∈ two.active, (two.me.ln l).rgn.opn = false) ∧ two.active ≠ [] := by
  and_intros <;> first | decide +kernel | rfl

/-- A lone lane whose REC names a FIRST_TOUCH record of its region, with n permits in use. -/
def touched (n : Nat) : State :=
  let e : Rec := { live := true, serv := true, cause := cFirstTouch, seq := 1, lane := 0, group := 0, wgs := 0 }
  let s := group [{ lane [] with rgn := { opn := true, p := true, rpl := 14, seq := 1, recp := mkPl cFirstTouch 1022 } }] []
  { s with cores := [(0, { wgs := [(0, { slots := [0] })], side := [(1022, e)], permits := n })] }

theorem witness_CommitService (n : Nat) (h : n = 3 ∨ n = 4) : (touched n).cur.act = .split 0 0 0 ∧ (touched n).sp.sup = false ∧ (touched n).quiet
    ∧ (touched n).lone ∧ (touched n).active = [0] ∧ ((touched n).me.ln 0).life = .live ∧ (touched n).me.svc = none
    ∧ ((touched n).core 0).permits = n
    ∧ (let r := ((touched n).me.ln 0).rgn
      let e := ((touched n).core 0).entry (plIdx r.recp)
      r.opn = true ∧ r.p = true ∧ r.nsv = false ∧ r.rpl < 15 ∧ plIdx r.recp < 1023 ∧ e.live = true ∧ e.serv = true ∧ e.stale = false
        ∧ e.cause = cFirstTouch ∧ e.seq = r.seq ∧ e.wgs = (touched n).me.wslot ∧ e.group = (touched n).me.gid ∧ e.lane = 0
        ∧ ((touched n).core 0).side = [(plIdx r.recp, e)]) := by
  rcases h with rfl | rfl <;>
    (and_intros <;> first | decide +kernel | rfl | (intro _; decide +kernel))

theorem witness_PoisonChecks : two.quiet ∧ 127 < 128 ∧ 7 < 8 ∧ 1 ≠ 0 ∧ two.allows Legal.noSeq [] = true ∧ two.cur.act.lanes = true
    ∧ two.allows Legal.lane [] = true ∧ 3 < 4 ∧ (match two.me.rs 5 with | .ok w => w.toNat % 1024 | .bad q => plIdx q) = 5
    ∧ ((touched 3).core ((touched 3).coreOf (touched 3).cur.act)).entry 1022 = { live := true, serv := true, cause := cFirstTouch, seq := 1, lane := 0, group := 0, wgs := 0 } := by
  and_intros <;> first | decide +kernel | rfl
theorem witness_PoisonCleared : two.cur.act = .split 0 0 0 ∧ two.quiet ∧ 128 ≤ 128 := ⟨rfl, rfl, by decide⟩

/-- The last part of a handler, of two lanes; a die with debug on. -/
def handling : State :=
  let s := supGroup [lane [], lane []] []
  s.setCtx s.cur.act { s.me with svc := some { pc := 0x800, cont := 0, replay := 3, recov := 0, recs := [], stage := 3, handler := 7 } }
def debugged : State := two.setDie 0 { two.die 0 with dbgEn := true }

theorem witness_SupervisorAndBreakpoint : two.quiet ∧ two.allows Legal.homeUser [] = true ∧ two.sp.sup = false ∧ two.cur.act = .split 0 0 0
    ∧ (let s := (supGroup [lane []] []).updSp (fun x => { x with ret := some 0x3000 })
      s.quiet ∧ s.allows Legal.lane [] = true ∧ s.sp.sup = true ∧ s.sp.ret = some 0x3000)
    ∧ (handling.quiet ∧ handling.cur.act = .split 0 0 0 ∧ handling.sp.sup = true ∧ handling.sp.ret = none ∧ handling.lone
      ∧ ∃ v, handling.me.svc = some v ∧ without v.handler handling.mask ≠ 0)
    ∧ two.allows Legal.home [] = true ∧ (two.die (two.dieOf two.cur.act)).dbgEn = false
    ∧ debugged.allows Legal.home [] = true ∧ debugged.quiet ∧ (debugged.die (debugged.dieOf debugged.cur.act)).dbgEn = true
    ∧ (debugged.die (debugged.dieOf debugged.cur.act)).haltPack = false := by
  and_intros <;> first | decide +kernel | rfl | exact ⟨_, rfl, by decide +kernel⟩ | (intro _; decide +kernel)
theorem witness_Legality : (Instr.hashsw 63 1 0).WellFormed ∧ Instr.privilegedAt (.hashsw 63 1 0) = some 63 ∧ two.quiet ∧ two.cur.act.lanes = true ∧ two.sp.sup = false
    ∧ 63 % 64 ≠ 0 ∧ (Instr.bar 3 3 3 65535).WellFormed ∧ handling.cur.act = .split 0 0 0 ∧ Instr.userOnly (.bar 3 3 3 65535) = true ∧ handling.sp.sup = true
    ∧ joining.quiet ∧ joining.cur.act = .thread 0 5 ∧ Instr.recalls (.bar 3 3 3 65535) = true
    ∧ (Instr.dict 63 1 2 0).WellFormed ∧ Instr.ctlOnly (.dict 63 1 2 0) = true ∧ two.cur.act.isCtl = false
    ∧ Instr.laneWord (.atomCas64 127 127 3 15 15) = true ∧ (Instr.atomCas64 127 127 3 15 15).WellFormed ∧ (ctlAt []).quiet ∧ (ctlAt []).cur.act.lanes = false
    ∧ Instr.recalls (.rdv 0 1 0 0) = true ∧ Instr.ctlOnly (.rdv 0 1 0 0) = false ∧ (Instr.rdv 0 1 0 0).WellFormed ∧ (ctlAt []).cur.act.isCtl = true := by
  and_intros <;> first | decide +kernel | rfl

/-- A core whose dictionary has the entry 1023. -/
def withDict : State :=
  { two with cores := [(0, { wgs := [(0, { slots := [0] })], dict := some { asid := 1, dicta := 0, dcnt := 1024, words := [(1023, some 0x00050C1C)] } })] }

theorem witness_UnassignedEncoding : regions.quiet ∧ regions.cur.act = .split 0 0 0 ∧ (ctlAt []).quiet ∧ (ctlAt []).cur.act = .ctl 0 3 ∧ (seqAt []).quiet
    ∧ (seqAt []).cur.act = .mseq 0 ∧ withDict.cur.act.isCtl = false ∧ 3 < 4 ∧ 1023 < 1024 ∧ (withDict.core (withDict.coreOf withDict.cur.act)).dict.isSome = true
    ∧ isCode (0x00050C1C / 65536) = false ∧ decodeWord 0x00050C1C = .ok (.iadd 5 6 7 0) ∧ (two.core (two.coreOf two.cur.act)).dict = none := by
  and_intros <;> first | decide +kernel | rfl

/-- A PC beyond 55 bits, of any actor. -/
def strayed (s : State) : State :=
  let t := s.updSp (fun x => { x with pc := 0x80000000000000 })
  { t with cur := { t.cur with pc := 0x80000000000000, npc := 0x80000000000004 } }
def faultOf (s : State) : Option Nat := match (s.fetch s.cur.act s.cur.pc).2 with | .fault f _ => some f.cause | _ => none

theorem witness_FetchFault : (∀ s ∈ [strayed two, strayed regions, strayed joining, strayed (ctlAt []), strayed (seqAt [])],
      faultOf s = some cBounds ∧ s.sp.due = false ∧ s.sp.inHandler = false ∧ s.me.pend = [])
    ∧ (∀ l ∈ (strayed two).active, ((strayed two).me.ln l).life = .live ∧ ((strayed two).me.ln l).rgn.opn = false)
    ∧ (∀ l ∈ (strayed regions).active, ((strayed regions).me.ln l).life = .live ∧ ((strayed regions).me.ln l).rgn.opn = true)
    ∧ servCause (strayed regions).mem (strayed regions).me.asid cBounds false = false := by
  and_intros <;> first | decide +kernel | rfl

/-- Of a workgroup of one group with lanes 0 and 1, the split of the lanes of a mask. -/
def arriving (m : Nat) : State :=
  let s := group [lane [], lane []] [(5, 2), (6, 3)]
  let c := { s.me with lanes := s.me.lanes ++ ((List.range 30).map (fun l => (l + 2, ({ life := .exited } : Lane)))) }
  { s.setCtx s.cur.act { c with splits := [(0, { pc := 0x1000, mask := m })], s := Tbl.put c.s 7 (.bad 0x0C05) } with
    grids := [aGrid], cores := [(0, { wgs := [(0, { slots := [0], grid := 1 })] })] }

theorem witness_Barriers (m : Nat) (h : m = 1 ∨ m = 3) : (arriving m).cur.act = .split 0 0 0 ∧ (arriving m).sp.sup = false ∧ (arriving m).quiet
    ∧ (arriving m).lone ∧ (arriving m).sp.halted = false ∧ (arriving m).me.on = true
    ∧ (m = 1 → (((arriving m).me.ln 1).life ≠ .exited ∧ bit (Tbl.get 0 (arriving m).me.arr 0 ||| (arriving m).mask) 1 = false))
    ∧ (m = 3 → ∀ l < 32, ((arriving m).me.ln l).life ≠ .exited → bit (Tbl.get 0 (arriving m).me.arr 0 ||| (arriving m).mask) l = true)
    ∧ ((arriving m).wgOf (arriving m).cur.act).slots = [0] ∧ ((arriving m).wgOf (arriving m).cur.act).done = false ∧ (arriving m).sp.wait = .none
    ∧ (arriving m).cores.map Prod.fst = [0] ∧ ((arriving m).core 0).wgs.map Prod.fst = [(arriving m).me.wslot]
    ∧ bit ((arriving m).wgOf (arriving m).cur.act).teams.toNat (32 + 3) = false := by
  rcases h with rfl | rfl <;>
    (and_intros <;> first | decide +kernel | rfl | (intro _; decide +kernel))
/-- The same group, alone in its grid's workgroup, which belongs to team 5; and with an arrival pending. -/
def barring (m : Nat) : State :=
  { arriving m with
    grids := [{ aGrid with desc := { aGrid.desc with w := 1, dmask := 1 }, teamCnt := [(5, 1)] }]
    cores := [(0, { wgs := [(0, { slots := [0], grid := 1, teams := 5 + 2 ^ 32 })] })] }
def arrived1 : State := (barring 1).upd (fun c => { c with arr := [(21, 1)] })

theorem witness_Barriers_scopes (m : Nat) (h : m = 1 ∨ m = 3) : (barring m).cur.act = .split 0 0 0 ∧ (barring m).sp.sup = false ∧ (barring m).quiet
    ∧ (barring m).lone ∧ (barring m).sp.halted = false ∧ (barring m).me.on = true ∧ (barring m).sp.wait = .none
    ∧ bit ((barring m).wgOf (barring m).cur.act).teams.toNat 32 = true ∧ 16 + ((barring m).wgOf (barring m).cur.act).teams.toNat / 2 ^ (8 * 0) % 2 ^ 8 = 21
    ∧ ((barring m).mem.release 0 4).2 = []
    ∧ (m = 1 → ((barring m).me.ln 1).life ≠ .exited ∧ bit (Tbl.get 0 (barring m).me.arr 21 ||| (barring m).mask) 1 = false
      ∧ (barring m).barDone 0 ((barring m).wgOf (barring m).cur.act) 21 = false ∧ Tbl.get 0 (barring m).me.arr 21 &&& (barring m).mask = 0
      ∧ Tbl.get 0 arrived1.me.arr 21 &&& arrived1.mask ≠ 0)
    ∧ (m = 3 → ∀ l < 32, ((barring m).me.ln l).life ≠ .exited → bit (Tbl.get 0 (barring m).me.arr 21 ||| (barring m).mask) l = true)
    ∧ ((barring m).wgOf (barring m).cur.act).slots = [0] ∧ ((barring m).wgOf (barring m).cur.act).done = false
    ∧ (barring m).cores.map Prod.fst = [0] ∧ ((barring m).core 0).wgs.map Prod.fst = [(barring m).me.wslot]
    ∧ ((barring m).gridAt ((barring m).wgOf (barring m).cur.act).grid).map (fun g => (g.dieTotal 0, Tbl.get 0 g.teamCnt 5)) = some (1, 1) := by
  rcases h with rfl | rfl <;>
    (and_intros <;> first | decide +kernel | rfl | (intro _; decide +kernel))
theorem witness_Fences : Instr.fenceKind (.fenceAr 7 3 131071) = some (2, 7) ∧ Instr.fenceKind (.fenceRel 0 1 0) = some (1, 0) ∧ (Instr.fenceAr 7 3 131071).WellFormed
    ∧ (Instr.fenceRel 0 1 0).WellFormed ∧ two.allows Legal.all [] = true ∧ two.quiet ∧ two.cur.act.isCtl = false := by
  and_intros <;> first | decide +kernel | rfl
theorem witness_TileFlags : (let s := arriving 3
    s.cur.act = .split 0 0 0 ∧ s.sp.sup = false ∧ s.quiet ∧ s.lone ∧ s.me.on = true ∧ s.me.trigd = false ∧ (s.upd (fun c => { c with trigd := true })).me.trigd = true
      ∧ s.active ≠ [] ∧ (∀ l ∈ s.active, (s.me.ln l).life ≠ .exited)
      ∧ (∀ l < 32, (s.me.ln l).life ≠ .exited → bit (s.me.trig ||| s.mask) l = true) ∧ s.me.rs 7 = .bad 0x0C05
      ∧ s.me.rs 6 = .ok 3 ∧ (s.desc s.cur.act).tcnt ≤ 3 ∧ s.me.rs 5 = .ok 2 ∧ 2 < (s.desc s.cur.act).tcnt ∧ s.mem.lines1 0 = [] ∧ (s.desc s.cur.act).tflag % 4 = 0
      ∧ (match (s.mem.updG (s.who s.cur.act) s.me.asid ((s.desc s.cur.act).tflag + 8) 4 (fun x => (x + 1) % 2 ^ 32)).2 with | .ok x => x == 0 | .error _ => false) = true
      ∧ (match (s.mem.readG (s.who s.cur.act) s.me.asid ((s.desc s.cur.act).tflag + 8) 4 0).2 with | .ok x => x == 0 | .error _ => false) = true) := by
  and_intros <;> first | decide +kernel | rfl | (intro _; decide +kernel)

/-- A group of a workgroup with views of all four spaces; lane 1 alone, or lanes 1 and 3, are active; registers and uniform registers address
HBM at 0x10000 and its scratchpad, and v4 to v7 hold the operands of a row. -/
def arena (m : Nat) : State :=
  let wg : Wg := { grid := 1, slots := [0], alloc := [4, 0, 0, 0]
                   views := [(0, { en := true, nfr := 1, front := 1 }), (16, { en := true }), (32, { en := true, nfr := 7 }), (48, { en := true, shd := true, shadow := 1 })] }
  let word := 12 * 2 ^ 27 + 12 * 2 ^ 22
  let x : Lane := lane [(4, 0x40), (5, 0x80), (6, word), (7, 0x7F7F7F7F), (8, 0x20), (120, 0x10000), (126, 0x10000), (127, 0)]
  let c : Ctx := { on := true, asid := 1, lanes := [(0, x), (1, x), (2, x), (3, x)], splits := [(0, { pc := 0x1000, mask := m })]
                   s := regs [(1, 0x10000), (2, 0x40), (3, 2), (4, 0), (5, 0), (6, word), (7, 2 ^ 63), (15, 2 ^ 55 - 128), (63, 2 ^ 55 - 128)] }
  let s := inGroup c
  { s with cores := [(0, { wgs := [(0, wg)] })], grids := [{ tag := 1, home := 0, queue := 0, desc := { w := 4, t := 33 }, started := true }] }

theorem arena_bare (m : Nat) (h : m = 2 ∨ m = 10) : (arena m).bare := by
  rcases h with rfl | rfl <;> (and_intros <;> first | decide +kernel | rfl)

theorem witness_AccessesIssue : Instr.reach (.ldw 3 127 127 63 15) = some (.read, 4, indexed 63 127) ∧ Instr.reach (.stw 3 127 127 63 0) = some (.bypass, 4, indexed 63 127)
    ∧ Instr.reach (.atomCas64 124 127 0 15 0) = some (.probe, 8, indexed 15 127) ∧ Instr.reach (.atomCas64 124 127 3 15 0) = some (.atomic, 8, indexed 15 127)
    ∧ (Instr.ldw 3 127 127 63 15).WellFormed ∧ (Instr.atomCas64 124 127 3 15 0).WellFormed
    ∧ (arena 10).cur.act = .split 0 0 0 ∧ (arena 10).quiet ∧ (arena 10).me.memops = [] ∧ (arena 10).bare ∧ (arena 10).active = [1, 3]
    ∧ (∀ j ∈ (arena 10).active, ∀ r < 128, (((arena 10).me.ln j).rd r).pl? = none)
    ∧ (∀ b ∈ [15, 63], ∀ j ∈ (arena 10).active, indexed b 127 (arena 10).me ((arena 10).me.ln j) = .ok (2 ^ 55 - 128)) ∧ (2 ^ 55 - 128) % 8 = 0 := by
  and_intros <;> first | decide +kernel | rfl | exact arena_bare _ (.inr rfl)

/-- The same with the line at 0x10000 in the L1. -/
def cached : State :=
  let s := arena 2
  { s with mem := s.mem.setLines1 0 [{ asid := 1, gen := 5, line := 512, valid := 15, cls := 1, data := [(0, 0x80), (1, 0xFF)] }] }
def served (s : State) (ea n : Nat) : Bool :=
  match s.mem.look1 0 s.me.asid (ea / 128) with
  | (m, some y) => m == s.mem && y.has (ea % 128) n && !y.bad (ea % 128) n
  | _ => false

theorem witness_LoadResults : Instr.load (.ldq 3 127 127 1 15) = some (124, 16, 0, 15, indexed 1 127) ∧ (Instr.ldq 3 127 127 1 15).WellFormed ∧ 124 + wordsOf 16 ≤ 128
    ∧ Instr.load (.ldhS 127 126 0x1F0) = some (127, 2, 16, 0, paired 126 0x1F0)
    ∧ cached.cur.act = .split 0 0 0 ∧ cached.quiet ∧ cached.me.memops = [] ∧ cached.active = [1] ∧ cached.lone ∧ (cached.core 0).quar = []
    ∧ (cached.me.ln 1).life = .live ∧ indexed 1 127 cached.me (cached.me.ln 1) = .ok 0x10000 ∧ 0x10000 % 16 = 0 ∧ served cached 0x10000 16 = true
    ∧ indexed 3 127 cached.me (cached.me.ln 1) = .ok 2 ∧ indexed 7 127 cached.me (cached.me.ln 1) = .ok (2 ^ 63)
    ∧ indexed 5 1 two.me (two.me.ln 1) = .error 0x0C05 := by
  and_intros <;> first | decide +kernel | rfl | (intro _; decide +kernel)
theorem witness_FormatLoadIssues : (arena 10).cur.act = .split 0 0 0 ∧ (arena 10).quiet ∧ (arena 10).me.memops = [] ∧ (arena 10).active = [1, 3]
    ∧ (arena 10).me.rs 63 = .ok (2 ^ 55 - 128) ∧ (∀ j ∈ (arena 10).active, (((arena 10).me.ln j).rd 127).pl? = none) := by
  and_intros <;> first | decide +kernel | rfl

/-- A local address resolves, and its sector is the group's, without an undetected error, and clean. -/
def local? (s : State) (sc la n : Nat) : Bool :=
  match s.laddr s.cur.act sc la n with
  | .ok p => let o := s.mem.osecAt p.core (ocKey p.sp p.byte / 32)
    o.tag == s.owner s.cur.act && o.ecc == none && !o.bad p.sp (ocKey p.sp p.byte) n
  | .error _ => false
def localFault (s : State) (sc la n : Nat) : Option Nat := match s.laddr s.cur.act sc la n with | .ok _ => none | .error f => some f.cause

theorem witness_LocalAccesses : Instr.localForm (.ldlq 3 127 8 0x1F0) = some (true, 3, 124, 16, 8, 0x1F0) ∧ (Instr.ldlq 3 127 8 0x1F0).WellFormed ∧ 124 + wordsOf 16 ≤ 128
    ∧ Instr.localForm (.stlb 1 127 8 0) = some (false, 1, 127, 1, 8, 0) ∧ (arena 2).cur.act = .split 0 0 0 ∧ (arena 2).quiet ∧ (arena 2).me.memops = []
    ∧ (arena 2).active = [1] ∧ (arena 2).lone ∧ (arena 2).bare ∧ ((arena 2).me.ln 1).rd 8 = .ok 0x20
    ∧ (∀ k < 4, (((arena 2).me.ln 1).rd (124 + k)).pl? = none)
    ∧ local? (arena 2) 0 0x20 16 = true ∧ local? (arena 2) 2 0x20 16 = true ∧ local? (arena 2) 3 0x10 16 = true
    ∧ localFault (arena 2) 3 0x2F 16 = some cMisalign ∧ localFault (arena 2) 0 0xFFFFFFF0 16 = some cBounds := by
  and_intros <;> first | decide +kernel | rfl | exact arena_bare _ (.inl rfl) | (intro _; decide +kernel)

/-- A control core over mapped memory. -/
def ctlMem : State := ctlAt [(1, 0x10000), (2, 7), (3, 0x10004)]
def readable (s : State) (ea n : Nat) : Bool := match (s.mem.readG (s.who s.cur.act) s.me.asid ea n 0).2 with | .ok _ => true | .error _ => false

theorem witness_ScalarAccesses : (arena 2).quiet ∧ (arena 2).me.memops = [] ∧ (arena 2).me.rs 1 = .ok 0x10000 ∧ 63 < 64 ∧ 3 < 4
    ∧ ((0x10000 : W64) + (BitVec.ofNat 7 127).signExtend 64 * 8).toNat = 0xFFF8 ∧ 0xFFF8 % 8 = 0
    ∧ (arena 2).cur.act = .split 0 0 0 ∧ (arena 2).bare ∧ (arena 2).lone ∧ (arena 2).active ≠ [] ∧ ((arena 2).me.rs 63).pl? = none ∧ ((arena 2).me.rs 62).pl? = none
    ∧ (arena 2).me.rs 2 = .ok 0x40 ∧ local? (arena 2) 3 0x38 8 = true ∧ (arena 2).me.rs 63 = .ok (2 ^ 55 - 128)
    ∧ ctlMem.quiet ∧ ctlMem.me.memops = [] ∧ ctlMem.cur.act = .ctl 0 3 ∧ ctlMem.me.rs 1 = .ok 0x10000 ∧ ctlMem.me.rs 2 = .ok 7 ∧ readable ctlMem 0xFFF8 8 = true
    ∧ (ctlMem.mem.writeG (ctlMem.who ctlMem.cur.act) ctlMem.me.asid 0xFFF8 8 7 0 0).2 = none ∧ ctlMem.me.rs 3 = .ok 0x10004 := by
  and_intros <;> first | decide +kernel | rfl | exact arena_bare _ (.inl rfl) | (intro _; decide +kernel)

/-! Matrix and engines. -/

theorem witness_IntegerPass : ∃ p : Pass, intArr (pwAf p.word) = true ∧ p.sat = false ∧ 2 ^ 32 - 1 < 2 ^ 32 ∧ p.w.core = 0 :=
  ⟨{ rows := [], word := 0x00400000, w := ⟨0, 0, 3, 0, 0, 0, false⟩, tokens := 4 }, by decide +kernel, rfl, by decide, rfl⟩

/-- The matrix sequencer of the same workgroup. -/
def arenaSeq : State :=
  let s := arena 2
  { s with mseqs := [(0, { on := true, asid := 1, s := s.me.s, splits := [(0, { pc := 0x1000 })] })], cur := ⟨.mseq 0, 0x1000, 0x1004, 0x1234⟩ }
def isOk {α β : Type} (r : Except α β) : Bool := match r with | .ok _ => true | .error _ => false

theorem witness_MatrixIssue : (arena 10).quiet ∧ (arena 10).cur.act = .split 0 0 0
    ∧ (let f := (arena 10).formQ (arena 10).cur.act (arena 10).mask 7 0 0 0 true true; f.faults = [] ∧ f.marks = [] ∧ f.passes.length = 1)
    ∧ (let s := (arena 10).updWg 0 0 (fun w => { w with pkN := 1 })
      Tbl.get 0 s.me.counts 3 + 1 ≤ (s.wgOf s.cur.act).pkN ∧ (s.wgOf s.cur.act).pk = [])
    ∧ ((arena 10).wgOf (arena 10).cur.act).pkN < Tbl.get 0 (arena 10).me.counts 3 + 1
    ∧ isOk ((arena 10).formPk (arena 10).cur.act (7 - 7 % 4) 0 0 0 false false).2.2 = true ∧ (arena 10).lone ∧ (arena 10).sp.pc = (arena 10).cur.pc ∧ (arena 10).sp.wait = .none
    ∧ ((arena 10).wgOf (arena 10).cur.act).pk = []
    ∧ (arena 10).me.rs 2 = .ok 0x40 ∧ (arena 10).me.rs 3 = .ok 2 ∧ (arena 10).me.rs 0 = .ok 0 ∧ isOk ((arena 10).localRun (arena 10).cur.act 3 0x40 4 8) = true
    ∧ arenaSeq.quiet ∧ arenaSeq.cur.act = .mseq 0 ∧ 7 - 7 % 4 < 16 ∧ isOk (arenaSeq.formBlock arenaSeq.cur.act none (7 - 7 % 4) 0 0 0 false false).2.2 = true := by
  and_intros <;> first | decide +kernel | rfl | (intro _; decide +kernel)

/-- A queued MZERO of two elements at 0x40, and a request for 4 tokens. -/
def queuedPass : State := answer (exec (.mzero 0 2 3 0 0) (arena 10))
def asking (used : Nat) : State :=
  let s := arena 10
  let s := s.setCtx s.cur.act { s.me with tok := .asked, tokN := 4 }
  s.setDie 0 { s.die 0 with ptq := [(s.cur.act, 4)], used := used }

theorem witness_MatrixCompletes : (match (queuedPass.core 0).mq with
      | [o] => match o.passes with
        | [p] => p.zero == some 2 && (match p.rows with
          | [x] => decide (x.c.byte % 4 = 0) && (List.range 2).all (fun k => (queuedPass.mem.osecAt x.c.core (ocKey 2 (x.c.byte + 4 * k) / 32)).tag == o.owner)
          | _ => false)
        | _ => false
      | _ => false) = true
    ∧ ((arena 10).core 0).mq = []
    ∧ (∀ u, u = 252 ∨ u = 253 → ((asking u).die 0).ptq = [(.split 0 0 0, 4)] ∧ ((asking u).wgOf (.split 0 0 0)).pk = [] ∧ ((asking u).ctx (.split 0 0 0)).tok = .asked
      ∧ ((asking u).die 0).used = u ∧ max 64 ((asking u).die 0).pool = 256) := by
  refine ⟨by decide +kernel, by decide +kernel, ?_⟩
  rintro u (rfl | rfl) <;> decide +kernel
theorem witness_EnginesIssue : Instr.collective (.cpyr 1 63 63 63 15) = some (1, 63, 15, [63, 62, 63]) ∧ (Instr.cpyr 1 63 63 63 15).WellFormed
    ∧ (arena 10).cur.act = .split 0 0 0 ∧ (arena 10).quiet ∧ (∀ r ∈ [63, 62, 63], ((arena 10).me.rs r).pl? = none)
    ∧ (arena 10).allows { ctl := false, thread := false } [] = true
    ∧ (let s := (arena 10).updSp (fun x => { x with blk := some (.cstl 3 1) })
      (s.ctx (.split 0 0 0)).on = true ∧ s.blkOf (.split 0 0 0) = some (.cstl 3 1) ∧ ((s.ctx (.split 0 0 0)).split 0).also = [] ∧ (s.wgOf (.split 0 0 0)).ops = []) := by
  and_intros <;> first | decide +kernel | rfl

/-- A workgroup whose operation has the one arrival of its group, which named u; its status goes to s63. -/
def arrived (i : Instr) (kind u : Nat) (q : Option Disp) : State :=
  let s := arena 2
  let v : Arrival := { act := .split 0 0 0, a := .ok (BitVec.ofNat 64 u), mask := 2, hid := 4, sup := false }
  let o : CopyOp := { ins := i, kind := kind, epi := 1, pc := 0x1000, word := 0, arr := [v], reserved := false, seqr := false, disp := q }
  let s := s.setCtx s.cur.act { s.me with pend := [(4, { regs := [63], uni := true, win := [(32, 0)] })] }
  let s := s.updWg 0 0 (fun w => { w with ops := [o] })
  { s with mem := { (s.mem.putNum 0 0x1000008 8 (2 ^ 63 + 9 * 2 ^ 48 + 8 * 2 ^ 32 + 1 * 2 ^ 16)) with peerb := 0x100 } }
def whole? (s : State) (u : Nat) : Bool :=
  match s.opAt 0 0 0 with
  | some o => s.opWhole 0 0 o && (match o.arr with | [v] => v.act == .split 0 0 0 && v.a == .ok (BitVec.ofNat 64 u) && (s.ctx v.act).wslot == 0 | _ => false)
  | none => false
def awaits? (s : State) : Bool := (s.ctx (.split 0 0 0)).pend == [(4, { regs := [63], uni := true, win := [(32, 0)] })]
def dispOf (sends : List (Nat × Nat × Nat × Nat)) : Disp := { tsrc := 0, tstr := 0, ndst := 1, tsz := 0, tsp := 0, dests := [(1, 5)], sends := sends }
def leader : Arrival := { act := .split 0 0 0, a := .ok 0, mask := 2, hid := 4, sup := false }

theorem witness_EnginesComplete_copy : let s := arrived (.cpy 0 63 1 0 0) 0 0 none
    whole? s 0 = true ∧ awaits? s = true ∧ (match s.localDesc (s.opEng leader) 0 160 with
      | (s1, .ok x) => match s1.copyGo (s.opEng leader) x false with
        | (s2, _, none) => awaits? s2 && s2.core 0 == s1.core 0 && s1.core 0 == s.core 0 && decide ((CDesc.parse x).dsp < 3)
        | _ => false
      | _ => false) = true := by decide +kernel
theorem witness_EnginesComplete_fault : let s := arrived (.cpy 0 63 1 0 0) 0 4 none
    whole? s 4 = true ∧ awaits? s = true ∧ isOk (s.localDesc (s.opEng leader) 4 160).2 = false := by decide +kernel
theorem witness_EnginesComplete_peer : let s := arrived (.cpyr 0 63 1 2 0) 1 0 none
    whole? s 0 = true ∧ awaits? s = true ∧ (match s.peerCopy { leader with b := 1 } (fun _ => none) with
      | (s1, .ok _) => awaits? s1 && s1.core 0 == s.core 0
      | _ => false) = true := by decide +kernel
theorem witness_EnginesComplete_send : (let s := arrived (.dispSend 0 63 1 0 0 0) 2 0 (some (dispOf []))
    whole? s 0 = true ∧ awaits? s = true ∧ (dispOf []).retry = [] ∧ (dispOf []).stop = none)
    ∧ (let q := dispOf [(0, 3, 0, 7)]
      let s := arrived (.dispSend 0 63 1 0 0 0) 2 0 (some q)
      whole? s 0 = true ∧ awaits? s = true ∧ q.dests[0]? = some (1, 5) ∧ (s.payload (s.opEng leader) q 3).1 = s
        ∧ (match (s.payload (s.opEng leader) q 3).2 with | .ok x => x == (0, 0) | .error _ => false) = true
        ∧ s.peerOf (s.opEng leader).asid 1 = .dev 9 8) := by decide +kernel
theorem witness_EnginesComplete_buffer : (let b : Buf := { asid := 1, base := 0x10000, donea := 0x20000, cap := 4, slot := 32 }
    let s : State := { arrived (.dispClose 0 63 1 0 2 0) 2 0xFF none with bufs := [(0xFF, b)] }
    whole? s 0xFF = true ∧ awaits? s = true ∧ Tbl.find s.bufs (0xFF % 256) = some b ∧ b.asid = (s.ctx (.split 0 0 0)).asid)
    ∧ (let s := arrived (.dispOpen 0 63 1 0 1 0) 2 0 none
      whole? s 0 = true ∧ awaits? s = true ∧ (match s.localDesc (s.opEng leader) 0 32 with
        | (s1, .ok x) => decide (s1 = s) && decide (fld x 0 72 = 0) && decide (Tbl.find s.bufs (fld x 72 8) = none)
        | _ => false) = true) := by decide +kernel
theorem witness_EnginesComplete_waits : (let s := (arrived (.cpy 0 63 1 0 0) 0 0 none).updWg 0 0 (fun w => { w with ops := w.ops.map (fun o => { o with arr := [] }) })
    (s.opAt 0 0 0).isSome = true ∧ (s.opAt 0 0 0).any (fun o => !s.opWhole 0 0 o) = true) := by decide +kernel

theorem witness_EnginesComplete_start : (∀ q ∈ [dispOf [], dispOf [(0, 3, 0, 7)]], let s := arrived (.dispSend 0 63 1 0 0 0) 2 0 (some q)
      whole? s 0 = true ∧ awaits? s = true ∧ q.stop = none
        ∧ (match s.opAt 0 0 0 with | some o => decide ((s.dispStart leader o).2.disp = some q) | none => false) = true)
    ∧ (dispOf []).next = none ∧ (dispOf [(0, 3, 0, 7)]).next ≠ none
    ∧ (let s := arrived (.dispSend 0 63 1 0 0 0) 2 4 none
      whole? s 4 = true ∧ awaits? s = true ∧ (match s.opAt 0 0 0 with
        | some o => match o.arr with | [v] => ((s.dispStart v o).2.disp.bind Disp.stop).isSome | _ => false
        | none => false) = true) := by decide +kernel

/-- An RDV of the group waits for s63, with a sequencer running or not; an exchange waits for its partner. -/
def meeting (run : Bool) : State :=
  let s := arena 2
  let s := s.setCtx s.cur.act { s.me with pend := [(4, { regs := [63], uni := true, win := [(32, 0)] })] }
  s.updWg 0 0 (fun w => { w with rdv := [(0, 4)], mrun := run })
def exchanging : State :=
  let s := arena 2
  let x : Xch := { pack := 1, member := 0, gid := 0, k := 1, mask := 2, hid := 4, pc := 0x1000, vals := [] }
  s.setCtx s.cur.act { s.me with xch := [x], pend := [(4, { regs := [127], uni := false, win := [(1, 0)] })] }
/-- The exchanging group's partner is itself, or a group of a workgroup that is not resident. -/
def partner (w : Nat) : State := let s := arena 2; s.setCtx s.cur.act { s.me with s := regs [(5, w)] }

theorem witness_ProgramsAndExchanges : (arena 2).cur.act = .split 0 0 0 ∧ (arena 2).quiet ∧ (arena 2).seqIdle 0 = true ∧ arenaSeq.seqIdle 0 = false
    ∧ ({ arenaSeq with cur := (arena 2).cur } : State).quiet
    ∧ (arena 2).me.rs 1 = .ok 0x10000 ∧ (arena 2).me.rs 0 = .ok 0 ∧ 63 < 64 ∧ (arena 2).seqBusy 0 (arena 2).me.wslot = false ∧ ((arena 2).wgOf (arena 2).cur.act).rdv = []
    ∧ (∀ r, (Tbl.get ({} : Wg) ((meeting r).core 0).wgs 0).rdv = [(0, 4)] ∧ awaits? (meeting r) = true ∧ (meeting r).seqBusy 0 0 = r) :=
  ⟨rfl, rfl, by decide +kernel, by decide +kernel, rfl, by decide +kernel, by decide +kernel, by decide, by decide +kernel, by decide +kernel,
    by intro r; cases r <;> decide +kernel⟩
theorem witness_ProgramsAndExchanges_xch : (let s := partner (2 ^ 32)
    s.cur.act = .split 0 0 0 ∧ s.quiet ∧ s.me.rs 5 = .ok (2 ^ 32) ∧ 127 < 128 ∧ s.me.xch = [] ∧ (s.desc s.cur.act).hasGroup 1 0 0 = true
      ∧ (s.gridAt (s.wgOf s.cur.act).grid).isSome = true ∧ s.groupNamed (s.wgOf s.cur.act).grid 1 0 0 = none)
    ∧ (let s := partner 0
      s.quiet ∧ s.me.rs 5 = .ok 0 ∧ s.me.xch = [] ∧ (s.desc s.cur.act).hasGroup 0 0 0 = true ∧ (s.gridAt (s.wgOf s.cur.act).grid).isSome = true
      ∧ s.groupNamed (s.wgOf s.cur.act).grid 0 0 0 = some (0, 0) ∧ s.me.gid = 0 ∧ (s.wgOf s.cur.act).w / 2 ^ (s.desc s.cur.act).nlog = 0)
    ∧ ((arena 2).ctx (.split 0 0 0)).xch = [] ∧ (exchanging.ctx (.split 0 0 0)).xch.map Xch.hid = [4]
    ∧ (exchanging.ctx (.split 0 0 0)).pend = [(4, { regs := [127], uni := false, win := (lanesOf 2).map (fun l => (l, 0)) })] := by
  and_intros <;> first | decide +kernel | rfl

/-! Translation, ranges, seals. -/

/-- A control-core thread with some registers; another instruction of it that is held. -/
def ctlX : State := ctlAt [(1, 0x20000), (2, 1), (3, 0x20008), (4, 2 ^ 55), (5, 1), (6, 0x30000), (7, 0x30001), (8, 2), (9, 0x10000)]
def soleBlk (s : State) (a : Actor) (b : Blk) : Bool :=
  (s.blocked (fun _ => true)).contains (a, b) && s.blkOf a == some b && ((s.ctx a).split a.slot).also == []
def heldBy (b : Blk) : State := ctlX.updSp (fun x => { x with blk := some b })

theorem witness_TranslationForms : ctlX.mayRun ∧ ctlX.me.rs 1 = .ok 0x20000 ∧ ctlX.me.rs 2 = .ok 1 ∧ 63 < 64 ∧ ctlX.mayName 1 = true
    ∧ (ctlX.me.rs 3 = .ok 0x20008 ∧ 0x20008 % 16 ≠ 0) ∧ (populated 0x20000 = true ∧ (ctlX.mem.key (ctlX.mem.harvSlot 1 1)).revoked = false ∧ ctlX.mem.secFault (0x20000 / 32) = none)
    ∧ (2 ^ 55 % 16 = 0 ∧ isOk (ctlX.mem.tblEntry (ctlX.mem.harvSlot 1 1) (2 ^ 55)) = false) ∧ (populated 40 = true ∧ ctlX.mem.secFault (40 / 32) = none)
    ∧ isOk (({ ctlX.mem with ctxb := 2 ^ 40 - 1 } : Mem).ctxWord 1 1) = false
    ∧ (ctlX.me.rs 8 = .ok 2 ∧ ctlX.mayName 2 = false)
    ∧ (match ctlX.mem.ctxWord 1 1 with | .ok w => decide (w / 2 ^ 56 % 256 ≠ 255) | .error _ => false) = true
    ∧ ctlX.invals = [] ∧ (ctlX.me.rs 4 = .ok (2 ^ 55))
    ∧ ctlX.cur.act.isCtl = true ∧ ctlX.me.fw = false ∧ (1 ≠ ctlX.mem.dom ctlX.me.asid) ∧ 0 = ctlX.mem.dom ctlX.me.asid
    ∧ (ctlX.me.rs 7 = .ok 0x30001 ∧ 0x30001 % 16 = 1) ∧ (ctlX.me.rs 6 = .ok 0x30000 ∧ 0x30000 / 65536 % 65536 = 3)
    ∧ (Tbl.get (0 : W32) ctlX.mf.slhm 0).getLsbD 31 = true ∧ (Tbl.get (0 : W32) ctlX.mf.slhm 0).getLsbD 16 = false
    ∧ (Tbl.get (0 : W32) ctlX.mf.slhm 15).getLsbD 31 = false ∧ (0x80010001 : W32).getLsbD 16 = true := by
  and_intros <;> first | decide +kernel | rfl
theorem heldAtOf (s : State) (a : Actor) (b : Blk) (h : (a, b) ∈ s.blocked (fun _ => true) ∧ s.blkOf a = some b ∧ ((s.ctx a).split a.slot).also = []) :
    s.heldAt a b := h
theorem witness_TranslationForms_events : soleBlk (heldBy (.harv 63)) (.ctl 0 3) (.harv 63) = true
    ∧ (∃ b : Bcast, ({ ctlX with bcasts := [b] } : State).bcasts = [b] ∧ b.asid = 1 ∧ 19 ∈ b.left ∧ 15 ∈ b.left)
    ∧ ({ heldBy (.tlbi 63 1 true 6) with bcasts := [⟨1, 6, []⟩] } : State).heldAt (.ctl 0 3) (.tlbi 63 1 true 6)
    ∧ (15 ∈ ({ ctlX with mem := { ctlX.mem with notices := [3, 15] } } : State).mem.notices)
    ∧ (∃ i : Inval, ({ ctlX with invals := [i] } : State).invals = [i] ∧ i.asid = 1 ∧ i.page = 0x10000 ∧ 15 ∈ i.left ∧ i.hold = true ∧ (ctlX.mem.slice 15).held = [])
    ∧ ({ heldBy (.tlbi 63 1 false 0x10000) with invals := [⟨1, 0x10000, 16, [], false⟩] } : State).heldAt (.ctl 0 3) (.tlbi 63 1 false 0x10000)
    ∧ ({ heldBy (.hashsw 63 15) with switches := [(15, 65535)] } : State).heldAt (.ctl 0 3) (.hashsw 63 15) ∧ 65535 < 65536 :=
  ⟨by decide +kernel, ⟨⟨1, 6, List.range 20⟩, rfl, rfl, by decide, by decide⟩, heldAtOf _ _ _ (by decide +kernel), by decide,
    ⟨⟨1, 0x10000, 16, [0, 15], true⟩, rfl, rfl, rfl, by decide, rfl, by decide +kernel⟩, heldAtOf _ _ _ (by decide +kernel), heldAtOf _ _ _ (by decide +kernel), by decide⟩

/-- A group in supervisor mode, whose L1 has a dirty line in the range; the registers of a range, a close and a flush. -/
def ranged : State :=
  let s := supGroup [lane []] [(1, 2 ^ 55 - 256), (2, 256), (3, 257), (4, 2 ^ 55), (5, 0x10000), (6, 0x5FFFF), (7, 0x10001), (8, 0x50000), (9, 7 * 2 ^ 40 + 77)]
  { s with mem := s.mem.setLines1 0 [{ asid := 1, gen := 5, line := 2 ^ 48 - 2, dirty := 15, cls := 3, data := [(0, 7)] }] }
def flushable (s : State) (va : Nat) : Bool := match s.mem.flushLeaf s.me.asid va with | .ok _ => true | .error _ => false

theorem witness_RangesAndSeals : ranged.allows Legal.noSeq [] = true ∧ ranged.quiet ∧ 63 < 64 ∧ ranged.priv = true
    ∧ (ranged.me.rs 1 = .ok (2 ^ 55 - 256) ∧ ranged.me.rs 2 = .ok 256 ∧ ranged.me.rs 3 = .ok 257 ∧ ranged.me.rs 4 = .ok (2 ^ 55) ∧ ranged.me.rs 0 = .ok 0)
    ∧ ranged.cur.act.isCtl = false ∧ ctlX.cur.act.isCtl = true
    ∧ (ranged.mem.range1 (ranged.coreOf ranged.cur.act) ranged.me.asid (2 ^ 55 - 256) (2 ^ 55) true true).2 = []
    ∧ (ranged.me.rs 5 = .ok 0x10000 ∧ 0x10000 % 65536 = 0 ∧ ranged.me.rs 6 = .ok 0x5FFFF ∧ 0x5FFFF % 65536 ≠ 0) ∧ (ranged.me.rs 7 = .ok 0x10001 ∧ 0x10001 % 65536 ≠ 0)
    ∧ (ranged.me.rs 8 = .ok 0x50000 ∧ 0x50000 % 65536 = 0) ∧ ranged.mem.seals = [] ∧ (List.replicate 1024 (⟨9, 0, 1, 1, 1, true⟩ : Seal)).length = 1024
    ∧ (∀ b, let s : State := { ranged with mem := { ranged.mem with seals := [⟨9, 0, 1, 5, 1, true⟩, ⟨1, 0, 1, 5, 65535, b⟩] } }
      s.mem.seals.find? (fun e => e.asid == s.me.asid && e.buf == 0x5FFFF / 65536 % 65536) = some ⟨1, 0, 1, 5, 65535, b⟩)
    ∧ flushable ranged 0x10000 = true ∧ ({ ranged with mem := ranged.mem.putNum 0 0x10000 8 0 } : State).mem.flushLeaf ranged.me.asid 0x10000 = .error ⟨cPageMiss, 0⟩
    ∧ (ranged.port 7).ready = false ∧ ((ranged.setPort 7 { ready := true }).port 7).ready = true := by
  and_intros <;> first | decide +kernel | rfl
/-- The line's page is compressed, its record spilled and the spill area of its slice full (02 R76). -/
def refusing : Mem :=
  let ent : TEnt := { asid := 1, gen := 5, leaf := ⟨0x9012070000000000, 0, 16, 2 ^ 55 - 65536, 0⟩, owner := none }
  let m := ranged.mem.updSlice 0 (fun x => { x with tlb := [ent], spill := List.replicate 8192 { asid := 1, gen := 5, line := 0, stack := 0, crec := 0, blk := 0, off := 0, slot := 0, pois := 0, data := [] } })
  { m.putNum 0 0 8 (2 ^ 61) with cmtb := [(0, 2 ^ 40)] }
theorem witness_RangesAndSeals_refused : (refusing.range1 0 1 (2 ^ 55 - 256) (2 ^ 55) false false).2 = [0] := by decide +kernel
theorem witness_RangesAndSeals_events : soleBlk (heldBy (.range 63 (.ok 0))) (.ctl 0 3) (.range 63 (.ok 0)) = true
    ∧ soleBlk (heldBy (.sealOpen 63 0 0x1000)) (.ctl 0 3) (.sealOpen 63 0 0x1000) = true
    ∧ ({ ctlX with mem := { ctlX.mem with seals := [⟨1, 0, 1, 5, 65535, true⟩] } } : State).mem.seals[0]? = some ⟨1, 0, 1, 5, 65535, true⟩ ∧ 65535 < 65536 := by
  decide +kernel

/-! Control cores, the queue, placement. -/

/-- Words in memory, lowest first. -/
def wordsAt (m : Mem) (at' : Nat) (ws : List Nat) : Mem := (ws.zip (List.range ws.length)).foldl (fun m e => m.putNum 0 (at' + 8 * e.2) 8 e.1) m
/-- A launch descriptor: entry 0x5000, ASID 1, tag 7, one workgroup of 40 lanes, 8 registers, die 0. -/
def descNum : Nat := 0x5000 + 7 * 2 ^ 64 + 2 ^ 80 + 2 ^ 96 + 8 * 2 ^ 156 + 2 ^ 174 + 40 * 2 ^ 181
def withDesc : State := { ctlX with mem := wordsAt ctlX.mem 0x30000 ((List.range 32).map (fun i => descNum / 2 ^ (64 * i) % 2 ^ 64)) }
def parsed : Desc := Desc.parse descNum 0x30000
def aRec (type : Nat) : BitVec 128 := evRec type 3 1 0 5 0 false 0x1122334455667788

/-- A grid of that descriptor with nothing placed, and with its pack on the first core. -/
def unplaced (p : List Pack) : State :=
  let g : Grid := { tag := 7, num := 4, home := 0, queue := 3, desc := parsed, masks := [(0, 2 ^ 64 - 1)], packs := p }
  { ctlAt [(1, 0x1), (2, 7), (4, 1024), (5, 1025), (6, 0x40000)] with grids := [g] }
def aPack (saving : Bool) : Pack := { p := 0, die := 0, base := some 0, saving := saving }

theorem witness_ControlCore : ctlX.cur.act = .ctl 0 3 ∧ 7 < 8 ∧ ctlX.quiet ∧ ctlX.me.rs 1 = .ok 0x20000 ∧ ctlX.me.rs 2 = .ok 1 ∧ 63 < 64 ∧ (ctlX.die 0).evOn = []
    ∧ (let s := ctlX.setDie 0 { ctlX.die 0 with evOn := [aRec 3, aRec 10] }
      (s.die 0).evOn = [aRec 3, aRec 10] ∧ (s.die 0).ringLen = 0 ∧ s.waiter 0 = none ∧ s.me.on = true ∧ s.me.splits = [(s.cur.act.slot, s.sp)] ∧ s.me.pool = []
        ∧ s.cur.act.slot < 4 ∧ s.cur.act.lanes = false)
    ∧ (ctlX.validate (ctlX.who ctlX.cur.act) ctlX.me.asid 0x20000).2.1 ≠ 0 ∧ (withDesc.validate (withDesc.who withDesc.cur.act) withDesc.me.asid 0x30000).2.1 = 0
    ∧ 0x20001 % 256 ≠ 0
    ∧ ctlX.vacs = [] ∧ (∀ g ∈ ctlX.grids, g.hitBy 0 0x20000 = []) ∧ ctlX.gridOn 1 0 = none := by
  and_intros <;> first | decide +kernel | rfl
theorem witness_ControlCore_grids : (let s := unplaced [aPack false]
    s.cur.act = .ctl 0 3 ∧ s.quiet ∧ s.me.rs 1 = .ok 1 ∧ s.me.rs 2 = .ok 7 ∧ s.vacs = [] ∧ (∃ g, s.grids = [g] ∧ g.hitBy 0 1 ≠ []))
    ∧ (let s := unplaced []
      (∃ g, s.gridOn 7 0 = some g ∧ s.grids = [g] ∧ g.packs = [] ∧ g.desc.memb = 0) ∧ s.residents = []
        ∧ s.me.rs 5 = .ok 1025 ∧ s.me.rs 4 = .ok 1024 ∧ (s.tenants 0).all (fun r => r.2.asid == s.me.asid) = true) := by
  and_intros <;> first | decide +kernel | rfl | exact ⟨_, rfl, by decide +kernel⟩ | exact ⟨_, rfl, rfl, by decide +kernel, by decide +kernel⟩

/-- Records offered to die 0, with a queue of n records. -/
def offered (ty n : Nat) : State :=
  let s := ctlX.setDie 0 { ctlX.die 0 with evOn := List.replicate n (aRec 10), evW := if n = 256 then 256 else 0 }
  { s with mem := { s.mem with offer := [(0, aRec ty), (1, aRec 3)] } }
/-- A submission in queue 5 of die 0, with threads 0 to 6 busy or idle. -/
def submitted (busy : Bool) : State :=
  let s := ctlAt []
  let w := 2 ^ 63 + 2 ^ 64 + 0x60 * 2 ^ 84 + 2 * 2 ^ 20 + 3
  let s := s.setDie 0 { s.die 0 with sqd := [(5, BitVec.ofNat 128 w)] }
  { s with mem := wordsAt s.mem 0x60020 [0xAB, 0x9000], ctls := if busy then (List.range 7).map (fun i => (i, { on := true })) else [] }

theorem witness_QueuesAndPlacement : (∀ n, n = 0 ∨ n = 255 → ((offered 1 n).die 0).evHeld = [] ∧ (offered 1 n).mem.offer = [(0, aRec 1), (1, aRec 3)]
      ∧ ((offered 1 n).die 0).evOn.length < 256 ∧ ((offered 1 n).die 0).ringLen = 0 ∧ (offered 1 n).waiter 0 = none ∧ evHost ((aRec 1).toNat / 2 ^ 120) = true
      ∧ ((offered 1 n).die 0).hnr.getLsbD 63 = false)
    ∧ (256 ≤ ((offered 3 256).die 0).evOn.length ∧ ((offered 3 256).die 0).ringSize ≤ ((offered 3 256).die 0).ringLen ∧ evHeldType ((aRec 3).toNat / 2 ^ 120) = true
      ∧ evHeldType ((aRec 10).toNat / 2 ^ 120) = false)
    ∧ (let s := (offered 1 255).setDie 0 { (offered 1 255).die 0 with evHeld := [aRec 3, aRec 1] }
      (s.die 0).evHeld = [aRec 3, aRec 1] ∧ (s.die 0).evOn.length < 256 ∧ (s.die 0).ringLen = 0 ∧ s.waiter 0 = none)
    ∧ (let s := (offered 1 0).updSp (fun x => { x with blk := some (.waitev 62 0 9) })
      (s.die 0).evOn = [] ∧ s.waiter 0 = some (3, 62) ∧ 62 % 64 ≠ 0 ∧ 62 % 2 = 0 ∧ soleBlk s (.ctl 0 3) (.waitev 62 0 9) = true) := by
  refine ⟨?_, by decide +kernel, by decide +kernel, by decide +kernel⟩
  rintro n (rfl | rfl) <;> decide +kernel
theorem witness_QueuesAndPlacement_submission : (∀ b, ((submitted b).die 0).inRst = false ∧ (submitted b).nextQueue 0 = some 5)
    ∧ (∀ k < 7, ((submitted true).ctx (.ctl 0 k)).on = true) ∧ ((submitted true).ctx (.ctl 0 7)).on = false ∧ ((submitted false).ctx (.ctl 0 0)).on = false
    ∧ ctlX.nextQueue 0 = none
    ∧ (let w := (Tbl.get (0 : BitVec 128) ((submitted true).die 0).sqd 5).toNat
      let at' := w / 2 ^ 84 * 4096 + 16 * (w / 2 ^ 20 % 2 ^ 20 % 2 ^ (w / 2 ^ 80 % 16 + 4))
      populated at' = true ∧ populated (at' + 8) = true) := by decide +kernel
theorem witness_QueuesAndPlacement_packs : ctlX.grids = []
    ∧ (let s := unplaced []
      let g := s.grids.headD { tag := 0, home := 0, queue := 0, desc := {} }
      s.grids = [g] ∧ (s.die 0).inRst = false ∧ bit g.desc.dmask 0 = true ∧ g.desc.cosched = false ∧ g.firstBack 0 = none ∧ g.packOn 0 (Tbl.get 0 g.next 0) = some 0
        ∧ g.ahead = [] ∧ g.desc.depm = 0 ∧ s.stopped 0 = [] ∧ g.packs = [] ∧ s.block223 g.desc (Tbl.get 0 g.masks 0) 0 = some 0)
    ∧ (let s := unplaced [aPack true]
      let g := s.grids.headD { tag := 0, home := 0, queue := 0, desc := {} }
      s.grids = [g] ∧ g.packs = [aPack true] ∧ s.drained (s.packWgs g.key (0 * 2 ^ g.desc.nlog) 0) = true)
    ∧ (let s := (answer (exec (.packPlace 0) (unplaced []))).updCtx (.split 0 0 0) (fun c => { c with memops := [(0, { ins := .nop 0, pc := 0, word := 0, mask := 0 })] })
      let g := s.grids.headD { tag := 0, home := 0, queue := 0, desc := {} }
      s.drained (s.packWgs g.key (0 * 2 ^ g.desc.nlog) 0) = false)
    ∧ (let g : Grid := { tag := 7, home := 0, queue := 3, desc := parsed, retired := 1 }
      g.home = 0 ∧ ({ g with next := [(0, 1)] } : Grid).finished = true)
    ∧ ctlX.stopped 0 = [] ∧ Tbl.find (ctlX.die 0).quanta 5 = none ∧ Tbl.find ((ctlX.setDie 0 { ctlX.die 0 with quanta := [(5, 1)] }).die 0).quanta 5 = some 1
    ∧ (ctlX.die 0).notes = false ∧ ((ctlX.setDie 0 { ctlX.die 0 with notes := true }).die 0).notes = true := by decide +kernel

/-! The memory path. -/

/-- A group with one access of lane 2 in flight, at a point of its way; its slice has a translation and a line, and a walk or none. -/
def pageEnt (owner : Option Nat) : TEnt := { asid := 1, gen := 5, leaf := ⟨0x9002070000000000, 0, 42, 0, 0x10000⟩, owner := owner }
def acc1 (a : Nat) : Acc := { lane := 2, addr := a, size := 4, data := 0xFFFFFF00 }
def aLine : SLine := { asid := 1, gen := 5, line := 100, loc := .hbm 12800, slot := 0, data := [(5, 17), (124, 3), (125, 9)] }
def inFlight (ins : Instr) (k : ReqKind) (st : ReqSt) (f : Slice → Slice) : State :=
  let s := group [lane [], lane [], lane []] []
  let r : Req := { kind := k, addr := 12924, accs := [acc1 12924], gen := 5, sl := some 0, st := st }
  let s := s.setOp (.split 0 0 0) (some { ins := ins, pc := 0x1000, word := 0, mask := 7, probed := true, todo := [acc1 12924], req := some r })
  { s with mem := s.mem.updSlice 0 f }
def reqIs (s : State) (k : ReqKind) (st : ReqSt) : Bool :=
  match s.opOf (.split 0 0 0) with
  | some o => match o.req with | some r => r.kind == k && r.st == st && r.sl == some 0 | none => false
  | none => false
def aReq (k : ReqKind) : Req := { kind := k, addr := 12924, accs := [acc1 12924], gen := 5, sl := some 0 }

/-- The request's way as far as its slice, and what the slice then holds. -/
def arrives (s : State) (r : Req) : Bool :=
  (match s.mem.hash (s.dieOf (.split 0 0 0)) 1 r.addr with | .ok sl => sl == 0 | .error _ => false)
    && !(s.mem.slice 0).inRst && s.current 0 1 r && !(s.mem.slice 0).holds 1 r.addr && (s.mem.slice 0).walks == []

theorem witness_SliceRequests : (let s := inFlight (.atomAdd32 6 3 2 2 0) .atomic .sent (fun x => { x with tlb := [pageEnt none], lines := [aLine] })
    reqIs s .atomic .sent = true ∧ arrives s (aReq .atomic) = true ∧ (s.mem.slice 0).findEnt 1 12924 = some (pageEnt none)
      ∧ (s.mem.slice 0).findLine 1 (12924 / 128) = some aLine ∧ aLine.ecc = [] ∧ aLine.pois = 0 ∧ 12924 % 128 + 4 ≤ 128
      ∧ (match s.opOf (.split 0 0 0) with
        | some o => match (s.mem.serve (s.opWho (.split 0 0 0) o) 1 (aReq .atomic) o.info 0 0).2 with | .answer p => p.fault == none | _ => false
        | none => false) = true)
    ∧ (let s := inFlight (.ldw 0 6 3 2 0) .read .sent (fun x => { x with tlb := [pageEnt none], lines := [aLine] })
      reqIs s .read .sent = true ∧ arrives s (aReq .read) = true ∧ (match s.opOf (.split 0 0 0) with
        | some o => match s.mem.serve (s.opWho (.split 0 0 0) o) 1 (aReq .read) o.info 0 0 with
          | (m, .answer p) => p.fault == none && !p.peer && o.info.hint != 3 && (match (m.reserve1 0 1 100 o.info.hint (.split 0 0 0)).2 with | .full => false | _ => true)
          | _ => false
        | none => false) = true)
    ∧ (let s := inFlight (.stw 0 6 3 2 0) .probe .sent id
      reqIs s .probe .sent = true ∧ arrives s (aReq .probe) = true ∧ (s.mem.slice 0).findEnt 1 12924 = none)
    ∧ (let s := inFlight (.stw 3 6 3 2 0) .bypass .sent (fun x => { x with tlb := [pageEnt (some 3)] })
      reqIs s .bypass .sent = true ∧ arrives s (aReq .bypass) = true ∧ (s.mem.slice 0).findEnt 1 12924 = some (pageEnt (some 3))
        ∧ (match s.opOf (.split 0 0 0) with | some o => (s.opWho (.split 0 0 0) o).core != some 3 | none => false) = true ∧ (pageEnt (some 3)).rcl = none)
    ∧ (let s := inFlight (.ldw 0 6 3 2 0) .read .sent (fun x => { x with held := [⟨1, 0, 42, true⟩] })
      (s.mem.slice 0).holds 1 12924 = true)
    ∧ (∀ n, n = 63 ∨ n = 64 → let s := inFlight (.ldw 0 6 3 2 0) .read .sent (fun x => { x with walks := List.replicate n ⟨2, 5, 0, []⟩ })
      reqIs s .read .sent = true ∧ (s.mem.slice 0).walks.length = n ∧ (s.mem.slice 0).inRst = false ∧ s.current 0 1 (aReq .read) = true ∧ (s.mem.slice 0).holds 1 12924 = false
        ∧ (s.mem.slice 0).findEnt 1 12924 = none ∧ ∀ w ∈ (s.mem.slice 0).walks, w.asid ≠ 1)
    ∧ (let s := inFlight (.ldw 0 6 3 2 0) .read (.walking 0) (fun x => { x with walks := [⟨1, 5, pageOf 12924, [.split 0 0 0]⟩] })
      reqIs s .read (.walking 0) = true ∧ (s.mem.slice 0).parks (.split 0 0 0) = true)
    ∧ (let o : MemOp := { ins := .ldw 0 6 3 2 0, pc := 0x1000, word := 0, mask := 4, todo := [acc1 (2 ^ 55)], req := some { kind := .read, addr := 2 ^ 55, gen := 5 } }
      (two.setOp (.split 0 0 0) (some o)).opOf (.split 0 0 0) = some o
        ∧ (match (two.setOp (.split 0 0 0) (some o)).mem.hash 0 1 (2 ^ 55) with | .ok _ => true | .error f => f.cause == cBounds) = true) := by
  refine ⟨by decide +kernel, by decide +kernel, by decide +kernel, by decide +kernel, by decide +kernel, ?_, by decide +kernel, by decide +kernel⟩
  rintro n (rfl | rfl) <;> decide +kernel
theorem witness_SliceRequests_bounce : (let s := inFlight (.ldw 0 6 3 2 0) .read .sent (fun x => { x with gens := [(1, 6)] })
    reqIs s .read .sent = true ∧ s.current 0 1 (aReq .read) = false)
    ∧ (let s := inFlight (.ldw 0 6 3 2 0) .read .bounced id
      reqIs s .read .bounced = true ∧ s.mem.coreGen 0 1 = 5)
    ∧ (let s := inFlight (.ldw 0 6 3 2 0) .read (.walking 0) (fun x => { x with walks := [⟨1, 5, pageOf 12924, [.split 0 0 0]⟩] })
      reqIs s .read (.walking 0) = true ∧ (s.mem.slice 0).walks = [⟨1, 5, pageOf 12924, [.split 0 0 0]⟩] ∧ (s.mem.slice 0).gen 1 = 5 ∧ (s.mem.slice 0).holds 1 12924 = false
        ∧ (s.mem.slice 0).findEnt 1 12924 = none ∧ (s.who (.split 0 0 0)).core ≠ none ∧ isOk (s.mem.walkInstall 0 1 12924 { s.who (.split 0 0 0) with sup := false } false 0).2 = true
        ∧ isOk (({ s with mem := s.mem.putNum 0 0x10000 8 0 } : State).mem.walkInstall 0 1 12924 { s.who (.split 0 0 0) with sup := false } false 0).2 = false) := by
  decide +kernel

/-- The answer to a load; a line of the L1 that is dirty at its home; a page that is being reclaimed, or whose replicas are invalidated. -/
def answered (p : Resp) : State := inFlight (.ldw 0 6 3 2 0) .read (.back p) (fun x => { x with tlb := [pageEnt none], lines := [aLine] })
def dirtyLine : State :=
  let s := inFlight (.ldw 0 6 3 2 0) .read .sent (fun x => { x with tlb := [pageEnt none] })
  { s with mem := s.mem.setLines1 0 [{ asid := 1, gen := 5, line := 100, dirty := 2 ^ 127, data := [(127, 77)] }] }
def entered (e : TEnt) : State := inFlight (.ldw 0 6 3 2 0) .read .sent (fun x => { x with tlb := [e] })

/-- The line of the L1 that waits for the fill, with a byte written meanwhile. -/
def waitingLine : L1Line := { asid := 1, gen := 5, line := 100, dirty := 2 ^ 127, data := [(127, 77)], rsv := [.split 0 0 0] }

theorem witness_MemoryEvents_fill : reqIs (answered { fault := some ⟨cPageMiss, 0⟩ }) .read (.back { fault := some ⟨cPageMiss, 0⟩ }) = true
    ∧ (let p : Resp := { bytes := aLine.data, cls := 1 }
      let s := answered p
      let u : State := { s with mem := s.mem.setLines1 0 [waitingLine] }
      reqIs s .read (.back p) = true ∧ reqIs u .read (.back p) = true ∧ p.peer = false ∧ p.pois = 0 ∧ s.mem.lines1 (s.coreOf (.split 0 0 0)) = []
        ∧ u.mem.lines1 (u.coreOf (.split 0 0 0)) = [waitingLine] ∧ waitingLine.gen = u.mem.coreGen 0 1 ∧ waitingLine.line = 12924 / 128 ∧ waitingLine.pois = 0
        ∧ .split 0 0 0 ∈ waitingLine.rsv ∧ (u.core (u.coreOf (.split 0 0 0))).quar = []
        ∧ (match u.opOf (.split 0 0 0) with | some o => o.info.kind == .load && o.info.hint != 3 && o.todo == [acc1 12924] | none => false) = true) := by decide +kernel
theorem witness_MemoryEvents_stores : (let o : MemOp := { ins := .stw 0 6 3 2 0, pc := 0x1000, word := 0, mask := 7, todo := [acc1 12924] }
      let s := two.setOp (.split 0 0 0) (some o)
      s.opOf (.split 0 0 0) = some o ∧ o.req = none ∧ o.mesh = false ∧ o.probed = false ∧ o.probes = [] ∧ o.info.kind = .store ∧ o.info.space = none ∧ o.remote = false
        ∧ o.peers = [] ∧ (acc1 12924).bad = none ∧ o.res = [] ∧ s.mem.lines1 (s.coreOf (.split 0 0 0)) = [])
    ∧ two.mem.peerVa (two.who two.cur.act).die 1 12924 = false ∧ two.mem.lines1 0 = [] ∧ 12924 % 128 + 4 ≤ 128 := by decide +kernel
theorem witness_MemoryEvents_regions : let o : MemOp := { ins := .stw 0 6 3 2 0, pc := 0x1000, word := 0, mask := 7, todo := [acc1 12924] }
    let s := two.setOp (.split 0 0 0) (some o)
    ∀ l, (s.rgnAt (s.marker (.split 0 0 0)) l).opn = false := by
  rintro o s (_ | _ | l) <;> rfl

/-- A full set of the L1, the least recently used line dirty or clean, the others refused or not. -/
def fullSet (m : Mem) (dirty : Nat) (bad : Bool) : Mem :=
  m.setLines1 0 ({ asid := 1, gen := 5, line := 2 ^ 48 - 2, dirty := dirty, data := [(0, 7)] } ::
    (List.range 11).map (fun k => { asid := 1, gen := 5, line := 254 + 256 * k, refused := bad, dirty := b2n bad }))
def inSet (m : Mem) : List L1Line := (m.lines1 0).filter (fun l => l.line % 256 == 254)
theorem witness_MemoryEvents_writeBack : (inSet dirtyLine.mem).length < 12
    ∧ (∀ d, d = 0 ∨ d = 15 → let m := fullSet dirtyLine.mem d false
      (match inSet m with | v :: _ => v.dirty == d && !v.refused && v.rsv == [] | [] => false) = true ∧ (inSet m).length = 12)
    ∧ (match inSet (fullSet dirtyLine.mem 15 false) with
      | v :: _ => match (fullSet dirtyLine.mem 15 false).writeBack1 0 v with | (m, r) => r.isNone && m.lines1 0 == (fullSet dirtyLine.mem 15 false).lines1 0
      | [] => false) = true
    ∧ (match inSet (fullSet refusing 15 true) with
      | v :: rest => match (fullSet refusing 15 true).writeBack1 0 v with
        | (m, r) => r == some 0 && !v.refused && rest.all (fun w => w.refused) && m.lines1 0 == (fullSet refusing 15 true).lines1 0
      | [] => false) = true
    ∧ (inSet ((fullSet refusing 15 true).setLines1 0 (((fullSet refusing 15 true).lines1 0).map (fun l => { l with refused := true })))).all (fun v => v.refused) = true := by
  refine ⟨by decide +kernel, ?_, by decide +kernel, by decide +kernel, by decide +kernel⟩
  rintro d (rfl | rfl) <;> decide +kernel
theorem witness_MemoryEvents_merge : (let s := dirtyLine
      (match s.mem.lines1 0 with | [l] => l.dirty != 0 && l.gen == s.mem.coreGen 0 l.asid && l.line * 128 == 12800 | _ => false) = true
        ∧ (match s.mem.hash 0 1 12800 with | .ok sl => sl == 0 | .error _ => false) = true
        ∧ (match s.mem.translate 0 1 12800 2 ⟨some 0, 0, true, false⟩ false false with | (m, .ok t) => !m.refuses 0 t.loc && !t.loc.isFar | _ => false) = true)
    ∧ (let va := (2 ^ 48 - 2) * 128
      (match refusing.hash 0 1 va with | .ok sl => sl == 0 | .error _ => false) = true
        ∧ (match refusing.translate 0 1 va 2 ⟨some 0, 0, true, false⟩ false false with | (m, .ok t) => m.refuses 0 t.loc | _ => false) = true)
    ∧ (let s : State := { dirtyLine with mem := dirtyLine.mem.updSlice 0 (fun x => { x with tlb := [] }) }
      isOk (({ s with mem := s.mem.putNum 0 0x10000 8 0 } : State).mem.translate 0 1 12800 2 ⟨some 0, 0, true, false⟩ false false).2 = false)
    ∧ ((inFlight (.ldw 0 6 3 2 0) .read .sent (fun x => { x with lines := [aLine] })).mem.slice 0).findLine 1 100 = some aLine := by decide +kernel
theorem witness_MemoryEvents_pages : (∀ k, let e := { pageEnt (some 3) with rcl := some (some 0), acked := k }
      ((entered e).mem.slice 0).findEnt 1 12924 = some e ∧ ((entered e).mem.slice 0).waits = [] ∧ e.leaf.raw / 2 ^ 49 % 8 ≠ 0)
    ∧ (let e := { pageEnt (some 3) with rcl := some (some 0), acked := true, leaf := ⟨0x9000070000000000, 0, 42, 0, 0x10000⟩ }
      ((entered e).mem.slice 0).findEnt 1 12924 = some e ∧ e.leaf.raw / 2 ^ 49 % 8 = 0)
    ∧ (let e := { pageEnt none with rep := true, inval := true, repMask := 8 }
      ((entered e).mem.slice 0).findEnt 1 12924 = some e ∧ bit e.repMask 3 = true)
    ∧ (let e := { pageEnt none with rep := true, inval := true }
      ((entered e).mem.slice 0).findEnt 1 12924 = some e ∧ e.repMask = 0 ∧ ((entered e).mem.slice 0).waits = []) := by decide +kernel

/-- A translation behind the host port, or of a peer device's memory. -/
def farTr (peer : Option Nat) : Tr := { loc := .far 0 4, slot := 0, raw := 0, cls := 1, rep := false, peer := peer }
theorem witness_MemoryEvents_travel : (∀ mesh, let o : MemOp := { ins := .ldlw 1 6 3 0, pc := 0x1000, word := 0, mask := 7, todo := [acc1 0], remote := true, mesh := mesh }
      (two.setOp (.split 0 0 0) (some o)).opOf (.split 0 0 0) = some o ∧ o.mesh = mesh ∧ o.remote = true)
    ∧ (∀ p ∈ [none, some 9], reqIs (inFlight (.ldw 0 6 3 2 0) .read (.remote (farTr p)) id) .read (.remote (farTr p)) = true ∧ (farTr p).peer = p
      ∧ reqIs (inFlight (.stw 3 6 3 2 0) .bypass (.remote (farTr p)) id) .bypass (.remote (farTr p)) = true)
    ∧ (let s := inFlight (.atomAdd32 6 3 3 2 0) .atomic (.remote (farTr none)) id
      reqIs s .atomic (.remote (farTr none)) = true ∧ (match s.opOf (.split 0 0 0) with | some o => o.info.scope == 3 | none => false) = true)
    ∧ (heldBy (.sealOpen 63 0 0x1000)).opOf (.ctl 0 3) = none ∧ soleBlk (heldBy (.sealOpen 63 0 0x1000)) (.ctl 0 3) (.sealOpen 63 0 0x1000) = true := by decide +kernel

/-! Storage, recall, debug, the management function, the host. -/

/-- ASID 2 has a storage leaf at 0x30000 and a pool of n frames; a group of a pack is out for the service of a commit. -/
def storageMem (n : Nat) : Mem :=
  let m := (mem1.putNum 0 64 8 (4 * 65536)).putNum 0 72 8 (1 + 5 * 2 ^ 56)
  let m := (m.putNum 0 80 8 0x7000).putNum 0 0x40000 8 (2 ^ 63 + 2 ^ 44 + 5)
  let m := (m.putNum 0 0x50000 8 (2 ^ 63 + 2 ^ 44 + 6)).putNum 0 0x60018 8 (2 ^ 63 + 3 * 2 ^ 60 + 7 * 2 ^ 40 + 12)
  ((m.putNum 0 0x70000 8 (8 * 65536)).putNum 0 0x70008 8 (n * 2 ^ 32)).putNum 0 0x80000 8 9
def outSvc (tokens : List Nat) : Svc := { pc := 0x1000, cont := 0, replay := 1, recov := 0, recs := [7], stage := 2, pages := if tokens = [] then [(7, 0x30000)] else [], tokens := tokens }
def outCtx (v : Svc) : Ctx := { on := true, asid := 2, gid := 2, core := 5, svc := some v, lanes := [(0, { rgn := { recp := mkPl 3 7 } })] }
def outSaved (c : Ctx) : Saved := { wg := { w := 9 }, groups := [(0, c)], recs := [(7, { cause := 3, va := 0x30010 })], quar := [], oc := [], osec := [], mseq := none, cseq := none }
def outPack (w : Saved) : Pack := { p := 9, die := 0, saved := [w] }
def outGrid (p : Pack) : Grid := { tag := 7, num := 4, home := 0, queue := 3, desc := {}, packs := [p] }
def stored (n : Nat) (q : Port) (tokens : List Nat) : State :=
  let s := ctlAt []
  let s : State := { s with grids := [outGrid (outPack (outSaved (outCtx (outSvc tokens))))], ports := [(7, q)], mem := storageMem n }
  s.setDie 0 { s.die 0 with tokens := tokens.map (fun k => ⟨k, 2, 0x30000⟩) }
def fetchReq : FReq := ⟨7 + 4 * 65536, 9, 2, 2, [0x30000]⟩
def frameIs (s : State) (n : Nat) : Bool := match (s.mem.takeFrame 2).2 with | .ok f => f == n | .error _ => n == 0

theorem witness_StorageEvents : (let q : Port := { ready := true, en := true, intake := [fetchReq] }
    let s := stored 1 q []
    (s.port 7) = q ∧ q.offered = [] ∧ fetchReq.pages = [0x30000] ∧ q.serves = true ∧ ({ q with ready := false } : Port).serves = false ∧ q.table.length < 1024
      ∧ s.mem.storageLeaf 2 0x30000 = some (0x60018, 2 ^ 63 + 3 * 2 ^ 60 + 7 * 2 ^ 40 + 12) ∧ frameIs s 0x90000 = true ∧ frameIs (stored 0 q []) 0 = true
      ∧ (outGrid (outPack (outSaved (outCtx (outSvc []))))).key = fetchReq.grid ∧ (outSvc []).pages = [(7, 0x30000)])
    ∧ (stored 0 {} []).oneOut (outGrid (outPack (outSaved (outCtx (outSvc []))))) (outPack (outSaved (outCtx (outSvc [])))) (outSaved (outCtx (outSvc []))) (outCtx (outSvc [])) (outSvc [])
    ∧ (stored 0 {} [65535]).oneOut (outGrid (outPack (outSaved (outCtx (outSvc [65535]))))) (outPack (outSaved (outCtx (outSvc [65535])))) (outSaved (outCtx (outSvc [65535])))
      (outCtx (outSvc [65535])) (outSvc [65535]) ∧ ((stored 0 {} [65535]).die 0).tokens = [⟨65535, 2, 0x30000⟩] :=
  ⟨by decide +kernel, ⟨rfl, rfl, rfl, rfl, rfl⟩, ⟨rfl, rfl, rfl, rfl, rfl⟩, by decide +kernel⟩
/-- A page under fetch; a flush of a page by a thread. -/
def fetchOf : Fetch := ⟨2, 0x30000, 2 ^ 63 + 3 * 2 ^ 60 + 7 * 2 ^ 40 + 12, 0x60018, 2 ^ 52, { nsid := 1, pair := 3, todo := 0, sent := 1 }⟩
def flushOf : Flush := ⟨.ctl 0 3, 1, 0x10000, 5, true, { nsid := 1, pair := 0, todo := 0, sent := 1 }⟩
def flushing : State := { heldBy (.flush 63 1 1 0x10000) with ports := [(1, { ready := true, flushes := [flushOf] })] }
theorem witness_StorageEvents_commands : (let s := stored 1 { ready := true, table := [fetchOf] } []
    (s.port 7).table = [fetchOf] ∧ populated fetchOf.leafAt = true ∧ (s.mem.fillFrame (s.port 7) 7 (s.mem.oslot 2) fetchOf.frame 12 { fetchOf.cmds with sent := 0, pois := 0 ||| 32768 / 2 ^ 16 }).num (s.mem.oslot 2) 0x60018 8 = fetchOf.leaf
      ∧ 0x90000 % 65536 = 0 ∧ populated (0x90000 + 65535) = true ∧ 32768 % 2 ^ 15 = 0 ∧ 32767 % 2 ^ 15 ≠ 0 ∧ fetchOf.cmds.sent = 1 ∧ fetchOf.cmds.todo = 0 ∧ fetchOf.cmds.fail = 0)
    ∧ (flushing.port 1).table = [] ∧ (flushing.port 1).flushes = [flushOf] ∧ flushOf.cmds.sent = 1 ∧ soleBlk flushing (.ctl 0 3) (.flush 63 1 1 0x10000) = true
    ∧ (match flushing.mem.flushLeaf 1 0x10000 with | .ok _ => true | .error _ => false) = true
    ∧ (match (flushing.mem.readP ⟨none, 0, true, false⟩ 1 0x10000 128 0 (need := 0)).2 with | .ok _ => true | .error _ => false) = true := by
  decide +kernel

/-- A lane away on thread 127 of die 3, whose rejoin time has elapsed; a halted split. -/
def recalled : State :=
  let th : Ctx := { on := true, asid := 1, lanes := [(31, lane [(1, 99)])], splits := [(0, { pc := 0x2000, mask := 2 ^ 31 })], core := 255, lane := 31, timedOut := true, jrec := some 0x3000 }
  { two with threads := [(511, th)], groups := [(255 * 32, { on := true, lanes := [(31, { life := .ejected 127 })] })] }
def haltedSplit : State := two.setCtx two.cur.act { two.me with hpack := true, splits := [(3, { pc := 0x1000, mask := 3, halted := true, brk := some 0x1004 })] }
theorem witness_RecallAndDebug : (recalled.ctx (.thread 3 127)).on = true ∧ (recalled.ctx (.thread 3 126)).on = false ∧ (recalled.desc (.thread 3 127)).rjt ≠ 15
    ∧ (recalled.ctx (.thread 3 127)).timedOut = true ∧ (recalled.ctx (.thread 3 127)).quiet = true ∧ (recalled.ctx (.thread 3 127)).pend = []
    ∧ (recalled.ctx (.split 255 0 0)).splits = [] ∧ (recalled.ctx (.split 255 0 0)).pool = [] ∧ (recalled.core (recalled.coreOf (.thread 3 127))).stop = false
    ∧ (recalled.ctx (.thread 3 127)).core / 64 = 3 ∧ (recalled.ctx (.thread 3 127)).lane < 32
    ∧ (let s := recalled.updCtx (.split 255 0 0) (fun c => { c with hpack := true })
      (s.ctx (.split 255 0 0)).hpack = true ∧ (s.ctx (.thread 3 127)).timedOut = true ∧ (s.ctx (.thread 3 127)).quiet = true)
    ∧ (let s : State := { recalled with cores := [(255, { stop := true })] }
      (s.core (s.coreOf (.thread 3 127))).stop = true ∧ (s.core 255).stop = true ∧ (s.ctx (.thread 3 127)).on = true)
    ∧ haltedSplit.grids = [] ∧ 0 / 64 = 0 ∧ 255 / 64 ≠ 0 ∧ (haltedSplit.ctx (.split 0 0 0)).splits.map (fun e => (e.2.mask, e.2.halted)) = [(3, true)]
    ∧ (haltedSplit.ctx (.split 0 0 0)).splits = [(3, { pc := 0x1000, mask := 3, halted := true, brk := some 0x1004 })] ∧ (haltedSplit.ctx (.split 0 0 0)).pool = [] := by
  decide +kernel

theorem witness_RecallAndDebug_barriers (c g n : Nat) : Tbl.get 0 (haltedSplit.ctx (.split c g 0)).arr n = 0 := by
  by_cases h : c * 32 + g = 0
  · obtain ⟨rfl, rfl⟩ : c = 0 ∧ g = 0 := by omega
    rfl
  · have e : haltedSplit.ctx (.split c g 0) = {} := by
      show Tbl.get ({} : Ctx) haltedSplit.groups (c * 32 + g) = {}
      have k : haltedSplit.groups.map Prod.fst = [0] := by decide +kernel
      cases hg : haltedSplit.groups with
      | nil => rfl
      | cons x r =>
        rw [hg] at k
        obtain ⟨k1, k2⟩ : x.1 = 0 ∧ r = [] := by simpa using k
        simp [Tbl.get, Tbl.find, k1, k2, Ne.symm h]
    rw [e]; rfl

/-- The device with a key slot operation under way, debug unlock asked for, and a die in a TDI state. -/
def managed (t : Tdi) : State :=
  let s := State.reset.setDie 3 { State.reset.die 3 with tdi := t, ownSlot := some 4, tdiSlots := [4, 5], thermal := 2, savedPool := some 77 }
  { s with mf := { s.mf with ksBusy := true, ksOp := 2, ksSlot := 4, dbgStat := 1, dbgDie := 3, cmBusy := true, pol := 2 } }
theorem witness_ManagementCommands : (managed .run).mf.ksBusy = true ∧ State.reset.mf.ksBusy = false ∧ (managed .run).slotLocked 4 = true ∧ State.reset.slotLocked 4 = false
    ∧ (∀ d < 4, (State.reset.die d).ownSlot ≠ some 4) ∧ (managed .run).mf.ksOp = 2 ∧ 2 ≤ (managed .run).mf.pol ∧ 4 < 5 ∧ State.reset.mf.dbgStat ≠ 1
    ∧ (managed .run).mf.dbgStat = 1 ∧ ((managed .locked).die 3).tdi = .locked ∧ ((managed .unlocked).die 3).tdi ≠ .run ∧ ((managed .unlocked).die 3).tdi ≠ .locked
    ∧ ((managed .unlocked).die 3).dbgEn = false ∧ (managed .run).mf.cmBusy = true ∧ State.reset.mf.cmBusy = false
    ∧ State.reset.mem.cmtLen 0 ≤ 0 ∧ 1 < ({ State.reset.mem with cmtb := [(0, 2 ^ 40)] } : Mem).cmtLen 0 ∧ (0 + 3 + 1) * 1024 ≤ 64000000000
    ∧ 64000000000 < ((2 ^ 26 - 1) + 3 + 1) * 1024 ∧ ({ State.reset with mf := { State.reset.mf with enabled := true } } : State).mf.enabled = true
    ∧ State.reset.mf.enabled = false ∧ State.reset.mfReg 0x48 ≠ none ∧ State.reset.mfReg 0xD0 = none ∧ State.reset.mfReg 0x98 = some (0x98, 4, 1100000)
    ∧ State.reset.mfReg 0xA0 = some (0xA0, 8, 0) ∧ 1 ≠ 4 ∧ (2 ^ 62 + 5 * 2 ^ 32) / 2 ^ 62 = 1 ∧ (2 ^ 63 + 5 * 2 ^ 32) / 2 ^ 62 = 2 ∧ 2 ^ 63 + 5 * 2 ^ 32 < 2 ^ 64
    ∧ (4 : Nat).testBit 2 = true ∧ (4 : Nat).testBit 0 = false
    ∧ 0 * 256 + 255 ∉ (managed .run).mf.pba ∧ (7 * 2 ^ 32) % 2 ^ 33 / 2 ^ 32 ≠ 0 ∧ (2 ^ 32 - 1) % 2 ^ 33 / 2 ^ 32 = 0
    ∧ 4 * 256 + 255 ∈ ({ State.reset with mf := { State.reset.mf with enabled := true, pba := [4 * 256 + 255] } } : State).mf.pba := by decide +kernel

/-- A die with groups, a BAR2 window open on ASID 1, and a peer of number 9 whose ASID 8 is ASID 1 here. -/
def hosted : State :=
  let s := managed .run
  { s with groups := [(0, { on := true }), (3 * 2048, { on := true })], mem := mem1
           mf := { s.mf with enabled := true, trained := true, h2w := [(0, BitVec.ofNat 64 (2 ^ 48 + 2 ^ 47))]
                             imap := [(3, BitVec.ofNat 64 (2 ^ 63 + 9 * 2 ^ 48 + 8 * 2 ^ 32 + 2 ^ 16))] } }
def readsP (s : State) (va : Nat) : Bool := match (s.mem.readN (hostWho 0) 1 va 8 0).2 with | .ok x => x.2 == 0 | .error _ => false
theorem witness_ResetsAndHost : hosted.grids = [] ∧ (∀ x < 16, (hosted.mem.slice x).tlb = []) ∧ (hosted.die 3).tdi = .run ∧ (hosted.mem.slice 15).spill = []
    ∧ (∀ a ∈ hosted.actors, hosted.atSlice a 15 = none) ∧ hosted.mf.enabled = true ∧ State.reset.mf.enabled = false ∧ hosted.mf.trained = true
    ∧ State.reset.mf.trained = false ∧ 0 ≠ 1 ∧ (State.reset.die 3).thermal = 0 ∧ (hosted.die 3).thermal = 2 ∧ ((hosted.setDie 3 { hosted.die 3 with thermal := 1 }).die 3).thermal = 1
    ∧ (hosted.die 3).savedPool = some 77 ∧ hosted.bar2 1 0 8 = none
    ∧ (let w : W64 := Tbl.get 0 hosted.mf.h2w 0
      w.getLsbD 47 = true ∧ w.toNat / 2 ^ 48 = 1 ∧ 63999999992 + 8 ≤ 2 ^ 36 ∧ readsP hosted 63999999992 = true)
    ∧ (hosted.mem.writeN (hostWho 0) 1 63999999992 8 7 0 0).2 = none ∧ isOk (hosted.mem.readN (hostWho 0) 2 0x8000 8 0).2 = false
    ∧ hosted.mf.localAsid 9 7 = none ∧ hosted.mf.localAsid 9 8 = some 1 ∧ 0x8004 % atomSize 13 ≠ 0 ∧ 0x8000 % atomSize 13 = 0 ∧ isOk (hosted.mem.updG (hostWho 0) 1 0x8000 (atomSize 13) (fun x => atomNew 13 x 0 7) true).2 = true
    ∧ populated 0x8000 = true ∧ (Tbl.get ({} : Sec) hosted.mem.sec (0x8000 / 32)).pois = false ∧ (∀ sp < 4, 4095 < spaceFrames sp * 4096)
    ∧ (let s : State := { hosted with bufs := [(5, { asid := 1, base := 0x10000, donea := 0x20000, cap := 4, slot := 64 })] }
      let sent (buf : Nat) : Sent := (s.claimSlot (hostWho 0) 1 buf (32 * 2 ^ 160) 7 32 (bytePoison 0 64 2)).2
      s.mf.localAsid 9 8 = some 1 ∧ (match sent 5 with | .delivered => true | _ => false) = true ∧ (match sent 6 with | .refused => true | _ => false) = true) := by
  decide +kernel

/-! Encodings, steps, safe states. -/

theorem witness_EncodingRoundTrip : (Instr.pclr 127 31 1 1 255).WellFormed ∧ (Instr.pclr 127 31 1 1 255).inStream = true ∧ 0x00050C1C < 2 ^ 32
    ∧ (decodeWord 0x00050C1C = .ok (.iadd 5 6 7 0)) ∧ 0xFFFF < 2 ^ 16 ∧ isCode 0xFFFF = true := by
  and_intros <;> first | decide +kernel | rfl

/-- The group's turn to run a word at 0x1000, and a turn of an event; that the split may issue is the first clause's conclusion. -/
def turnOf (w : Nat) : State :=
  let s := group [lane [(6, 1), (7, 2)]] []
  { s with mem := s.mem.putNum 0 0x1000 4 (w % 65536 * 65536 + w / 65536), agenda := [.run s.cur.act] }
theorem witness_StepRunsDecoded : ∃ rest, (turnOf 0x00050C1C).agenda = .run (.split 0 0 0) :: rest
    ∧ (let a : Actor := .split 0 0 0
      let u : State := { (turnOf 0x00050C1C).tick with agenda := rest }
      let c := u.ctx a
      let sp := c.split 0
      u.mf.halted = false ∧ (u.die (u.dieOf a)).inRst = false ∧ c.on = true ∧ u.saving a = false ∧ (u.core 0).stop = false ∧ c.svc = none
        ∧ c.splits = [(0, sp)] ∧ c.pool = [] ∧ sp.mask ≠ 0 ∧ sp.wait = .none ∧ sp.blk = none ∧ sp.halted = false ∧ c.backoff = false ∧ sp.yld = [] ∧ c.tok = .none
        ∧ sp.due = false ∧ c.pend = [] ∧ c.memops = []
        ∧ (match u.fetch a sp.pc with
          | (u1, .word w) => let v : State := { u1 with cur := ⟨a, sp.pc, sp.pc + 4, w⟩ }
            w == 0x00050C1C && v.clearFor a (.iadd 5 6 7 0)
          | _ => false) = true) := ⟨_, rfl, by decide +kernel⟩
theorem witness_StepRunsDecoded_tokens (x : State) (h : (x.ctx (.split 0 0 0)).tok = .none) :
    x.withTokens (.split 0 0 0) (.iadd 5 6 7 0) = .run (.iadd 5 6 7 0) x := by
  simp [State.withTokens, h]
theorem test_step_runs_word : (match step (turnOf 0x00050C1C) with | .next t => (t.me.ln 0).rd 5 == .ok 3 && (t.me.split 0).pc == 0x1004 | _ => false) = true := by
  decide +kernel
theorem witness_StepRunsDecoded_event : (Instr.mfesClear 1).WellFormed ∧ (Instr.mfesClear 1).inStream = false
    ∧ ({ two with agenda := [.event (.mfesClear 1)] } : State).agenda = .event (.mfesClear 1) :: [] ∧ two.mf.halted = false := by
  and_intros <;> first | decide +kernel | rfl
theorem witness_SafeStatesStep : (turnOf 0x00050C1C).safe = true ∧ Memory.wf (turnOf 0x00050C1C).mem.hbm = true := by decide +kernel

end Sys2Proof.Tests
end

section
/-! Facts under the statements on the management function: bits and digits of its registers, key slots, alarms, the copies of the interleave
registers (13 R396, R397, R420, R421; 01 R48; 02 R66; 04 R134). -/

namespace Sys2Proof.Machine

/-! Bits, fields, and digits of a number in a base. -/

theorem bit_eq_testBit (w i : Nat) : bit w i = w.testBit i := by
  rw [bit, Nat.testBit_eq_decide_div_mod_eq]; rfl

theorem bit_toNat {n : Nat} (x : BitVec n) (i : Nat) : bit x.toNat i = x.getLsbD i := bit_eq_testBit _ _

theorem b2n_bit (w i : Nat) : b2n (bit w i) = w / 2 ^ i % 2 := by
  rcases Nat.mod_two_eq_zero_or_one (w / 2 ^ i) with h | h <;> simp [b2n, bit, h]

theorem fld_zero (w n : Nat) : fld w 0 n = w % 2 ^ n := by rw [fld, Nat.pow_zero, Nat.div_one]

/-- A field that reaches the end of the number needs no reduction. -/
theorem fld_eq_div {w lo n : Nat} (h : w < 2 ^ (lo + n)) : fld w lo n = w / 2 ^ lo :=
  Nat.mod_eq_of_lt (Nat.div_lt_of_lt_mul (by rwa [← Nat.pow_add]))

/-- Digit k of K in base B, with the digits above and below it. -/
theorem eq_digits (B K k : Nat) : K = (K / B ^ k / B * B + K / B ^ k % B) * B ^ k + K % B ^ k := by
  rw [Nat.div_add_mod', Nat.div_add_mod']

/-- The number K in base B with digit k written over by w. -/
def putDigit (B K k w : Nat) : Nat := K - K / B ^ k % B * B ^ k + w * B ^ k

theorem putDigit_eq (B K k w : Nat) : putDigit B K k w = (K / B ^ k / B * B + w) * B ^ k + K % B ^ k := by
  have h := eq_digits B K k
  rw [putDigit]
  generalize K / B ^ k / B * B = a, K / B ^ k % B = b, K % B ^ k = c at *
  rw [Nat.add_mul] at h ⊢
  omega

theorem putDigit_div {B : Nat} (K k w : Nat) (hB : 0 < B) : putDigit B K k w / B ^ k = K / B ^ k / B * B + w := by
  have hk : 0 < B ^ k := Nat.pow_pos hB
  rw [putDigit_eq, Nat.mul_comm, Nat.mul_add_div hk, Nat.div_eq_of_lt (Nat.mod_lt _ hk), Nat.add_zero]

theorem putDigit_mod (B K k w : Nat) : putDigit B K k w % B ^ k = K % B ^ k := by
  rw [putDigit_eq, Nat.mul_comm, Nat.mul_add_mod, Nat.mod_mod]

theorem digit_putDigit {B K w : Nat} (k : Nat) (hw : w < B) : putDigit B K k w / B ^ k % B = w := by
  rw [putDigit_div K k w (by omega), Nat.mul_add_mod_self_right, Nat.mod_eq_of_lt hw]

theorem digit_putDigit_ne {B K w j k : Nat} (hw : w < B) (h : j ≠ k) : putDigit B K k w / B ^ j % B = K / B ^ j % B := by
  have hB : 0 < B := by omega
  rcases Nat.lt_or_gt_of_ne h with hlt | hgt
  · -- below: both numbers agree modulo B ^ k
    have hd (x : Nat) : x / B ^ j % B = x % B ^ k / B ^ j % B := by
      obtain ⟨d, rfl⟩ := Nat.exists_eq_add_of_lt hlt
      rw [Nat.add_assoc, Nat.pow_add, Nat.mod_mul_right_div_self, Nat.pow_succ, Nat.mod_mul_left_mod]
    rw [hd, putDigit_mod, ← hd]
  · -- above: both numbers agree above digit k
    have hq : putDigit B K k w / B ^ k / B = K / B ^ k / B := by
      rw [putDigit_div K k w hB, Nat.mul_comm, Nat.mul_add_div hB, Nat.div_eq_of_lt hw, Nat.add_zero]
    obtain ⟨d, rfl⟩ := Nat.exists_eq_add_of_lt hgt
    rw [show k + d + 1 = k + 1 + d by omega, Nat.pow_add, Nat.pow_succ]
    simp only [← Nat.div_div_eq_div_mul, hq]

theorem putDigit_lt {B K w k n : Nat} (hw : w < B) (hk : k < n) (hK : K < B ^ n) : putDigit B K k w < B ^ n := by
  have hB : 0 < B ^ k := Nat.pow_pos (by omega)
  obtain ⟨d, rfl⟩ := Nat.exists_eq_add_of_lt hk
  have hq : K / B ^ k / B < B ^ d := by
    rw [Nat.div_div_eq_div_mul, ← Nat.pow_succ]
    exact Nat.div_lt_of_lt_mul (by rwa [← Nat.pow_add, Nat.succ_add])
  have hc := Nat.mod_lt K hB
  rw [putDigit_eq]
  calc (K / B ^ k / B * B + w) * B ^ k + K % B ^ k < (K / B ^ k / B * B + w + 1) * B ^ k := by rw [Nat.add_mul _ 1]; omega
    _ ≤ (B ^ d * B) * B ^ k := Nat.mul_le_mul_right _ (by nlinarith)
    _ = B ^ (k + d + 1) := by rw [Nat.add_assoc, Nat.pow_add, Nat.pow_succ, Nat.mul_comm]

/-! Tables and ranges. -/

theorem Tbl.get_upd {α : Type} (d : α) (t : Tbl α) (j k : Nat) (f : α → α) :
    Tbl.get d (Tbl.upd d t j f) k = if k = j then f (Tbl.get d t j) else Tbl.get d t k := Tbl.get_put d t j k _

theorem Tbl.get_map_snd {α β : Type} (f : α → β) (d : α) (t : Tbl α) (k : Nat) :
    Tbl.get (f d) (t.map (fun e => (e.1, f e.2))) k = f (Tbl.get d t k) := by
  induction t with
  | nil => rfl
  | cons e r ih =>
    by_cases h : e.1 = k <;> simp [Tbl.get, h, ih]

theorem mem_range_slices {i : Nat} (h : i < 16) : i ∈ List.range Config.slices := List.mem_range.2 h

theorem mem_range_dies {d : Nat} (h : d < 4) : d ∈ List.range Config.dies := List.mem_range.2 h

/-! Key slots (13 R396, R397; 01 R48). -/

theorem State.kscmd_of_busy (s : State) (op slot : Nat) (h : s.mf.ksBusy = true) :
    s.kscmd op slot = { s with mf := { s.mf with mfes := s.mf.mfes ||| 8 } } := by
  simp [State.kscmd, State.updMf, h]

/-- A load or a revoke while no command runs: of slot 0, of a slot in use by a TDI, of another. -/
theorem State.kscmd_of_idle (s : State) (op slot : Nat) (h : s.mf.ksBusy = false) (hop : op = 1 ∨ op = 2) :
    s.kscmd op slot =
      if slot = 0 then { s with mf := { s.mf with ksSlot := 0, ksStat := 1 } }
      else if s.slotLocked slot then { s with mf := { s.mf with ksSlot := slot, ksStat := 2 } }
      else { s with mf := { s.mf with ksSlot := slot, ksStat := 0, ksBusy := true, ksOp := op } } := by
  rcases hop with rfl | rfl <;> simp [State.kscmd, State.updMf, h]

theorem State.slotLocked_eq_false_iff (s : State) (k : Nat) :
    s.slotLocked k = false ↔ ∀ d < 4, (s.die d).ownSlot ≠ some k ∨ ((s.die d).tdi ≠ .locked ∧ (s.die d).tdi ≠ .run) := by
  simp only [State.slotLocked, Config.dies, List.any_eq_false, List.mem_range]
  refine forall₂_congr fun d _ => ?_
  by_cases hs : (s.die d).ownSlot = some k <;> simp [hs]

/-- A slice without the lines of a key slot. -/
def Slice.withoutSlot (k : Nat) (x : Slice) : Slice :=
  { x with lines := x.lines.filter (fun l => l.slot != k), spill := x.spill.filter (fun l => l.slot != k) }

/-- A slot's key marked revoked, and the slices swept of its lines: what a revoke changes but for the L1s and the die caches. -/
def Mem.slicesWithout (m : Mem) (k : Nat) : Mem :=
  (List.range Config.slices).foldl (fun m i => Mem.updSlice m i (Slice.withoutSlot k))
    { m with keys := Tbl.put m.keys k { m.key k with revoked := true } }

theorem Mem.revoke_eq (m : Mem) (k : Nat) : m.revoke k = { m.slicesWithout k with
    l1 := (m.slicesWithout k).l1.map (fun e => (e.1, e.2.filter (fun l => l.slot.getD (m.lineSlot l.asid l.line) != k)))
    dc := (m.slicesWithout k).dc.map (fun e => (e.1, e.2.filter (fun l => l.ver.isSome || m.lineSlot l.asid l.line != k))) } := by
  unfold Mem.revoke Mem.slicesWithout Slice.withoutSlot; rfl

theorem Mem.slicesWithout_eq (m : Mem) (k : Nat) :
    ∃ t, m.slicesWithout k = { m with slices := t, keys := Tbl.put m.keys k { m.key k with revoked := true } } :=
  Mem.sweep_eq (fun _ => Slice.withoutSlot k) (List.range Config.slices) { m with keys := Tbl.put m.keys k { m.key k with revoked := true } }

theorem Mem.slice_revoke (m : Mem) (k i : Nat) (hi : i < 16) : (m.revoke k).slice i = (m.slice i).withoutSlot k := by
  have h : (m.slicesWithout k).slice i = (m.slice i).withoutSlot k :=
    (Mem.slice_sweep (fun _ => Slice.withoutSlot k) (List.range Config.slices) List.nodup_range _ i).trans (if_pos (mem_range_slices hi))
  simpa only [Mem.revoke_eq, Mem.slice] using h

theorem Mem.lines1_revoke (m : Mem) (k c : Nat) :
    (m.revoke k).lines1 c = (m.lines1 c).filter (fun l => l.slot.getD (m.lineSlot l.asid l.line) != k) := by
  obtain ⟨t, h⟩ := m.slicesWithout_eq k
  rw [Mem.revoke_eq, h]
  exact Tbl.get_map_snd (List.filter (fun l => l.slot.getD (m.lineSlot l.asid l.line) != k)) [] m.l1 c

theorem Mem.dc_revoke (m : Mem) (k c : Nat) :
    Tbl.get [] (m.revoke k).dc c = (Tbl.get [] m.dc c).filter (fun l => l.ver.isSome || m.lineSlot l.asid l.line != k) := by
  obtain ⟨t, h⟩ := m.slicesWithout_eq k
  rw [Mem.revoke_eq, h]
  exact Tbl.get_map_snd (List.filter (fun l => l.ver.isSome || m.lineSlot l.asid l.line != k)) [] m.dc c

theorem Mem.key_revoke (m : Mem) (k j : Nat) : (m.revoke k).key j = if j = k then { m.key k with revoked := true } else m.key j := by
  obtain ⟨t, h⟩ := m.slicesWithout_eq k
  rw [Mem.revoke_eq, h]
  exact Tbl.get_put _ _ _ _ _

theorem Mem.hbm_revoke (m : Mem) (k : Nat) : (m.revoke k).hbm = m.hbm := by
  obtain ⟨t, h⟩ := m.slicesWithout_eq k
  rw [Mem.revoke_eq, h]

/-! Alarms (13 R401, R420, R421). -/

theorem State.interrupt_masked (s : State) (fn vec : Nat) (h : (s.mf.msixAt fn vec).getLsbD 96 = true) :
    s.interrupt fn vec = { s with mf := { s.mf with pba := s.mf.pba.filter (· != fn * 256 + vec) ++ [fn * 256 + vec] } } := by
  simp [State.interrupt, h]

theorem State.interrupt_unmasked (s : State) (fn vec : Nat) (h : (s.mf.msixAt fn vec).getLsbD 96 = false) :
    let e := (s.mf.msixAt fn vec).toNat
    s.interrupt fn vec = s.send [{ kind := 3, addr := fn, data := vec, mask := e % 2 ^ 64, aux := e / 2 ^ 64 % 2 ^ 32 }] := by
  simp only [State.interrupt, h, fld, Bool.false_eq_true, if_false, Nat.pow_zero, Nat.div_one]

/-- An interrupt changes the pending bits of the management function, or the messages sent, and nothing else. -/
theorem State.interrupt_eq (s : State) (fn vec : Nat) :
    ∃ p o, s.interrupt fn vec = { s with mf := { s.mf with pba := p }, mem := { s.mem with out := o } } := by
  cases h : (s.mf.msixAt fn vec).getLsbD 96 with
  | false => exact ⟨_, _, s.interrupt_unmasked fn vec h⟩
  | true => exact ⟨_, _, s.interrupt_masked fn vec h⟩

/-- The state in which an alarm acts: its source is set and counted. -/
def State.alarmed (s : State) (src : Nat) : State :=
  s.updMf (fun f => { f with almSrc := f.almSrc ||| BitVec.ofNat 5 (2 ^ src), almCount := satAdd 255 f.almCount 1 })

/-- POL says how an alarm acts: its vector is sent; from 1 on the module halts, from 2 on the keys are erased. -/
theorem State.alarm_eq (s : State) (src : Nat) : s.alarm src = match s.mf.pol with
    | 0 => (s.alarmed src).interrupt 0 0
    | 1 => (s.alarmed src).haltAll
    | _ => (s.alarmed src).haltAll.eraseKeys := rfl

theorem State.alarm_pba (s : State) (src : Nat) : (s.alarm src).mf.pba = ((s.alarmed src).interrupt 0 0).mf.pba := by
  rw [State.alarm_eq]; split <;> rfl

theorem State.alarm_out (s : State) (src : Nat) : (s.alarm src).mem.out = ((s.alarmed src).interrupt 0 0).mem.out := by
  rw [State.alarm_eq]; split <;> rfl

/-- What an alarm sets, whether or not its vector is masked. -/
theorem State.alarm_spec (s : State) (src : Nat) :
    (s.alarm src).mf.almSrc = s.mf.almSrc ||| BitVec.ofNat 5 (2 ^ src) ∧ (s.alarm src).mf.almCount = satAdd 255 s.mf.almCount 1
    ∧ (s.alarm src).mf.halted = (s.mf.halted || s.mf.pol != 0) ∧ (s.alarm src).mem.erased = (s.mem.erased || 2 ≤ s.mf.pol)
    ∧ (2 ≤ s.mf.pol → s.mf.ksBusy = true → s.mf.ksOp = 1 → (s.alarm src).mf.ksBusy = false ∧ (s.alarm src).mf.ksStat = 3)
    ∧ (s.alarm src).mf.dbgStat = s.mf.dbgStat ∧ (s.alarm src).mf.dbgunl = s.mf.dbgunl ∧ (s.alarm src).dies = s.dies := by
  obtain ⟨p, o, hi⟩ := (s.alarmed src).interrupt_eq 0 0
  rw [State.alarm_eq]
  split
  next hp =>
    simp only [hi]
    simp [hp, State.alarmed, State.updMf]
  next hp =>
    simp only [State.haltAll, hi]
    simp [hp, State.alarmed, State.updMf]
  next h0 h1 =>
    have hp0 : s.mf.pol ≠ 0 := h0
    have hp1 : s.mf.pol ≠ 1 := h1
    have hp : 2 ≤ s.mf.pol := by omega
    simp only [State.haltAll, hi]
    simp +contextual [hp, hp0, State.alarmed, State.updMf, State.eraseKeys]

/-! Copies of the interleave registers (02 R66; 04 R134). -/

/-- A sweep over the compute dies changes the copy of SLHM of each die listed once. -/
theorem Mem.dslhm_sweep (u : Tbl W32 → Tbl W32) (l : List Nat) (hl : l.Nodup) (m : Mem) (k : Nat) :
    Tbl.get [] (l.foldl (fun (m : Mem) d => { m with dslhm := Tbl.upd [] m.dslhm d u }) m).dslhm k
      = if k ∈ l then u (Tbl.get [] m.dslhm k) else Tbl.get [] m.dslhm k := by
  induction l generalizing m with
  | nil => simp
  | cons a r ih =>
    rw [List.nodup_cons] at hl
    simp only [List.foldl_cons, ih hl.2, Tbl.get_upd, List.mem_cons]
    by_cases h : k = a
    · subst h; simp [hl.1]
    · simp [h]

/-- A sweep over the compute dies changes nothing but their copies of SLHM. -/
theorem Mem.dslhm_sweep_slice (u : Tbl W32 → Tbl W32) (l : List Nat) (m : Mem) (i : Nat) :
    (l.foldl (fun (m : Mem) d => { m with dslhm := Tbl.upd [] m.dslhm d u }) m).slice i = m.slice i := by
  induction l generalizing m with
  | nil => rfl
  | cons a r ih => exact ih _

/-- A write of an SLHM register reaches the master, every slice and every compute die. -/
theorem State.setSlhm_spec (s : State) (dom : Nat) (f : W32 → W32) :
    Tbl.get 0 (s.setSlhm dom f).mf.slhm dom = f (Tbl.get 0 s.mf.slhm dom)
    ∧ (∀ i < 16, Tbl.get 0 ((s.setSlhm dom f).mem.slice i).slhm dom = f (Tbl.get 0 (s.mem.slice i).slhm dom))
    ∧ ∀ d < 4, Tbl.get 0 (Tbl.get [] (s.setSlhm dom f).mem.dslhm d) dom = f (Tbl.get 0 (Tbl.get [] s.mem.dslhm d) dom) := by
  have hu (t : Tbl W32) : Tbl.get 0 (Tbl.upd 0 t dom f) dom = f (Tbl.get 0 t dom) := by simp [Tbl.get_upd]
  obtain ⟨t, ht⟩ := Mem.sweep_eq (fun _ x => { x with slhm := Tbl.upd 0 x.slhm dom f }) (List.range Config.slices) s.mem
  refine ⟨hu _, fun i hi => ?_, fun d hd => ?_⟩
  · simp only [State.setSlhm, Mem.dslhm_sweep_slice]
    rw [Mem.slice_sweep (fun _ x => { x with slhm := Tbl.upd 0 x.slhm dom f }) _ List.nodup_range, if_pos (mem_range_slices hi)]
    exact hu _
  · simp only [State.setSlhm]
    rw [Mem.dslhm_sweep _ _ List.nodup_range, if_pos (mem_range_dies hd), hu, ht]

/-- A write of SLHC reaches every slice. -/
theorem slhcWrite_spec (dom value : Nat) (s : State) : s.event? (.slhcWrite dom value) (fun t => ∀ i < 16,
    (t.mem.slice i).heatCfg dom = value / 2 ^ 31 % 2 * 2 ^ 31 + value / 2 ^ 18 % 4 * 2 ^ 18 + value % 8) := by
  refine ⟨_, rfl, fun i hi => ?_⟩
  simp only []
  rw [Mem.slice_sweep (fun _ x => { x with slhc := Tbl.put x.slhc dom _ }) _ List.nodup_range, if_pos (mem_range_slices hi)]
  simp only [Slice.heatCfg, Tbl.get_put_same, b2n_bit, fld, BitVec.toNat_ofNat, Nat.pow_zero, Nat.div_one]
  omega

end Sys2Proof.Machine
end

section
/-! Writes and reads of the registers through BAR0 and BAR4 (13 R394, R400, R401; 00 R10, R19). -/

namespace Sys2Proof.Machine

/-! Where the registers of the management function are. -/

/-- What a lookup of a register finds is 4 or 8 bytes wide. -/
def regWidthOk : Option (Nat × Nat × Nat) → Bool
  | none => true
  | some (_, n, _) => n == 4 || n == 8

theorem regWidthOk_ite (c : Prop) [Decidable c] (a b : Option (Nat × Nat × Nat)) (ha : regWidthOk a = true) (hb : regWidthOk b = true) :
    regWidthOk (if c then a else b) = true := by
  split <;> assumption

theorem State.mfReg_width {s : State} {off o n x : Nat} (h : s.mfReg off = some (o, n, x)) : n = 4 ∨ n = 8 := by
  have hw : regWidthOk (s.mfReg off) = true := by
    unfold State.mfReg
    repeat' apply regWidthOk_ite
    all_goals rfl
  rw [h] at hw
  simpa [regWidthOk] using hw

/-- The arrays of registers of the management function (13 R400), each with its first offset, its stride, the width of a register and their
number: KSKEY, H2W, CMTB, FECFG, DBGCTL, SLHM, SLHC and IMAP. -/
def mfArrays : List (Nat × Nat × Nat × Nat) :=
  [(0x40, 8, 8, 8), (0x100, 8, 8, 4), (0x180, 8, 8, 16), (0x200, 8, 8, 8), (0x300, 8, 4, 4), (0x10000, 4, 4, 16), (0x10040, 4, 4, 16),
    (0x20000, 8, 8, 1024)]

theorem State.mfReg_array (s : State) {base stride n count k : Nat} (h : (base, stride, n, count) ∈ mfArrays) (hk : k < count) :
    ∃ x, s.mfReg (base + stride * k) = some (base + stride * k, n, x) := by
  simp only [mfArrays, List.mem_cons, Prod.mk.injEq, List.not_mem_nil, or_false] at h
  -- the 8-byte word of the offset lies in the array, and the offset is aligned as its stride says
  obtain ⟨hlo, hhi, ho⟩ : base ≤ (base + stride * k) / 8 * 8 ∧ (base + stride * k) / 8 * 8 < base + stride * count
      ∧ (stride = 8 ∧ (base + stride * k) / 8 * 8 = base + stride * k ∨ stride = 4 ∧ (base + stride * k) / 4 * 4 = base + stride * k) := by
    rcases h with h | h | h | h | h | h | h | h <;> obtain ⟨rfl, rfl, rfl, rfl⟩ := h <;> omega
  unfold State.mfReg
  generalize (base + stride * k) / 8 * 8 = o at hlo hhi ho ⊢
  rcases h with h | h | h | h | h | h | h | h <;> obtain ⟨rfl, rfl, rfl, rfl⟩ := h <;> simp only []
  all_goals
    repeat rw [if_neg (by grind)]
    rw [if_pos (by grind)]
    exact ⟨_, congrArg (fun a => some (a, _)) (by omega)⟩

theorem State.mfSet_kskey (s : State) {k w : Nat} (hk : k < 8) :
    s.mfSet (0x40 + 8 * k) w = .next (s.updMf (fun f => { f with
      kskey := BitVec.ofNat 512 (putDigit (2 ^ 64) f.kskey.toNat k w) })) := by
  have hi : 8 * (0x40 + 8 * k - 0x40) = 64 * k := by omega
  simp only [State.mfSet, hi, Nat.pow_mul, putDigit]
  repeat rw [if_neg (by grind)]
  rw [if_pos (by grind)]

/-- What a write of a register of the other arrays does (13 R400). -/
theorem State.mfSet_arrays (s : State) (k w : Nat) :
    (k < 4 → s.mfSet (0x100 + 8 * k) w = .next (s.updMf (fun f => { f with
      h2w := Tbl.put f.h2w k (BitVec.ofNat 64 (fld w 47 17 * 2 ^ 47 + fld w 0 19)) })))
    ∧ (k < 16 → s.mfSet (0x180 + 8 * k) w
      = .next { s with mem := { s.mem with cmtb := Tbl.put s.mem.cmtb k (BitVec.ofNat 64 (w % 2 ^ 56)) } })
    ∧ (k < 8 → s.mfSet (0x200 + 8 * k) w
      = .next (s.setPort k { s.port k with nsid := BitVec.ofNat 32 (fld w 32 32), tmo := fld w 24 8, en := bit w 0 }))
    ∧ (k < 4 → s.mfSet (0x300 + 8 * k) w
      = let s1 := s.setDie k { s.die k with haltPack := bit w 1, halted := (s.die k).halted && !bit w 2 }
        if bit w 0 then execDbgctlResume k s1 else .next s1)
    ∧ (k < 16 → s.mfSet (0x10000 + 4 * k) w = execSlhmWrite k w s)
    ∧ (k < 16 → s.mfSet (0x10040 + 4 * k) w = execSlhcWrite k w s)
    ∧ (k < 1024 → s.mfSet (0x20000 + 8 * k) w = .next (s.updMf (fun f => { f with
      imap := Tbl.put f.imap k (BitVec.ofNat 64 (b2n (bit w 63) * 2 ^ 63 + fld w 16 42 * 2 ^ 16)) }))) := by
  refine ⟨?_, ?_, ?_, ?_, ?_, ?_, ?_⟩ <;> intro hk <;>
    simp only [State.mfSet, State.mfSet.bit', Nat.add_sub_cancel_left, Nat.mul_div_cancel_left, Nat.zero_lt_succ]
  all_goals
    repeat rw [if_neg (by grind)]
    rw [if_pos (by grind)]

/-! Accesses of a register, and accesses that no register has. -/

theorem registerWrite_mf {s : State} {o n x w : Nat} (hr : s.mfReg o = some (o, n, x)) (hw : w < 2 ^ (8 * n)) :
    exec (.registerWrite 0 o n w) s = s.mfSet o w := by
  show execRegisterWrite 0 o n w s = _
  simp [execRegisterWrite, hr, Nat.mod_eq_of_lt hw]

theorem registerWrite_mf_lowHalf {s : State} {o x w : Nat} (hr : s.mfReg o = some (o, 8, x)) (ho : o % 4 = 0) (hw : w < 2 ^ 32) :
    exec (.registerWrite 0 o 4 w) s = s.mfSet o (x / 2 ^ 32 * 2 ^ 32 + w) := by
  show execRegisterWrite 0 o 4 w s = _
  simp only [execRegisterWrite, hr, if_true, Nat.mod_eq_of_lt hw]
  simp [ho]

theorem registerWrite_mf_highHalf {s : State} {o x w : Nat} (hr : s.mfReg (o + 4) = some (o, 8, x)) (ho : o % 4 = 0) (hw : w < 2 ^ 32) :
    exec (.registerWrite 0 (o + 4) 4 w) s = s.mfSet o (w * 2 ^ 32 + x % 2 ^ 32) := by
  show execRegisterWrite 0 (o + 4) 4 w s = _
  simp only [execRegisterWrite, hr, if_true, Nat.mod_eq_of_lt hw]
  simp [ho]

theorem registerWrite_die {s : State} {die o n x w : Nat} (he : s.mf.enabled = true) (hd : die < 7) (hr : s.dieReg die o = some (o, n, x))
    (hw : w < 2 ^ (8 * n)) : exec (.registerWrite (die + 1) o n w) s = s.dieSet die o w := by
  have h8 : ¬ 8 ≤ die + 1 := by omega
  show execRegisterWrite (die + 1) o n w s = _
  simp [execRegisterWrite, he, h8, hr, Nat.mod_eq_of_lt hw]

theorem registerWrite_msix {s : State} {fn o x : Nat} (w : Nat) (he : fn = 0 ∨ s.mf.enabled = true) (hr : s.msixReg fn o = some (o, 8, x)) :
    exec (.registerWrite (8 + fn) o 8 w) s = .next (s.msixSet fn o (w % 2 ^ 64)) := by
  have hg : (8 + fn != 8 && !s.mf.enabled) = false := by rcases he with rfl | h <;> simp [*]
  show execRegisterWrite (8 + fn) o 8 w s = _
  simp [execRegisterWrite, hg, hr]

/-- A function that is not enabled has no registers; BAR4 of the management function, number 8, is there before (13 R401). -/
theorem registerWrite_disabled {s : State} {fn off size v : Nat} (he : s.mf.enabled = false) (hf : fn ≠ 7) :
    exec (.registerWrite (fn + 1) off size v) s = .next s ∧ s.bar0 (fn + 1) off size = none := by
  constructor
  · show execRegisterWrite (fn + 1) off size v s = _
    simp [execRegisterWrite, he, hf]
  · simp [State.bar0, he, hf]

theorem registerWrite_undefined {s : State} {off size v : Nat} (h : s.mfReg off = none) :
    exec (.registerWrite 0 off size v) s = .next s ∧ s.bar0 0 off size = some 0 := by
  constructor
  · show execRegisterWrite 0 off size v s = _
    simp [execRegisterWrite, h]
  · simp [State.bar0, h]

theorem registerWrite_wrongSize {s : State} {off size v n x : Nat} (h : s.mfReg off = some (off, n, x)) (hn : size ≠ n)
    (h8 : ¬ (n = 8 ∧ size = 4)) : exec (.registerWrite 0 off size v) s = .next s ∧ s.bar0 0 off size = none := by
  have hpos : 0 < n := by rcases State.mfReg_width h with rfl | rfl <;> decide
  constructor
  · show execRegisterWrite 0 off size v s = _
    simp only [execRegisterWrite, h, if_true]
    rw [if_neg (by grind), if_neg (by grind)]
  · simp only [State.bar0, h, if_true]
    rw [if_neg (by simp), if_neg (by omega), if_neg (by grind), if_neg (by grind)]

theorem State.bar0_mf {s : State} {off n x : Nat} (h : s.mfReg off = some (off, n, x)) :
    s.bar0 0 off n = some (if writeOnly off then 0 else x % 2 ^ (8 * n)) := by
  have hpos : 0 < n := by rcases State.mfReg_width h with rfl | rfl <;> decide
  cases hw : writeOnly off <;> simp [State.bar0, h, hw, Nat.ne_of_gt hpos]

theorem State.bar0_msix {s : State} {fn o x : Nat} (he : fn = 0 ∨ s.mf.enabled = true) (hr : s.msixReg fn o = some (o, 8, x)) :
    s.bar0 (8 + fn) o 8 = some (x % 2 ^ 64) := by
  have hg : (8 + fn != 0 && 8 + fn != 8 && !s.mf.enabled) = false := by rcases he with rfl | h <;> simp [*]
  simp [State.bar0, hg, hr]

end Sys2Proof.Machine
end

section
/-! What a write of each register does, as the obligation on the management function states it. -/

namespace Sys2Proof.Machine

/-! Registers of 8 bytes of the management function. -/

theorem registerWrite_kscmd {s : State} {w : Nat} (hw : w < 2 ^ 64) :
    exec (.registerWrite 0 0 8 w) s = .next (s.kscmd (w / 2 ^ 62) (w / 2 ^ 32 % 4096)) := by
  rw [← fld_eq_div (n := 2) hw]
  exact registerWrite_mf rfl hw

theorem registerWrite_cmcmd {s : State} {w : Nat} (hw : w < 2 ^ 64) : exec (.registerWrite 0 0xC8 8 w) s = .next (s.cmcmd (w / 2 ^ 62) w) := by
  rw [← fld_eq_div (n := 2) hw]
  exact registerWrite_mf rfl hw

/-- A number of c words in a vector of as many bits. -/
theorem toNat_ofNat_words {n c y : Nat} (h : n = 64 * c) (hy : y < (2 ^ 64) ^ c) : (BitVec.ofNat n y).toNat = y := by
  rw [BitVec.toNat_ofNat, h, Nat.pow_mul, Nat.mod_eq_of_lt hy]

theorem toNat_lt_words {n : Nat} (c : Nat) (x : BitVec n) (h : n = 64 * c) : x.toNat < (2 ^ 64) ^ c := by
  rw [← Nat.pow_mul, ← h]
  exact x.isLt

/-- A word of KSKEY is written, and the others stay (13 R397). -/
theorem registerWrite_kskey {s : State} {k w : Nat} (hk : k < 8) (hw : w < 2 ^ 64) :
    s.event? (.registerWrite 0 (0x40 + 8 * k) 8 w) (fun t => ∃ y, t = { s with mf := { s.mf with kskey := y } }
      ∧ y.toNat / 2 ^ (64 * k) % 2 ^ 64 = w ∧ ∀ j < 8, j ≠ k → y.toNat / 2 ^ (64 * j) % 2 ^ 64 = s.mf.kskey.toNat / 2 ^ (64 * j) % 2 ^ 64) := by
  obtain ⟨x, hr⟩ := s.mfReg_array (base := 0x40) (stride := 8) (n := 8) (count := 8) (by simp [mfArrays]) hk
  have hy := putDigit_lt hw hk (toNat_lt_words 8 s.mf.kskey rfl)
  refine ⟨_, (registerWrite_mf hr hw).trans (s.mfSet_kskey hk), _, rfl, ?_, fun j _ hj => ?_⟩
  · rw [toNat_ofNat_words rfl hy, Nat.pow_mul, digit_putDigit k hw]
  · rw [toNat_ofNat_words rfl hy, Nat.pow_mul, digit_putDigit_ne hw hj]

theorem registerWrite_h2w {s : State} {k w : Nat} (hk : k < 4) (hw : w < 2 ^ 64) :
    s.event? (.registerWrite 0 (0x100 + 8 * k) 8 w) (fun t => ∃ y, t = { s with mf := { s.mf with h2w := y } }
      ∧ Tbl.get 0 y k = BitVec.ofNat 64 (w / 2 ^ 47 * 2 ^ 47 + w % 2 ^ 19) ∧ ∀ j, j ≠ k → Tbl.get 0 y j = Tbl.get 0 s.mf.h2w j) := by
  obtain ⟨x, hr⟩ := s.mfReg_array (base := 0x100) (stride := 8) (n := 8) (count := 4) (by simp [mfArrays]) hk
  obtain ⟨hset, -⟩ := s.mfSet_arrays k w
  refine ⟨_, (registerWrite_mf hr hw).trans (hset hk), _, rfl, ?_, fun j hj => Tbl.get_put_ne _ _ _ hj⟩
  rw [Tbl.get_put_same, fld_eq_div hw, fld_zero]

theorem registerWrite_cmtb {s : State} {k w : Nat} (hk : k < 16) (hw : w < 2 ^ 64) :
    s.event? (.registerWrite 0 (0x180 + 8 * k) 8 w) (fun t => t.mf = s.mf
      ∧ Tbl.get 0 t.mem.cmtb k = BitVec.ofNat 64 (w % 2 ^ 56) ∧ ∀ j, j ≠ k → Tbl.get 0 t.mem.cmtb j = Tbl.get 0 s.mem.cmtb j) := by
  obtain ⟨x, hr⟩ := s.mfReg_array (base := 0x180) (stride := 8) (n := 8) (count := 16) (by simp [mfArrays]) hk
  obtain ⟨-, hset, -⟩ := s.mfSet_arrays k w
  exact ⟨_, (registerWrite_mf hr hw).trans (hset hk), rfl, Tbl.get_put_same _ _ _ _, fun j hj => Tbl.get_put_ne _ _ _ hj⟩

theorem registerWrite_fecfg {s : State} {k w : Nat} (hk : k < 8) (hw : w < 2 ^ 64) :
    exec (.registerWrite 0 (0x200 + 8 * k) 8 w) s
      = .next (s.setPort k { s.port k with nsid := BitVec.ofNat 32 (w / 2 ^ 32), tmo := w / 2 ^ 24 % 256, en := w.testBit 0 }) := by
  obtain ⟨x, hr⟩ := s.mfReg_array (base := 0x200) (stride := 8) (n := 8) (count := 8) (by simp [mfArrays]) hk
  obtain ⟨-, -, hset, -⟩ := s.mfSet_arrays k w
  rw [registerWrite_mf hr hw, hset hk, fld_eq_div hw, bit_eq_testBit]
  rfl

theorem registerWrite_imap {s : State} {k w : Nat} (hk : k < 1024) (hw : w < 2 ^ 64) :
    s.event? (.registerWrite 0 (0x20000 + 8 * k) 8 w) (fun t => ∃ y, t = { s with mf := { s.mf with imap := y } }
      ∧ Tbl.get 0 y k = BitVec.ofNat 64 (w / 2 ^ 63 * 2 ^ 63 + w / 2 ^ 16 % 2 ^ 42 * 2 ^ 16) ∧ ∀ j, j ≠ k → Tbl.get 0 y j = Tbl.get 0 s.mf.imap j) := by
  obtain ⟨x, hr⟩ := s.mfReg_array (base := 0x20000) (stride := 8) (n := 8) (count := 1024) (by simp [mfArrays]) hk
  obtain ⟨-, -, -, -, -, -, hset⟩ := s.mfSet_arrays k w
  have h63 : w / 2 ^ 63 % 2 = w / 2 ^ 63 := by omega
  refine ⟨_, (registerWrite_mf hr hw).trans (hset hk), _, rfl, ?_, fun j hj => Tbl.get_put_ne _ _ _ hj⟩
  rw [Tbl.get_put_same, b2n_bit, h63, fld]

/-! Registers of 4 bytes of the management function. -/

theorem registerWrite_drst {s : State} {w : Nat} (hw : w < 2 ^ 32) (h : w.testBit 2 = true) :
    exec (.registerWrite 0 0xB8 4 w) s = exec (.drstGo (w % 4)) s := by
  have hset : s.mfSet 0xB8 w = if bit w 2 then execDrstGo (w % 4) s else .next (s.updMf (fun f => { f with drstDie := w % 4 })) := rfl
  rw [registerWrite_mf rfl hw, hset, bit_eq_testBit, if_pos h]
  rfl

theorem registerWrite_dbggo {s : State} {w : Nat} (hw : w < 2 ^ 32) (h : w.testBit 2 = true) :
    exec (.registerWrite 0 0x440 4 w) s = exec (.dbggoGo (w % 4)) s := by
  have hset : s.mfSet 0x440 w = if bit w 2 then execDbggoGo (w % 4) s else .next (s.updMf (fun f => { f with dbgDie := w % 4 })) := rfl
  rw [registerWrite_mf rfl hw, hset, bit_eq_testBit, if_pos h]
  rfl

theorem registerWrite_alm {s : State} {w : Nat} (hw : w < 2 ^ 32) :
    exec (.registerWrite 0 0x88 4 w) s = .next { s with mf := { s.mf with
      almSrc := s.mf.almSrc &&& ~~~(BitVec.ofNat 5 w), pol := if s.mf.almLock then s.mf.pol else w / 2 ^ 16 % 4
      almLock := s.mf.almLock || w.testBit 31 } } := by
  rw [← bit_eq_testBit]
  exact registerWrite_mf rfl hw

/-- Among the 16 bits of BDRST a word with one bit set names its slice alone (13 R403). -/
theorem bits_of_two_pow : ∀ i < 16, (List.range 16).filter (fun j => bit (2 ^ i) j) = [i] := by decide

theorem registerWrite_bdrst {s : State} {i : Nat} (hi : i < 16) : exec (.registerWrite 0 0xC0 4 (2 ^ i)) s = exec (.bdrstReset i) s := by
  have hw : 2 ^ i < 2 ^ (8 * 4) := Nat.pow_lt_pow_right (by decide) (by omega)
  have hset : s.mfSet 0xC0 (2 ^ i) = .next ((List.range 16).foldl (fun s j => if bit (2 ^ i) j then s.baseReset j else s) s) := rfl
  rw [registerWrite_mf rfl hw, hset, ← List.foldl_filter, bits_of_two_pow i hi]
  rfl

theorem registerWrite_slhm {s : State} {k w : Nat} (hk : k < 16) (hw : w < 2 ^ 32) :
    exec (.registerWrite 0 (0x10000 + 4 * k) 4 w) s = exec (.slhmWrite k w) s := by
  obtain ⟨x, hr⟩ := s.mfReg_array (base := 0x10000) (stride := 4) (n := 4) (count := 16) (by simp [mfArrays]) hk
  obtain ⟨-, -, -, -, hset, -⟩ := s.mfSet_arrays k w
  exact (registerWrite_mf hr hw).trans (hset hk)

theorem registerWrite_slhc {s : State} {k w : Nat} (hk : k < 16) (hw : w < 2 ^ 32) :
    exec (.registerWrite 0 (0x10040 + 4 * k) 4 w) s = exec (.slhcWrite k w) s := by
  obtain ⟨x, hr⟩ := s.mfReg_array (base := 0x10040) (stride := 4) (n := 4) (count := 16) (by simp [mfArrays]) hk
  obtain ⟨-, -, -, -, -, hset, -⟩ := s.mfSet_arrays k w
  exact (registerWrite_mf hr hw).trans (hset hk)

/-- A write of DBGCTL without its resume bit (06 R207). -/
theorem registerWrite_dbgctl {s : State} {k w : Nat} (hk : k < 4) (hw : w < 2 ^ 32) (h0 : w.testBit 0 = false) :
    exec (.registerWrite 0 (0x300 + 8 * k) 4 w) s
      = .next (s.setDie k { s.die k with haltPack := w.testBit 1, halted := (s.die k).halted && !w.testBit 2 }) := by
  obtain ⟨x, hr⟩ := s.mfReg_array (base := 0x300) (stride := 8) (n := 4) (count := 4) (by simp [mfArrays]) hk
  obtain ⟨-, -, -, hset, -⟩ := s.mfSet_arrays k w
  rw [registerWrite_mf hr hw, hset hk]
  simp only [bit_eq_testBit, h0]
  rfl

/-! Registers of a die function. -/

theorem registerWrite_ptok {s : State} {k w : Nat} (hk : k < 4) (he : s.mf.enabled = true) (hw : w < 2 ^ 32) :
    exec (.registerWrite (k + 1) 0x428 4 w) s = .next (s.setDie k { s.die k with pool := w / 2 ^ 12 % 1024 }) :=
  registerWrite_die he (by omega) rfl hw

theorem registerWrite_frdb {s : State} {k w : Nat} (hk : k < 4) (he : s.mf.enabled = true) (hw : w < 2 ^ 32) :
    exec (.registerWrite (k + 1) 0x420 4 w) s = exec (if w.testBit 0 then .frdbFail k (w / 2 ^ 16) else .frdbServiced k (w / 2 ^ 16)) s := by
  have hset : s.dieSet k 0x420 w = .next (s.frdb k (fld w 16 16) (bit w 0)) := rfl
  rw [registerWrite_die he (by omega) rfl hw, hset, fld_eq_div hw, bit_eq_testBit]
  cases w.testBit 0 <;> rfl

/-- The upper word of a submission queue descriptor is written whole (07 R210). -/
theorem registerWrite_sqdHigh {s : State} {k i w : Nat} (hk : k < 4) (hi : i < 64) (he : s.mf.enabled = true) (hw : w < 2 ^ 64) :
    exec (.registerWrite (k + 1) (16 * i + 8) 8 w) s = .next (s.setDie k { s.die k with
      sqd := Tbl.put (s.die k).sqd i (BitVec.ofNat 128 (w * 2 ^ 64 + (Tbl.get (0 : BitVec 128) (s.die k).sqd i).toNat % 2 ^ 64)) }) := by
  have ho : (16 * i + 8) / 8 * 8 = 16 * i + 8 := by omega
  have hlt : 16 * i + 8 < 0x400 := by omega
  have hdiv : (16 * i + 8) / 16 = i := by omega
  have hmod : ¬ (16 * i + 8) % 16 = 0 := by omega
  have hr : ∃ x, s.dieReg k (16 * i + 8) = some (16 * i + 8, 8, x) := by simp only [State.dieReg, ho, if_pos hlt]; exact ⟨_, rfl⟩
  obtain ⟨x, hr⟩ := hr
  rw [registerWrite_die he (by omega) hr hw]
  simp only [State.dieSet, if_pos hlt, hdiv, if_neg hmod]

/-! The MSI-X table (13 R401). -/

theorem State.msixReg_low (s : State) (fn : Nat) {k : Nat} (hk : k < 256) :
    s.msixReg fn (16 * k) = some (16 * k, 8, (s.mf.msixAt fn k).toNat % 2 ^ 64) := by
  have ho : 16 * k / 8 * 8 = 16 * k := by omega
  have hdiv : 16 * k / 16 = k := by omega
  have hmod : 16 * k % 16 = 0 := by omega
  simp only [State.msixReg, ho, hdiv, hmod]
  rw [if_pos (by omega), Nat.mul_zero, fld, Nat.pow_zero, Nat.div_one]

theorem fld_high (x : BitVec 128) : fld x.toNat 64 64 = x.toNat / 2 ^ 64 := by
  have h : x.toNat < 2 ^ (64 + 64) := x.isLt
  exact fld_eq_div h

theorem State.msixReg_high (s : State) (fn : Nat) {k : Nat} (hk : k < 256) :
    s.msixReg fn (16 * k + 8) = some (16 * k + 8, 8, (s.mf.msixAt fn k).toNat / 2 ^ 64) := by
  have ho : (16 * k + 8) / 8 * 8 = 16 * k + 8 := by omega
  have hdiv : (16 * k + 8) / 16 = k := by omega
  have hmod : (16 * k + 8) % 16 = 8 := by omega
  simp only [State.msixReg, ho, hdiv, hmod]
  rw [if_pos (by omega), fld_high]

/-- The state with an entry of the MSI-X table. -/
def State.setMsix (s : State) (fn k : Nat) (e : BitVec 128) : State := s.updMf (fun f => { f with msix := Tbl.put f.msix (fn * 256 + k) e })

theorem State.msixAt_setMsix (s : State) (fn k : Nat) (e : BitVec 128) : (s.setMsix fn k e).mf.msixAt fn k = e := Tbl.get_put_same _ _ _ _

theorem State.msixAt_setMsix_ne (s : State) (fn : Nat) {j k : Nat} (e : BitVec 128) (h : j ≠ k) :
    (s.setMsix fn k e).mf.msixAt fn j = s.mf.msixAt fn j := Tbl.get_put_ne _ _ _ (by omega)

/-- An entry with another upper word, which holds its data and its mask. -/
def msixHigh (w : Nat) (e : BitVec 128) : Nat := w * 2 ^ 64 + e.toNat % 2 ^ 64

theorem msixHigh_lt {w : Nat} (e : BitVec 128) (hw : w < 2 ^ 64) : msixHigh w e < 2 ^ 128 := by
  rw [msixHigh]; omega

theorem msixHigh_mod (w : Nat) (e : BitVec 128) : msixHigh w e % 2 ^ 64 = e.toNat % 2 ^ 64 := by
  rw [msixHigh]; omega

theorem msixHigh_div (w : Nat) (e : BitVec 128) : msixHigh w e / 2 ^ 64 = w := by
  rw [msixHigh]; omega

/-- The mask, bit 96 of an entry, is bit 32 of its upper word. -/
theorem bit_msixHigh {w : Nat} (e : BitVec 128) (h : w % 2 ^ 33 / 2 ^ 32 = 0) : bit (msixHigh w e) 96 = false := by
  simp only [bit, msixHigh, beq_eq_false_iff_ne]
  omega

/-- A write of the upper word of an entry: a pending vector whose mask goes is no longer pending, and is sent. -/
theorem State.msixSet_high (s : State) (fn : Nat) {k w : Nat} (hk : k < 256) :
    s.msixSet fn (16 * k + 8) w =
      let new := msixHigh w (s.mf.msixAt fn k)
      let s1 := s.setMsix fn k (BitVec.ofNat 128 new)
      if s.mf.pba.contains (fn * 256 + k) && !bit new 96 then
        (s1.updMf (fun f => { f with pba := f.pba.filter (· != fn * 256 + k) })).interrupt fn k
      else s1 := by
  have hdiv : (16 * k + 8) / 16 = k := by omega
  have hmod : ¬ (16 * k + 8) % 16 = 0 := by omega
  simp only [State.msixSet, hdiv, if_neg hmod]
  rw [if_neg (by omega)]
  rfl

theorem registerWrite_msix_notPending {s : State} {fn k w : Nat} (hk : k < 256) (he : fn = 0 ∨ s.mf.enabled = true) (hw : w < 2 ^ 64)
    (hp : fn * 256 + k ∉ s.mf.pba) : s.event? (.registerWrite (8 + fn) (16 * k + 8) 8 w) (fun t => t.mem = s.mem ∧ t.mf.pba = s.mf.pba
      ∧ t.mf.msixAt fn k = BitVec.ofNat 128 (w * 2 ^ 64 + (s.mf.msixAt fn k).toNat % 2 ^ 64)
      ∧ (∀ j, j < 256 → j ≠ k → t.mf.msixAt fn j = s.mf.msixAt fn j)) := by
  refine ⟨s.setMsix fn k (BitVec.ofNat 128 (msixHigh w (s.mf.msixAt fn k))), ?_, rfl, rfl, s.msixAt_setMsix fn k _,
    fun j _ hj => s.msixAt_setMsix_ne fn _ hj⟩
  rw [registerWrite_msix w he (s.msixReg_high fn hk), Nat.mod_eq_of_lt hw, s.msixSet_high fn hk]
  simp [hp]

theorem registerWrite_msix_pending {s : State} {fn k w : Nat} (hk : k < 256) (he : fn = 0 ∨ s.mf.enabled = true) (hw : w < 2 ^ 64)
    (hm : w % 2 ^ 33 / 2 ^ 32 = 0) (hp : fn * 256 + k ∈ s.mf.pba) : s.event? (.registerWrite (8 + fn) (16 * k + 8) 8 w) (fun t =>
      let e := (s.mf.msixAt fn k).toNat
      fn * 256 + k ∉ t.mf.pba ∧ t.mem.out = s.mem.out ++ [{ kind := 3, addr := fn, data := k, mask := e % 2 ^ 64, aux := w % 2 ^ 32 }]) := by
  let x := s.mf.msixAt fn k
  have hb : bit (msixHigh w x) 96 = false := bit_msixHigh x hm
  let u := (s.setMsix fn k (BitVec.ofNat 128 (msixHigh w x))).updMf (fun f => { f with pba := f.pba.filter (· != fn * 256 + k) })
  have hn : (u.mf.msixAt fn k).toNat = msixHigh w x := by
    have h : u.mf.msixAt fn k = BitVec.ofNat 128 (msixHigh w x) := Tbl.get_put_same _ _ _ _
    rw [h, BitVec.toNat_ofNat, Nat.mod_eq_of_lt (msixHigh_lt x hw)]
  have hu : (u.mf.msixAt fn k).getLsbD 96 = false := by rw [← bit_toNat, hn, hb]
  refine ⟨u.interrupt fn k, ?_, ?_⟩
  · rw [registerWrite_msix w he (s.msixReg_high fn hk), Nat.mod_eq_of_lt hw, s.msixSet_high fn hk]
    simp only [x, u, hb, List.contains_iff_mem.2 hp, Bool.not_false, Bool.and_true, if_true]
  · rw [State.interrupt_unmasked u fn k hu, hn, msixHigh_mod, msixHigh_div]
    exact ⟨by simp [u, State.updMf], rfl⟩

end Sys2Proof.Machine
end

section
/-! The commands of the management function, and the obligation that says what they and the register writes do. -/

namespace Sys2Proof.Machine

/-! Key slots (13 R396, R397; 01 R48). -/

theorem keySlotOpDone_load {s : State} (hb : s.mf.ksBusy = true) (hop : s.mf.ksOp = 1) :
    exec .keySlotOpDone s = .next { s with
      mem := s.mem.rekey s.mf.ksSlot, mf := { s.mf with ksBusy := false, ksStat := 0, kskey := 0 } } := by
  show execKeySlotOpDone s = _
  simp [execKeySlotOpDone, hb, hop]

theorem keySlotOpDone_revoke {s : State} (hb : s.mf.ksBusy = true) (hop : s.mf.ksOp = 2) :
    exec .keySlotOpDone s = .next { s with mem := s.mem.revoke s.mf.ksSlot, mf := { s.mf with ksBusy := false, ksStat := 0 } } := by
  show execKeySlotOpDone s = _
  simp [execKeySlotOpDone, hb, hop]

/-- A revoked slot has no line left, in a slice, an L1 or a die cache; other slots and HBM stay. -/
theorem Mem.revoke_spec (m : Mem) (k : Nat) :
    ((m.revoke k).key k).revoked = true
    ∧ (∀ i < 16, (∀ l ∈ ((m.revoke k).slice i).lines, l.slot ≠ k) ∧ ∀ p ∈ ((m.revoke k).slice i).spill, p.slot ≠ k)
    ∧ (∀ c, ∀ l ∈ (m.revoke k).lines1 c, l.slot.getD (m.lineSlot l.asid l.line) ≠ k)
    ∧ (∀ c, ∀ l ∈ Tbl.get [] (m.revoke k).dc c, l.ver = none → m.lineSlot l.asid l.line ≠ k)
    ∧ (∀ j, j ≠ k → (m.revoke k).key j = m.key j) ∧ (m.revoke k).hbm = m.hbm := by
  refine ⟨?_, fun i hi => ?_, fun c l hl => ?_, fun c l hl hv => ?_, fun j hj => ?_, m.hbm_revoke k⟩
  · rw [Mem.key_revoke, if_pos rfl]
  · simp [Mem.slice_revoke m k i hi, Slice.withoutSlot]
  · rw [Mem.lines1_revoke] at hl
    simpa using (List.mem_filter.1 hl).2
  · rw [Mem.dc_revoke] at hl
    simpa [hv] using (List.mem_filter.1 hl).2
  · rw [Mem.key_revoke, if_neg hj]

/-! Alarms and debug unlock (13 R407, R420 to R422). -/

/-- The vector of an alarm: sent, or pending while it is masked. -/
theorem State.alarm_vector (s : State) (src : Nat) : let e := s.mf.msixAt 0 0
    (e.getLsbD 96 = false → (s.alarm src).mf.pba = s.mf.pba ∧ (s.alarm src).mem.out
      = s.mem.out ++ [{ kind := 3, addr := 0, data := 0, mask := e.toNat % 2 ^ 64, aux := e.toNat / 2 ^ 64 % 2 ^ 32 }])
    ∧ (e.getLsbD 96 = true → 0 ∈ (s.alarm src).mf.pba ∧ (s.alarm src).mem.out = s.mem.out) := by
  refine ⟨fun h => ?_, fun h => ?_⟩
  · rw [State.alarm_pba, State.alarm_out, State.interrupt_unmasked (s.alarmed src) 0 0 h]
    exact ⟨rfl, rfl⟩
  · rw [State.alarm_pba, State.alarm_out, State.interrupt_masked (s.alarmed src) 0 0 h]
    exact ⟨by simp, rfl⟩

theorem debugUnlockResult_live {s : State} {v : Nat} (hd : s.mf.dbgStat = 1)
    (hl : (s.die s.mf.dbgDie).tdi = .locked ∨ (s.die s.mf.dbgDie).tdi = .run) :
    exec (.debugUnlockResult v) s = .next { s with mf := { s.mf with dbgStat := 3, dbgunl := [] } } := by
  show execDebugUnlockResult v s = _
  rcases hl with h | h <;> simp [execDebugUnlockResult, State.updMf, hd, h]

/-- Without a live TDI an accepted proof sets the die's enable, and a refused one raises the DBG alarm. -/
theorem debugUnlockResult_idle {s : State} (v : Nat) (hd : s.mf.dbgStat = 1)
    (hl : (s.die s.mf.dbgDie).tdi ≠ .locked) (hr : (s.die s.mf.dbgDie).tdi ≠ .run) :
    let s1 := s.updMf (fun f => { f with dbgunl := [] })
    exec (.debugUnlockResult v) s = .next (if v = 1
      then (s1.setDie s.mf.dbgDie { s.die s.mf.dbgDie with dbgEn := true }).updMf (fun f => { f with dbgStat := 2 })
      else (s1.updMf (fun f => { f with dbgStat := 3 })).alarm 1) := by
  show execDebugUnlockResult v s = _
  by_cases hv : v = 1 <;> simp [execDebugUnlockResult, hd, hl, hr, hv]

/-! TDIs (13 R395, R396, R418, R422). -/

theorem lockInterface_eq (s : State) (die : Nat) : exec (.lockInterface die) s
    = .next (if (s.die die).tdi = .unlocked ∧ (s.die die).dbgEn = false then s.setDie die { s.die die with tdi := .locked } else s) := by
  show execLockInterface die s = _
  simp [execLockInterface]

theorem startInterface_eq (s : State) (die : Nat) : exec (.startInterface die) s
    = .next (if (s.die die).tdi = .locked then s.setDie die { s.die die with tdi := .run } else s) := by
  show execStartInterface die s = _
  simp [execStartInterface]

theorem keyProgram_eq (s : State) (die slot : Nat) : exec (.keyProgram die slot) s
    = .next (if (s.die die).tdi = .locked ∧ slot ≠ 0 then ({ s with mem := s.mem.rekey slot }).setDie die
        { s.die die with ownSlot := some slot, tdiSlots := (s.die die).tdiSlots ++ [slot] } else s) := by
  show execKeyProgram die slot s = _
  by_cases h : (s.die die).tdi = .locked ∧ slot ≠ 0
  · simp [execKeyProgram, h]
  · simp only [execKeyProgram, if_neg h]
    rw [if_neg (by simpa using h)]

theorem spdmResponse_ne_error_iff (code : Nat) :
    code ∈ [0x81, 0x82, 0x83, 0x84, 0xE0, 0xE1, 0xE3, 0xE4, 0xE5, 0xEC, 0xFE] ↔ spdmResponse code % 256 ≠ 0x7F := by
  have hs : ∀ c ∈ spdmRequests, (c - 0x80) % 256 ≠ 0x7F := by decide
  change code ∈ spdmRequests ↔ _
  by_cases h : code ∈ spdmRequests
  · simpa [spdmResponse, h] using hs code h
  · simp [spdmResponse, h]

/-! The compression metadata (02 R78, R79). -/

theorem State.cmcmd_of_busy {s : State} (op v : Nat) (h : s.mf.cmBusy = true) :
    s.cmcmd op v = { s with mf := { s.mf with mfes := s.mf.mfes ||| 8 } } := by
  simp [State.cmcmd, h]

section
variable {s : State} {v : Nat} (hb : s.mf.cmBusy = false)
include hb

theorem cmcmdSet_refused (h : s.mem.cmtLen (fld v 58 4) ≤ fld v 3 23 ∨ 64000000000 < (fld v 26 26 + fld v 52 2 + 1) * 1024) :
    s.event? (.cmcmdSet v) (fun t => t.mf.cmErr = true ∧ t.mf.cmBusy = false ∧ t.mem = s.mem) := by
  refine ⟨s.cmcmd 1 v, rfl, ?_⟩
  simp [State.cmcmd, hb, h]

theorem cmcmdSet_accepted (hrec : fld v 3 23 < s.mem.cmtLen (fld v 58 4)) (hend : (fld v 26 26 + fld v 52 2 + 1) * 1024 ≤ 64000000000) :
    let at' := Mem.blkWordAt (fld v 58 4) (fld v 3 23) (fld v 54 4) s.mem
    s.event? (.cmcmdSet v) (fun t => t.mf.cmErr = false ∧ t.mf.cmBusy = true ∧ t.mem
      = s.mem.putNum 0 at' 8 (fld v 52 2 * 2 ^ 62 + s.mem.num 0 at' 8 / 2 ^ 61 % 2 * 2 ^ 61 + 2 ^ 60 + fld v 26 26)) := by
  refine ⟨s.cmcmd 1 v, rfl, ?_⟩
  rw [← b2n_bit]
  simp [State.cmcmd, hb, Nat.not_le.2 hrec, Nat.not_lt.2 hend]

theorem cmcmdQuery_refused (h : s.mem.cmtLen (fld v 58 4) ≤ fld v 3 23) :
    s.event? (.cmcmdQuery v) (fun t => t.mf.cmErr = true ∧ t.mem = s.mem) := by
  refine ⟨s.cmcmd 2 v, rfl, ?_⟩
  simp [State.cmcmd, hb, h]

theorem cmcmdQuery_answered (h : fld v 3 23 < s.mem.cmtLen (fld v 58 4)) :
    let w := s.mem.num 0 (Mem.blkWordAt (fld v 58 4) (fld v 3 23) (fld v 54 4) s.mem) 8
    s.event? (.cmcmdQuery v) (fun t => t.mf.cmErr = false ∧ t.mem = s.mem ∧ t.mf.cmNu = fld w 62 2
      ∧ t.mf.cmUbase = fld w 0 26 ∧ t.mf.cmSpl = bit w 61) := by
  refine ⟨s.cmcmd 2 v, rfl, ?_⟩
  simp [State.cmcmd, hb, Nat.not_le.2 h]

end

end Sys2Proof.Machine

open Sys2Proof Sys2Proof.Machine

/-- Settles O55: each command from the lemma on its function, each register from the lemma on its write. -/
theorem managementCommands : Obligations.ManagementCommands := by
  intro s slot die v code src dom sl
  refine ⟨?kscmd, ?notLocked, ?noOp, ?opDone, ⟨_, rfl, rfl⟩, ⟨_, rfl, rfl⟩, ⟨_, rfl, rfl⟩, ?alarm, ⟨_, rfl, rfl⟩, ?noUnlock, ?unlock, ?tdi,
    spdmResponse_ne_error_iff code, ?interleave, ?status, ?cmBusy, ?cmIdle, ?cmDone, ?registers⟩
  case kscmd =>
    have hexec {i o} (h : i = .kscmdLoad slot ∧ o = 1 ∨ i = .kscmdRevoke slot ∧ o = 2) : exec i s = .next (s.kscmd o slot) := by
      rcases h with ⟨rfl, rfl⟩ | ⟨rfl, rfl⟩ <;> rfl
    intro i o h
    have ho : o = 1 ∨ o = 2 := h.imp And.right And.right
    rw [hexec h]
    refine ⟨fun hb => by rw [s.kscmd_of_busy o slot hb], fun hb => ?_⟩
    rw [s.kscmd_of_idle o slot hb ho]
    exact ⟨fun h0 => by rw [if_pos h0], fun h0 hl => by rw [if_neg h0, if_pos hl], fun h0 hl => by simp [h0, hl]⟩
  case notLocked => exact fun h => (s.slotLocked_eq_false_iff slot).2 (fun d hd => h d _ hd rfl)
  case noOp =>
    intro hb
    show execKeySlotOpDone s = _
    simp [execKeySlotOpDone, hb]
  case opDone =>
    intro hb
    refine ⟨fun hop => ⟨_, keySlotOpDone_load hb hop, rfl, rfl⟩, fun hop => ⟨_, keySlotOpDone_revoke hb hop, rfl, ?_⟩⟩
    exact s.mem.revoke_spec s.mf.ksSlot
  case alarm =>
    intro _
    obtain ⟨hsrc, hcount, hhalted, herased, hlost, -⟩ := s.alarm_spec src
    exact ⟨s.alarm src, rfl, hsrc, hcount, s.alarm_vector src, hhalted, herased, hlost⟩
  case noUnlock =>
    intro h
    show execDebugUnlockResult v s = _
    simp [execDebugUnlockResult, h]
  case unlock =>
    intro hd
    refine ⟨fun hl => ⟨_, debugUnlockResult_live hd hl, rfl⟩, fun hl hr => ⟨⟨_, debugUnlockResult_idle 1 hd hl hr, rfl, ?_⟩, fun hv => ?_⟩⟩
    · exact Tbl.get_put_same _ _ _ _
    · refine ⟨_, debugUnlockResult_idle v hd hl hr, ?_⟩
      rw [if_neg hv]
      obtain ⟨hsrc, -, -, -, -, hstat, hunl, hdies⟩ :=
        ((s.updMf (fun f => { f with dbgunl := [] })).updMf (fun f => { f with dbgStat := 3 })).alarm_spec 1
      exact ⟨hstat, hunl, hdies, hsrc⟩
  case tdi =>
    refine ⟨fun h => ⟨_, lockInterface_eq s die, if_pos h⟩, fun h => ?_, fun h => ⟨⟨_, startInterface_eq s die, if_pos h⟩, fun h0 => ?_⟩,
      fun h => ⟨?_, ?_⟩, ⟨_, rfl, rfl⟩, rfl⟩
    · rw [lockInterface_eq, if_neg (by simpa [or_iff_not_imp_left] using h)]
    · refine ⟨_, keyProgram_eq s die slot, ?_⟩
      rw [if_pos ⟨h, h0⟩]
      exact ⟨State.die_setDie _ _ _, rfl⟩
    · rw [startInterface_eq, if_neg h]
    · rw [keyProgram_eq, if_neg (fun hk => h hk.1)]
  case interleave =>
    refine ⟨⟨_, rfl, ?_⟩, slhcWrite_spec dom v s⟩
    have h := s.setSlhm_spec dom (fun w => slhmWord (bit v 31) (fld w.toNat 24 4) (bit w.toNat 16)
      (if bit w.toNat 31 then fld w.toNat 0 16 else fld v 0 16))
    simp only [bit_toNat, fld, Nat.reducePow, Nat.div_one] at h ⊢
    exact h
  case status => exact ⟨⟨_, rfl, by simp⟩, ⟨_, rfl, by simp⟩⟩
  case cmBusy =>
    rintro hb i (rfl | rfl)
    · exact congrArg _ (State.cmcmd_of_busy 1 v hb)
    · exact congrArg _ (State.cmcmd_of_busy 2 v hb)
  case cmIdle =>
    intro hb
    refine ⟨cmcmdSet_refused hb, cmcmdSet_accepted hb, cmcmdQuery_refused hb, ?_, ?_⟩
    · have h := @cmcmdQuery_answered s v hb
      simp only [fld_zero] at h
      exact h
    · show execCmcmdSetDone s = _
      simp [execCmcmdSetDone, hb]
  case cmDone =>
    intro hb
    show ∃ t, execCmcmdSetDone s = .next t ∧ _
    simp [execCmcmdSetDone, hb]
  case registers =>
    intro fn off size k i w
    refine ⟨registerWrite_disabled, registerWrite_undefined, fun n x h => ⟨registerWrite_wrongSize h, State.bar0_mf h⟩, ?words, ?halves, ?msix⟩
    case words =>
      intro hw
      exact ⟨fun h => (registerWrite_kscmd hw).trans (by rw [h]; rfl), fun h => (registerWrite_kscmd hw).trans (by rw [h]; rfl),
        registerWrite_mf rfl hw, registerWrite_mf rfl hw,
        fun h => (registerWrite_cmcmd hw).trans (by rw [h]; rfl), fun h => (registerWrite_cmcmd hw).trans (by rw [h]; rfl),
        fun hk => registerWrite_kskey hk hw, fun hk => registerWrite_h2w hk hw, fun hk => registerWrite_cmtb hk hw,
        fun hk => registerWrite_fecfg hk hw, fun hk => registerWrite_imap hk hw⟩
    case halves =>
      intro hw
      exact ⟨registerWrite_mf rfl hw, registerWrite_mf rfl hw, fun h => ⟨registerWrite_drst hw h, registerWrite_dbggo hw h⟩,
        registerWrite_mf rfl hw, registerWrite_alm hw, fun hi h => h ▸ registerWrite_bdrst hi,
        fun hk => ⟨registerWrite_slhm hk hw, registerWrite_slhc hk hw⟩, fun hk h0 => registerWrite_dbgctl hk hw h0,
        fun hk he => ⟨registerWrite_ptok hk he hw, registerWrite_frdb hk he hw,
          fun hi => ⟨_, registerWrite_sqdHigh hk hi he (Nat.lt_trans hw (by decide)), rfl⟩⟩,
        registerWrite_mf_lowHalf rfl rfl hw, registerWrite_mf_highHalf (o := 0xA0) rfl rfl hw⟩
    case msix =>
      intro hf hk he
      refine ⟨?_, ?_, ?_, registerWrite_msix_notPending hk he, registerWrite_msix_pending hk he⟩
      · rw [State.bar0_msix he (s.msixReg_low fn hk), Nat.mod_mod]
      · rw [State.bar0_msix he (s.msixReg_high fn hk), ← fld_high, fld, Nat.mod_mod]
      · exact registerWrite_msix w he rfl
end

section
/-! A fetch fault of an ejected lane whose thread holds a grant of power tokens (01 R28; 06 R201; 07 R230). -/

namespace Sys2Proof.Machine

/-- An ejected lane at a PC beyond 55 bits, whose thread holds a grant of power tokens. -/
def grantedStray : State :=
  { threads := [(0, { tok := .granted })], cur := { act := .thread 0 0, pc := 0x80000000000000 } }

theorem grantedStray_fetch : grantedStray.fetch (.thread 0 0) 0x80000000000000
    = (grantedStray, .fault ⟨cBounds, 0⟩ 0x80000000000000) := rfl

/-- The fault gives the grant back before it recalls the lane (log entry 58). -/
theorem grantedStray_givesBack : ∃ t, exec .instructionFetchFault grantedStray = .next t ∧ t.me.tok = .none := ⟨_, rfl, by decide⟩

end Sys2Proof.Machine

open Sys2Proof Sys2Proof.Machine

/-- Refutes O32: for an ejected lane it says that the recall is all that changes, but a fetch fault first gives back a grant of power
tokens that the thread holds (07 R230). -/
theorem not_fetchFault : ¬ Obligations.FetchFault := by
  unfold Obligations.FetchFault
  intro h
  obtain ⟨-, -, hthread, -⟩ := h grantedStray grantedStray _ _ rfl rfl grantedStray_fetch
  obtain ⟨t, hexec, htok⟩ := grantedStray_givesBack
  have hkept : t = grantedStray.setCtx grantedStray.cur.act { grantedStray.me with timedOut := true } :=
    Host.Outcome.next.inj (hexec.symm.trans (hthread 0 0 rfl))
  rw [hkept] at htok
  exact absurd htok (by decide)
end

section
/-! Bytes of a table: what a write of a number, of the bytes under a mask, leaves at each index (00 R7). -/

namespace Sys2Proof.Machine

theorem Tbl.find_del_same {α : Type} (t : Tbl α) (k : Nat) : Tbl.find (Tbl.del t k) k = none := by
  induction t with
  | nil => rfl
  | cons e r ih =>
    obtain ⟨j, u⟩ := e
    by_cases hj : j = k <;> simp [Tbl.del, Tbl.find, hj, ih]

theorem Tbl.find_ins_same {α : Type} (t : Tbl α) (k : Nat) (v : α) (h : Tbl.find t k = none) : Tbl.find (Tbl.ins t k v) k = some v := by
  induction t with
  | nil => simp [Tbl.ins, Tbl.find]
  | cons e r ih =>
    obtain ⟨j, u⟩ := e
    have hj : j ≠ k := fun hj => by simp [Tbl.find, hj] at h
    have hr : Tbl.find r k = none := by simpa [Tbl.find, hj] using h
    simp only [Tbl.ins]
    split <;> simp [Tbl.find, hj, ih hr]

@[simp] theorem Tbl.find_put_same {α : Type} (t : Tbl α) (k : Nat) (v : α) : Tbl.find (Tbl.put t k v) k = some v :=
  Tbl.find_ins_same _ k v (Tbl.find_del_same t k)

theorem bit_ones (lo n b : Nat) : bit (ones lo n) b = decide (lo ≤ b ∧ b < lo + n) := by
  rw [bit_eq_testBit, ones, Nat.testBit_mul_two_pow, Nat.testBit_two_pow_sub_one, Bool.decide_and]
  by_cases h : lo ≤ b
  · simp only [h, decide_true, Bool.true_and, decide_eq_decide]; omega
  · simp [h]

theorem zip_range_toBytes (n x : Nat) :
    (List.range n).zip (toBytes n x) = (List.range n).map (fun i => (i, BitVec.ofNat 8 (x / 2 ^ (8 * i)))) := by
  have hbytes : toBytes n x = (List.range n).map (fun i => BitVec.ofNat 8 (x / 2 ^ (8 * i))) := by
    induction n generalizing x with
    | zero => rfl
    | succ n ih =>
      rw [toBytes, ih, List.range_succ_eq_map, List.map_cons, List.map_map]
      refine congrArg₂ _ (by simp) (List.map_congr_left fun i _ => ?_)
      rw [Function.comp_apply, Nat.mul_succ, Nat.pow_add, Nat.mul_comm (2 ^ (8 * i)), ← Nat.div_div_eq_div_mul]
  have hzip := List.zip_map' (f := fun i => i) (g := fun i => BitVec.ofNat 8 (x / 2 ^ (8 * i))) (l := List.range n)
  rwa [List.map_id', ← hbytes] at hzip

/-- What an index holds after a number is written. -/
theorem get_tblPut (t : Tbl Byte) (k n x b : Nat) :
    Tbl.get 0 (tblPut t k n x) b = if k ≤ b ∧ b < k + n then BitVec.ofNat 8 (x / 2 ^ (8 * (b - k))) else Tbl.get 0 t b := by
  rw [tblPut, zip_range_toBytes, List.foldl_map, get_foldl_range (fun i => BitVec.ofNat 8 (x / 2 ^ (8 * i)))]

theorem get_overBytes (mask : Nat) (data old : Tbl Byte) {b : Nat} (hb : b < 128) :
    Tbl.get 0 (overBytes mask data old) b = if bit mask b then Tbl.get 0 data b else Tbl.get 0 old b := by
  have h (n : Nat) : Tbl.get 0 ((List.range n).foldl (fun t i => if bit mask i then Tbl.set 0 t i (Tbl.get 0 data i) else t) old) b
      = if b < n ∧ bit mask b = true then Tbl.get 0 data b else Tbl.get 0 old b := by
    induction n with
    | zero => simp
    | succ n ih =>
      rw [List.range_succ, List.foldl_append, List.foldl_cons, List.foldl_nil]
      by_cases hbn : b = n
      · subst hbn
        split <;> simp_all [Tbl.get_set]
      · have hlt : b < n + 1 ↔ b < n := by omega
        split <;> simp only [Tbl.get_set, if_neg hbn, hlt, ih]
  rw [overBytes, h]
  simp [hb]

/-- A number written over the bytes of a line. -/
theorem get_overBytes_tblPut (old : Tbl Byte) (k n x : Nat) {b : Nat} (hb : b < 128) :
    Tbl.get 0 (overBytes (ones k n) (tblPut [] k n x) old) b
      = if k ≤ b ∧ b < k + n then BitVec.ofNat 8 (x / 2 ^ (8 * (b - k))) else Tbl.get 0 old b := by
  rw [get_overBytes _ _ _ hb, bit_ones, get_tblPut]
  simp only [decide_eq_true_eq]
  split <;> rfl

end Sys2Proof.Machine
end

section
/-! A request at its home slice (02 R49, R60, R68; 04 R121, R126): the request of a context, the translation and the line that a slice
has of an address, and what each arrival comes to. -/

namespace Sys2Proof.Machine

/-! The request of a context. -/

@[simp] theorem State.setOp_mem (s : State) (a : Actor) (o : Option MemOp) : (s.setOp a o).mem = s.mem := State.updCtx_mem s a _

@[simp] theorem State.opOf_setOp (s : State) (a : Actor) (o : MemOp) : (s.setOp a (some o)).opOf a = some o := by
  simp [State.opOf, State.setOp, State.updCtx]

/-- A warning changes of its actor's context the warnings alone; that of an engine program goes to its group. -/
theorem State.ctx_warnOf (s : State) (a : Actor) (w : W32) : (s.warnOf a w).ctx a = (s.ctx a).warns w ∨ (s.warnOf a w).ctx a = s.ctx a := by
  cases a with
  | mseq c => exact .inr rfl
  | cseq c => exact .inr rfl
  | split c g k => exact .inl (State.ctx_setCtx s (.split c g k) ((s.ctx (.split c g k)).warns w))
  | thread d t => exact .inl (State.ctx_setCtx s (.thread d t) ((s.ctx (.thread d t)).warns w))
  | ctl d t => exact .inl (State.ctx_setCtx s (.ctl d t) ((s.ctx (.ctl d t)).warns w))

@[simp] theorem State.opOf_warnOf (s : State) (a : Actor) (w : W32) : (s.warnOf a w).opOf a = s.opOf a := by
  rcases s.ctx_warnOf a w with h | h <;> simp [State.opOf, h]

@[simp] theorem State.asid_warnOf (s : State) (a : Actor) (w : W32) : ((s.warnOf a w).ctx a).asid = (s.ctx a).asid := by
  rcases s.ctx_warnOf a w with h | h <;> simp [h]

section
variable {s : State} {a : Actor} {o : MemOp} {r : Req}

theorem State.hasReq.opOf (h : s.hasReq a o r) : s.opOf a = some o := h.1

theorem State.hasReq.req (h : s.hasReq a o r) : o.req = some r := h.2

theorem State.updReq_eq (h : s.hasReq a o r) (f : Req → Req) : s.updReq a f = s.setOp a (some { o with req := some (f r) }) := by
  simp [State.updReq, h.opOf, h.req]

theorem State.updReq_mem (h : s.hasReq a o r) (f : Req → Req) : (s.updReq a f).mem = s.mem := by
  rw [State.updReq_eq h, State.setOp_mem]

theorem State.hasReq_updReq (h : s.hasReq a o r) (f : Req → Req) : (s.updReq a f).hasReq a { o with req := some (f r) } (f r) := by
  rw [State.updReq_eq h]
  exact ⟨State.opOf_setOp s a _, rfl⟩

theorem State.reqAt_updReq (h : s.hasReq a o r) (f : Req → Req) : (s.updReq a f).reqAt a (f r).st := ⟨_, _, State.hasReq_updReq h f, rfl⟩

/-- A parked request waits at the slice, which alone changes besides. -/
theorem State.park_spec (h : s.hasReq a o r) (sl : Nat) (f : Slice → Slice) :
    (s.park a sl f).reqAt a (.walking sl) ∧ (s.park a sl f).mem.slice sl = f (s.mem.slice sl) := by
  have h' : ({ s with mem := s.mem.updSlice sl f } : State).hasReq a o r := h
  refine ⟨State.reqAt_updReq h' _, ?_⟩
  rw [State.park, State.updReq_mem h', Mem.slice_updSlice_same]

end

/-! The translation and the line that a slice has of an address. -/

theorem Slice.findEnt_updEnt (x : Slice) (asid va : Nat) (f : TEnt → TEnt) (hf : ∀ e, (f e).asid = e.asid ∧ (f e).gen = e.gen ∧ (f e).leaf = e.leaf) :
    (x.updEnt asid va f).findEnt asid va = (x.findEnt asid va).map f := by
  have hkey (e : TEnt) : ((f e).asid == asid && (f e).gen == x.gen asid && (f e).leaf.covers va) = (e.asid == asid && e.gen == x.gen asid && e.leaf.covers va) := by
    obtain ⟨ha, hg, hl⟩ := hf e
    rw [ha, hg, hl]
  simp only [Slice.findEnt, Slice.updEnt]
  have hgen : Slice.gen { x with tlb := x.tlb.map (fun e => if e.asid == asid && e.gen == x.gen asid && e.leaf.covers va then f e else e) } asid = x.gen asid := rfl
  rw [hgen]
  induction x.tlb with
  | nil => rfl
  | cons e r ih =>
    rw [List.map_cons, List.find?_cons, List.find?_cons]
    cases he : (e.asid == asid && e.gen == x.gen asid && e.leaf.covers va)
    · simp only [he, Bool.false_eq_true, if_false]
      exact ih
    · simp only [if_true, hkey, he, Option.map_some]

/-- A slice's line of an address has the tag that it is found by. -/
theorem Slice.findLine_tag {x : Slice} {asid line : Nat} {l : SLine} (h : x.findLine asid line = some l) :
    l.asid = asid ∧ l.gen = x.gen asid ∧ l.line = line := by
  have := List.find?_some h
  simpa [and_assoc] using this

/-! Waiting at a slice. -/

/-- Whether a walk, or a wait, is that of a page. -/
def Walk.isFor (asid va : Nat) (w : Walk) : Prop := w.asid = asid ∧ w.page = pageOf va

theorem addWait_first {ws : List Walk} {asid va : Nat} (gen : Nat) (a : Actor) (h : ∀ w ∈ ws, ¬ w.isFor asid va) :
    addWait ws asid gen va a = ws ++ [⟨asid, gen, pageOf va, [a]⟩] := by
  simp only [Walk.isFor] at h
  rw [addWait, if_neg]
  simpa using h

theorem addWait_joins {w : Walk} {asid va : Nat} (gen : Nat) (a : Actor) (h : w.isFor asid va) :
    addWait [w] asid gen va a = [{ w with waiters := w.waiters ++ [a] }] := by
  simp [addWait, h.1, h.2]

theorem mem_addWait (ws : List Walk) (asid gen va : Nat) (a : Actor) : ∃ w ∈ addWait ws asid gen va a, w.asid = asid ∧ w.page = pageOf va ∧ a ∈ w.waiters := by
  by_cases h : ∀ w ∈ ws, ¬ w.isFor asid va
  · exact ⟨⟨asid, gen, pageOf va, [a]⟩, by simp [addWait_first gen a h], rfl, rfl, by simp⟩
  · push Not at h
    obtain ⟨w, hw, hasid, hpage⟩ := h
    have hany : ws.any (fun w => w.asid == asid && w.page == pageOf va) = true := List.any_eq_true.2 ⟨w, hw, by simp [hasid, hpage]⟩
    refine ⟨{ w with waiters := w.waiters ++ [a] }, ?_, hasid, hpage, by simp⟩
    rw [addWait, if_pos hany]
    exact List.mem_map.2 ⟨w, hw, by simp [hasid, hpage]⟩

theorem Slice.miss_starts {x : Slice} {asid va : Nat} (a : Actor) (h : ∀ w ∈ x.walks, ¬ w.isFor asid va) (hlen : x.walks.length < 64) :
    (x.miss asid va a).walks = x.walks ++ [⟨asid, x.gen asid, pageOf va, [a]⟩] := by
  simp [Slice.miss, hlen, addWait_first _ a h]

theorem Slice.miss_queues {x : Slice} {asid va : Nat} (a : Actor) (h : ∀ w ∈ x.walks, ¬ w.isFor asid va) (hlen : 64 ≤ x.walks.length) :
    (x.miss asid va a).walks = x.walks ∧ (x.miss asid va a).queue = x.queue ++ [a] := by
  simp only [Walk.isFor] at h
  rw [Slice.miss, if_neg]
  · exact ⟨rfl, rfl⟩
  · simpa [Nat.not_lt.2 hlen] using h

theorem Slice.miss_joins {x : Slice} {asid va : Nat} {w : Walk} (a : Actor) (hw : x.walks = [w]) (h : w.isFor asid va) :
    (x.miss asid va a).walks = [{ w with waiters := w.waiters ++ [a] }] := by
  simp [Slice.miss, hw, addWait_joins _ a h]

/-! The arrival of a request. -/

/-- The four arrivals bring a request of their kind to its slice. -/
theorem exec_eq_arrival {a : Actor} {ev : Nat} {i : Instr} {k : ReqKind}
    (h : (i, k) ∈ [(Instr.sliceReadMiss a ev, ReqKind.read), (.storeTranslationProbe a ev, .probe), (.bypassStore a ev, .bypass), (.sliceAtomic a ev, .atomic)])
    (s : State) : exec i s = s.arrival a ev k := by
  simp only [List.mem_cons, Prod.mk.injEq, List.not_mem_nil, or_false] at h
  rcases h with ⟨rfl, rfl⟩ | ⟨rfl, rfl⟩ | ⟨rfl, rfl⟩ | ⟨rfl, rfl⟩ <;> rfl

section
variable {s : State} {a : Actor} {o : MemOp} {r : Req} {ev : Nat} {first : Bool}

theorem State.arrival_sent (h : s.hasReq a o r) (hst : r.st = .sent) : s.arrival a ev r.kind = .next (s.arrive a ev false) := by
  simp [State.arrival, h.opOf, h.req, hst]

/-- A request that is not on its way, and whose waiting is not over, stays where it is. -/
theorem State.arrival_elsewhere (h : s.hasReq a o r) (hpark : ∀ sl, r.st = .walking sl → (s.mem.slice sl).parks a = true) (hst : r.st ≠ .sent) :
    s.arrival a ev r.kind = .next s := by
  unfold State.arrival
  simp only [h.opOf, h.req, bne_self_eq_false, Bool.false_eq_true, if_false]
  cases hr : r.st with
  | sent => exact absurd hr hst
  | walking sl => simp [hpark sl hr]
  | bounced => rfl
  | remote t => rfl
  | back p => rfl

theorem State.arrive_unhashed {f : Flt} (h : s.hasReq a o r) (hsl : r.sl = none) (hf : s.mem.hash (s.dieOf a) (s.ctx a).asid r.addr = .error f) :
    s.arrive a ev first = s.respond a r { fault := some f } := by
  simp [State.arrive, h.opOf, h.req, hsl, hf]

/-- A request at a slice that may serve it. -/
structure State.reaches (s : State) (a : Actor) (r : Req) (sl : Nat) : Prop where
  home : r.sl = some sl
  up : (s.mem.slice sl).inRst = false
  cur : s.current sl (s.ctx a).asid r = true
  free : (s.mem.slice sl).holds (s.ctx a).asid r.addr = false

theorem State.arrive_unserved {sl : Nat} (h : s.hasReq a o r) (hsl : r.sl = some sl)
    (hno : (s.mem.slice sl).inRst = true ∨ s.current sl (s.ctx a).asid r = false ∨ (s.mem.slice sl).holds (s.ctx a).asid r.addr = true) :
    s.arrive a ev first = s := by
  have hc : ((s.mem.slice sl).inRst || !s.current sl (s.ctx a).asid r || (s.mem.slice sl).holds (s.ctx a).asid r.addr) = true := by
    simpa [or_assoc] using hno
  simp only [State.arrive, h.opOf, h.req, hsl, hc, if_true]

theorem State.arrive_miss {sl : Nat} (h : s.hasReq a o r) (hr : s.reaches a r sl) (hent : (s.mem.slice sl).findEnt (s.ctx a).asid r.addr = none) :
    s.arrive a ev first = s.park a sl (fun x => x.miss (s.ctx a).asid r.addr a) := by
  simp [State.arrive, h.opOf, h.req, hr.home, hr.up, hr.cur, hr.free, hent]

/-- At a page of another core the request starts the reclaim and waits. -/
theorem State.arrive_owned {sl y : Nat} {e : TEnt} (h : s.hasReq a o r) (hr : s.reaches a r sl)
    (hent : (s.mem.slice sl).findEnt (s.ctx a).asid r.addr = some e) (how : e.owner = some y) (hne : (s.opWho a o).core ≠ some y) (hrcl : e.rcl = none) :
    s.arrive a ev first = s.park a sl (fun x =>
      (x.updEnt (s.ctx a).asid r.addr (fun e => { e with rcl := some (s.opWho a o).core })).wait (s.ctx a).asid r.addr a) := by
  have hne' : ¬ some y = (s.opWho a o).core := fun q => hne q.symm
  simp [State.arrive, h.opOf, h.req, hr.home, hr.up, hr.cur, hr.free, hent, how, hne', hrcl]

/-- Where nothing is to be waited for, the slice performs the request. -/
theorem State.arrive_served {sl : Nat} {e : TEnt} (h : s.hasReq a o r) (hr : s.reaches a r sl)
    (hent : (s.mem.slice sl).findEnt (s.ctx a).asid r.addr = some e) (how : e.owner = none ∨ e.owner = (s.opWho a o).core) (hrcl : e.rcl = none)
    (hinv : e.inval = false) (hrep : e.rep = true → r.kind ≠ .bypass ∧ r.kind ≠ .atomic ∧ r.kind ≠ .uncached) :
    s.arrive a ev first = s.serveReq a o r sl ev := by
  have hw : (e.rep && (r.kind == .bypass || r.kind == .atomic || r.kind == .uncached)) = false := by
    cases hb : e.rep
    · rfl
    · obtain ⟨h1, h2, h3⟩ := hrep hb
      simp [h1, h2, h3]
  have hmine : (e.owner.isSome && !(e.owner.isSome && e.owner == (s.opWho a o).core)) = false := by
    rcases how with how | how <;> simp [how]
  simp only [State.arrive, h.opOf, h.req, hr.home, hr.up, hr.cur, hr.free, hent, hrcl, hinv, hw, hmine, Bool.not_true, Bool.or_self,
    Option.isSome_none, Bool.false_eq_true, if_false, Bool.and_false, Bool.false_and]

/-- A request that goes out waits with its translation and its accesses. -/
theorem State.serveReq_out {sl : Nat} {m : Mem} {t : Tr} {accs : List Acc} (h : s.hasReq a o r)
    (hs : s.mem.serve (s.opWho a o) (s.ctx a).asid r o.info sl ev = (m, .out t accs)) :
    ∃ o', (s.serveReq a o r sl ev).hasReq a o' { r with st := .remote t, accs := accs } := by
  have h' : ({ s with mem := { m with shc := s.mem.shc } } : State).hasReq a o r := h
  refine ⟨{ o with req := some { r with st := .remote t, accs := accs } }, ?_⟩
  simp only [State.serveReq, hs]
  exact State.hasReq_updReq h' (fun r => { r with st := .remote t, accs := accs })

/-- The answer to a read waits for its fill (02 R52). -/
theorem State.respond_read {p : Resp} {y : Acc} {rest : List Acc} (h : s.hasReq a o r) (hk : r.kind = .read) (hf : p.fault = none) (hp : p.peer = false)
    (hh : o.info.hint ≠ 3) (ht : o.todo = y :: rest)
    (hroom : ((s.warnOf a (flagIf p.shc wShcRsvd)).mem.reserve1 ((s.warnOf a (flagIf p.shc wShcRsvd)).coreOf a) (s.ctx a).asid (y.addr / 128)
      o.info.hint a).2 ≠ .full) :
    (s.respond a r p).reqAt a (.back p) := by
  generalize hs1 : s.warnOf a (flagIf p.shc wShcRsvd) = s1 at hroom
  have hop : s1.opOf a = some o := by rw [← hs1, State.opOf_warnOf, h.opOf]
  have hasid : (s1.ctx a).asid = (s.ctx a).asid := by rw [← hs1, State.asid_warnOf]
  cases hres : s1.mem.reserve1 (s1.coreOf a) (s.ctx a).asid (y.addr / 128) o.info.hint a with
  | mk m room =>
    have h1 : ({ s1 with mem := m } : State).hasReq a o r := ⟨hop, h.req⟩
    have hq := State.reqAt_updReq h1 (fun r => { r with st := .back p })
    rw [hres] at hroom
    simp only [State.respond, hs1, hop, hk, ht, hf, hp, hh, hasid, hres]
    cases room with
    | full => exact absurd rfl hroom
    | free => simpa using hq
    | wait => simpa using hq

end

end Sys2Proof.Machine
end

section
/-! Bounces, replays and the end of a walk (02 R68; 04 R121, R122, R126). -/

namespace Sys2Proof.Machine

/-- A slice bounces a request that it is not the home of, or whose generation is older than its own. -/
theorem State.bounces_iff (s : State) (sl asid : Nat) (r : Req) : s.bounces sl asid r = true ↔
    homeIn (s.mem.slice sl).slhm (s.mem.dom asid) asid r.addr ≠ some sl
      ∨ 0 < ((s.mem.slice sl).gen asid + 256 - r.gen % 256) % 256 ∧ ((s.mem.slice sl).gen asid + 256 - r.gen % 256) % 256 < 128 := by
  simp [State.bounces, State.atHome, genBefore]

section
variable {s : State} {a : Actor} {o : MemOp} {r : Req} {sl : Nat}

theorem requestBounce_sent (h : s.hasReq a o r) (hst : r.st = .sent) (hsl : r.sl = some sl) : exec (.requestBounce a) s
    = .next (if s.bounces sl (s.ctx a).asid r then s.updReq a (fun r => { r with st := .bounced }) else s) := by
  obtain ⟨hop, hreq⟩ := h
  cases o
  cases hreq
  show execRequestBounce a s = _
  simp only [execRequestBounce, hop, hst, hsl]

theorem requestBounce_elsewhere (h : s.hasReq a o r) (hno : r.st ≠ .sent ∨ r.sl = none) : exec (.requestBounce a) s = .next s := by
  obtain ⟨hop, hreq⟩ := h
  cases o
  cases hreq
  show execRequestBounce a s = _
  simp only [execRequestBounce, hop]
  split
  · next hst hsl => simp [hst, hsl] at hno
  · rfl

theorem requestReplay_notBounced (h : s.hasReq a o r) (hst : r.st ≠ .bounced) : exec (.requestReplay a) s = .next s := by
  obtain ⟨hop, hreq⟩ := h
  cases o
  cases hreq
  show execRequestReplay a s = _
  simp [execRequestReplay, hop, hst]

theorem requestReplay_bounced (h : s.hasReq a o r) (hst : r.st = .bounced) : exec (.requestReplay a) s =
    let q := s.newReq a r.kind r.addr r.hint r.accs
    .next (if q.epoch == r.epoch && q.gen == r.gen then s else s.updReq a (fun _ => q)) := by
  obtain ⟨hop, hreq⟩ := h
  cases o
  cases hreq
  show execRequestReplay a s = _
  simp only [execRequestReplay, hop, hst, bne_self_eq_false, Bool.false_eq_true, if_false]
  split <;> rfl

/-- The end of the one walk of a slice leaves it none. -/
theorem State.endWalk_only {w : Walk} {asid page : Nat} (hw : (s.mem.slice sl).walks = [w]) (ha : w.asid = asid) (hp : w.page = page) :
    ((s.endWalk sl asid page).1.mem.slice sl).walks = [] := by
  simp [State.endWalk, hw, ha, hp]

/-- A walk whose generation has passed, or of a held page, installs nothing, and the request goes to the slice anew (04 R126, R128). -/
theorem walkComplete_lost {ev : Nat} {w : Walk} (h : s.hasReq a o r) (hst : r.st = .walking sl) (hw : (s.mem.slice sl).walks = [w])
    (ha : w.asid = (s.ctx a).asid) (hp : w.page = pageOf r.addr) (hws : w.waiters = [a])
    (hno : w.gen ≠ (s.mem.slice sl).gen (s.ctx a).asid ∨ (s.mem.slice sl).holds (s.ctx a).asid r.addr = true) (hq : (s.mem.slice sl).queue = []) :
    exec (.walkComplete a ev) s = .next ((((s.countWalk sl).endWalk sl (s.ctx a).asid (pageOf r.addr)).1).updReq a (fun r => { r with st := .sent })) := by
  obtain ⟨hop, hreq⟩ := h
  cases o
  cases hreq
  have hc : (w.gen != (s.mem.slice sl).gen (s.ctx a).asid || (s.mem.slice sl).holds (s.ctx a).asid r.addr) = true := by simpa using hno
  show execWalkComplete a ev s = _
  have hq' : ((s.countWalk sl).endWalk sl (s.ctx a).asid (pageOf r.addr)).2 = [] := by rw [State.endWalk, State.countWalk, Mem.slice_updSlice_same]; exact hq
  simp only [execWalkComplete, hop, hst, hw, List.find?_cons, ha, hp, beq_self_eq_true, Bool.and_self, hc, if_true, hws, List.foldl_cons, List.foldl_nil,
    hq', State.arriveAll]

end

/-- What a walk installs (04 R119 to R122); an agent that serves no core keeps nothing of class 000 (02 R59). -/
theorem Mem.walkInstall_ok {m m' : Mem} {sl asid va way : Nat} {who : Who} {write : Bool} {e : TEnt}
    (h : m.walkInstall sl asid va who write way = (m', .ok e)) :
    e.asid = asid ∧ e.owner = who.core ∧ e.a = true ∧ e.d = write
      ∧ (who.core ≠ none ∨ e.leaf.raw / 2 ^ 49 % 8 ≠ 0 → e ∈ (m'.slice sl).tlb) := by
  unfold Mem.walkInstall at h
  dsimp only at h
  split at h
  · cases h
  · split at h
    next hno =>
      cases h
      simp only [Option.isNone_iff_eq_none, Bool.and_eq_true, beq_iff_eq, fld] at hno
      exact ⟨rfl, rfl, rfl, rfl, fun hk => absurd hk (by simp only [hno, ne_eq, not_true_eq_false, false_or]; exact fun q => q hno.2)⟩
    next =>
      cases h
      exact ⟨rfl, rfl, rfl, rfl, fun _ => by simp [Mem.install]⟩

section
variable {s : State} {a : Actor} {o : MemOp} {r : Req} {sl ev : Nat} {w : Walk} {m : Mem}

theorem walkComplete_fault {f : Flt} (h : s.hasReq a o r) (hst : r.st = .walking sl) (hw : (s.mem.slice sl).walks = [w])
    (ha : w.asid = (s.ctx a).asid) (hp : w.page = pageOf r.addr) (hws : w.waiters = [a])
    (hg : w.gen = (s.mem.slice sl).gen (s.ctx a).asid) (hh : (s.mem.slice sl).holds (s.ctx a).asid r.addr = false)
    (hent : (s.mem.slice sl).findEnt (s.ctx a).asid r.addr = none)
    (hi : s.mem.walkInstall sl (s.ctx a).asid r.addr { s.who a with sup := o.sup } (r.kind == .bypass || r.kind == .atomic) ev = (m, .error f)) :
    let u := ({ s with mem := m }).endWalk sl (s.ctx a).asid (pageOf r.addr)
    exec (.walkComplete a ev) s = .next ((u.1.respond a r { fault := some f }).arriveAll sl ev u.2 false) := by
  obtain ⟨hop, hreq⟩ := h
  cases o
  cases hreq
  have hop' : (({ s with mem := m }).endWalk sl (s.ctx a).asid (pageOf r.addr)).1.opOf a = s.opOf a := rfl
  show execWalkComplete a ev s = _
  simp only [execWalkComplete, hop, hst, hw, List.find?_cons, ha, hp, beq_self_eq_true, Bool.and_self, hg, bne_self_eq_false, hh, Bool.or_self,
    Bool.false_eq_true, if_false, hent, Option.isSome_none, hws, List.headD_cons, hi, List.foldl_cons, List.foldl_nil, hop', if_true]

theorem walkComplete_installs {e : TEnt} (h : s.hasReq a o r) (hst : r.st = .walking sl) (hw : (s.mem.slice sl).walks = [w])
    (ha : w.asid = (s.ctx a).asid) (hp : w.page = pageOf r.addr) (hws : w.waiters = [a])
    (hg : w.gen = (s.mem.slice sl).gen (s.ctx a).asid) (hh : (s.mem.slice sl).holds (s.ctx a).asid r.addr = false)
    (hent : (s.mem.slice sl).findEnt (s.ctx a).asid r.addr = none)
    (hi : s.mem.walkInstall sl (s.ctx a).asid r.addr { s.who a with sup := o.sup } (r.kind == .bypass || r.kind == .atomic) ev = (m, .ok e)) :
    let u := ({ s with mem := m }).endWalk sl (s.ctx a).asid (pageOf r.addr)
    exec (.walkComplete a ev) s = .next ((u.1.arriveAll sl ev [a] true).arriveAll sl ev u.2 false) := by
  obtain ⟨hop, hreq⟩ := h
  cases o
  cases hreq
  show execWalkComplete a ev s = _
  simp only [execWalkComplete, hop, hst, hw, List.find?_cons, ha, hp, beq_self_eq_true, Bool.and_self, hg, bne_self_eq_false, hh, Bool.or_self,
    Bool.false_eq_true, if_false, hent, Option.isSome_none, hws, List.headD_cons, hi]

end

end Sys2Proof.Machine
end

section
/-! A hit in a slice: what a translation, a read and an atomic find of the line, and what the atomic leaves of it (02 R69, R71; 10 R327). -/

namespace Sys2Proof.Machine

/-- A line that is used stays, with the hint of a use that has one. -/
theorem Mem.findLine_lineUse (m : Mem) (sl hint asid line : Nat) (l : SLine) (ha : l.asid = asid) (hg : l.gen = (m.slice sl).gen asid) (hl : l.line = line) :
    ((m.lineUse sl hint l).slice sl).findLine asid line = some (if hint = 1 || hint = 2 then { l with hint := hint } else l) := by
  subst ha hl
  have hgen : ((m.lineUse sl hint l).slice sl).gen l.asid = (m.slice sl).gen l.asid := by rw [Mem.lineUse, Mem.slice_updSlice_same]; rfl
  have hnone (ls : List SLine) : (ls.filter (fun y => !(y.asid == l.asid && y.gen == l.gen && y.line == l.line))).find?
      (fun y => y.asid == l.asid && y.gen == (m.slice sl).gen l.asid && y.line == l.line) = none := by
    simp only [List.find?_eq_none, List.mem_filter, hg]
    intro y hy
    have hy' := hy.2
    rwa [Bool.not_eq_true', Bool.eq_false_iff] at hy'
  rw [Slice.findLine, hgen, Mem.lineUse, Mem.slice_updSlice_same]
  have hmine : ((if hint = 1 || hint = 2 then { l with hint := hint } else l : SLine).asid == l.asid
      && (if hint = 1 || hint = 2 then { l with hint := hint } else l : SLine).gen == (m.slice sl).gen l.asid
      && (if hint = 1 || hint = 2 then { l with hint := hint } else l : SLine).line == l.line) = true := by
    split <;> simp [hg]
  simp only [List.find?_append, hnone, Option.none_or, List.find?_cons, hmine]

/-- A write behind the host port leaves the module, and the slices as they are. -/
theorem Mem.slice_lineStore_far (m : Mem) (slot k addr : Nat) (d : Tbl Byte) (mask pois i : Nat) :
    (m.lineStore slot (.far k addr) d mask pois).slice i = m.slice i := by
  unfold Mem.lineStore
  refine foldl_keeps (fun n => n.slice i = m.slice i) _ _ (fun n s hn => ?_) m rfl
  dsimp only
  split
  · exact hn
  · exact hn

/-- Written bytes on a hit: they stand in the line over those that it had. -/
theorem Mem.findLine_merge_hit {m : Mem} {sl asid line : Nat} {l : SLine} (die : Nat) (t : Tr) (data : Tbl Byte) (mask pois : Nat)
    (h : (m.slice sl).findLine asid line = some l) :
    ∃ l', ((m.merge sl die asid line t 0 data mask pois).slice sl).findLine asid line = some l' ∧ l'.data = overBytes mask data l.data := by
  obtain ⟨ha, hg, hl⟩ := Slice.findLine_tag h
  refine ⟨{ l with
      data := overBytes mask data l.data
      dirty := l.dirty ||| (if t.loc.isFar then 0 else mask)
      pois := overPois mask pois l.pois
      ecc := l.ecc.filter (fun e => fld mask (32 * e.1) 32 == 0) }, ?_, rfl⟩
  unfold Mem.merge
  simp only [h]
  cases hloc : t.loc with
  | far k addr =>
    simp only [Loc.isFar, if_true, Mem.slice_lineStore_far]
    exact Mem.findLine_lineUse m sl 0 asid line _ ha hg hl
  | hbm pa =>
    simp only [Loc.isFar, Bool.false_eq_true, if_false]
    exact Mem.findLine_lineUse m sl 0 asid line _ ha hg hl
  | blk k off =>
    simp only [Loc.isFar, Bool.false_eq_true, if_false]
    exact Mem.findLine_lineUse m sl 0 asid line _ ha hg hl

theorem TEnt.remote_tag (e : TEnt) (write : Bool) :
    (e.remote write).asid = e.asid ∧ (e.remote write).gen = e.gen ∧ (e.remote write).leaf = e.leaf ∧ (e.remote write).owner = e.owner := by
  simp only [TEnt.remote]
  repeat' split
  all_goals exact ⟨rfl, rfl, rfl, rfl⟩

/-- How an access from a die counts in an entry that its hit leaves otherwise as it is (02 R63; 04 R132). -/
def TEnt.hitFrom (far write : Bool) (e : TEnt) : TEnt := if far then e.remote write else e

theorem TEnt.hitFrom_tag (far write : Bool) (e : TEnt) : (e.hitFrom far write).asid = e.asid ∧ (e.hitFrom far write).gen = e.gen
    ∧ (e.hitFrom far write).leaf = e.leaf ∧ (e.hitFrom far write).owner = e.owner := by
  unfold TEnt.hitFrom
  split
  · exact e.remote_tag write
  · exact ⟨rfl, rfl, rfl, rfl⟩

/-- The translation of an access that hits a line of the slice: the class of its fills is that of the entry, and the line stays. -/
theorem Mem.translate_hit {m m1 : Mem} {sl asid va need way : Nat} {who : Who} {pref : Bool} {e : TEnt} {l : SLine} {t : Tr}
    (hent : (m.slice sl).findEnt asid va = some e) (hown : e.owner = none ∨ e.owner = who.core) (heng : who.eng = false)
    (hline : (m.slice sl).findLine asid (va / 128) = some l) (hrep : bit need 1 = true → e.rep = false)
    (h : m.translate sl asid va need who false pref way = (m1, .ok t)) :
    t.cls = e.cls ∧ (m1.slice sl).findLine asid (va / 128) = some l := by
  have hmine : (e.owner != who.core && e.owner.isSome) = false := by rcases hown with hown | hown <;> simp [hown]
  have hrepl : (if bit need 1 = true then m.unreplicate sl e else m) = m := by
    split
    · next hb => simp [Mem.unreplicate, hrep hb]
    · rfl
  unfold Mem.translate at h
  simp only [heng, Bool.false_eq_true, if_false, hent, hline, Option.isSome_some, Bool.not_false, Bool.and_true, hmine, if_true,
    Option.getD_some, hrepl, Bool.true_or] at h
  split at h
  · cases h
  split at h
  · cases h
  generalize hm5 : ite (5 ≤ fld e.leaf.raw 49 3) _ _ = m5 at h
  have hslice : m5.slice sl = (m.slice sl).updEnt asid va (TEnt.hitFrom (who.die != sl / 4) (bit need 1)) := by
    have hupd := Mem.slice_updSlice_same m sl (fun x => x.updEnt asid va (TEnt.hitFrom (who.die != sl / 4) (bit need 1)))
    rw [← hm5]
    split <;> exact hupd
  have hent5 : (m5.slice sl).findEnt asid va = some (e.hitFrom (who.die != sl / 4) (bit need 1)) := by
    rw [hslice, Slice.findEnt_updEnt _ _ _ _ (fun y => ⟨(y.hitFrom_tag _ _).1, (y.hitFrom_tag _ _).2.1, (y.hitFrom_tag _ _).2.2.1⟩), hent]
    rfl
  split at h
  · cases h
  obtain ⟨-, -, hleaf, howner⟩ := e.hitFrom_tag (who.die != sl / 4) (bit need 1)
  cases h
  refine ⟨?_, ?_⟩
  · simp only [hent5, Option.getD_some, TEnt.cls, hleaf, howner]
  · rw [hslice]
    exact hline
/-- A read of a line on a hit: its bytes, its poison and the errors first met in the sectors named, and the line as it stays. -/
theorem Mem.sliceLine_hit {m : Mem} {sl asid va : Nat} {l : SLine} (die secs hint : Nat) (t : Tr) (h : (m.slice sl).findLine asid (va / 128) = some l) :
    m.sliceLine sl die asid va secs hint t = (m.lineUse sl hint { l with ecc := l.ecc.filter (fun e => !bit secs e.1) },
      { data := l.data, pois := l.pois, errs := l.ecc.filter (fun e => bit secs e.1) }) := by
  simp only [Mem.sliceLine, h]

/-- One operation of the atomic unit on a clean line (02 R71). -/
theorem Mem.atomUnit_hit {m : Mem} {sl asid va : Nat} {l : SLine} (die : Nat) (t : Tr) (op : Nat) (x : Acc)
    (h : (m.slice sl).findLine asid (va / 128) = some l) (hecc : l.ecc = []) (hpois : l.pois = 0) :
    (m.atomUnit sl die asid t va op [x]).2 = [(x.lane, .num (tblNum l.data (x.addr % 128) x.size))]
      ∧ ∃ l', ((m.atomUnit sl die asid t va op [x]).1.slice sl).findLine asid (va / 128) = some l'
        ∧ l'.data = overBytes (ones (x.addr % 128) x.size)
          (tblPut [] (x.addr % 128) x.size (atomNew op (tblNum l.data (x.addr % 128) x.size) x.data x.aux)) l.data := by
  obtain ⟨ha, hg, hl⟩ := Slice.findLine_tag h
  have hused : ((m.lineUse sl 0 l).slice sl).findLine asid (va / 128) = some l := Mem.findLine_lineUse m sl 0 asid _ l ha hg hl
  have hread (secs : Nat) : m.sliceLine sl die asid va secs 0 t = (m.lineUse sl 0 l, { data := l.data, pois := l.pois, errs := [] }) := by
    rw [Mem.sliceLine_hit die secs 0 t h, hecc, List.filter_nil, List.filter_nil, ← hecc]
  have hbit (i : Nat) : bit 0 i = false := by simp [bit]
  simp only [Mem.atomUnit, hread, List.foldl_cons, List.foldl_nil, hused, List.find?_nil, hpois, hbit, Bool.false_eq_true, if_false, List.nil_append]
  exact ⟨trivial, Mem.findLine_merge_hit die (t.line va) _ _ 0 hused⟩

section
variable {m m' : Mem} {w : Who} {asid : Nat} {r : Req} {i : MInfo} {sl ev : Nat} {e : TEnt} {l : SLine} {p : Resp}

theorem Mem.serve_read_hit (hent : (m.slice sl).findEnt asid r.addr = some e) (hown : e.owner = none ∨ e.owner = w.core) (heng : w.eng = false)
    (hline : (m.slice sl).findLine asid (r.addr / 128) = some l) (hs : m.serve w asid r i sl ev = (m', .answer p)) (hf : p.fault = none)
    (hk : r.kind = .read) : p.bytes = l.data ∧ p.pois = l.pois ∧ p.cls = e.cls := by
  unfold Mem.serve at hs
  simp only [hk] at hs
  split at hs
  · cases hs; cases hf
  next m1 t ht =>
    obtain ⟨hcls, hline1⟩ := Mem.translate_hit hent hown heng hline (by simp [bit]) ht
    simp only [hline1, Option.isSome_some, Bool.not_true, Bool.and_false, Bool.false_eq_true, if_false, Mem.sliceLine_hit _ _ _ _ hline1] at hs
    cases hs
    exact ⟨rfl, rfl, hcls⟩

theorem Mem.serve_atomic_hit {x : Acc} (hent : (m.slice sl).findEnt asid r.addr = some e) (hown : e.owner = none ∨ e.owner = w.core)
    (heng : w.eng = false) (hline : (m.slice sl).findLine asid (r.addr / 128) = some l) (hs : m.serve w asid r i sl ev = (m', .answer p))
    (hf : p.fault = none) (hk : r.kind = .atomic) (hrep : e.rep = false) (hecc : l.ecc = []) (hpois : l.pois = 0) (haccs : r.accs = [x]) :
    p.old = [(x.lane, .num (tblNum l.data (x.addr % 128) x.size))]
      ∧ ∃ l', (m'.slice sl).findLine asid (r.addr / 128) = some l'
        ∧ l'.data = overBytes (ones (x.addr % 128) x.size)
          (tblPut [] (x.addr % 128) x.size (atomNew i.op (tblNum l.data (x.addr % 128) x.size) x.data x.aux)) l.data := by
  unfold Mem.serve at hs
  simp only [hk] at hs
  split at hs
  · cases hs; cases hf
  next m1 t ht =>
    obtain ⟨-, hline1⟩ := Mem.translate_hit hent hown heng hline (fun _ => hrep) ht
    simp only [hline1, Option.isSome_some, Bool.not_true, Bool.and_false, Bool.false_eq_true, if_false, haccs] at hs
    split at hs
    · split at hs
      · cases hs; cases hf
      · cases hs
    · have hatom := Mem.atomUnit_hit w.die t i.op x hline1 hecc hpois
      cases hs
      exact hatom

end

end Sys2Proof.Machine
end

section
open Sys2Proof Sys2Proof.Machine

/-- Settles O51: each arrival from the lemma on its branch, a hit from the translation of a hit, the events of a request and of its walk from
the lemma on each. -/
theorem sliceRequests : Obligations.SliceRequests := by
  unfold Obligations.SliceRequests
  refine ⟨?arrivals, ?hits, ?events⟩
  case arrivals =>
    rintro s a ev o r i _ hi h rfl
    dsimp only
    have hexec := exec_eq_arrival hi s
    have hsent (hst : r.st = .sent) : exec i s = .next (s.arrive a ev false) := hexec.trans (State.arrival_sent h hst)
    refine ⟨fun hpark hst => hexec.trans (State.arrival_elsewhere h hpark hst),
      fun f hst hsl hf => (hsent hst).trans (congrArg _ (State.arrive_unhashed h hsl hf)), fun sl hst hsl => ?_⟩
    refine ⟨fun hno => (hsent hst).trans (congrArg _ (State.arrive_unserved h hsl hno)), fun hup hcur hfree => ?_⟩
    have hr : s.reaches a r sl := ⟨hsl, hup, hcur, hfree⟩
    refine ⟨fun hent => ?miss, fun e y hent how hne hrcl => ?owned, fun e hent how hrcl hinv hrep => ?served⟩
    case miss =>
      have hpark := State.park_spec h sl (fun x => x.miss (s.ctx a).asid r.addr a)
      refine ⟨_, (hsent hst).trans (congrArg _ (State.arrive_miss h hr hent)), hpark.1, ?_⟩
      simp only [hpark.2]
      exact ⟨fun hw hlen => Slice.miss_starts a hw hlen, fun hw hlen => Slice.miss_queues a hw hlen, fun w hw hh => Slice.miss_joins a hw hh⟩
    case owned =>
      have hpark := State.park_spec h sl (fun x => (x.updEnt (s.ctx a).asid r.addr (fun e => { e with rcl := some (s.opWho a o).core })).wait (s.ctx a).asid r.addr a)
      refine ⟨_, (hsent hst).trans (congrArg _ (State.arrive_owned h hr hent how hne hrcl)), hpark.1, ?_⟩
      simp only [hpark.2]
      refine ⟨?_, mem_addWait _ _ _ _ _⟩
      have hfound := Slice.findEnt_updEnt (s.mem.slice sl) (s.ctx a).asid r.addr (fun e => { e with rcl := some (s.opWho a o).core }) (fun _ => ⟨rfl, rfl, rfl⟩)
      rw [hent] at hfound
      exact hfound
    case served =>
      have hkinds : e.rep = true → r.kind ≠ .bypass ∧ r.kind ≠ .atomic ∧ r.kind ≠ .uncached := fun hb =>
        ⟨(hrep hb).1, (hrep hb).2, fun hu => by simp [hu] at hi⟩
      refine ⟨(hsent hst).trans (congrArg _ (State.arrive_served h hr hent how hrcl hinv hkinds)), ?_⟩
      split
      next m tr accs hs => exact State.serveReq_out h hs
      next m p hs =>
        intro hk hf hp hh y rest ht hroom
        simp only [State.serveReq, hs]
        have h' : ({ s with mem := { m with shc := s.mem.shc } } : State).hasReq a o r := h
        exact State.respond_read h' hk hf hp hh ht hroom
  case hits =>
    intro m m' w asid r i sl ev e l p hent _ how heng hline hs hf
    refine ⟨fun hk => Mem.serve_read_hit hent how heng hline hs hf hk, fun x hk hrep hecc hpois haccs _ _ => ?_⟩
    obtain ⟨hold, l', hl', hdata⟩ := Mem.serve_atomic_hit hent how heng hline hs hf hk hrep hecc hpois haccs
    exact ⟨hold, l', hl', fun b hb => by rw [hdata, get_overBytes_tblPut _ _ _ _ hb]⟩
  case events =>
    intro s a o r sl h
    dsimp only
    refine ⟨fun hst hsl => ?bounce, requestBounce_elsewhere h, requestReplay_notBounced h, fun hst => ?replay,
      fun ev w hst hw hwa hwp hws => ⟨fun hno hq => ?lost, fun hg hh hent => ?walk⟩⟩
    case bounce =>
      have hexec := requestBounce_sent h hst hsl
      refine ⟨fun hno => ?_, fun hyes => ?_⟩
      · rw [hexec, if_neg (fun hb => hno ((State.bounces_iff s sl (s.ctx a).asid r).1 hb))]
      · rw [if_pos ((State.bounces_iff s sl (s.ctx a).asid r).2 hyes)] at hexec
        exact ⟨_, hexec, State.reqAt_updReq h _, State.updReq_mem h _⟩
    case replay =>
      have hexec := requestReplay_bounced h hst
      refine ⟨⟨rfl, rfl, rfl, fun x hx => by simp only [State.newReq, hx]⟩, fun he hg => ?_, fun hne => ?_⟩
      · simpa [he, hg] using hexec
      · have hc : ¬ ((s.newReq a r.kind r.addr r.hint r.accs).epoch == r.epoch && (s.newReq a r.kind r.addr r.hint r.accs).gen == r.gen) = true := by
          simpa [or_iff_not_imp_left] using hne
        simp only [if_neg hc] at hexec
        exact ⟨_, hexec, State.hasReq_updReq h _, State.updReq_mem h _⟩
    case lost =>
      have hw' : ((s.countWalk sl).mem.slice sl).walks = [w] := by rw [State.countWalk, Mem.slice_updSlice_same]; exact hw
      have h' : (((s.countWalk sl).endWalk sl (s.ctx a).asid (pageOf r.addr)).1).hasReq a o r := h
      refine ⟨_, walkComplete_lost h hst hw hwa hwp hws hno hq, State.reqAt_updReq h' _, ?_⟩
      simp only [State.updReq_mem h']
      exact ⟨State.endWalk_only hw' hwa hwp, by simp [State.endWalk, State.countWalk]⟩
    case walk =>
      split
      next m f hi => exact walkComplete_fault h hst hw hwa hwp hws hg hh hent hi
      next m e hi => exact ⟨walkComplete_installs h hst hw hwa hwp hws hg hh hent hi, Mem.walkInstall_ok hi⟩
end

section
/-! A result held with lookahead 0 and its retirement: the context in which a long-latency load completes (09 R283; 06 R191, R192). -/

namespace Sys2Proof.Machine

theorem Tbl.put_singleton {α : Type} (k : Nat) (x y : α) : Tbl.put [(k, x)] k y = [(k, y)] := by simp [Tbl.put, Tbl.del, Tbl.ins]

theorem Tbl.put_nil {α : Type} (k : Nat) (y : α) : Tbl.put [] k y = [(k, y)] := rfl

/-! A lane after a run of registers is written. -/

/-- A 64-bit word of a held result as a lane register takes it. -/
def Val.low32 : Val W64 → Val W32
  | .ok w => .ok (w.setWidth 32)
  | .bad p => .bad p

/-- A lane with the k registers from d written. -/
def Lane.written (x : Lane) (d k : Nat) (f : Nat → Val W64) : Lane :=
  (List.range k).foldl (fun x j => { x with v := Tbl.put x.v ((d + j) % 128) (Val.low32 (f j)) }) x

theorem Lane.rd_written (x : Lane) {d k r : Nat} (f : Nat → Val W64) (hd : d + k ≤ 128) (hr : r < 128) :
    (x.written d k f).rd r = if d ≤ r ∧ r < d + k then Val.low32 (f (r - d)) else x.rd r := by
  induction k with
  | zero => simp [Lane.written]
  | succ k ih =>
    have ih := ih (by omega)
    rw [Lane.written, List.range_succ, List.foldl_append, List.foldl_cons, List.foldl_nil, ← Lane.written]
    simp only [Lane.rd, Tbl.get_put, Nat.mod_eq_of_lt (show d + k < 128 by omega), Nat.mod_eq_of_lt hr] at ih ⊢
    by_cases h : r = d + k
    · subst h; simp
    · rw [if_neg h, ih]
      congr 1
      simp only [eq_iff_iff]
      omega

/-! Windows of one held result. -/

/-- A context with other lanes and held results. -/
def Ctx.withHeld (c : Ctx) (T : Tbl Lane) (P : Tbl Held) : Ctx := { c with lanes := T, pend := P }

/-- A result held for k registers of one lane from d. -/
def heldLoad (d k l win : Nat) (val : Option (Nat → Val W64)) : Held :=
  { regs := (List.range k).map (d + ·), uni := false, win := [(l, win)], val := val.map (fun f => [(l, (List.range k).map f)]) }

theorem Ctx.hold_quiet (c : Ctx) (h : c.pend = []) {d k l m : Nat} (hm : m ≠ 0) (hl : lanesOf m = [l]) (la : Nat) :
    c.hold ((List.range k).map (d + ·)) false m la = ({ c with pend := [(c.hid, heldLoad d k l (la + 1) none)], hid := c.hid + 1 }, c.hid) := by
  have hwaw (rs : List Nat) : rs.foldl (fun c r => c.waw false l r) c = c := by
    induction rs with
    | nil => rfl
    | cons r rs ih => rw [List.foldl_cons, Ctx.waw_quiet c h, ih]
  simp only [Ctx.hold, hl, List.map_cons, List.map_nil, hm, if_false, Bool.false_eq_true, List.foldl_cons, List.foldl_nil, hwaw, h, Tbl.put_nil]
  rfl

theorem Ctx.deliver_held (c : Ctx) {id d k l win : Nat} (h : c.pend = [(id, heldLoad d k l win none)]) (f : Nat → Val W64) :
    c.deliver id [(l, (List.range k).map f)] = { c with pend := [(id, heldLoad d k l win (some f))] } := by
  simp [Ctx.deliver, Ctx.ldfSure, h, heldLoad, flagIf, Ctx.warns]

theorem Ctx.ripe_none (c : Ctx) (d k l win : Nat) : c.ripe (heldLoad d k l win none) = false := rfl

theorem Ctx.ripe_open (c : Ctx) {l : Nat} (d k win : Nat) (f : Nat → Val W64) (hl : (c.ln l).life = .live) :
    c.ripe (heldLoad d k l (win + 1) (some f)) = false := by
  simp [Ctx.ripe, heldLoad, hl]

theorem Ctx.ripe_closed (c : Ctx) (d k l : Nat) (f : Nat → Val W64) : c.ripe (heldLoad d k l 0 (some f)) = true := rfl

/-- A lone held result that is not ripe stays held. -/
theorem Ctx.settle_unripe (c : Ctx) {id : Nat} {h : Held} (hp : c.pend = [(id, h)]) (hr : c.ripe h = false) : c.settle = c := by
  simp [Ctx.settle, hp, hr]

theorem Ctx.tickWin_held (c : Ctx) {id d k l win m : Nat} {val : Option (Nat → Val W64)} (h : c.pend = [(id, heldLoad d k l (win + 1) val)])
    (hl : l < 32) (hm : bit m l = true) : c.tickWin m true = c.withHeld c.lanes [(id, heldLoad d k l win val)] := by
  simp [Ctx.tickWin, Ctx.withHeld, h, heldLoad, hl, hm]

/-- A table of lanes with the k registers from d of lane l written, one after another. -/
def lanesWritten (t : Tbl Lane) (l d k : Nat) (f : Nat → Val W64) : Tbl Lane :=
  (List.range k).foldl (fun t j => Tbl.put t l { Tbl.get ({} : Lane) t l with v := Tbl.put (Tbl.get ({} : Lane) t l).v ((d + j) % 128) (Val.low32 (f j)) }) t

theorem lanesWritten_succ (t : Tbl Lane) (l d k : Nat) (f : Nat → Val W64) : lanesWritten t l d (k + 1) f = Tbl.put (lanesWritten t l d k f) l
    { Tbl.get ({} : Lane) (lanesWritten t l d k f) l with v := Tbl.put (Tbl.get ({} : Lane) (lanesWritten t l d k f) l).v ((d + k) % 128) (Val.low32 (f k)) } := by
  rw [lanesWritten, List.range_succ, List.foldl_append]
  rfl

theorem get_lanesWritten (t : Tbl Lane) (l d k : Nat) (f : Nat → Val W64) :
    Tbl.get {} (lanesWritten t l d k f) l = (Tbl.get ({} : Lane) t l).written d k f := by
  induction k with
  | zero => rfl
  | succ k ih =>
    rw [lanesWritten_succ, Tbl.get_put_same, ih, Lane.written, Lane.written, List.range_succ, List.foldl_append]
    rfl

theorem Ctx.foldl_setLn (c : Ctx) (l d k : Nat) (f : Nat → Val W64) :
    ((List.range k).map (fun j => (d + j, f j))).foldl (fun c rv => c.setLn l { c.ln l with v := Tbl.put (c.ln l).v (rv.1 % 128) (Val.low32 rv.2) }) c
      = c.withHeld (lanesWritten c.lanes l d k f) c.pend := by
  induction k with
  | zero => rfl
  | succ k ih =>
    rw [List.range_succ, List.map_append, List.foldl_append, ih, lanesWritten_succ]
    rfl

/-- A lone held result whose window has closed is written, and nothing else changes. -/
theorem Ctx.settle_closed (c : Ctx) {id d k l : Nat} (f : Nat → Val W64) (h : c.pend = [(id, heldLoad d k l 0 (some f))]) :
    c.settle = c.withHeld (lanesWritten c.lanes l d k f) [] := by
  have hwrite : c.writeHeld (heldLoad d k l 0 (some f)) = c.withHeld (lanesWritten c.lanes l d k f) c.pend := by
    rw [← c.foldl_setLn]
    simp only [Ctx.writeHeld, heldLoad, Option.map_some, List.foldl_cons, List.foldl_nil, List.zip_map']
    rfl
  rw [Ctx.settle, h, List.foldl_cons, List.foldl_nil, Ctx.ripe_closed, if_pos rfl, hwrite]
  simp [Ctx.withHeld, Tbl.del, h]

/-! Splits of a context with one split. -/

theorem Split.joins_empty_left (x : Split) : Split.joins {} x = false := rfl

theorem Split.joins_empty_right (x : Split) : Split.joins x {} = false := by simp [Split.joins]

/-- A context with one split and an empty pool has nothing to merge or to promote. -/
theorem Ctx.tidy_lone (c : Ctx) {k : Nat} {x : Split} (h : c.splits = [(k, x)]) (hp : c.pool = []) : c.tidy = c := by
  have hsplit (j : Nat) : c.split j = if k = j then x else {} := by simp [Ctx.split, h, Tbl.get]
  have hmerge (i j : Nat) (hij : i ≠ j) : c.mergeOne i j = c := by
    rw [Ctx.mergeOne, if_neg]
    simp only [hsplit]
    split
    · next hi => rw [if_neg (by omega), Split.joins_empty_right]; exact Bool.false_ne_true
    · rw [Split.joins_empty_left]; exact Bool.false_ne_true
  have habsorb : (List.range 4).foldl (fun c k => if (c.split k).mask != 0 && !c.pool.isEmpty then c.absorb k else c) c = c :=
    foldl_keeps (· = c) _ _ (fun d _ hd => by subst hd; simp [hp]) c rfl
  have hfetch : (List.range 4).foldl (fun c k => if (c.split k).mask != 0 then c else (c.fetchPool k (fun _ => true)).getD c) c = c :=
    foldl_keeps (· = c) _ _ (fun d _ hd => by subst hd; simp [Ctx.fetchPool, hp]) c rfl
  rw [Ctx.tidy, Ctx.merge]
  simp only [List.foldl_cons, List.foldl_nil, hmerge 0 1 (by decide), hmerge 0 2 (by decide), hmerge 0 3 (by decide), hmerge 1 2 (by decide),
    hmerge 1 3 (by decide), hmerge 2 3 (by decide)]
  rw [Ctx.promote, habsorb, hfetch]

end Sys2Proof.Machine
end

section
/-! The retirement of an instruction of a group, whose context may hold one result (09 R283; 06 R192). -/

namespace Sys2Proof.Machine

@[simp] theorem State.advance_cur (s : State) : s.advance.cur = s.cur := by simp [State.advance, State.updSp]

@[simp] theorem State.advance_me (s : State) :
    s.advance.me = s.me.setSplit s.cur.act.slot { s.me.split s.cur.act.slot with pc := s.cur.npc } := by
  simp [State.advance, State.updSp]

theorem State.advance_setCtx (s : State) (c : Ctx) : s.advance.setCtx s.cur.act c = s.setCtx s.cur.act c := by
  simp [State.advance, State.updSp, State.upd_eq]

/-- A context whose marks of YIELD drop slot `k`. -/
def Ctx.dropYield (c : Ctx) (k : Nat) : Ctx :=
  { c with splits := c.splits.map (fun y => if y.1 = k then y else (y.1, { y.2 with yld := y.2.yld.filter (· != k) })) }

/-- The end of an instruction of a group, when its windows and the results that are then written leave the lanes `T` and the held results `P`. -/
theorem State.finish_split {s : State} {core g e m : Nat} {T : Tbl Lane} {P : Tbl Held} (hact : s.cur.act = .split core g e)
    (hsettle : (s.me.tickWin m true).settle = s.me.withHeld T P) :
    s.finish m = s.setCtx s.cur.act ((s.me.withHeld T P).dropYield e).tidy := by
  have hslot : s.cur.act.slot = e := by rw [hact]; rfl
  rw [State.finish, if_neg (by simp [hact, Actor.isSeq]), State.upd_eq]
  dsimp only
  rw [hsettle, hslot]
  refine congrArg (State.setCtx s s.cur.act) ?_
  split
  · rfl
  · next hne => exact absurd hact (hne core g e)

/-- Retirement in a group: with its windows and the results that are then written the context has the lanes `T` and the held results `P`;
besides, its splits change, a lone one to the next instruction. -/
theorem State.retire_split {s : State} {core g e m : Nat} {T : Tbl Lane} {P : Tbl Held} (hact : s.cur.act = .split core g e)
    (hsettle : ∀ c : Ctx, c.lanes = s.me.lanes → c.pend = s.me.pend → (c.tickWin m true).settle = c.withHeld T P) :
    ∃ sp pl, s.retire m = s.setCtx s.cur.act ((s.me.withHeld T P).withSplits sp pl)
      ∧ ∀ x, s.me.splits = [(e, x)] → s.me.pool = [] → sp = [(e, { x with pc := s.cur.npc })] ∧ pl = [] := by
  have hslot : s.cur.act.slot = e := by rw [hact]; rfl
  have hret := State.finish_split (s := s.advance) (m := m) (by simpa using hact) (hsettle s.advance.me (by simp) (by simp))
  generalize hc : (s.advance.me.withHeld T P).dropYield e = c at hret
  rw [State.advance_cur, State.advance_setCtx] at hret
  refine ⟨c.tidy.splits, c.tidy.pool, ?_, fun x hx hp => ?_⟩
  · have htidy : c.tidy = c.withSplits c.tidy.splits c.tidy.pool := c.splitsOnly_tidy
    refine (hret : s.retire m = _).trans (congrArg (State.setCtx s s.cur.act) (htidy.trans ?_))
    generalize c.tidy.splits = sp
    generalize c.tidy.pool = pl
    rw [← hc, State.advance_me]
    rfl
  · have hsplits : c.splits = [(e, { x with pc := s.cur.npc })] := by
      rw [← hc]
      simp [Ctx.dropYield, Ctx.withHeld, Ctx.setSplit, Ctx.split, hx, hslot, Tbl.get, Tbl.put_singleton]
    have hpool : c.pool = [] := by rw [← hc, State.advance_me]; exact hp
    rw [Ctx.tidy_lone c hsplits hpool]
    exact ⟨hsplits, hpool⟩

section
variable {s : State} {core g e m : Nat}

/-- Retirement in a group without held results. -/
theorem State.retire_unheld (hact : s.cur.act = .split core g e) (hp : s.me.pend = []) :
    ∃ sp pl, s.retire m = s.setCtx s.cur.act (s.me.withSplits sp pl)
      ∧ ∀ x, s.me.splits = [(e, x)] → s.me.pool = [] → sp = [(e, { x with pc := s.cur.npc })] ∧ pl = [] := by
  refine State.retire_split (T := s.me.lanes) (P := s.me.pend) hact (fun c hl hc => ?_)
  rw [c.tickWin_quiet (hc.trans hp), c.settle_quiet (hc.trans hp), ← hl, ← hc]
  rfl

variable {id d k l win : Nat}

/-- Retirement in a group with one held result that is not available yet. -/
theorem State.retire_pending (hact : s.cur.act = .split core g e) (hp : s.me.pend = [(id, heldLoad d k l (win + 1) none)]) (hl : l < 32)
    (hm : bit m l = true) : ∃ sp pl, s.retire m = s.setCtx s.cur.act ((s.me.withHeld s.me.lanes [(id, heldLoad d k l win none)]).withSplits sp pl)
      ∧ ∀ x, s.me.splits = [(e, x)] → s.me.pool = [] → sp = [(e, { x with pc := s.cur.npc })] ∧ pl = [] := by
  refine State.retire_split hact (fun c hc hcp => ?_)
  rw [c.tickWin_held (hcp.trans hp) hl hm, Ctx.settle_unripe _ rfl (Ctx.ripe_none _ d k l win), hc]

/-- Retirement in a group with one held result whose window closes with it. -/
theorem State.retire_writes (hact : s.cur.act = .split core g e) {f : Nat → Val W64} (hp : s.me.pend = [(id, heldLoad d k l 1 (some f))])
    (hl : l < 32) (hm : bit m l = true) :
    ∃ sp pl, s.retire m = s.setCtx s.cur.act ((s.me.withHeld (lanesWritten s.me.lanes l d k f) []).withSplits sp pl)
      ∧ ∀ x, s.me.splits = [(e, x)] → s.me.pool = [] → sp = [(e, { x with pc := s.cur.npc })] ∧ pl = [] := by
  refine State.retire_split hact (fun c hc hcp => ?_)
  rw [c.tickWin_held (hcp.trans hp) hl hm, Ctx.settle_closed _ f rfl, ← hc]
  rfl

end

end Sys2Proof.Machine
end

section
/-! The local forms of a lane: what they are, their operands, and the bytes that they move (10 R320, R322, R325). -/

namespace Sys2Proof.Machine

/-- What a local form is as a memory instruction. -/
def localInfo (load : Bool) (sc d n : Nat) : MInfo := { kind := if load then .load else .store, size := n, space := some sc, d := d }

/-- A local form is a lane memory instruction of 1, 4, 8 or 16 bytes. -/
theorem Instr.localForm_spec {i : Instr} {load : Bool} {sc d n a imm : Nat} (h : Instr.localForm i = some (load, sc, d, n, a, imm)) :
    Instr.minfo i = some (localInfo load sc d n) ∧ (n = 1 ∨ n = 4 ∨ n = 8 ∨ n = 16)
      ∧ ∃ wn, ∀ s, exec i s = s.laneMem i [a] wn (fun _ y => vsAddr y a imm) := by
  unfold Instr.localForm at h
  split at h <;> cases h
  all_goals exact ⟨by simp [Instr.minfo, vsInfo, localInfo, alignReg, regsOf, Nat.mod_one], by decide, _, fun _ => rfl⟩

theorem regsOf_eq_wordsOf {n : Nat} (h : n = 1 ∨ n = 4 ∨ n = 8 ∨ n = 16) : regsOf n = wordsOf n := by
  rcases h with rfl | rfl | rfl | rfl <;> rfl

/-- The immediate of a local address (R325). -/
theorem imm9_eq_signExtend (imm : Nat) : imm9 imm = (BitVec.ofNat 9 imm).signExtend 32 := by
  refine congrArg (BitVec.ofInt 32) ?_
  rw [BitVec.toInt_eq_toNat_cond, BitVec.toNat_ofNat, toS, bit]
  have hlt : imm % 512 < 512 := Nat.mod_lt _ (by decide)
  have hsign : (imm % 512 / 2 ^ (9 - 1) % 2 == 1) = decide (¬ 2 * (imm % 2 ^ 9) < 2 ^ 9) := by
    rw [beq_eq_decide, decide_eq_decide]
    omega
  rw [hsign]
  simp only [decide_eq_true_eq, ite_not]
  push_cast
  rfl

theorem vsAddr_ok {x : Lane} {a : Nat} {w : W32} (h : x.rd a = .ok w) (imm : Nat) :
    vsAddr x a imm = .ok (w + (BitVec.ofNat 9 imm).signExtend 32).toNat := by
  rw [vsAddr, h, imm9_eq_signExtend]

theorem firstBad_of_none {l : List (Option Payload)} (h : ∀ x ∈ l, x = none) : firstBad l = none := by
  induction l with
  | nil => rfl
  | cons x r ih =>
    rw [h x (List.mem_cons_self ..)]
    exact ih (fun y hy => h y (List.mem_cons_of_mem _ hy))

/-- The clean data of a local store are the low bytes of its registers. -/
theorem laneData_store {x : Lane} {sc d n : Nat} (hn : n = 1 ∨ n = 4 ∨ n = 8 ∨ n = 16) (h : ∀ k < wordsOf n, (x.rd (d + k)).pl? = none) :
    laneData (localInfo false sc d n) x = (x.bytes d n, 0, none) := by
  have hbad : firstBad ((List.range (wordsOf n)).map (fun k => (x.rd (d + k)).pl?)) = none := by
    refine firstBad_of_none (fun y hy => ?_)
    obtain ⟨k, hk, rfl⟩ := List.mem_map.1 hy
    exact h k (List.mem_range.1 hk)
  simp only [laneData, localInfo, Lane.rdN, regsOf_eq_wordsOf hn, Bool.false_eq_true, if_false, hbad]
  rfl

/-- A local access passes the first checks: those of its address are made at the space (R326). -/
theorem startLane_local (load : Bool) (sc d n l ea : Nat) {dt : Nat × Nat × Option Payload} (h : dt.2.2 = none) :
    startLane (localInfo load sc d n) l (.ok ea) dt = .acc { lane := l, addr := ea, size := n, data := dt.1, aux := dt.2.1 } := by
  cases load <;> simp [startLane, localInfo, h]

/-! The number of a run of bytes, and a load where its group holds none of them. -/

theorem tblNum_eq_bytesOf (t : Tbl Byte) (k n : Nat) : tblNum t k n = bytesOf t k n := by
  rw [tblNum, ofBytes, List.foldr_map]
  rfl

theorem toBytes_ofBytes (bs : List Byte) : toBytes bs.length (ofBytes bs) = bs := by
  induction bs with
  | nil => rfl
  | cons b bs ih =>
    have hcons : ofBytes (b :: bs) = b.toNat + 256 * ofBytes bs := rfl
    have hlow : BitVec.ofNat 8 (b.toNat + 256 * ofBytes bs) = b := by
      refine BitVec.eq_of_toNat_eq ?_
      rw [BitVec.toNat_ofNat]
      omega
    have hdiv : (b.toNat + 256 * ofBytes bs) / 256 = ofBytes bs := by omega
    rw [List.length_cons, toBytes, hcons, hlow, hdiv, ih]

/-- What a place gives stands where the group holds no byte of it. -/
theorem overlay_unheld (bs : List Byte) (h : bs ≠ []) : overlay (List.replicate bs.length none) (.num (ofBytes bs)) = .num (ofBytes bs) := by
  have hfind (n : Nat) : (List.replicate n (none : Option QByte)).findSome? (fun b => b.bind (·.poi)) = none :=
    List.findSome?_eq_none_iff.2 (fun x hx => by rw [List.eq_of_mem_replicate hx]; rfl)
  have hzip (bs : List Byte) : ((List.replicate bs.length (none : Option QByte)).zip bs).map (fun e => (e.1.map (·.val)).getD e.2) = bs := by
    induction bs with
    | nil => rfl
    | cons b bs ih => rw [List.length_cons, List.replicate_succ, List.zip_cons_cons, List.map_cons, ih]; rfl
  have hall : (List.replicate bs.length (none : Option QByte)).all Option.isSome = false := by
    simpa [List.all_replicate] using h
  rw [overlay, hfind]
  simp only [hall, Bool.false_eq_true, if_false, List.length_replicate, toBytes_ofBytes, hzip]

/-- The words of a local load (R320, R322). -/
theorem words_local (sc d x : Nat) {n : Nat} (hn : n = 1 ∨ n = 4 ∨ n = 8 ∨ n = 16) : (localInfo true sc d n).words x
    = (List.range (wordsOf n)).map (fun k => .ok (BitVec.ofNat 64 (x / 2 ^ (32 * k) % 2 ^ 32))) := by
  rw [← regsOf_eq_wordsOf hn]
  rfl

theorem low32_word (x k : Nat) : Val.low32 (.ok (BitVec.ofNat 64 (x / 2 ^ (32 * k) % 2 ^ 32))) = .ok (loadWord 0 x k) := by
  refine congrArg Val.ok (BitVec.eq_of_toNat_eq ?_)
  simp [loadWord]

end Sys2Proof.Machine
end

section
/-! The issue of a local access of one lane (10 R321, R325, R326). -/

namespace Sys2Proof.Machine

/-- A local access of one lane in flight. -/
def State.localOp (s : State) (i : Instr) (sc hid : Nat) (x : Acc) : MemOp :=
  { ins := i, pc := s.cur.pc, word := s.cur.word, mask := s.mask, todo := [x], hid := hid, remote := sc == 1, probed := true, sup := s.sp.sup, ord := 1 }

/-- A context without held results after the issue of operation `o` in slot `e`: a load holds its result. -/
def Ctx.issued (c : Ctx) (load : Bool) (d k l e : Nat) (o : MemOp) : Ctx :=
  { c with
    memops := [(e, o)]
    pend := if load then [(c.hid, heldLoad d k l 1 none)] else c.pend
    hid := if load then c.hid + 1 else c.hid }

theorem mem_lanesOf_singleton {m l : Nat} (h : lanesOf m = [l]) : l < 32 ∧ bit m l = true ∧ m ≠ 0 := by
  have hmem : l ∈ lanesOf m := by rw [h]; exact List.mem_singleton_self l
  obtain ⟨hlt, hbit⟩ := List.mem_filter.1 hmem
  refine ⟨List.mem_range.1 hlt, hbit, ?_⟩
  rintro rfl
  simp [bit] at hbit

/-- The operation that a local access of a context without operations starts, when the held results have become those of `c`. -/
theorem State.setOp_localOp {s : State} {core g e : Nat} (i : Instr) (sc hid : Nat) (x : Acc) {c : Ctx} (hact : s.cur.act = .split core g e)
    (hops : c.memops = []) : (s.setCtx s.cur.act c).setOp s.cur.act (some { s.localOp i sc hid x with
        mask := if s.cur.act.isSeq then (s.wgOf s.cur.act).fmask else s.mask
        mesh := s.cur.act.isThread
        remote := some sc == some 1 && !false
        ord := c.memops.foldl (fun n e => max n e.2.ord) 0 + 1 })
      = s.setCtx s.cur.act { c with memops := [(e, s.localOp i sc hid x)] } := by
  rw [State.setOp, State.updCtx, State.ctx_setCtx, State.setCtx_setCtx, hops, hact]
  simp [Actor.isSeq, Actor.isThread, Actor.slot, Tbl.put_nil, State.localOp]

theorem State.startMem_store {s : State} {core g e : Nat} (i : Instr) (sc d n l : Nat) (x : Acc) (hact : s.cur.act = .split core g e)
    (hops : s.me.memops = []) : s.startMem i (localInfo false sc d n) [(l, .acc x)]
      = (s.setCtx s.cur.act (s.me.issued false d (wordsOf n) l e (s.localOp i sc 0 x))).memGo memFuel s.cur.act := by
  refine Eq.trans ?_ (congrArg (State.memGo memFuel · s.cur.act) (State.setOp_localOp i sc 0 x hact hops))
  rw [State.startMem]
  rfl

theorem State.startMem_load {s : State} {core g e l : Nat} (i : Instr) (sc d : Nat) {n : Nat} (x : Acc) (hact : s.cur.act = .split core g e)
    (hp : s.me.pend = []) (hops : s.me.memops = []) (hl : lanesOf s.mask = [l]) (hn : n = 1 ∨ n = 4 ∨ n = 8 ∨ n = 16) :
    s.startMem i (localInfo true sc d n) [(l, .acc x)]
      = (s.setCtx s.cur.act (s.me.issued true d (wordsOf n) l e (s.localOp i sc s.me.hid x))).memGo memFuel s.cur.act := by
  have hhold := Ctx.hold_quiet s.me hp (d := d) (k := wordsOf n) (mem_lanesOf_singleton hl).2.2 hl 0
  rw [← regsOf_eq_wordsOf hn] at hhold ⊢
  have hstart (c : Ctx) (hid : Nat) (h : s.me.hold ((List.range (regsOf n)).map (d + ·)) false s.mask 0 = (c, hid)) :
      s.startMem i (localInfo true sc d n) [(l, .acc x)] = ((s.setCtx s.cur.act c).setOp s.cur.act (some { s.localOp i sc hid x with
        mask := if s.cur.act.isSeq then (s.wgOf s.cur.act).fmask else s.mask
        mesh := s.cur.act.isThread
        remote := some sc == some 1 && !false
        ord := c.memops.foldl (fun n e => max n e.2.ord) 0 + 1 })).memGo memFuel s.cur.act := by
    unfold State.startMem
    generalize memFuel = fuel
    extract_lets a g' own s1 res todo gives
    have hdest : ((localInfo true sc d n).dest.isEmpty || !gives) = false := by
      have hempty : ((List.range (regsOf n)).map (d + ·)).isEmpty = false := by rcases hn with rfl | rfl | rfl | rfl <;> rfl
      exact (congrArg (· || !gives) hempty).trans rfl
    rw [hdest, if_neg Bool.false_ne_true]
    split
    next c' hid' hc =>
      obtain ⟨rfl, rfl⟩ := Prod.mk.inj (h.symm.trans hc)
      rfl
  exact (hstart _ _ hhold).trans (congrArg (State.memGo memFuel · s.cur.act) (State.setOp_localOp i sc s.me.hid x hact hops))

/-- The access of a local form of lane l. -/
def Lane.localAcc (y : Lane) (load : Bool) (l addr d n : Nat) : Acc :=
  { lane := l, addr := addr, size := n, data := if load then 0 else y.bytes d n }

theorem Lane.localStart {y : Lane} {a d n : Nat} {w : W32} (load : Bool) (sc l imm : Nat) (hn : n = 1 ∨ n = 4 ∨ n = 8 ∨ n = 16) (ha : y.rd a = .ok w)
    (hclean : ∀ k < wordsOf n, (y.rd (d + k)).pl? = none) :
    startLane (localInfo load sc d n) l (vsAddr y a imm) (laneData (localInfo load sc d n) y)
      = .acc (y.localAcc load l (w + (BitVec.ofNat 9 imm).signExtend 32).toNat d n) := by
  rw [vsAddr_ok ha]
  cases load with
  | false => rw [laneData_store hn hclean, startLane_local _ _ _ _ _ _ rfl]; rfl
  | true => exact startLane_local _ _ _ _ _ _ rfl

/-- The context in which a local access is tried. -/
def State.localCtx (s : State) (i : Instr) (load : Bool) (sc l e d n : Nat) (wn : W32) (x : Acc) : Ctx :=
  (s.me.warns wn).issued load d (wordsOf n) l e (s.localOp i sc (if load then s.me.hid else 0) x)

/-- A local form issues one access, goes as far as it can, and retires. -/
theorem State.exec_localForm {s : State} {i : Instr} {load : Bool} {sc d n a imm core g e l : Nat} {w : W32}
    (hform : Instr.localForm i = some (load, sc, d, n, a, imm)) (hact : s.cur.act = .split core g e) (hp : s.me.pend = []) (hops : s.me.memops = [])
    (hl : s.active = [l]) (ha : (s.me.ln l).rd a = .ok w) (hclean : ∀ k < wordsOf n, ((s.me.ln l).rd (d + k)).pl? = none) :
    ∃ wn, exec i s = .next (((s.setCtx s.cur.act (s.localCtx i load sc l e d n wn
      ((s.me.ln l).localAcc load l (w + (BitVec.ofNat 9 imm).signExtend 32).toNat d n))).memGo memFuel s.cur.act).retire s.mask) := by
  obtain ⟨hinfo, hn, wn, hexec⟩ := Instr.localForm_spec hform
  have hseq : s.cur.act.isSeq = false := by rw [hact]; rfl
  have hlanes : s.cur.act.lanes = true := by rw [hact]; rfl
  generalize hx : (s.me.ln l).localAcc load l (w + (BitVec.ofNat 9 imm).signExtend 32).toNat d n = x
  generalize hwn : wn ||| s.unmapped ([a] ++ (localInfo load sc d n).sources) = wn'
  refine ⟨wn', ?_⟩
  rw [hexec, State.laneMem, State.laneSet, if_pos hlanes, hinfo]
  dsimp only [Option.getD_some]
  rw [hwn, State.active_warns, hl, List.map_singleton, State.ln_warns, Lane.localStart load sc l imm hn ha hclean, hx]
  refine congrArg (fun t : State => Host.Outcome.next (t.retire s.mask)) ?_
  have hop (hid : Nat) : (s.warns wn').localOp i sc hid x = s.localOp i sc hid x := by simp [State.localOp]
  have hctx (c : Ctx) : (s.warns wn').setCtx s.cur.act c = s.setCtx s.cur.act c := by rw [State.warns_upd _ _ hseq, State.upd_eq, State.setCtx_setCtx]
  have hme := State.me_warns s wn' hseq
  cases load with
  | false =>
    rw [State.startMem_store i sc d n l x (by simpa using hact) (by simpa [hme] using hops), hme, hop, State.warns_cur, hctx]
    rfl
  | true =>
    rw [State.startMem_load i sc d x (by simpa using hact) (by simpa [hme] using hp) (by simpa [hme] using hops)
      ((congrArg lanesOf (s.mask_warns wn')).trans hl) hn, hme, hop, State.warns_cur, hctx]
    rfl

end Sys2Proof.Machine
end

section
/-! A local access that its context performs at once (02 R49; 10 R326): it is tried, its result is recorded, and the instruction completes. -/

namespace Sys2Proof.Machine

/-- An operation to a pack scratchpad is on its way to the member (03 R102). -/
theorem State.memGo_remote {s : State} {a : Actor} {o : MemOp} (fuel : Nat) (ho : s.opOf a = some o) (hr : o.remote = true) : s.memGo fuel a = s := by
  cases fuel with
  | zero => rfl
  | succ n => simp [State.memGo, ho, hr]

/-- An operation with one local access tries it and completes with what it gives. -/
theorem State.memGo_local {s : State} {a : Actor} {o : MemOp} {x : Acc} {sc : Nat} (fuel : Nat) (ho : s.opOf a = some o) (hmesh : o.mesh = false)
    (hr : o.remote = false) (hreq : o.req = none) (hprobes : o.probes = []) (hprobed : o.probed = true) (htodo : o.todo = [x])
    (hfirst : (s.ctx a).first o = true) (hsp : o.info.space = some sc) :
    s.memGo (fuel + 2) a = ((s.tryLocal a o x sc).1.setOp a (some (o.done x (s.tryLocal a o x sc).2))).memFinish a (o.done x (s.tryLocal a o x sc).2) := by
  generalize htry : s.tryLocal a o x sc = r
  obtain ⟨s1, r⟩ := r
  have hdone : (o.done x r).todo = [] := by simp [MemOp.done, htodo]
  have hacc : s.tryAcc a o x = (s1, .done r) := by simp only [State.tryAcc, hsp, htry]
  have hlast : (s1.setOp a (some (o.done x r))).memGo (fuel + 1) a = (s1.setOp a (some (o.done x r))).memFinish a (o.done x r) := by
    have hm : (o.done x r).mesh = false := hmesh
    have hrem : (o.done x r).remote = false := hr
    have hq : (o.done x r).req = none := hreq
    have hps : (o.done x r).probes = [] := hprobes
    have hpd : (o.done x r).probed = true := hprobed
    rw [State.memGo, State.opOf_setOp]
    simp only [hm, hrem, hq, hps, hpd, hdone, Option.isSome_none, Bool.or_self, Bool.false_eq_true, if_false, Bool.not_true]
  rw [State.memGo, ho]
  simp only [hmesh, hr, hreq, hprobes, hprobed, htodo, hfirst, hacc, hlast, Option.isSome_none, Bool.or_self, Bool.false_eq_true, if_false, Bool.not_true]

end Sys2Proof.Machine
end

section
/-! Local addresses: what they depend on, and what resolving one gives (01 R34, R37). -/

namespace Sys2Proof.Machine

section
variable {s : State} {a : Actor} {core g e : Nat} {x : Ctx}

theorem State.wgOf_setCtx (ha : a = .split core g e) (hw : x.wslot = (s.ctx a).wslot) : (s.setCtx a x).wgOf a = s.wgOf a := by
  subst ha
  rw [State.wgOf, State.wgOf, State.ctx_setCtx, State.core_setCtx, hw]
  rfl

theorem State.viewPos_setCtx (s : State) (a : Actor) (x : Ctx) (core wslot sp view off : Nat) (engine : Bool) :
    (s.setCtx a x).viewPos core wslot sp view off engine = s.viewPos core wslot sp view off engine := by
  rw [State.viewPos, State.core_setCtx]
  rfl

/-- A local address depends on the workgroup of its actor, not on the rest of its context. -/
theorem State.laddr_setCtx (ha : a = .split core g e) (hw : x.wslot = (s.ctx a).wslot) (sc la n : Nat) :
    (s.setCtx a x).laddr a sc la n = s.laddr a sc la n := by
  have hwg := State.wgOf_setCtx (x := x) ha hw
  have hpack : (s.setCtx a x).packSize a = s.packSize a := by
    rw [State.packSize, State.packSize, State.desc, State.desc, hwg, State.gridAt, State.gridAt, State.setCtx_grids]
  have hmember (mb : Nat) : (s.setCtx a x).memberAt a mb = s.memberAt a mb := by
    rw [State.memberAt, State.memberAt, hwg, State.ctx_setCtx, State.core_setCtx, hw, ha]
    rfl
  have hcore : (s.setCtx a x).coreOf a = s.coreOf a := by rw [ha]; rfl
  rw [State.laddr, State.laddr, hpack, hmember, hcore, State.ctx_setCtx, hw]
  simp only [State.viewPos_setCtx]

theorem State.laddr_ok {sc la n : Nat} {p : LPos} (hsc : sc ≠ 1) (h : s.laddr a sc la n = .ok p) :
    s.viewPos (s.coreOf a) (s.ctx a).wslot (spaceOf sc) (fld la 24 4) (fld la 0 20) false = some p := by
  rw [State.laddr, if_neg hsc] at h
  split at h
  · cases h
  · split at h
    · cases h
    · dsimp only at h
      split at h
      · cases h
      · next q hq => rw [hq]; cases h; rfl

theorem State.laddr_error {sc la n : Nat} {f : Flt} (h : s.laddr a sc la n = .error f) : f.cause = cMisalign ∨ f.cause = cBounds := by
  rw [State.laddr] at h
  split at h
  · cases h; exact .inl rfl
  · split at h
    · cases h; exact .inr rfl
    · split at h
      · cases h; exact .inr rfl
      · split at h
        · cases h; exact .inr rfl
        · cases h

theorem State.viewPos_some {wslot sp view off : Nat} {engine : Bool} {p : LPos} (h : s.viewPos core wslot sp view off engine = some p) :
    p.core = core ∧ p.wslot = wslot ∧ p.sp = sp := by
  rw [State.viewPos] at h
  split at h
  · cases h
  · cases h; exact ⟨rfl, rfl, rfl⟩

end

end Sys2Proof.Machine
end

section
/-! A local access of a lane where it is tried: what a load gets, and what a store writes (01 R37, R45; 05 R169; 10 R326). -/

namespace Sys2Proof.Machine

section
variable {s : State} {a : Actor} {core g e : Nat}

theorem Core.heldAt_empty {c : Core} (h : c.quar = []) (slot : Nat) (d : Dst) (n : Nat) : c.heldAt slot d n = List.replicate n none := by
  simp [Core.heldAt, h]

theorem Core.unforward_empty {c : Core} (h : c.quar = []) (slot : Nat) (d : Dst) (n : Nat) : c.unforward slot d n = c := by
  cases c
  cases h
  rfl

/-- A load of the actor's own space, of bytes that are its owner's and clean and that its group does not hold, gets them. -/
theorem State.tryLocal_load {o : MemOp} {x : Acc} {sc : Nat} {p : LPos} (ha : a = .split core g e) (hk : o.info.kind = .load)
    (hp : s.laddr a sc x.addr x.size = .ok p) (hquar : (s.core (s.coreOf a)).quar = []) (hsize : 0 < x.size)
    (htag : (s.mem.osecAt p.core (ocKey p.sp p.byte / 32)).tag = s.owner a) (hecc : (s.mem.osecAt p.core (ocKey p.sp p.byte / 32)).ecc = none)
    (hbad : (s.mem.osecAt p.core (ocKey p.sp p.byte / 32)).bad p.sp (ocKey p.sp p.byte) x.size = false) :
    s.tryLocal a o x sc = (s, .num (bytesOf (Tbl.get [] s.mem.oc p.core) (ocKey p.sp p.byte) x.size)) := by
  have hheld (d : Dst) : s.held a d x.size = List.replicate x.size none := by
    rw [State.held, if_neg (by rw [ha]; exact Bool.false_ne_true), Core.heldAt_empty hquar]
  have hall : (List.replicate x.size (none : Option QByte)).all Option.isSome = false := by
    rw [List.all_replicate, if_neg (by omega)]
    rfl
  have hread : s.mem.ocRead p.core p.sp p.byte x.size (s.owner a) = (s.mem, tblNum (Tbl.get [] s.mem.oc p.core) (ocKey p.sp p.byte) x.size, none) := by
    simp [Mem.ocRead, htag, hecc, hbad]
  have hover : overlay (List.replicate x.size none) (.num (tblNum (Tbl.get [] s.mem.oc p.core) (ocKey p.sp p.byte) x.size))
      = .num (bytesOf (Tbl.get [] s.mem.oc p.core) (ocKey p.sp p.byte) x.size) := by
    have := overlay_unheld ((List.range x.size).map (fun i => Tbl.get 0 (Tbl.get [] s.mem.oc p.core) (ocKey p.sp p.byte + i)))
      (by rw [Ne, List.map_eq_nil_iff, List.range_eq_nil]; omega)
    rw [List.length_map, List.length_range, ← tblNum] at this
    exact this.trans (congrArg Res.num (tblNum_eq_bytesOf ..))
  rw [State.tryLocal, hp]
  simp only [hk, hheld, hall, hread, hover, Bool.false_eq_true, if_false]
  rfl

/-- A write of bytes of the owner's sector changes these bytes and no other. -/
theorem Mem.get_oc_ocWrite (m : Mem) {core sp b n slot : Nat} (x : Nat) (poi : Bool) (htag : (m.osecAt core (ocKey sp b / 32)).tag = slot) (j : Nat) :
    Tbl.get 0 (Tbl.get [] (m.ocWrite core sp b n x slot poi).oc core) j
      = if ocKey sp b ≤ j ∧ j < ocKey sp b + n then BitVec.ofNat 8 (x / 2 ^ (8 * (j - ocKey sp b))) else Tbl.get 0 (Tbl.get [] m.oc core) j := by
  have hoc : (m.ocWrite core sp b n x slot poi).oc = Tbl.put m.oc core (tblPut (Tbl.get [] m.oc core) (ocKey sp b) n x) := by
    simp [Mem.ocWrite, Mem.setOsec, htag]
  rw [hoc, Tbl.get_put_same, get_tblPut]

theorem State.ctx_setCore (s : State) (a : Actor) (c : Nat) (x : Core) : (s.setCore c x).ctx a = s.ctx a := by cases a <;> rfl

theorem State.ctx_ocPut (s : State) (a : Actor) (c w sp byte n x slot : Nat) (poi keep : Bool) :
    (s.ocPut c w sp byte n x slot poi keep).ctx a = s.ctx a := by
  cases keep <;> cases a <;> rfl

theorem lanesOf_two_pow : ∀ l < 32, lanesOf (2 ^ l) = [l] := by decide

/-- A live lane of a group is in its group, and its region is its own. -/
theorem State.rgnAt_live {l : Nat} (h : ((s.ctx a).ln l).life = .live) : s.rgnAt a l = ((s.ctx a).ln l).rgn := by
  simp [State.rgnAt, State.laneActor, h]

theorem fld_mod_28 (w : Nat) : fld (w % 2 ^ 28) 24 4 = fld w 24 4 ∧ fld (w % 2 ^ 28) 0 20 = fld w 0 20 := by
  simp only [fld]
  omega

/-- A store of the actor's own space takes effect at the place of its address. -/
theorem State.place_own {sc la n x hint : Nat} {p : LPos} (hsc : sc ≠ 1) (hp : s.laddr a sc la n = .ok p) :
    s.place a ⟨p.sp + 1, (s.wgOf a).member, la % 2 ^ 28⟩ n x hint = s.ocPut p.core p.wslot p.sp p.byte n x (s.owner a) false false := by
  have hview := State.laddr_ok hsc hp
  have hmember : s.memberAt a (s.wgOf a).member = some (s.coreOf a, (s.ctx a).wslot) := by rw [State.memberAt]; exact if_pos rfl
  obtain ⟨-, -, hspace⟩ := State.viewPos_some hview
  rw [State.place]
  dsimp only
  rw [if_neg (Nat.succ_ne_zero _), hmember]
  dsimp only
  rw [Nat.add_sub_cancel, (fld_mod_28 la).1, (fld_mod_28 la).2, hspace, hview]
  dsimp only
  rw [hspace]

/-- The state in which the forwarding of held bytes has stopped, where none is held. -/
theorem State.perform_unheld {slot n x hint : Nat} {d : Dst} (hquar : (s.core (s.coreOf a)).quar = []) :
    s.perform a slot d n x hint = (s.setCore (s.coreOf a) (s.core (s.coreOf a))).place a d n x hint := by
  rw [State.perform, Core.unforward_empty hquar]


/-- A core put in its own place leaves local addresses and the workgroup as they are. -/
theorem State.laddr_setCore_self (sc la n : Nat) : (s.setCore (s.coreOf a) (s.core (s.coreOf a))).laddr a sc la n = s.laddr a sc la n
    ∧ (s.setCore (s.coreOf a) (s.core (s.coreOf a))).wgOf a = s.wgOf a := by
  have hcore (c : Nat) : (s.setCore (s.coreOf a) (s.core (s.coreOf a))).core c = s.core c := by
    by_cases h : c = s.coreOf a
    · rw [h, State.core_setCore]
    · exact State.core_setCore_ne s _ h
  have hctx := State.ctx_setCore s a (s.coreOf a) (s.core (s.coreOf a))
  generalize hs : s.setCore (s.coreOf a) (s.core (s.coreOf a)) = s' at *
  have hgrids : s'.grids = s.grids := by rw [← hs]; rfl
  have hcoreOf : s'.coreOf a = s.coreOf a := by rw [← hs]; cases a <;> rfl
  have hwg : s'.wgOf a = s.wgOf a := by rw [State.wgOf, State.wgOf, hcore, hctx, hcoreOf]
  refine ⟨?_, hwg⟩
  have hpack : s'.packSize a = s.packSize a := by rw [State.packSize, State.packSize, State.desc, State.desc, hwg, State.gridAt, State.gridAt, hgrids]
  have hmember (mb : Nat) : s'.memberAt a mb = s.memberAt a mb := by rw [State.memberAt, State.memberAt, hwg, hctx, hcore, hcoreOf]
  have hview (core wslot sp view off : Nat) (engine : Bool) : s'.viewPos core wslot sp view off engine = s.viewPos core wslot sp view off engine := by
    rw [State.viewPos, hcore]; rfl
  rw [State.laddr, State.laddr, hpack, hcoreOf, hctx]
  simp only [hmember, hview]

/-- A clean store of a live lane outside regions, to bytes of its own space that are its owner's, writes these bytes and no other. -/
theorem State.tryLocal_store {o : MemOp} {x : Acc} {sc : Nat} {p : LPos} (ha : a = .split core g e) (hk : o.info.kind = .store)
    (hu : o.info.uni = false) (hsc : sc ≠ 1) (hp : s.laddr a sc x.addr x.size = .ok p) (hquar : (s.core (s.coreOf a)).quar = [])
    (hclean : x.bad = none) (hl : x.lane < 32) (hlive : ((s.ctx a).ln x.lane).life = .live) (hopn : ((s.ctx a).ln x.lane).rgn.opn = false)
    (htag : (s.mem.osecAt p.core (ocKey p.sp p.byte / 32)).tag = s.owner a) :
    ∃ t, s.tryLocal a o x sc = (t, .num 0) ∧ t.cur = s.cur ∧ t.ctx a = s.ctx a ∧ ∀ b, Tbl.get 0 (Tbl.get [] t.mem.oc p.core) b =
      if ocKey p.sp p.byte ≤ b ∧ b < ocKey p.sp p.byte + x.size then BitVec.ofNat 8 (x.data / 2 ^ (8 * (b - ocKey p.sp p.byte)))
      else Tbl.get 0 (Tbl.get [] s.mem.oc p.core) b := by
  have hmarker : s.marker a = a := by rw [ha]; rfl
  have hkept : maskOf ((lanesOf (2 ^ x.lane)).filter (fun l => (s.rgnAt a l).opn && (s.rgnAt a l).kind)) = 0 := by
    rw [lanesOf_two_pow _ hl, List.filter_singleton, State.rgnAt_live hlive, hopn]
    rfl
  generalize hs : s.setCore (s.coreOf a) (s.core (s.coreOf a)) = s'
  obtain ⟨hladdr, hwg⟩ := State.laddr_setCore_self (s := s) (a := a) sc x.addr x.size
  rw [hs] at hladdr hwg
  have hctx : s'.ctx a = s.ctx a := by rw [← hs]; exact State.ctx_setCore ..
  have hmem : s'.mem = s.mem := by rw [← hs]; rfl
  have howner : s'.owner a = s.owner a := by rw [State.owner, State.owner, hmem, hctx]
  refine ⟨s'.ocPut p.core p.wslot p.sp p.byte x.size x.data (s.owner a) false false, ?_, by rw [← hs]; rfl,
    (State.ctx_ocPut ..).trans hctx, fun b => ?_⟩
  · rw [State.tryLocal, hp]
    simp only [hk, beq_self_eq_true, if_true, if_neg hsc, State.doStore, hclean, hmarker, hu, Bool.false_eq_true, if_false, hkept, bne_self_eq_false,
      State.perform_unheld hquar, hs]
    rw [← hwg, State.place_own hsc (hladdr.trans hp), howner]
  · refine Eq.trans ?_ ((Mem.get_oc_ocWrite s.mem x.data false htag b))
    rw [← hmem]
    rfl

/-- A wrong local address is the fault of its access. -/
theorem State.tryLocal_fault (o : MemOp) {x : Acc} {sc : Nat} {f : Flt} (hf : s.laddr a sc x.addr x.size = .error f) :
    ∃ page, s.tryLocal a o x sc = (s, .fault f 0 page false) := by
  rw [State.tryLocal, hf]
  exact ⟨_, rfl⟩

end

end Sys2Proof.Machine
end

section
/-! The completion of a local access of one lane (10 R321; 05 R151, R158, R163). -/

namespace Sys2Proof.Machine

section
variable {s : State} {a : Actor} {o : MemOp} {load : Bool} {sc d n l : Nat}

/-- A load that got its number writes the words of it. -/
theorem State.memFinish_load (hinfo : o.info = localInfo true sc d n) (hl : lanesOf o.mask = [l]) {v : Nat}
    (hres : Tbl.find o.res (l * 8) = some (.num v)) : s.memFinish a o
      = ((s.updCtx a (fun c => (c.deliver o.hid [(l, (localInfo true sc d n).words v)]).warns 0)).setOp a none).updCtx a Ctx.settle := by
  simp [State.memFinish, hinfo, hl, hres, localInfo, faultsOf, MemOp.value]

/-- A store that got through changes nothing more. -/
theorem State.memFinish_store (hinfo : o.info = localInfo false sc d n) (hl : lanesOf o.mask = [l]) {v : Nat}
    (hres : Tbl.find o.res (l * 8) = some (.num v)) : s.memFinish a o = (s.setOp a none).updCtx a Ctx.settle := by
  simp [State.memFinish, hinfo, hl, hres, localInfo, faultsOf, State.markOp]

/-- The fault of one lane as its record and payload see it. -/
def Res.laneFault (l : Nat) (f : Flt) (va page : Nat) (cln : Bool) : LFlt :=
  { lane := l, flt := f, va := if page < 2 ^ 60 then va else 0, page := page, cln := cln }

theorem faultsOf_one (l : Nat) (f : Flt) (va page : Nat) (cln : Bool) :
    faultsOf none [(l, .fault f va page cln)] = [Res.laneFault l f va page cln] := rfl

/-- A load that faulted writes the payload of its record to every register. -/
theorem State.memFinish_loadFault (hinfo : o.info = localInfo true sc d n) (hl : lanesOf o.mask = [l]) {f : Flt} {va page : Nat} {cln : Bool}
    (hres : Tbl.find o.res (l * 8) = some (.fault f va page cln)) {t : State} {tb : Tbl Payload}
    (halloc : s.alloc (s.marker a) o.pc [Res.laneFault l f va page cln] = (t, tb)) :
    s.memFinish a o = ((t.updCtx a (fun c => (c.deliver o.hid [(l, List.replicate (regsOf n) (.bad (Tbl.get 0 tb l)))]).warns 0)).setOp a none).updCtx a
      Ctx.settle := by
  simp [State.memFinish, hinfo, hl, hres, localInfo, faultsOf_one, MemOp.value, halloc]

/-- A store that faulted marks its lane. -/
theorem State.memFinish_storeFault (hinfo : o.info = localInfo false sc d n) (hl : lanesOf o.mask = [l]) {f : Flt} {va page : Nat} {cln : Bool}
    (hres : Tbl.find o.res (l * 8) = some (.fault f va page cln)) {t : State} {tb : Tbl Payload}
    (halloc : s.alloc (s.marker a) o.pc [Res.laneFault l f va page cln] = (t, tb)) :
    s.memFinish a o = ((t.markOp a o [Res.laneFault l f va page cln] tb).setOp a none).updCtx a Ctx.settle := by
  simp [State.memFinish, hinfo, hl, hres, localInfo, faultsOf_one, halloc]

/-- The record of one fault of a group: the side table, the last record and the overflow flag change, and the lane gets a payload of the
fault's cause. -/
theorem State.alloc_one {core g e : Nat} (ha : a = .split core g e) (pc : W64) (f : LFlt) : ∃ co last full i, s.alloc a pc [f]
    = ((s.setCore core co).updCtx a (fun c => { c with lastRec := last, ovf := c.ovf || full }), [(f.lane, mkPl f.flt.cause i)]) := by
  have hpairs : pairsOf [f] = [f] := rfl
  subst ha
  unfold State.alloc
  rw [if_neg (show ¬ (Actor.split core g e).isCtl = true from Bool.false_ne_true)]
  simp only [hpairs, List.length_singleton, List.range_one, List.zip_cons_cons, List.zip_nil_right, List.foldl_cons, List.foldl_nil, List.nil_append]
  have hkey : (f.flt.cause == f.flt.cause && f.page == f.page) = true := by simp
  split
  all_goals
    simp only [List.zip_cons_cons, List.zip_nil_right, List.find?_cons, hkey, List.map_cons, List.map_nil]
    exact ⟨_, _, _, _, rfl⟩

theorem plCause_mkPl (c i : Nat) : plCause (mkPl c i) = c % 64 := by
  rw [plCause, mkPl, BitVec.toNat_ofNat]
  omega

/-- A faulting store of a live lane outside regions leaves it ORPH (05 R158, R167). -/
theorem State.markOp_closed {core g e : Nat} (ha : a = .split core g e) (hu : o.info.uni = false) (fl : LFlt) (tb : Tbl Payload)
    (hlive : ((s.ctx a).ln fl.lane).life = .live) (hopn : ((s.ctx a).ln fl.lane).rgn.opn = false) : ∃ h, s.markOp a o [fl] tb
      = s.setCtx a ({ s.ctx a with hit := h }.setLn fl.lane { (s.ctx a).ln fl.lane with rgn := { ((s.ctx a).ln fl.lane).rgn with orph := true } }) := by
  have hlane : s.laneActor a fl.lane = a := by simp [State.laneActor, hlive]
  have hmarker : s.marker a = a := by rw [ha]; rfl
  have hmark : s.markOp a o [fl] tb = s.sink a o.pc fl.lane (Tbl.get 0 tb fl.lane) := by
    simp only [State.markOp, State.sinks, hu, hmarker, List.isEmpty_cons, Bool.false_eq_true, if_false, List.map_cons, List.map_nil, List.foldl_cons,
      List.foldl_nil]
    rw [ha]
  rw [hmark, State.sink, hlane]
  dsimp only
  rw [if_pos (by rw [hopn]; rfl)]
  exact ⟨_, rfl⟩

end

end Sys2Proof.Machine
end

section
/-! The end of a local access of a group: what is written, and where its split goes on (06 R192; 09 R283). -/

namespace Sys2Proof.Machine

/-- The parts of a context that a local access leaves until its result is written. -/
def Ctx.keeps (c c0 : Ctx) : Prop := c.lanes = c0.lanes ∧ c.s = c0.s ∧ c.q = c0.q ∧ c.splits = c0.splits ∧ c.pool = c0.pool

section
variable {s t : State} {core g e l d k id : Nat}

theorem State.me_setCtx_cur (hcur : t.cur = s.cur) (c : Ctx) : (t.setCtx s.cur.act c).me = c := by rw [← hcur]; exact State.me_setCtx t c

/-- A lone split ends at the next instruction, when the retirement of the state `t` says so of its context. -/
theorem State.endsAs_after {c : Ctx} (hact : s.cur.act = .split core g e) (hcur : t.cur = s.cur) (hsp : c.splits = s.me.splits) (hpl : c.pool = s.me.pool)
    {sp : Tbl Split} {pl : List Split} {c1 : Ctx}
    (hlone : ∀ x, c.splits = [(e, x)] → c.pool = [] → sp = [(e, { x with pc := s.cur.npc })] ∧ pl = []) :
    s.endsAs (t.setCtx s.cur.act (c1.withSplits sp pl)) s.after := by
  rintro ⟨hsplits, hpool, -, -⟩
  have hslot : s.cur.act.slot = e := by rw [hact]; rfl
  rw [hslot] at hsplits ⊢
  obtain ⟨rfl, rfl⟩ := hlone s.sp (hsp.trans hsplits) (hpl.trans hpool)
  rw [State.me_setCtx_cur hcur]
  exact ⟨rfl, rfl⟩

/-- The context in which a load's result has become available. -/
def Ctx.loaded (c : Ctx) (id d k l e : Nat) (f : Nat → Val W64) : Ctx :=
  { (c.withHeld c.lanes [(id, heldLoad d k l 1 (some f))]).warns 0 with memops := Tbl.del c.memops e }

/-- What the completion of a load does, while the window of its result is open. -/
theorem State.deliver_settle {o : MemOp} (f : Nat → Val W64) (hact : s.cur.act = .split core g e) (hid : o.hid = id)
    (hpend : (t.ctx s.cur.act).pend = [(id, heldLoad d k l 1 none)]) (hlive : ((t.ctx s.cur.act).ln l).life = .live) :
    (((t.updCtx s.cur.act (fun c => (c.deliver o.hid [(l, (List.range k).map f)]).warns 0)).setOp s.cur.act none).updCtx s.cur.act Ctx.settle)
      = t.setCtx s.cur.act ((t.ctx s.cur.act).loaded id d k l e f) := by
  have hslot : s.cur.act.slot = e := by rw [hact]; rfl
  have hsettle : ((t.ctx s.cur.act).loaded id d k l e f).settle = (t.ctx s.cur.act).loaded id d k l e f :=
    Ctx.settle_unripe _ rfl (Ctx.ripe_open _ d k 0 f hlive)
  rw [State.setOp]
  simp only [State.updCtx, State.ctx_setCtx, State.setCtx_setCtx, hid, Ctx.deliver_held _ hpend, hslot]
  exact congrArg (State.setCtx t s.cur.act) hsettle

/-- A load that completes at its issue has written its registers when it retires. -/
theorem State.retire_loaded {m : Nat} (f : Nat → Val W64) (hact : s.cur.act = .split core g e) (hcur : t.cur = s.cur)
    (hkeeps : (t.ctx s.cur.act).keeps s.me) (hops : Tbl.del (t.ctx s.cur.act).memops e = []) (hl : l < 32) (hm : bit m l = true) (hd : d + k ≤ 128) :
    ∃ u, (t.setCtx s.cur.act ((t.ctx s.cur.act).loaded id d k l e f)).retire m = u ∧ u.me.memops = [] ∧ s.endsAs u s.after ∧ u.mem = t.mem
      ∧ s.loadsTo u l d k 0 (fun j => Val.low32 (f j)) := by
  obtain ⟨hlanes, -, -, hsp, hpl⟩ := hkeeps
  generalize hc : (t.ctx s.cur.act).loaded id d k l e f = c
  have hcl : c.lanes = s.me.lanes := by rw [← hc]; exact hlanes
  have hcs : c.splits = s.me.splits := by rw [← hc]; exact hsp
  have hcp : c.pool = s.me.pool := by rw [← hc]; exact hpl
  have hco : c.memops = [] := by rw [← hc]; exact hops
  have hpend : c.pend = [(id, heldLoad d k l 1 (some f))] := by rw [← hc]; rfl
  have hX : (t.setCtx s.cur.act c).cur = s.cur := (State.setCtx_cur ..).trans hcur
  have hme : (t.setCtx s.cur.act c).me = c := State.me_setCtx_cur hcur c
  obtain ⟨sp, pl, hret, hlone⟩ := State.retire_writes (s := t.setCtx s.cur.act c) (m := m) (by rw [hX]; exact hact) (by rw [hme]; exact hpend) hl hm
  rw [hX, hme, State.setCtx_setCtx] at hret
  rw [hme, hX] at hlone
  refine ⟨_, hret, ?_, State.endsAs_after hact hcur hcs hcp hlone, State.setCtx_mem .., fun _ r hr => ?_, fun h => absurd rfl h⟩
  · rw [State.me_setCtx_cur hcur]
    exact hco
  · rw [State.me_setCtx_cur hcur, Ctx.withSplits_ln]
    have hln : ((c.withHeld (lanesWritten c.lanes l d k f) []).ln l) = (s.me.ln l).written d k f := by
      rw [Ctx.ln, Ctx.withHeld, get_lanesWritten, hcl]
      rfl
    rw [hln, Lane.rd_written _ f hd hr]

theorem State.setOp_settle (a : Actor) (hpend : (t.ctx a).pend = []) :
    (t.setOp a none).updCtx a Ctx.settle = t.setCtx a { t.ctx a with memops := Tbl.del (t.ctx a).memops a.slot } := by
  simp only [State.setOp, State.updCtx, State.ctx_setCtx, State.setCtx_setCtx]
  exact congrArg (State.setCtx t a) (Ctx.settle_quiet _ hpend)

/-- The retirement in a context without held results changes its splits only. -/
theorem State.retire_ctx {m : Nat} {c : Ctx} (hact : s.cur.act = .split core g e) (hcur : t.cur = s.cur) (hpend : c.pend = [])
    (hsp : c.splits = s.me.splits) (hpl : c.pool = s.me.pool) :
    ∃ sp pl, (t.setCtx s.cur.act c).retire m = t.setCtx s.cur.act (c.withSplits sp pl) ∧ s.endsAs (t.setCtx s.cur.act (c.withSplits sp pl)) s.after := by
  have hX : (t.setCtx s.cur.act c).cur = s.cur := (State.setCtx_cur ..).trans hcur
  have hme : (t.setCtx s.cur.act c).me = c := State.me_setCtx_cur hcur c
  obtain ⟨sp, pl, hret, hlone⟩ := State.retire_unheld (s := t.setCtx s.cur.act c) (m := m) (by rw [hX]; exact hact) (by rw [hme]; exact hpend)
  rw [hX, hme, State.setCtx_setCtx] at hret
  rw [hme, hX] at hlone
  exact ⟨sp, pl, hret, State.endsAs_after hact hcur hsp hpl hlone⟩

/-- The retirement in a context with one held result that is still to come changes its splits and the window. -/
theorem State.retire_ctxPending {m : Nat} {c : Ctx} (hact : s.cur.act = .split core g e) (hcur : t.cur = s.cur)
    (hpend : c.pend = [(id, heldLoad d k l 1 none)]) (hl : l < 32) (hm : bit m l = true) (hsp : c.splits = s.me.splits) (hpl : c.pool = s.me.pool) :
    ∃ P sp pl, (t.setCtx s.cur.act c).retire m = t.setCtx s.cur.act ((c.withHeld c.lanes P).withSplits sp pl)
      ∧ s.endsAs (t.setCtx s.cur.act ((c.withHeld c.lanes P).withSplits sp pl)) s.after := by
  have hX : (t.setCtx s.cur.act c).cur = s.cur := (State.setCtx_cur ..).trans hcur
  have hme : (t.setCtx s.cur.act c).me = c := State.me_setCtx_cur hcur c
  obtain ⟨sp, pl, hret, hlone⟩ := State.retire_pending (s := t.setCtx s.cur.act c) (m := m) (by rw [hX]; exact hact) (by rw [hme]; exact hpend) hl hm
  rw [hX, hme, State.setCtx_setCtx] at hret
  rw [hme, hX] at hlone
  exact ⟨_, sp, pl, hret, State.endsAs_after hact hcur hsp hpl hlone⟩

end

end Sys2Proof.Machine
end

section
/-! A local form of one lane, from its issue to its end (10 R325, R326; 03 R102). -/

namespace Sys2Proof.Machine

/-- The address of a local form (R325). -/
def localAddr (w : W32) (imm : Nat) : Nat := (w + (BitVec.ofNat 9 imm).signExtend 32).toNat

/-- A local form at its issue: one live lane of a group outside regions, with clean operands, and nothing outstanding. -/
structure LocalIssue (s : State) (i : Instr) (load : Bool) (sc d n a imm core g e l : Nat) (w : W32) : Prop where
  form : Instr.localForm i = some (load, sc, d, n, a, imm)
  regs : d + wordsOf n ≤ 128
  act : s.cur.act = .split core g e
  pend : s.me.pend = []
  memops : s.me.memops = []
  active : s.active = [l]
  quar : (s.core (s.coreOf s.cur.act)).quar = []
  live : (s.me.ln l).life = .live
  closed : (s.me.ln l).rgn.opn = false
  addr : (s.me.ln l).rd a = .ok w
  clean : ∀ k < wordsOf n, ((s.me.ln l).rd (d + k)).pl? = none

/-- The access of a local form. -/
def State.formAcc (s : State) (load : Bool) (d n imm l : Nat) (w : W32) : Acc := (s.me.ln l).localAcc load l (localAddr w imm) d n

/-- The operation of a local form. -/
def State.formOp (s : State) (i : Instr) (load : Bool) (sc d n imm l : Nat) (w : W32) : MemOp :=
  s.localOp i sc (if load then s.me.hid else 0) (s.formAcc load d n imm l w)

/-- The operation of a local form with the result of its access. -/
def State.formDone (s : State) (i : Instr) (load : Bool) (sc d n imm l : Nat) (w : W32) (r : Res) : MemOp :=
  (s.formOp i load sc d n imm l w).done (s.formAcc load d n imm l w) r

/-- The context in which the access of a local form is tried. -/
def State.formCtx (s : State) (i : Instr) (load : Bool) (sc d n imm e l : Nat) (w wn : W32) : Ctx :=
  s.localCtx i load sc l e d n wn (s.formAcc load d n imm l w)

/-- The state in which the access of a local form is tried. -/
def State.formState (s : State) (i : Instr) (load : Bool) (sc d n imm e l : Nat) (w wn : W32) : State :=
  s.setCtx s.cur.act (s.formCtx i load sc d n imm e l w wn)

section
variable {s : State} {i : Instr} {load : Bool} {sc d n a imm core g e l : Nat} {w : W32}

theorem LocalIssue.size (h : LocalIssue s i load sc d n a imm core g e l w) : n = 1 ∨ n = 4 ∨ n = 8 ∨ n = 16 := (Instr.localForm_spec h.form).2.1

theorem LocalIssue.info (h : LocalIssue s i load sc d n a imm core g e l w) : (s.formOp i load sc d n imm l w).info = localInfo load sc d n := by
  rw [MemOp.info, State.formOp, State.localOp, (Instr.localForm_spec h.form).1, Option.getD_some]

theorem LocalIssue.slot (h : LocalIssue s i load sc d n a imm core g e l w) : s.cur.act.slot = e := by rw [h.act]; rfl

theorem LocalIssue.lane (h : LocalIssue s i load sc d n a imm core g e l w) : l < 32 ∧ bit s.mask l = true :=
  let ⟨hlt, hbit, _⟩ := mem_lanesOf_singleton h.active
  ⟨hlt, hbit⟩

theorem State.opOf_formState (s : State) (i : Instr) (load : Bool) (sc d n imm e l : Nat) (w wn : W32) (hslot : s.cur.act.slot = e) :
    (s.formState i load sc d n imm e l w wn).opOf s.cur.act = some (s.formOp i load sc d n imm l w) := by
  rw [State.opOf, State.formState, State.ctx_setCtx, hslot]
  simp [State.formCtx, State.localCtx, Ctx.issued, Tbl.find, State.formOp]

/-- A local form is tried as one operation, and retires. -/
theorem LocalIssue.runs (h : LocalIssue s i load sc d n a imm core g e l w) :
    ∃ wn, exec i s = .next (((s.formState i load sc d n imm e l w wn).memGo memFuel s.cur.act).retire s.mask) :=
  State.exec_localForm h.form h.act h.pend h.memops h.active h.addr h.clean

/-- What a local form comes to at its issue, but for one that goes to a pack scratchpad. -/
theorem LocalIssue.completes (h : LocalIssue s i load sc d n a imm core g e l w) (hsc : sc ≠ 1) (wn : W32) {t : State} {r : Res}
    (htry : (s.formState i load sc d n imm e l w wn).tryLocal s.cur.act (s.formOp i load sc d n imm l w) (s.formAcc load d n imm l w) sc = (t, r)) :
    (s.formState i load sc d n imm e l w wn).memGo memFuel s.cur.act
      = (t.setOp s.cur.act (some (s.formDone i load sc d n imm l w r))).memFinish s.cur.act (s.formDone i load sc d n imm l w r) := by
  have hfirst : ((s.formState i load sc d n imm e l w wn).ctx s.cur.act).first (s.formOp i load sc d n imm l w) = true := by
    rw [State.formState, State.ctx_setCtx]
    simp [Ctx.first, State.formCtx, State.localCtx, Ctx.issued, State.formOp]
  have hremote : (s.formOp i load sc d n imm l w).remote = false := by simpa [State.formOp, State.localOp] using hsc
  have hgo := State.memGo_local 198 (State.opOf_formState s i load sc d n imm e l w wn h.slot) rfl hremote rfl rfl rfl rfl hfirst
    (by rw [h.info]; rfl : _ = some sc)
  rw [htry] at hgo
  exact hgo

/-- A local form to a pack scratchpad is under way to the member. -/
theorem LocalIssue.pack (h : LocalIssue s i load 1 d n a imm core g e l w) : ∃ t o, exec i s = .next t ∧ s.endsAs t s.after
    ∧ t.opOf s.cur.act = some o ∧ o.ins = i ∧ o.remote = true ∧ o.req = none ∧ o.todo.map (fun x => (x.lane, x.addr, x.size)) = [(l, localAddr w imm, n)] := by
  obtain ⟨wn, hexec⟩ := h.runs
  have hop := State.opOf_formState s i load 1 d n imm e l w wn h.slot
  rw [State.memGo_remote memFuel hop rfl] at hexec
  rw [State.opOf, State.formState, State.ctx_setCtx] at hop
  cases load with
  | false =>
    obtain ⟨sp, pl, hret, hends⟩ := State.retire_ctx (m := s.mask) (c := s.formCtx i false 1 d n imm e l w wn) h.act (t := s) rfl h.pend rfl rfl
    refine ⟨_, s.formOp i false 1 d n imm l w, hexec.trans (congrArg _ hret), hends, ?_, rfl, rfl, rfl, rfl⟩
    rw [State.opOf, State.ctx_setCtx]
    exact hop
  | true =>
    obtain ⟨P, sp, pl, hret, hends⟩ := State.retire_ctxPending (m := s.mask) (c := s.formCtx i true 1 d n imm e l w wn) h.act (t := s) rfl rfl
      h.lane.1 h.lane.2 rfl rfl
    refine ⟨_, s.formOp i true 1 d n imm l w, hexec.trans (congrArg _ hret), hends, ?_, rfl, rfl, rfl, rfl⟩
    rw [State.opOf, State.ctx_setCtx]
    exact hop

/-! What a try sees: the addresses, the owner and the memory of the state at issue. -/

theorem LocalIssue.laddr (h : LocalIssue s i load sc d n a imm core g e l w) (wn : W32) (la m : Nat) :
    (s.formState i load sc d n imm e l w wn).laddr s.cur.act sc la m = s.laddr s.cur.act sc la m := by
  have hwslot : (s.formCtx i load sc d n imm e l w wn).wslot = (s.ctx s.cur.act).wslot := rfl
  exact State.laddr_setCtx h.act hwslot sc la m

theorem State.formState_mem (s : State) (i : Instr) (load : Bool) (sc d n imm e l : Nat) (w wn : W32) :
    (s.formState i load sc d n imm e l w wn).mem = s.mem := State.setCtx_mem ..

theorem State.formState_owner (s : State) (i : Instr) (load : Bool) (sc d n imm e l : Nat) (w wn : W32) :
    (s.formState i load sc d n imm e l w wn).owner s.cur.act = s.owner s.cur.act := by
  rw [State.owner, State.formState_mem, State.formState, State.ctx_setCtx]
  rfl

theorem LocalIssue.unheld (h : LocalIssue s i load sc d n a imm core g e l w) (wn : W32) :
    ((s.formState i load sc d n imm e l w wn).core ((s.formState i load sc d n imm e l w wn).coreOf s.cur.act)).quar = [] := by
  have hcore : (s.formState i load sc d n imm e l w wn).coreOf s.cur.act = s.coreOf s.cur.act := by rw [h.act]; rfl
  rw [hcore, State.formState, State.core_setCtx]
  exact h.quar

/-! The completion. -/

/-- The state `t` in which the access of the instruction that `s` issues has its result, still held in `P`; `e` is the slot of the operation. -/
structure AccessDone (s t : State) (e : Nat) (P : Tbl Held) : Prop where
  cur : t.cur = s.cur
  keeps : (t.ctx s.cur.act).keeps s.me
  pend : (t.ctx s.cur.act).pend = P
  memops : Tbl.del (t.ctx s.cur.act).memops e = []

theorem LocalIssue.done (h : LocalIssue s i load sc d n a imm core g e l w) {wn : W32} {t : State} (hcur : t.cur = s.cur)
    (ht : t.ctx s.cur.act = s.formCtx i load sc d n imm e l w wn) (o : MemOp) :
    AccessDone s (t.setOp s.cur.act (some o)) e (s.formCtx i load sc d n imm e l w wn).pend := by
  have hops : (s.formCtx i load sc d n imm e l w wn).memops = [(e, s.formOp i load sc d n imm l w)] := rfl
  have hctx : (t.setOp s.cur.act (some o)).ctx s.cur.act
      = { s.formCtx i load sc d n imm e l w wn with memops := [(e, o)] } := by
    rw [State.setOp, State.updCtx, State.ctx_setCtx, ht, h.slot]
    simp only [hops, Tbl.put_singleton]
  refine ⟨(State.updCtx_cur ..).trans hcur, ?_, ?_, ?_⟩ <;> rw [hctx]
  · exact ⟨rfl, rfl, rfl, rfl, rfl⟩
  · simp [Tbl.del]

theorem LocalIssue.done_formState (h : LocalIssue s i load sc d n a imm core g e l w) (wn : W32) (o : MemOp) :
    AccessDone s ((s.formState i load sc d n imm e l w wn).setOp s.cur.act (some o)) e (s.formCtx i load sc d n imm e l w wn).pend :=
  h.done (State.setCtx_cur ..) (State.ctx_setCtx ..) o

theorem State.find_formDone (s : State) (i : Instr) (load : Bool) (sc d n imm l : Nat) (w : W32) (r : Res) :
    Tbl.find (s.formDone i load sc d n imm l w r).res (l * 8) = some r :=
  Tbl.find_put_same _ _ _

theorem LocalIssue.info_done (h : LocalIssue s i load sc d n a imm core g e l w) (r : Res) :
    (s.formDone i load sc d n imm l w r).info = localInfo load sc d n := h.info

/-- The record of a local form's fault: its lane gets a payload of the cause, and of the group's context the last record and the overflow flag
change. -/
theorem LocalIssue.records (h : LocalIssue s i load sc d n a imm core g e l w) {t : State} {P : Tbl Held} (ht : AccessDone s t e P) (pc : W64) (f : Flt)
    (va page : Nat) (cln : Bool) : ∃ u q, t.alloc (t.marker s.cur.act) pc [Res.laneFault l f va page cln] = (u, [(l, q)])
      ∧ plCause q = f.cause % 64 ∧ u.mem = t.mem ∧ AccessDone s u e P := by
  have hmarker : t.marker s.cur.act = s.cur.act := by rw [h.act]; rfl
  obtain ⟨co, last, full, k, halloc⟩ := State.alloc_one (s := t) h.act pc (Res.laneFault l f va page cln)
  rw [hmarker, halloc]
  refine ⟨_, _, rfl, plCause_mkPl _ _, State.updCtx_mem .., (State.updCtx_cur ..).trans ht.cur, ?_, ?_, ?_⟩
  all_goals rw [State.updCtx, State.ctx_setCtx, State.ctx_setCore]
  · exact ht.keeps
  · exact ht.pend
  · exact ht.memops

/-! Loads. -/

/-- A load whose result became available at its try ends with that result in its registers. -/
theorem LocalIssue.load_ends (h : LocalIssue s i true sc d n a imm core g e l w) {wn : W32} {t : State}
    (ht : AccessDone s t e (s.formCtx i true sc d n imm e l w wn).pend) (r : Res) (f : Nat → Val W64) :
    ∃ u, (((t.updCtx s.cur.act (fun c => (c.deliver (s.formDone i true sc d n imm l w r).hid [(l, (List.range (wordsOf n)).map f)]).warns 0)).setOp
      s.cur.act none).updCtx s.cur.act Ctx.settle).retire s.mask = u
      ∧ u.me.memops = [] ∧ s.endsAs u s.after ∧ u.mem = t.mem ∧ s.loadsTo u l d (wordsOf n) 0 (fun j => Val.low32 (f j)) := by
  have hlive : ((t.ctx s.cur.act).ln l).life = .live := by
    rw [Ctx.ln, ht.keeps.1]
    exact h.live
  rw [State.deliver_settle (id := s.me.hid) f h.act rfl (ht.pend.trans rfl) hlive]
  exact State.retire_loaded f h.act ht.cur ht.keeps ht.memops h.lane.1 h.lane.2 h.regs

/-- A load of the lane's own space gets the bytes of the frame. -/
theorem LocalIssue.loads (h : LocalIssue s i true sc d n a imm core g e l w) (hsc : sc ≠ 1) {p : LPos}
    (hp : s.laddr s.cur.act sc (localAddr w imm) n = .ok p) (htag : (s.mem.osecAt p.core (ocKey p.sp p.byte / 32)).tag = s.owner s.cur.act)
    (hecc : (s.mem.osecAt p.core (ocKey p.sp p.byte / 32)).ecc = none)
    (hbad : (s.mem.osecAt p.core (ocKey p.sp p.byte / 32)).bad p.sp (ocKey p.sp p.byte) n = false) :
    ∃ t, exec i s = .next t ∧ t.me.memops = [] ∧ s.endsAs t s.after ∧ t.mem = s.mem
      ∧ s.loadsTo t l d (wordsOf n) 0 (fun k => .ok (loadWord 0 (bytesOf (Tbl.get [] s.mem.oc p.core) (ocKey p.sp p.byte) n) k)) := by
  obtain ⟨wn, hexec⟩ := h.runs
  have hmem := State.formState_mem s i true sc d n imm e l w wn
  have hn : 0 < n := by rcases h.size with rfl | rfl | rfl | rfl <;> decide
  have htry := State.tryLocal_load (x := s.formAcc true d n imm l w) h.act (by rw [h.info]; rfl) ((h.laddr wn _ _).trans hp) (h.unheld wn) hn
    (by rw [hmem, State.formState_owner]; exact htag) (by rw [hmem]; exact hecc) (by rw [hmem]; exact hbad)
  rw [hmem] at htry
  generalize hv : bytesOf (Tbl.get [] s.mem.oc p.core) (ocKey p.sp p.byte) (s.formAcc true d n imm l w).size = v at htry
  have hdone := h.done_formState wn (s.formDone i true sc d n imm l w (.num v))
  obtain ⟨t, hret, hmemops, hends, htmem, hloads⟩ := h.load_ends hdone (.num v) (fun k => .ok (BitVec.ofNat 64 (v / 2 ^ (32 * k) % 2 ^ 32)))
  refine ⟨t, ?_, hmemops, hends, htmem.trans ((State.updCtx_mem ..).trans hmem), ?_⟩
  · rw [hexec, h.completes hsc wn htry, State.memFinish_load (h.info_done _) h.active (s.find_formDone ..), words_local sc d v h.size]
    exact congrArg _ hret
  · simp only [low32_word] at hloads
    exact hv ▸ hloads

/-- A load of a wrong address writes the poison of its fault. -/
theorem LocalIssue.loadFaults (h : LocalIssue s i true sc d n a imm core g e l w) (hsc : sc ≠ 1) {f : Flt}
    (hf : s.laddr s.cur.act sc (localAddr w imm) n = .error f) : ∃ t q, exec i s = .next t ∧ t.mem = s.mem ∧ plCause q = f.cause
      ∧ (f.cause = cMisalign ∨ f.cause = cBounds) ∧ s.endsAs t s.after ∧ s.loadsTo t l d (wordsOf n) 0 (fun _ => .bad q) := by
  obtain ⟨wn, hexec⟩ := h.runs
  have hcause := State.laddr_error hf
  have hlt : f.cause % 64 = f.cause := by rcases hcause with hc | hc <;> rw [hc] <;> rfl
  obtain ⟨page, htry⟩ := State.tryLocal_fault (s.formOp i true sc d n imm l w) (x := s.formAcc true d n imm l w) ((h.laddr wn _ _).trans hf)
  have hdone := h.done_formState wn (s.formDone i true sc d n imm l w (.fault f 0 page false))
  obtain ⟨u, q, halloc, hq, hmem, hu⟩ := h.records hdone s.cur.pc f 0 page false
  obtain ⟨t, hret, -, hends, htmem, hloads⟩ := h.load_ends hu (.fault f 0 page false) (fun _ => .bad q)
  have hwords : List.replicate (regsOf n) (Val.bad (Tbl.get 0 [(l, q)] l) : Val W64) = (List.range (wordsOf n)).map (fun _ => .bad q) := by
    rw [regsOf_eq_wordsOf h.size, List.map_const', List.length_range]
    simp [Tbl.get]
  refine ⟨t, q, ?_, htmem.trans (hmem.trans ((State.updCtx_mem ..).trans (State.setCtx_mem ..))), hq.trans hlt, hcause, hends, hloads⟩
  rw [hexec, h.completes hsc wn htry, State.memFinish_loadFault (h.info_done _) h.active (s.find_formDone ..) halloc, hwords]
  exact congrArg _ hret

/-! Stores. -/

/-- A store that is done retires, and only its operation and its splits change. -/
theorem LocalIssue.store_ends (h : LocalIssue s i false sc d n a imm core g e l w) {t : State} (hcur : t.cur = s.cur)
    (hpend : (t.ctx s.cur.act).pend = []) (hops : Tbl.del (t.ctx s.cur.act).memops e = []) (hsp : (t.ctx s.cur.act).splits = s.me.splits)
    (hpl : (t.ctx s.cur.act).pool = s.me.pool) : ∃ u, ((t.setOp s.cur.act none).updCtx s.cur.act Ctx.settle).retire s.mask = u ∧ u.mem = t.mem
      ∧ u.me.memops = [] ∧ s.endsAs u s.after ∧ u.me.lanes = (t.ctx s.cur.act).lanes ∧ u.me.s = (t.ctx s.cur.act).s ∧ u.me.q = (t.ctx s.cur.act).q := by
  rw [State.setOp_settle _ hpend, h.slot]
  obtain ⟨sp, pl, hret, hends⟩ := State.retire_ctx (m := s.mask) (c := { t.ctx s.cur.act with memops := Tbl.del (t.ctx s.cur.act).memops e }) h.act hcur
    hpend hsp hpl
  refine ⟨_, hret, State.setCtx_mem .., ?_, hends, ?_⟩ <;> rw [State.me_setCtx_cur hcur]
  · exact hops
  · exact ⟨rfl, rfl, rfl⟩

/-- A store to the lane's own space writes its bytes to the frame and no other. -/
theorem LocalIssue.stores (h : LocalIssue s i false sc d n a imm core g e l w) (hsc : sc ≠ 1) {p : LPos}
    (hp : s.laddr s.cur.act sc (localAddr w imm) n = .ok p) (htag : (s.mem.osecAt p.core (ocKey p.sp p.byte / 32)).tag = s.owner s.cur.act) :
    ∃ t, exec i s = .next t ∧ t.me.memops = [] ∧ s.endsAs t s.after ∧ s.keepsRegs t ∧ ∀ b, Tbl.get 0 (Tbl.get [] t.mem.oc p.core) b =
      if ocKey p.sp p.byte ≤ b ∧ b < ocKey p.sp p.byte + n then BitVec.ofNat 8 ((s.me.ln l).bytes d n / 2 ^ (8 * (b - ocKey p.sp p.byte)))
      else Tbl.get 0 (Tbl.get [] s.mem.oc p.core) b := by
  obtain ⟨wn, hexec⟩ := h.runs
  have hmem := State.formState_mem s i false sc d n imm e l w wn
  have hctx : (s.formState i false sc d n imm e l w wn).ctx s.cur.act = s.formCtx i false sc d n imm e l w wn := State.ctx_setCtx ..
  obtain ⟨u, htry, hucur, huctx, hget⟩ := State.tryLocal_store (x := s.formAcc false d n imm l w) h.act (by rw [h.info]; rfl) (by rw [h.info]; rfl) hsc
    ((h.laddr wn _ _).trans hp) (h.unheld wn) rfl h.lane.1 (by rw [hctx]; exact h.live) (by rw [hctx]; exact h.closed)
    (by rw [hmem, State.formState_owner]; exact htag)
  have hdone := h.done (wn := wn) (hucur.trans (State.setCtx_cur ..)) (huctx.trans hctx) (s.formDone i false sc d n imm l w (.num 0))
  obtain ⟨hlanes, hs, hq, hsp, hpl⟩ := hdone.keeps
  obtain ⟨t, hret, htmem, hops, hends, htl, hts, htq⟩ := h.store_ends hdone.cur (hdone.pend.trans h.pend) hdone.memops hsp hpl
  refine ⟨t, ?_, hops, hends, ⟨hts.trans hs, htq.trans hq, fun k => ?_⟩, fun b => ?_⟩
  · rw [hexec, h.completes hsc wn htry, State.memFinish_store (h.info_done _) h.active (s.find_formDone ..)]
    exact congrArg _ hret
  · rw [Ctx.ln, htl, hlanes]
    exact ⟨rfl, rfl, rfl⟩
  · rw [htmem, State.setOp_mem, ← hmem]
    exact hget b

/-- A store to a wrong address leaves its lane ORPH and changes no byte. -/
theorem LocalIssue.storeFaults (h : LocalIssue s i false sc d n a imm core g e l w) (hsc : sc ≠ 1) {f : Flt}
    (hf : s.laddr s.cur.act sc (localAddr w imm) n = .error f) :
    ∃ t, exec i s = .next t ∧ t.mem = s.mem ∧ s.keepsRegs t ∧ s.marks t ∧ s.endsAs t s.after := by
  obtain ⟨wn, hexec⟩ := h.runs
  obtain ⟨page, htry⟩ := State.tryLocal_fault (s.formOp i false sc d n imm l w) (x := s.formAcc false d n imm l w) ((h.laddr wn _ _).trans hf)
  obtain ⟨u, q, halloc, -, hmem, hu⟩ := h.records (h.done_formState wn (s.formDone i false sc d n imm l w (.fault f 0 page false))) s.cur.pc f 0 page false
  obtain ⟨hlanes, hs, hq, hsp, hpl⟩ := hu.keeps
  have hln (k : Nat) : (u.ctx s.cur.act).ln k = s.me.ln k := by rw [Ctx.ln, hlanes]; rfl
  obtain ⟨hit, hmark⟩ := State.markOp_closed (s := u) (o := s.formDone i false sc d n imm l w (.fault f 0 page false)) h.act (by rw [h.info_done]; rfl)
    (Res.laneFault l f 0 page false) [(l, q)] (by rw [hln]; exact h.live) (by rw [hln]; exact h.closed)
  generalize hc : Ctx.setLn { u.ctx s.cur.act with hit := hit } _ _ = c at hmark
  have hctx : (u.setCtx s.cur.act c).ctx s.cur.act = c := State.ctx_setCtx ..
  obtain ⟨t, hret, htmem, -, hends, htl, hts, htq⟩ := h.store_ends (t := u.setCtx s.cur.act c) ((State.setCtx_cur ..).trans hu.cur)
    (by rw [hctx, ← hc]; exact hu.pend.trans h.pend) (by rw [hctx, ← hc]; exact hu.memops) (by rw [hctx, ← hc]; exact hsp) (by rw [hctx, ← hc]; exact hpl)
  rw [hctx] at htl hts htq
  have htln (k : Nat) : t.me.ln k = if k = l then { s.me.ln l with rgn := { (s.me.ln l).rgn with orph := true } } else s.me.ln k := by
    have hck : t.me.ln k = c.ln k := by rw [Ctx.ln, htl]; rfl
    rw [hck, ← hc, ← hln l, ← hln k]
    exact Tbl.get_put _ _ _ _ _
  refine ⟨t, ?_, htmem.trans ((State.setCtx_mem ..).trans (hmem.trans ((State.updCtx_mem ..).trans (State.setCtx_mem ..)))), ?_, ?_, hends⟩
  · rw [hexec, h.completes hsc wn htry, State.memFinish_storeFault (h.info_done _) h.active (s.find_formDone ..) halloc, hmark]
    exact congrArg _ hret
  · refine ⟨hts.trans (by rw [← hc]; exact hs), htq.trans (by rw [← hc]; exact hq), fun k => ?_⟩
    rw [htln]
    split
    · next hk => rw [hk]; exact ⟨rfl, rfl, rfl⟩
    · exact ⟨rfl, rfl, rfl⟩
  · intro k hk _
    rw [h.active, List.mem_singleton] at hk
    subst hk
    rw [h.closed, htln, if_pos rfl]
    rfl

end

end Sys2Proof.Machine
end

section
open Sys2Proof Sys2Proof.Machine

/-- Settles O39: the access of a local form is tried at its issue, where a load gets the bytes of the frame, a store writes its own, and a wrong
address gives the fault of the form; to a pack scratchpad it stays under way. -/
theorem localAccesses : Obligations.LocalAccesses := by
  unfold Obligations.LocalAccesses
  intro i load sc d n a imm hform _ hregs s core g e l w hact hquiet hops hactive _ hbare haddr hclean
  obtain ⟨-, hquar, -, hlanes⟩ := hbare
  obtain ⟨hlive, hclosed⟩ := hlanes l (by rw [hactive]; exact List.mem_singleton_self l)
  have h : LocalIssue s i load sc d n a imm core g e l w := ⟨hform, hregs, hact, hquiet, hops, hactive, hquar, hlive, hclosed, haddr, hclean⟩
  refine ⟨?_, fun hsc p hp htag hecc => ⟨?_, ?_⟩, fun hsc f hf => ⟨?_, ?_⟩⟩
  · rintro rfl
    exact h.pack
  · rintro rfl hbad
    exact h.loads hsc hp htag hecc hbad
  · rintro rfl
    exact h.stores hsc hp htag
  · rintro rfl
    exact h.loadFaults hsc hf
  · rintro rfl
    exact h.storeFaults hsc hf

end

section
/-! The state after module cold reset: what its registers read as (13 R400, R401, R414, R416; 04 R134; 07 R231). -/

namespace Sys2Proof.Machine

/-- A lookup of a register that finds one finds the value `v`. -/
def regReads (v : Nat) (r : Option (Nat × Nat × Nat)) : Prop := ∀ e ∈ r, e.2.2 = v

theorem regReads_none (v : Nat) : regReads v none := by simp [regReads]

theorem regReads_some {o n x v : Nat} (h : x = v) : regReads v (some (o, n, x)) := by simp [regReads, h]

theorem regReads_ite {c : Prop} [Decidable c] {v : Nat} {a b : Option (Nat × Nat × Nat)} (ha : c → regReads v a) (hb : ¬ c → regReads v b) :
    regReads v (if c then a else b) := by
  split
  · next h => exact ha h
  · next h => exact hb h

/-- The value in the Reset column, by the 8-byte word in which the register lies. -/
theorem mfResetValue_word (off : Nat) : mfResetValue off = if off / 8 * 8 = 0x98 then 1100000
    else if 0x200 ≤ off / 8 * 8 ∧ off / 8 * 8 < 0x240 then 4798283776
    else if 0x10040 ≤ off / 8 * 8 ∧ off / 8 * 8 < 0x10080 then 0x40000
    else 0 := by
  unfold mfResetValue
  congr 2
  · simp only [eq_iff_iff]; omega
  · congr 1; simp only [eq_iff_iff]; omega

/-! Registers that gather fields of several components. -/

theorem State.reset_kscmd : State.reset.mf.kscmdWord = 0 := by simp [Mf.kscmdWord, State.reset, b2n]
theorem State.reset_alm : State.reset.mf.almWord = 0 := by simp [Mf.almWord, State.reset, b2n]
theorem State.reset_ths : State.reset.ths = 0 := by simp [State.ths, State.die, State.reset, b2n]
theorem State.reset_cmcmd : State.reset.mf.cmcmdWord = 0 := by simp [Mf.cmcmdWord, State.reset, b2n]
theorem State.reset_dbgctl (die : Nat) : State.reset.dbgctl die = 0 := by
  simp [State.dbgctl, State.haltCount, State.die, State.reset, b2n]
theorem State.reset_fecfg (p : Nat) : (State.reset.port p).fecfg = 4798283776 := by
  have hone : (1 : W32).toNat = 1 := by decide
  simp only [Port.fecfg, State.port, State.reset, Tbl.get_nil, b2n, hone, Bool.false_eq_true, if_false]
  omega
theorem State.reset_drst : [0, 1, 2, 3].foldl (fun n d => n + b2n (State.reset.die d).inRst * 2 ^ (8 + d)) 0 = 0 := by
  simp [State.reset, State.die, b2n]
theorem State.reset_brst : (List.range 16).foldl (fun n i => n + b2n (State.reset.mem.slice i).inRst * 2 ^ (16 + i)) 0 = 0 := by
  simp [State.reset, Mem.slice, b2n, List.foldl_fixed']
theorem State.reset_dbgunl (o : Nat) : bytesAt State.reset.mf.dbgunl o = 0 := by simp [bytesAt, ofBytes, State.reset, List.range_succ]
theorem State.reset_kskey (n : Nat) : State.reset.mf.kskey.toNat / n = 0 := by
  rw [show State.reset.mf.kskey = 0#512 from rfl, BitVec.toNat_zero, Nat.zero_div]

/-- The fields that are a register of their own. -/
theorem State.reset_mfFields : State.reset.mf.mfes.toNat = 0 ∧ State.reset.mf.pto.toNat = 1100000 ∧ State.reset.mem.ctxb = 0
    ∧ State.reset.mem.peerb = 0 ∧ State.reset.mf.fabn = 0 ∧ State.reset.mf.drstDie = 0 ∧ State.reset.mf.dbgStat = 0 ∧ State.reset.mf.dbgDie = 0 :=
  ⟨rfl, rfl, rfl, rfl, rfl, rfl, rfl, rfl⟩

/-- The arrays of registers, entry by entry. -/
theorem State.reset_mfArrays (k : Nat) : (Tbl.get 0 State.reset.mf.h2w k).toNat = 0 ∧ (Tbl.get 0 State.reset.mem.cmtb k).toNat = 0
    ∧ (Tbl.get 0 State.reset.mf.slhm k).toNat = 0 ∧ (Tbl.get 0x40000 State.reset.mf.slhc k).toNat = 0x40000
    ∧ (Tbl.get 0 State.reset.mf.imap k).toNat = 0 :=
  ⟨rfl, rfl, rfl, rfl, rfl⟩

/-- Every register of the MF's BAR0 but the nonce of DBGCH is at its reset value. -/
theorem State.reset_mfReg (off : Nat) (hdbgch : ¬ (0x400 ≤ off ∧ off < 0x440)) : regReads (mfResetValue off) (State.reset.mfReg off) := by
  rw [mfResetValue_word]
  have hword : ¬ (0x400 ≤ off / 8 * 8 ∧ off / 8 * 8 < 0x440) := by omega
  unfold State.mfReg
  generalize off / 8 * 8 = o at hword ⊢
  simp only [State.reset_kscmd, State.reset_alm, State.reset_ths, State.reset_cmcmd, State.reset_drst, State.reset_brst, State.reset_dbgctl,
    State.reset_fecfg, State.reset_dbgunl, State.reset_kskey, State.reset_mfFields, State.reset_mfArrays,
    Bool.and_eq_true, decide_eq_true_eq]
  repeat' refine regReads_ite (fun h => ?_) (fun h => ?_)
  on_goal 23 => exact regReads_none _
  all_goals
    refine regReads_some ?_
    grind

/-- Every register of a die's BAR0 is at its reset value. -/
theorem State.reset_dieReg (d off : Nat) : ∀ e ∈ State.reset.dieReg d off, e.2.2 = if e.1 = 0x428 then 256 * 2 ^ 12 else 0 := by
  have hdie : State.reset.die d = {} := rfl
  have hevq : Die.evq {} = 0 := by simp [Die.evq]
  have hptok : Die.ptok {} = 256 * 2 ^ 12 := by simp [Die.ptok]
  simp only [State.dieReg, hdie, hevq, hptok, Tbl.get_nil]
  grind

end Sys2Proof.Machine
end

section
open Sys2Proof Sys2Proof.Machine

/-- Settles O1: each register from the lemmas on the reads after reset, the rest by the definition of the reset state. -/
theorem resetState : Obligations.ResetState := by
  unfold Obligations.ResetState
  refine ⟨rfl, rfl, rfl, rfl, rfl, rfl, rfl, rfl, fun off o n x hoff h => State.reset_mfReg off hoff _ h, fun d off o n x h => State.reset_dieReg d off _ h,
    fun _ => by simp [Mem.slice, State.reset, Slice.slcs, Slice.slts, b2n], fun _ => ⟨rfl, rfl, rfl⟩, fun a => ?_, rfl⟩
  cases a <;> rfl

end

section
/-! What the slices, HBM and the die caches do leaves the cores' side of the memory system as it is: the L1s, the class generations, the on-chip
spaces, the generation tables and interleave copies of the dies, the keys, the seal table (02 R49; 03 R86). -/

namespace Sys2Proof.Machine

/-- The memory system without what the slices keep, change and answer. -/
def Mem.coreSide (m : Mem) : Mem :=
  { m with slices := [], hbm := [], sec := [], blocks := [], bsec := [], dc := [], offer := [], out := [], notices := [], ctr := 0,
           stall := false, shc := false }

theorem Mem.lines1_of_coreSide {m n : Mem} (h : m.coreSide = n.coreSide) (c : Nat) : m.lines1 c = n.lines1 c := by
  have hl1 := congrArg (fun m : Mem => Tbl.get [] m.l1 c) h
  exact hl1

theorem Mem.coreSide_foldl {β : Type} (f : Mem → β → Mem) (l : List β) (hf : ∀ m b, (f m b).coreSide = m.coreSide) (m : Mem) :
    (l.foldl f m).coreSide = m.coreSide :=
  foldl_keeps (fun n : Mem => n.coreSide = m.coreSide) f l (fun n b hn => (hf n b).trans hn) m rfl

/-! HBM and compressed blocks. -/

@[simp] theorem Mem.coreSide_setSlice (m : Mem) (i : Nat) (x : Slice) : (m.setSlice i x).coreSide = m.coreSide := rfl
@[simp] theorem Mem.coreSide_updSlice (m : Mem) (i : Nat) (f : Slice → Slice) : (m.updSlice i f).coreSide = m.coreSide := rfl
@[simp] theorem Mem.coreSide_event (m : Mem) (die : Nat) (r : BitVec 128) : (m.event die r).coreSide = m.coreSide := rfl

@[simp] theorem Mem.coreSide_putSec (m : Mem) (slot sn : Nat) (bs : List (Nat × Byte)) (poi : Bool) :
    (m.putSec slot sn bs poi).coreSide = m.coreSide := by
  unfold Mem.putSec
  dsimp only [Mem.coreSide]
  split <;> rfl

@[simp] theorem Mem.coreSide_putNum (m : Mem) (slot pa n x : Nat) : (m.putNum slot pa n x).coreSide = m.coreSide := Mem.coreSide_putSec ..

@[simp] theorem Mem.coreSide_setSpl (m : Mem) (k : Nat) (on : Bool) : (m.setSpl k on).coreSide = m.coreSide := Mem.coreSide_putNum ..

@[simp] theorem Mem.coreSide_scrub (m : Mem) (sn : Nat) : (m.scrub sn).coreSide = m.coreSide := by
  unfold Mem.scrub
  dsimp only
  split <;> rfl

@[simp] theorem Mem.coreSide_scrubBlk (m : Mem) (k : Nat) : (m.scrubBlk k).coreSide = m.coreSide := by
  unfold Mem.scrubBlk
  dsimp only
  split
  · exact Mem.coreSide_scrub m _
  · next sn _ _ => exact (Mem.coreSide_scrub (m.scrub _) sn).trans (Mem.coreSide_scrub m _)

@[simp] theorem Mem.coreSide_blkPut (m : Mem) (slot k off : Nat) (bs : List (Nat × Byte)) (poi : Bool) :
    (m.blkPut slot k off bs poi).coreSide = m.coreSide := by
  have hwith (n : Mem) (a : Tbl Sec) (b : Tbl (Tbl Byte)) (c : Tbl (Tbl Sec)) : Mem.coreSide { n with sec := a, blocks := b, bsec := c } = n.coreSide := rfl
  have hblk (n : Mem) (b : Tbl (Tbl Byte)) (c : Tbl (Tbl Sec)) : Mem.coreSide { n with blocks := b, bsec := c } = n.coreSide := rfl
  unfold Mem.blkPut
  rw [hwith]
  split
  · rw [hblk, Mem.coreSide_putNum]
  · rfl

@[simp] theorem Mem.coreSide_locPut (m : Mem) (slot : Nat) (l : Loc) (bs : List (Nat × Byte)) (poi : Bool) :
    (m.locPut slot l bs poi).coreSide = m.coreSide := by
  cases l with
  | hbm pa => exact Mem.coreSide_putSec ..
  | blk k off => exact (Mem.coreSide_blkPut ..).trans (Mem.coreSide_scrubBlk m k)
  | far k a => rfl

@[simp] theorem Mem.coreSide_lineStore (m : Mem) (slot : Nat) (loc : Loc) (d : Tbl Byte) (mask pois : Nat) :
    (m.lineStore slot loc d mask pois).coreSide = m.coreSide := by
  refine Mem.coreSide_foldl _ _ (fun m s => ?_) m
  dsimp only
  split
  · rfl
  · exact Mem.coreSide_locPut ..

@[simp] theorem Mem.coreSide_unpin (m : Mem) (k : Nat) : (m.unpin k).coreSide = m.coreSide :=
  Mem.coreSide_foldl _ _ (fun m _ => (Mem.coreSide_setSlice ..).trans (Mem.coreSide_foldl _ _ (fun _ _ => Mem.coreSide_lineStore ..) m)) m

/-! Lines of a slice. -/

@[simp] theorem Mem.coreSide_lineOut (m : Mem) (sl die : Nat) (l : SLine) : (m.lineOut sl die l).coreSide = m.coreSide := by
  unfold Mem.lineOut
  split
  · dsimp only
    split
    · rw [Mem.coreSide_setSpl, Mem.coreSide_lineStore, Mem.coreSide_unpin]
      rfl
    · rw [Mem.coreSide_event, Mem.coreSide_setSpl, Mem.coreSide_setSlice]
      exact Mem.coreSide_foldl _ _ (fun m i => Mem.coreSide_updSlice m i _) _
  · exact Mem.coreSide_lineStore ..

@[simp] theorem Mem.coreSide_lineDrop (m : Mem) (sl die : Nat) (l : SLine) (w : Bool) : (m.lineDrop sl die l w).coreSide = m.coreSide := by
  unfold Mem.lineDrop
  dsimp only
  rw [Mem.coreSide_updSlice]
  split
  · exact Mem.coreSide_lineOut ..
  · rfl

@[simp] theorem Mem.coreSide_lineIn (m : Mem) (slot : Nat) (loc : Loc) (secs : Nat) : (m.lineIn slot loc secs).1.coreSide = m.coreSide := by
  unfold Mem.lineIn
  split
  · rfl
  · rfl
  · cases loc with
    | hbm a =>
      refine Mem.coreSide_foldl (fun (m : Mem) s => if bit secs s then m.scrub (a / 32 + s) else m) _ (fun m s => ?_) m
      split
      · exact Mem.coreSide_scrub ..
      · rfl
    | blk k o => exact Mem.coreSide_scrubBlk m k
    | far k a => rfl

@[simp] theorem Mem.coreSide_lineInsert (m : Mem) (sl die : Nat) (l : SLine) : (m.lineInsert sl die l).coreSide = m.coreSide := by
  unfold Mem.lineInsert
  dsimp only
  rw [Mem.coreSide_updSlice]
  split
  · exact Mem.coreSide_lineDrop ..
  · rfl

@[simp] theorem Mem.coreSide_lineUse (m : Mem) (sl hint : Nat) (l : SLine) : (m.lineUse sl hint l).coreSide = m.coreSide := rfl

@[simp] theorem Mem.coreSide_merge (m : Mem) (sl die asid line : Nat) (t : Tr) (hint : Nat) (d : Tbl Byte) (mask pois : Nat) :
    (m.merge sl die asid line t hint d mask pois).coreSide = m.coreSide := by
  have send (n : Mem) (hn : n.coreSide = m.coreSide) : (if t.loc.isFar = true then n.lineStore t.slot t.loc d mask pois else n).coreSide = m.coreSide := by
    split
    · exact (Mem.coreSide_lineStore ..).trans hn
    · exact hn
  have hin : (m.lineIn t.slot t.loc 15).1.coreSide = m.coreSide := Mem.coreSide_lineIn ..
  unfold Mem.merge
  dsimp only
  split
  · exact send _ (Mem.coreSide_lineUse ..)
  · split
    · split
      · exact (Mem.coreSide_lineOut ..).trans hin
      · exact Mem.coreSide_lineStore ..
    · split
      · exact send _ hin
      · exact send _ ((Mem.coreSide_lineInsert ..).trans hin)

@[simp] theorem Mem.coreSide_countRefusal (m : Mem) (sl : Nat) : (m.countRefusal sl).coreSide = m.coreSide := rfl

@[simp] theorem Mem.coreSide_sendBack (m : Mem) (sl core : Nat) (e : TEnt) (l : L1Line) : (m.sendBack sl core e l).1.coreSide = m.coreSide := by
  unfold Mem.sendBack
  split
  · rfl
  · dsimp only
    split
    · rfl
    · exact Mem.coreSide_merge ..

/-! Translations and directories. -/

@[simp] theorem Mem.coreSide_flushCw (m : Mem) (e : TEnt) : (m.flushCw e).coreSide = m.coreSide := by
  unfold Mem.flushCw
  split
  · rfl
  · exact Mem.coreSide_putNum ..

@[simp] theorem Mem.coreSide_dirRemove (m : Mem) (sl asid gen page : Nat) : (m.dirRemove sl asid gen page).coreSide = m.coreSide := by
  unfold Mem.dirRemove
  split <;> rfl

@[simp] theorem Mem.coreSide_dropEnt (m : Mem) (sl die : Nat) (e : TEnt) : (m.dropEnt sl die e).coreSide = m.coreSide := by
  unfold Mem.dropEnt
  dsimp only
  rw [Mem.coreSide_dirRemove, Mem.coreSide_updSlice, Mem.coreSide_flushCw]
  exact Mem.coreSide_foldl _ _ (fun m l => Mem.coreSide_lineDrop ..) m

@[simp] theorem Mem.coreSide_reclaimEnd (m : Mem) (sl die : Nat) (e : TEnt) (who : Option Nat) : (m.reclaimEnd sl die e who).coreSide = m.coreSide := by
  unfold Mem.reclaimEnd
  split
  · split
    · rfl
    · exact Mem.coreSide_dropEnt ..
  · rfl

@[simp] theorem Mem.coreSide_unreplicate (m : Mem) (sl : Nat) (e : TEnt) : (m.unreplicate sl e).coreSide = m.coreSide := by
  unfold Mem.unreplicate
  split
  · rfl
  · dsimp only
    rw [Mem.coreSide_updSlice]
    refine Mem.coreSide_foldl _ _ (fun m d => ?_) m
    split <;> rfl

end Sys2Proof.Machine
end

section
/-! What reclaims leave of the L1s, and with them a translation: a line stays as it was, leaves, or keeps the dirty bytes that a slice refused (02
R60, R61, R76; 04 R126). -/

namespace Sys2Proof.Machine

@[simp] theorem Mem.lines1_setLines1_same (m : Mem) (c : Nat) (ls : List L1Line) : (m.setLines1 c ls).lines1 c = ls := Tbl.get_put_same _ _ _ _

theorem Mem.lines1_setLines1 (m : Mem) (c k : Nat) (ls : List L1Line) : (m.setLines1 c ls).lines1 k = if k = c then ls else m.lines1 k :=
  Tbl.get_put _ _ _ _ _

/-- The cores' side of the memory system without the L1s. -/
def Mem.aside (m : Mem) : Mem := { m.coreSide with l1 := [] }

theorem Mem.aside_of_coreSide {m n : Mem} (h : m.coreSide = n.coreSide) : m.aside = n.aside := by rw [Mem.aside, h, Mem.aside]

@[simp] theorem Mem.aside_setLines1 (m : Mem) (c : Nat) (ls : List L1Line) : (m.setLines1 c ls).aside = m.aside := rfl

theorem Mem.clsGen_of_aside {m n : Mem} (h : m.aside = n.aside) (core c : Nat) : m.clsGen core c = n.clsGen core c := by
  have hgen := congrArg (fun m : Mem => Tbl.get 0 (Tbl.get [] m.cgen core) c) h
  exact hgen

/-- From `m` to `n` a line of an L1 has stayed as it was, has left, or is one that a slice refused; nothing else of the cores' side has changed. -/
structure Mem.Thins (m n : Mem) : Prop where
  aside : n.aside = m.aside
  lines : ∀ c, ∀ k ∈ n.lines1 c, k ∈ m.lines1 c ∨ k.refused = true

theorem Mem.Thins.trans {m n o : Mem} (h : m.Thins n) (hn : n.Thins o) : m.Thins o :=
  ⟨hn.aside.trans h.aside, fun c l hl => (hn.lines c l hl).elim (h.lines c l) .inr⟩

theorem Mem.thins_of_coreSide {m n : Mem} (h : n.coreSide = m.coreSide) : m.Thins n :=
  ⟨Mem.aside_of_coreSide h, fun c _ hk => .inl (Mem.lines1_of_coreSide h c ▸ hk)⟩

theorem Mem.Thins.side {m n o : Mem} (h : m.Thins n) (ho : o.coreSide = n.coreSide) : m.Thins o := h.trans (Mem.thins_of_coreSide ho)

theorem Mem.thins_refl (m : Mem) : m.Thins m := Mem.thins_of_coreSide rfl

theorem Mem.thins_foldl {β : Type} (f : Mem → β → Mem) (l : List β) (hf : ∀ (m : Mem) (b : β), m.Thins (f m b)) (m : Mem) : m.Thins (l.foldl f m) :=
  foldl_keeps (fun n : Mem => m.Thins n) f l (fun n b hn => hn.trans (hf n b)) m m.thins_refl

/-- A core's lines become lines that it had, or that a slice has refused. -/
theorem Mem.thins_setLines1 {m : Mem} {c : Nat} {ls : List L1Line} (h : ∀ k ∈ ls, k ∈ m.lines1 c ∨ k.refused = true) : m.Thins (m.setLines1 c ls) := by
  refine ⟨Mem.aside_setLines1 .., fun d k hk => ?_⟩
  rw [Mem.lines1_setLines1] at hk
  split at hk
  · next hd => subst hd; exact h k hk
  · exact .inl hk

theorem Mem.reclaimL1_thins (m : Mem) (sl core : Nat) (e : TEnt) : m.Thins (m.reclaimL1 sl core e) := by
  refine Mem.thins_foldl _ _ (fun m l => ?_) m
  split
  · exact m.thins_refl
  · dsimp only
    generalize hr : (if l.dirty = 0 then (m, true) else m.sendBack sl core e l) = r
    have hside : r.1.coreSide = m.coreSide := by
      rw [← hr]
      split
      · rfl
      · exact Mem.coreSide_sendBack ..
    refine (Mem.thins_of_coreSide hside).trans (Mem.thins_setLines1 (fun k hk => ?_))
    obtain ⟨y, hy, hk⟩ := List.mem_filterMap.mp hk
    split at hk
    · exact .inl (Option.some.inj hk ▸ hy)
    · split at hk
      · exact absurd hk (by simp)
      · exact .inr (Option.some.inj hk ▸ rfl)

theorem Mem.evictEnt_thins (m : Mem) (sl die : Nat) (e : TEnt) : m.Thins (m.evictEnt sl die e) := by
  unfold Mem.evictEnt
  refine Mem.Thins.side ?_ (Mem.coreSide_dropEnt ..)
  split
  · exact Mem.reclaimL1_thins ..
  · exact m.thins_refl

theorem Mem.dirEvict_thins (m : Mem) (d : DirEnt) (die : Nat) : m.Thins (m.dirEvict d die) := by
  refine Mem.thins_foldl _ _ (fun m s => ?_) m
  split
  · split
    · exact Mem.evictEnt_thins ..
    · exact m.thins_refl
  · exact m.thins_refl

theorem Mem.dirAdd_thins (m : Mem) (sl die asid page size way : Nat) : m.Thins (m.dirAdd sl die asid page size way) := by
  unfold Mem.dirAdd
  split
  · exact m.thins_refl
  · dsimp only
    split
    · exact Mem.thins_of_coreSide rfl
    · refine Mem.Thins.side ?_ (Mem.coreSide_updSlice ..)
      generalize (if (m.slice _).dir.length < 8 then [] else _) = set
      split
      · exact m.thins_refl
      · split
        · exact (Mem.dirEvict_thins ..).side (Mem.coreSide_updSlice ..)
        · exact m.thins_refl

theorem Mem.install_thins (m : Mem) (sl die : Nat) (e : TEnt) (way : Nat) : m.Thins (m.install sl die e way) := by
  have hadd := m.dirAdd_thins sl die e.asid e.leaf.page e.leaf.size way
  unfold Mem.install
  generalize m.dirAdd sl die e.asid e.leaf.page e.leaf.size way = m0 at hadd ⊢
  refine hadd.trans (Mem.Thins.side ?_ (Mem.coreSide_updSlice ..))
  split
  · exact Mem.thins_refl _
  · split
    · exact Mem.evictEnt_thins ..
    · exact Mem.thins_refl _

theorem Mem.walkInstall_thins (m : Mem) (sl asid va : Nat) (who : Who) (write : Bool) (way : Nat) :
    m.Thins (m.walkInstall sl asid va who write way).1 := by
  unfold Mem.walkInstall
  dsimp only
  split
  · refine Mem.thins_of_coreSide ((Mem.coreSide_updSlice ..).trans ?_)
    split
    · exact Mem.coreSide_scrub ..
    · rfl
  · split
    · exact Mem.thins_of_coreSide rfl
    · exact Mem.Thins.trans (n := (Mem.updSlice m sl _).updSlice sl _) (Mem.thins_of_coreSide rfl) (Mem.install_thins ..)

theorem Mem.reclaim_thins (m : Mem) (sl : Nat) (e : TEnt) (who : Option Nat) : m.Thins (m.reclaim sl e who) := by
  unfold Mem.reclaim
  split
  · exact (Mem.reclaimL1_thins ..).trans (Mem.thins_of_coreSide (Mem.coreSide_reclaimEnd ..))
  · exact m.thins_refl

/-- The translation of an access that is no engine's. -/
theorem Mem.translate_thins (m : Mem) (sl asid va need : Nat) (who : Who) (probe pref : Bool) (way : Nat) (cnt : Bool) (heng : who.eng = false) :
    m.Thins (m.translate sl asid va need who probe pref way cnt).1 := by
  unfold Mem.translate
  extract_lets write m0 hit
  split
  · exact Mem.thins_of_coreSide rfl
  · have hm0 : m0 = m := by simp only [m0, heng, Bool.false_eq_true, if_false]
    clear_value m0 hit
    subst hm0
    split
    next m1 r hw =>
    have hwalk : m0.Thins m1 := by
      have h1 : m1 = _ := (congrArg Prod.fst hw).symm
      rw [h1]
      split
      · exact m0.thins_refl
      · exact Mem.walkInstall_thins ..
    split
    · exact hwalk
    · next e0 =>
      extract_lets m2 e1? e1 m3 chk
      have hrec : m1.Thins m2 := by
        unfold m2
        split
        · exact Mem.reclaim_thins ..
        · exact m1.thins_refl
      have hrep : m3.coreSide = m2.coreSide := by
        unfold m3
        split
        · exact Mem.coreSide_unreplicate ..
        · rfl
      have hm3 : m0.Thins m3 := (hwalk.trans hrec).side hrep
      clear_value m3 chk
      split
      · exact hm3
      · rename_i dom m4 m5 e2 _ loc
        have hm5 : m5.coreSide = m3.coreSide := by
          unfold m5
          split <;> rfl
        split <;> exact hm3.side hm5

/-! Write-backs of an L1. -/

theorem Mem.writeBack1_thins (m : Mem) (core : Nat) (l : L1Line) : m.Thins (m.writeBack1 core l).1 := by
  unfold Mem.writeBack1
  split
  · exact m.thins_refl
  · split
    · exact m.thins_refl
    · next sl _ =>
      split
      · exact Mem.thins_of_coreSide rfl
      · have htr := Mem.translate_thins m sl l.asid (l.line * 128) 2 ⟨some core, core / 64, true, false⟩ false false 0 true rfl
        generalize m.translate sl l.asid (l.line * 128) 2 ⟨some core, core / 64, true, false⟩ false false = r at htr
        obtain ⟨m1, e | t⟩ := r
        · exact htr.trans (Mem.thins_of_coreSide rfl)
        · dsimp only
          split
          · exact htr.trans (Mem.thins_of_coreSide rfl)
          · exact htr.trans (Mem.thins_of_coreSide (Mem.coreSide_merge ..))

end Sys2Proof.Machine
end

section
/-! Release and acquire (02 R56 to R58, R76): which lines of the L1 may still hold dirty bytes, and which generations advance. -/

namespace Sys2Proof.Machine

/-- A line has nothing to be written back, or a slice has refused it. -/
def L1Line.Settled (k : L1Line) : Prop := k.dirty = 0 ∨ k.refused = true

/-- From `m` to `n` the lines of the L1 that are those of `l` have been settled, and the others are those of `m` or are settled. -/
structure Mem.Settles (m n : Mem) (core : Nat) (l : L1Line) : Prop where
  aside : n.aside = m.aside
  lines : ∀ k ∈ n.lines1 core, k.Settled ∨ (k ∈ m.lines1 core ∧ l.same k = false)

theorem Mem.Thins.settles_drop1 {m n : Mem} (h : m.Thins n) (core : Nat) (l : L1Line) : m.Settles (n.drop1 core l) core l := by
  refine ⟨h.aside, fun k hk => ?_⟩
  rw [Mem.drop1, Mem.lines1_setLines1_same, List.mem_filter] at hk
  exact (h.lines core k hk.1).elim (fun hm => .inr ⟨hm, by simpa using hk.2⟩) (fun hr => .inl (.inr hr))

theorem Mem.Thins.settles_set1 {m n : Mem} (h : m.Thins n) (core : Nat) {l l' : L1Line} (hsame : ∀ k, l'.same k = l.same k) (hl : l'.Settled) :
    m.Settles (n.set1 core l') core l := by
  refine ⟨h.aside, fun k hk => ?_⟩
  rw [Mem.set1, Mem.lines1_setLines1_same] at hk
  obtain ⟨y, hy, rfl⟩ := List.mem_map.mp hk
  split
  · exact .inl hl
  · next hne =>
    rw [hsame, Bool.not_eq_true] at hne
    exact (h.lines core y hy).elim (fun hm => .inr ⟨hm, hne⟩) (fun hr => .inl (.inr hr))

theorem Mem.flush1_settles (m : Mem) (core : Nat) (l : L1Line) : m.Settles (m.flush1 core l).1 core l := by
  have h := m.writeBack1_thins core l
  unfold Mem.flush1
  split
  · next hw => rw [hw] at h; exact h.settles_drop1 core l
  · next hw => rw [hw] at h; exact h.settles_set1 core (fun _ => rfl) (.inr rfl)

theorem Mem.clean1_settles (m : Mem) (core : Nat) (l : L1Line) : m.Settles (m.clean1 core l).1 core l := by
  have h := m.writeBack1_thins core l
  unfold Mem.clean1
  split
  · next hw => rw [hw] at h; exact h.settles_set1 core (fun _ => rfl) (.inl rfl)
  · next hw => rw [hw] at h; exact h.settles_set1 core (fun _ => rfl) (.inr rfl)

/-- Every line of an L1 that a test names is settled, but for those of the lines listed. -/
def Mem.SettledBut (m : Mem) (core : Nat) (acted : L1Line → Prop) (ls : List L1Line) : Prop :=
  ∀ k ∈ m.lines1 core, acted k → k.Settled ∨ ∃ r ∈ ls, r.same k = true

theorem Mem.Settles.settledBut {m n : Mem} {core : Nat} {l : L1Line} (h : m.Settles n core l) {acted : L1Line → Prop} {ls : List L1Line}
    (hm : m.SettledBut core acted (l :: ls)) : n.SettledBut core acted ls := by
  intro k hk hact
  rcases h.lines k hk with hs | ⟨hmem, hne⟩
  · exact .inl hs
  · rcases hm k hmem hact with hs | ⟨r, hr, hsame⟩
    · exact .inl hs
    · rcases List.mem_cons.mp hr with rfl | hr
      · rw [hne] at hsame
        exact absurd hsame Bool.false_ne_true
      · exact .inr ⟨r, hr, hsame⟩

/-- Write-backs of a list of lines settle these. -/
theorem Mem.overLines_settles {f : Mem → Nat → L1Line → Mem × Option Nat} (hf : ∀ (m : Mem) core l, m.Settles (f m core l).1 core l)
    {core : Nat} (ls : List L1Line) (m : Mem) : (m.overLines core f ls).1.aside = m.aside
      ∧ ∀ acted rest, m.SettledBut core acted (ls ++ rest) → (m.overLines core f ls).1.SettledBut core acted rest := by
  rw [Mem.overLines]
  change _ = (m, ([] : List Nat)).1.aside ∧ ∀ acted rest, (m, ([] : List Nat)).1.SettledBut core acted (ls ++ rest) → _
  generalize (m, ([] : List Nat)) = p
  induction ls generalizing p with
  | nil => exact ⟨rfl, fun _ _ h => h⟩
  | cons l ls ih =>
    rw [List.foldl_cons]
    obtain ⟨haside, hlines⟩ := ih _
    exact ⟨haside.trans (hf p.1 core l).aside, fun acted rest h => hlines acted rest ((hf p.1 core l).settledBut h)⟩

/-- The lines that a release of the classes up to `k` writes back. -/
def L1Line.ActedOn (k : Nat) (l : L1Line) : Prop := l.cls = 7 ∨ (l.cls ≠ 0 ∧ l.cls ≤ k)

theorem Mem.settledBut_nil {m : Mem} {core : Nat} {acted : L1Line → Prop} (h : ∀ k ∈ m.lines1 core, acted k → k.Settled) (ls : List L1Line) :
    m.SettledBut core acted ls :=
  fun k hk hact => .inl (h k hk hact)

/-- A release settles every line that it acts on, and changes of the cores' side only L1s. -/
theorem Mem.release_spec (m : Mem) (core scope : Nat) : (m.release core scope).1.aside = m.aside
    ∧ (scopeCls scope ≠ 0 → (m.release core scope).1.SettledBut core (L1Line.ActedOn (scopeCls scope)) []) := by
  unfold Mem.release
  extract_lets k ls acted shared uncl again
  split
  · next hk => exact ⟨rfl, fun h => absurd hk h⟩
  · have h1 := Mem.overLines_settles Mem.clean1_settles (core := core) shared m
    generalize m.overLines core Mem.clean1 shared = p1 at h1
    have h2 := Mem.overLines_settles Mem.flush1_settles (core := core) uncl p1.1
    dsimp only
    generalize p1.1.overLines core Mem.flush1 uncl = p2 at h2
    have h3 := Mem.overLines_settles Mem.clean1_settles (core := core) again p2.1
    refine ⟨h3.1.trans (h2.1.trans h1.1), fun _ => ?_⟩
    have hstart : m.SettledBut core (L1Line.ActedOn k) (shared ++ (uncl ++ [])) := by
      intro y hy hact
      by_cases hd : y.dirty = 0
      · exact .inl (.inl hd)
      · have hself : y.same y = true := by simp [L1Line.same]
        refine .inr ⟨y, List.mem_append.mpr ?_, hself⟩
        rcases hact with h7 | ⟨h0, hle⟩
        · exact .inr (by simp [uncl, ls, hy, h7, hd])
        · exact .inl (by simp [shared, ls, acted, hy, h0, hle, hd])
    have hend := h2.2 _ _ (h1.2 _ _ hstart)
    refine h3.2 _ _ (Mem.settledBut_nil (fun y hy hact => ?_) _)
    simpa using hend y hy hact

theorem Mem.wrap_spec (m : Mem) (core cls new : Nat) : (m.wrap core cls new).aside = m.aside
    ∧ ∀ acted, m.SettledBut core acted [] → (m.wrap core cls new).SettledBut core acted [] := by
  unfold Mem.wrap
  split
  · obtain ⟨haside, hlines⟩ := Mem.overLines_settles Mem.flush1_settles (core := core)
      ((m.lines1 core).filter (fun l => l.cls == cls && bit l.stamp 3 == bit new 3)) m
    exact ⟨haside, fun acted h => hlines acted [] (Mem.settledBut_nil (fun k hk hact => by simpa using h k hk hact) _)⟩
  · exact ⟨rfl, fun _ h => h⟩

/-- An acquire advances the generations of the classes it acts on, and unsettles no line. -/
theorem Mem.acquire_spec (m : Mem) (core scope : Nat) :
    (∀ c, (m.acquire core scope).clsGen core c = if 1 ≤ c ∧ c ≤ scopeCls scope then (m.clsGen core c + 1) % 16 else m.clsGen core c)
      ∧ ∀ acted : L1Line → Prop, (∀ l : L1Line, acted { l with rsv := [] } → acted l) → m.SettledBut core acted [] → (m.acquire core scope).SettledBut core acted [] := by
  unfold Mem.acquire
  extract_lets m0
  have h0 : (∀ c, m0.clsGen core c = m.clsGen core c)
      ∧ ∀ acted : L1Line → Prop, (∀ l : L1Line, acted { l with rsv := [] } → acted l) → m.SettledBut core acted [] → m0.SettledBut core acted [] := by
    unfold m0
    split
    · exact ⟨fun _ => rfl, fun _ _ h => h⟩
    · refine ⟨fun _ => rfl, fun acted hrsv h k hk hact => ?_⟩
      rw [Mem.lines1_setLines1_same] at hk
      obtain ⟨y, hy, rfl⟩ := List.mem_map.mp hk
      simpa [L1Line.Settled] using h y hy (hrsv y hact)
  clear_value m0
  generalize scopeCls scope = n
  induction n with
  | zero => exact ⟨fun c => by rw [if_neg (by omega)]; exact h0.1 c, h0.2⟩
  | succ n ih =>
    rw [List.range_succ, List.foldl_append, List.foldl_cons, List.foldl_nil]
    generalize (List.range n).foldl _ m0 = m1 at ih
    dsimp only
    generalize hg : (m1.clsGen core (n + 1) + 1) % 16 = g
    obtain ⟨haside, hlines⟩ := Mem.wrap_spec { m1 with cgen := Tbl.upd [] m1.cgen core (fun t => Tbl.put t (n + 1) g) } core (n + 1) g
    refine ⟨fun c => ?_, fun acted hrsv h => hlines acted (ih.2 acted hrsv h)⟩
    rw [Mem.clsGen_of_aside haside]
    have hput : Mem.clsGen { m1 with cgen := Tbl.upd [] m1.cgen core (fun t => Tbl.put t (n + 1) g) } core c
        = if c = n + 1 then g else m1.clsGen core c := by
      simp only [Mem.clsGen, Tbl.upd, Tbl.get_put_same, Tbl.get_put]
    rw [hput, ← hg, ih.1, ih.1]
    grind

end Sys2Proof.Machine
end

section
/-! What marking lanes, allocating records and setting warnings leaves of every context: its registers, its splits, its held results (05 R151,
R158, R167); and the retirement of an instruction of any context. -/

namespace Sys2Proof.Machine

/-- A context after marks and flags: its core, registers, splits and held results are what they were. -/
structure Ctx.Marked (c d : Ctx) : Prop where
  core : d.core = c.core
  s : d.s = c.s
  q : d.q = c.q
  pend : d.pend = c.pend
  splits : d.splits = c.splits
  pool : d.pool = c.pool
  lanes : ∀ l, (d.ln l).v = (c.ln l).v ∧ (d.ln l).p = (c.ln l).p ∧ (d.ln l).dr = (c.ln l).dr

theorem Ctx.marked_refl (c : Ctx) : c.Marked c := ⟨rfl, rfl, rfl, rfl, rfl, rfl, fun _ => ⟨rfl, rfl, rfl⟩⟩

theorem Ctx.Marked.trans {a b c : Ctx} (h : a.Marked b) (k : b.Marked c) : a.Marked c :=
  ⟨k.core.trans h.core, k.s.trans h.s, k.q.trans h.q, k.pend.trans h.pend, k.splits.trans h.splits, k.pool.trans h.pool, fun l =>
    ⟨(k.lanes l).1.trans (h.lanes l).1, (k.lanes l).2.1.trans (h.lanes l).2.1, (k.lanes l).2.2.trans (h.lanes l).2.2⟩⟩

theorem Ctx.marked_setLn_rgn (c : Ctx) (l : Nat) (r : Rgn) : c.Marked (c.setLn l { c.ln l with rgn := r }) := by
  refine ⟨rfl, rfl, rfl, rfl, rfl, rfl, fun k => ?_⟩
  by_cases h : k = l
  · subst h; simp
  · rw [Ctx.ln_setLn_ne _ _ h]; exact ⟨rfl, rfl, rfl⟩

theorem Ctx.marked_hit (c : Ctx) (t : Tbl Payload) : c.Marked { c with hit := t } := ⟨rfl, rfl, rfl, rfl, rfl, rfl, fun _ => ⟨rfl, rfl, rfl⟩⟩

theorem Ctx.marked_warns (c : Ctx) (w : W32) : c.Marked (c.warns w) := ⟨rfl, rfl, rfl, rfl, rfl, rfl, fun _ => ⟨rfl, rfl, rfl⟩⟩

/-- A state after marks and flags: the contexts are marked, and the executing instruction and the memory system are what they were. -/
structure State.Marked (s t : State) : Prop where
  cur : t.cur = s.cur
  mem : t.mem = s.mem
  ctx : ∀ a, (s.ctx a).Marked (t.ctx a)

theorem State.marked_refl (s : State) : s.Marked s := ⟨rfl, rfl, fun a => (s.ctx a).marked_refl⟩

theorem State.Marked.trans {s t u : State} (h : s.Marked t) (k : t.Marked u) : s.Marked u :=
  ⟨k.cur.trans h.cur, k.mem.trans h.mem, fun a => (h.ctx a).trans (k.ctx a)⟩

theorem State.marked_setCore (s : State) (c : Nat) (x : Core) : s.Marked (s.setCore c x) :=
  ⟨rfl, rfl, fun a => by cases a <;> exact Ctx.marked_refl _⟩

/-- Two actors name one context, or a change of the one's context leaves the other's. -/
theorem State.ctx_setCtx_or (s : State) (a b : Actor) (x : Ctx) : (s.setCtx b x).ctx a = s.ctx a ∨ (s.setCtx b x).ctx a = x ∧ s.ctx a = s.ctx b := by
  cases a <;> cases b <;> simp only [State.ctx, State.setCtx, Tbl.get_put, true_or]
  all_goals
    split
    · next h => rw [h]; exact .inr ⟨rfl, rfl⟩
    · exact .inl rfl

theorem State.marked_updCtx (s : State) (b : Actor) (f : Ctx → Ctx) (hf : (s.ctx b).Marked (f (s.ctx b))) : s.Marked (s.updCtx b f) := by
  refine ⟨State.updCtx_cur .., State.updCtx_mem .., fun a => ?_⟩
  rcases State.ctx_setCtx_or s a b (f (s.ctx b)) with h | ⟨h, hab⟩
  · rw [State.updCtx, h]; exact Ctx.marked_refl _
  · rw [State.updCtx, h, hab]; exact hf

theorem State.marked_warns (s : State) (w : W32) : s.Marked (s.warns w) :=
  State.marked_updCtx s (s.marker s.cur.act) (fun c => c.warns w) (Ctx.marked_warns _ w)

theorem State.marked_alloc (s : State) (a : Actor) (pc : W64) (fs : List LFlt) : s.Marked (s.alloc a pc fs).1 := by
  unfold State.alloc
  split
  · exact s.marked_refl
  · extract_lets cn co g cx hm ps
    split
    split
    extract_lets co2 full s1 pl
    show s.Marked s1
    unfold s1
    exact (State.marked_setCore ..).trans (State.marked_updCtx _ _ _ ⟨rfl, rfl, rfl, rfl, rfl, rfl, fun _ => ⟨rfl, rfl, rfl⟩⟩)

theorem State.marked_alloc1 (s : State) (a : Actor) (pc : W64) (mask : Nat) (f : Flt) (va : Nat) : s.Marked (s.alloc1 a pc mask f va).1 :=
  State.marked_alloc s a pc [{ lane := (lowest 32 mask).getD 0, flt := f, va := va, page := va % 2 ^ 55 / 65536 }]

theorem State.marked_sink (s : State) (a0 : Actor) (pc : W64) (l : Nat) (pl : Payload) : s.Marked (s.sink a0 pc l pl) := by
  have hmark (t : State) (a : Actor) (g : Ctx → Tbl Payload) (r : Ctx → Rgn) :
      t.Marked (t.updCtx a (fun c => { c with hit := g c }.setLn l { c.ln l with rgn := r c })) :=
    State.marked_updCtx _ _ _ ((Ctx.marked_hit _ _).trans (Ctx.marked_setLn_rgn _ l _))
  unfold State.sink
  extract_lets a cx rg
  split
  · exact hmark s a _ _
  · split
    next s1 pl1 ok hs1 =>
    have h1 : s.Marked s1 := by
      have hfst : s1 = _ := (congrArg Prod.fst hs1).symm
      rw [hfst]
      split
      · exact s.marked_refl
      · split
        · exact s.marked_refl
        · exact (State.marked_alloc ..).trans (State.marked_setCore ..)
    exact h1.trans (hmark s1 a _ _)

theorem State.marked_sinks (a : Actor) (pc : W64) (ls : List (Nat × Payload)) (s : State) : s.Marked (s.sinks a pc ls) :=
  foldl_keeps (fun t : State => s.Marked t) _ ls (fun t e ht => ht.trans (State.marked_sink t a pc e.1 e.2)) s s.marked_refl

theorem State.marked_seqMark (s : State) : s.Marked s.seqMark := by
  unfold State.seqMark
  split
  · exact State.marked_setCore ..
  · exact State.marked_setCore ..
  · exact s.marked_refl

theorem State.marked_refused (s : State) (sls : List Nat) : s.Marked (s.refused sls) := by
  cases sls with
  | nil => exact s.marked_refl
  | cons sl rest =>
    have halloc := s.marked_alloc1 (s.homeActor s.cur.act) s.cur.pc (s.ctx (s.homeActor s.cur.act)).alive ⟨cCompressSpill, sl⟩ 0
    exact (halloc.trans (State.marked_sinks ..)).trans (State.marked_seqMark _)

theorem State.Marked.coreOf {s t : State} (h : s.Marked t) (a : Actor) : t.coreOf a = s.coreOf a := by
  cases a with
  | thread d n => exact (h.ctx (.thread d n)).core
  | _ => rfl

/-! Retirement in a context of any kind. -/

theorem State.retire_free (s : State) (m : Nat) (hp : s.me.pend = []) :
    ∃ sp pl, s.retire m = s.setCtx s.cur.act (s.me.withSplits sp pl)
      ∧ ∀ x, s.me.splits = [(s.cur.act.slot, x)] → s.me.pool = [] → sp = [(s.cur.act.slot, { x with pc := s.cur.npc })] ∧ pl = [] := by
  have hne (hsplit : ∀ c g k, s.cur.act ≠ .split c g k) :
      s.retire m = s.setCtx s.cur.act ((s.me.setSplit s.cur.act.slot { s.sp with pc := s.cur.npc }).dropYield s.cur.act.slot) := by
    have hpend : s.advance.me.pend = [] := by rw [State.advance_me]; exact hp
    rw [State.retire, State.finish, hpend, if_neg (by simp), State.upd_eq]
    dsimp only
    rw [Ctx.tickWin_quiet _ hpend, Ctx.settle_quiet _ hpend, State.advance_cur, State.advance_setCtx, State.advance_me]
    split
    · next c g k h => exact absurd h (hsplit c g k)
    · rfl
  have hlone {x : Split} (h : s.me.splits = [(s.cur.act.slot, x)]) (hpool : s.me.pool = []) :
      ((s.me.setSplit s.cur.act.slot { s.sp with pc := s.cur.npc }).dropYield s.cur.act.slot).splits = [(s.cur.act.slot, { x with pc := s.cur.npc })]
        ∧ ((s.me.setSplit s.cur.act.slot { s.sp with pc := s.cur.npc }).dropYield s.cur.act.slot).pool = [] := by
    refine ⟨?_, hpool⟩
    simp [Ctx.dropYield, Ctx.setSplit, State.sp, Ctx.split, h, Tbl.get, Tbl.put_singleton]
  cases hact : s.cur.act with
  | split c g k =>
    have h := State.retire_unheld (m := m) hact hp
    rw [hact] at h
    exact h
  | _ =>
    rw [← hact]
    exact ⟨_, _, hne (by simp [hact]), fun x => hlone⟩

/-- Retirement after marks and flags: registers and predicates are what they were, and a lone split goes to the next instruction. -/
theorem State.retire_marked {s u : State} (m : Nat) (hcur : u.cur = s.cur) (hctx : s.me.Marked (u.ctx s.cur.act)) (hq : s.quiet) :
    (u.retire m).mem = u.mem ∧ s.keepsRegs (u.retire m) ∧ s.endsAs (u.retire m) s.after := by
  have hme : u.me = u.ctx s.cur.act := by rw [State.me, hcur]
  obtain ⟨sp, pl, hret, hsp⟩ := State.retire_free u m (by rw [hme]; exact hctx.pend.trans hq)
  rw [hcur, hme] at hret hsp
  have hdone : (u.retire m).me = (u.ctx s.cur.act).withSplits sp pl := by
    rw [hret, State.me, State.setCtx_cur, hcur, State.ctx_setCtx]
  refine ⟨by rw [hret, State.setCtx_mem], ?_, fun hlone => ?_⟩
  · rw [State.keepsRegs, hdone]
    exact ⟨hctx.s, hctx.q, hctx.lanes⟩
  · rw [hdone]
    exact hsp _ (hctx.splits.trans hlone.1) (hctx.pool.trans hlone.2.1)

end Sys2Proof.Machine
end

section
/-! The fences (02 R56, R58, R76; 03 R94, R95; 11 R353). -/

namespace Sys2Proof.Machine

theorem State.ctx_withMem (s : State) (m : Mem) (a : Actor) : State.ctx { s with mem := m } a = s.ctx a := by cases a <;> rfl

/-- A release of an executor that has an L1: the memory system is that after the release, and lanes may be marked (02 R76). -/
theorem State.doRelease_spec {s : State} (scope : Nat) (h : s.cur.act.isCtl = false) :
    State.Marked { s with mem := (s.mem.release (s.coreOf s.cur.act) scope).1 } (s.doRelease scope) := by
  simp only [State.doRelease, h, Bool.false_eq_true, if_false]
  exact State.marked_refused { s with mem := (s.mem.release (s.coreOf s.cur.act) scope).1 } _

theorem State.doAcquire_eq {s : State} (scope : Nat) (h : s.cur.act.isCtl = false) :
    s.doAcquire scope = { s with mem := s.mem.acquire (s.coreOf s.cur.act) scope } := by
  simp only [State.doAcquire, h, Bool.false_eq_true, if_false]

/-- The memory system after a fence of a kind: 0 acquire, 1 release, else both (03 R94). -/
def Mem.fenced (m : Mem) (core kind scope : Nat) : Mem :=
  if kind = 0 then m.acquire core scope else if kind = 1 then (m.release core scope).1 else (m.release core scope).1.acquire core scope

/-- A fence retires after its effect on the memory system, which may mark lanes of the contexts. -/
theorem State.fence_spec {s : State} (kind scope z : Nat) (w : W32) (hallows : s.allows Legal.all [] = true) (hctl : s.cur.act.isCtl = false) :
    ∃ u : State, s.fence kind scope z w = .next (u.retire s.mask) ∧ u.cur = s.cur ∧ (∀ a, (s.ctx a).Marked (u.ctx a))
      ∧ u.mem = s.mem.fenced (s.coreOf s.cur.act) kind (scopeCode scope) := by
  rw [State.fence, State.uni1, State.uni_allowed s _ _ _ hallows]
  dsimp only
  have hwarn := s.marked_warns (w ||| ignW (z != 0) ||| flagIf (6 ≤ scope) wScopeRsvd)
  generalize s.warns (w ||| ignW (z != 0) ||| flagIf (6 ≤ scope) wScopeRsvd) = s1 at hwarn ⊢
  have hctl1 : s1.cur.act.isCtl = false := by rw [hwarn.cur]; exact hctl
  have hcore1 : s1.coreOf s1.cur.act = s.coreOf s.cur.act := by rw [hwarn.cur]; exact hwarn.coreOf _
  have hrel := State.doRelease_spec (scopeCode scope) hctl1
  rw [hcore1, hwarn.mem] at hrel
  have hctlr : (s1.doRelease (scopeCode scope)).cur.act.isCtl = false := by rw [hrel.cur]; exact hctl1
  have hcorer : (s1.doRelease (scopeCode scope)).coreOf (s1.doRelease (scopeCode scope)).cur.act = s.coreOf s.cur.act := by
    rw [hrel.cur, ← hcore1]; exact hrel.coreOf _
  have hctx : ∀ a, (s.ctx a).Marked ((s1.doRelease (scopeCode scope)).ctx a) := fun a => (hwarn.ctx a).trans (State.ctx_withMem s1 _ a ▸ hrel.ctx a)
  refine ⟨_, rfl, ?_⟩
  match kind with
  | 0 =>
    rw [State.doAcquire_eq _ hctl1, hcore1, hwarn.mem]
    exact ⟨hwarn.cur, fun a => (State.ctx_withMem s1 _ a).symm ▸ hwarn.ctx a, rfl⟩
  | 1 => exact ⟨hrel.cur.trans hwarn.cur, hctx, hrel.mem⟩
  | n + 2 =>
    rw [State.doAcquire_eq _ hctlr, hcorer, hrel.mem]
    exact ⟨hrel.cur.trans hwarn.cur, fun a => (State.ctx_withMem _ _ a).symm ▸ hctx a, rfl⟩

/-- The widest class of a scope code is that of the scope it names (03 R83). -/
theorem scopeCls_scopeCode (scope : Nat) : scopeCls (scopeCode scope) = widest scope := by
  unfold scopeCode widest
  rcases Nat.lt_or_ge scope 6 with h | h
  · rw [if_neg (by omega)]
    interval_cases scope <;> rfl
  · rw [if_pos h, if_neg (by omega), if_neg (by omega)]
    rfl

/-- What a fence leaves of a core's L1 and of its generations. -/
theorem Mem.fenced_spec (m : Mem) (core kind scope : Nat) :
    (scopeCls scope = 0 → m.fenced core kind scope = m)
    ∧ (kind ≠ 0 → scopeCls scope ≠ 0 → (m.fenced core kind scope).SettledBut core (L1Line.ActedOn (scopeCls scope)) [])
    ∧ ∀ c, (m.fenced core kind scope).clsGen core c
      = if kind ≠ 1 ∧ 1 ≤ c ∧ c ≤ scopeCls scope then (m.clsGen core c + 1) % 16 else m.clsGen core c := by
  obtain ⟨hrside, hrlines⟩ := m.release_spec core scope
  have hracq := (m.release core scope).1.acquire_spec core scope
  have hacq := m.acquire_spec core scope
  have hgen := Mem.clsGen_of_aside hrside core
  refine ⟨fun h => ?_, fun hk h => ?_, fun c => ?_⟩
  · simp [Mem.fenced, Mem.release, Mem.acquire, h]
  · rw [Mem.fenced, if_neg hk]
    split
    · exact hrlines h
    · exact hracq.2 _ (fun _ hl => hl) (hrlines h)
  · unfold Mem.fenced
    split
    · next hk => rw [hacq.1]; simp [hk]
    · split
      · next hk => rw [hgen]; simp [hk]
      · next hk => rw [hracq.1, hgen]; simp [hk]

end Sys2Proof.Machine
end

section
open Sys2Proof Sys2Proof.Machine

/-- Settles O34: a fence marks lanes at most, and leaves of the memory system what its release and its acquire leave. -/
theorem fences : Obligations.Fences := by
  unfold Obligations.Fences
  intro i kind scope hkind _ s hallows hquiet hctl core
  obtain ⟨z, w, hexec⟩ : ∃ z w, exec i s = s.fence kind scope z w := by
    cases i <;> simp only [Instr.fenceKind, Option.some.injEq, Prod.mk.injEq, reduceCtorEq] at hkind
    all_goals
      obtain ⟨rfl, rfl⟩ := hkind
      exact ⟨_, _, rfl⟩
  obtain ⟨u, hfence, hcur, hctx, hmem⟩ := s.fence_spec kind scope z w hallows hctl
  obtain ⟨htmem, hregs, hends⟩ := State.retire_marked s.mask hcur (hctx _) hquiet
  obtain ⟨hzero, hlines, hgens⟩ := s.mem.fenced_spec core kind (scopeCode scope)
  rw [scopeCls_scopeCode] at hzero hlines hgens
  rw [hmem] at htmem
  refine ⟨_, hexec.trans hfence, hregs, hends, ?_, ?_, ?_⟩ <;> rw [htmem]
  · rintro rfl
    exact hzero rfl
  · intro hk hscope l hl hact
    simpa [L1Line.Settled] using hlines hk (by unfold widest; grind) l hl hact
  · exact hgens

end

section
/-! Instructions that answer with a status at once, or that hold their split until they complete (11 R333, R357 to R362): what notes of a fault and
warnings leave, the answer, the wait, the completion. -/

namespace Sys2Proof.Machine

/-- A context after warnings and the allocation of records: nothing else has changed. -/
def Ctx.Noted (c d : Ctx) : Prop := d = { c with warn := d.warn, lastRec := d.lastRec, ovf := d.ovf }

theorem Ctx.noted_refl (c : Ctx) : c.Noted c := rfl

theorem Ctx.Noted.trans {a b c : Ctx} (h : a.Noted b) (k : b.Noted c) : a.Noted c := by
  unfold Ctx.Noted at h k ⊢
  rw [k, h]

/-- A state after warnings and the allocation of records: the contexts are noted, side tables may have changed, and nothing else has. -/
structure State.Noted (s t : State) : Prop where
  eq : t = { s with groups := t.groups, threads := t.threads, ctls := t.ctls, mseqs := t.mseqs, cseqs := t.cseqs, cores := t.cores }
  ctx : ∀ a, (s.ctx a).Noted (t.ctx a)

theorem State.noted_refl (s : State) : s.Noted s := ⟨rfl, fun a => (s.ctx a).noted_refl⟩

theorem State.Noted.trans {s t u : State} (h : s.Noted t) (k : t.Noted u) : s.Noted u := by
  refine ⟨?_, fun a => (h.ctx a).trans (k.ctx a)⟩
  rw [k.eq, h.eq]

theorem State.Noted.cur {s t : State} (h : s.Noted t) : t.cur = s.cur := by rw [h.eq]
theorem State.Noted.mem {s t : State} (h : s.Noted t) : t.mem = s.mem := by rw [h.eq]
theorem State.Noted.ports {s t : State} (h : s.Noted t) : t.ports = s.ports := by rw [h.eq]

theorem State.Noted.me {s t : State} (h : s.Noted t) : s.me.Noted (t.ctx s.cur.act) := h.ctx _

theorem State.Noted.coreOf {s t : State} (h : s.Noted t) (a : Actor) : t.coreOf a = s.coreOf a := by
  cases a with
  | thread d n =>
    have hctx : t.ctx (.thread d n) = _ := h.ctx (.thread d n)
    rw [State.coreOf, State.coreOf, hctx]
  | _ => rfl

theorem State.noted_setCore (s : State) (c : Nat) (x : Core) : s.Noted (s.setCore c x) :=
  ⟨rfl, fun a => by cases a <;> exact Ctx.noted_refl _⟩

theorem State.noted_updCtx (s : State) (b : Actor) (f : Ctx → Ctx) (hf : (s.ctx b).Noted (f (s.ctx b))) : s.Noted (s.updCtx b f) := by
  refine ⟨by cases b <;> rfl, fun a => ?_⟩
  rcases State.ctx_setCtx_or s a b (f (s.ctx b)) with h | ⟨h, hab⟩
  · rw [State.updCtx, h]; exact Ctx.noted_refl _
  · rw [State.updCtx, h, hab]; exact hf

theorem State.noted_warns (s : State) (w : W32) : s.Noted (s.warns w) :=
  State.noted_updCtx s (s.marker s.cur.act) (fun c => c.warns w) rfl

theorem State.noted_alloc (s : State) (a : Actor) (pc : W64) (fs : List LFlt) : s.Noted (s.alloc a pc fs).1 := by
  unfold State.alloc
  split
  · exact s.noted_refl
  · extract_lets cn co g cx hm ps
    split
    split
    extract_lets co2 full s1 pl
    show s.Noted s1
    unfold s1
    exact (State.noted_setCore ..).trans (State.noted_updCtx _ _ _ rfl)

/-! Records of one fault. -/

/-- The payload of a fault names its cause (05 R162). -/
theorem State.cause_alloc (s : State) (a : Actor) (pc : W64) (f : LFlt) (d : Payload) :
    plCause (Tbl.get d (s.alloc a pc [f]).2 f.lane) = f.flt.cause % 64 := by
  unfold State.alloc
  split
  · simp [Tbl.get, plCause_mkPl]
  · extract_lets cn co g cx hm ps
    split
    split
    extract_lets co2 full s1 pl
    have hpl : plCause (pl f) = f.flt.cause % 64 := by
      unfold pl
      split <;> exact plCause_mkPl ..
    simpa [Tbl.get] using hpl

theorem State.fault1_spec (s : State) (f : Flt) (va : Nat) : s.Noted (s.fault1 f va).1 ∧ plCause (s.fault1 f va).2 = f.cause % 64 := by
  unfold State.fault1 State.alloc1
  exact ⟨State.noted_alloc .., State.cause_alloc s _ _ { lane := (lowest 32 s.faultMask).getD 0, flt := f, va := va, page := va % 2 ^ 55 / 65536 } _⟩

/-! Answers. -/

theorem Ctx.ws_quiet (c : Ctx) (h : c.pend = []) (d : Nat) (v : Val W64) :
    c.ws d v = if d % 64 = 0 then c else { c with s := Tbl.put c.s (d % 64) v } := by
  simp [Ctx.ws, Ctx.wawU, h]

theorem Ctx.rs_ws_quiet (c : Ctx) (h : c.pend = []) (d r : Nat) (v : Val W64) :
    (c.ws d v).rs r = if r % 64 = d % 64 ∧ d % 64 ≠ 0 then v else c.rs r := by
  rw [Ctx.ws_quiet c h]
  by_cases hd : d % 64 = 0
  · simp [hd]
  · rw [if_neg hd]
    simp only [Ctx.rs, Tbl.get_put]
    grind

section
variable {s u : State} {i : Instr} {m : Nat}

/-- Retirement of an instruction after its context has become `c`, without held results. -/
theorem State.retire_setCtx {c : Ctx} (hcur : u.cur = s.cur) (hp : c.pend = []) :
    ∃ sp pl, (u.setCtx s.cur.act c).retire m = u.setCtx s.cur.act (c.withSplits sp pl)
      ∧ ∀ x, c.splits = [(s.cur.act.slot, x)] → c.pool = [] → sp = [(s.cur.act.slot, { x with pc := s.cur.npc })] ∧ pl = [] := by
  have hcur' : (u.setCtx s.cur.act c).cur = s.cur := (State.setCtx_cur ..).trans hcur
  have hme : (u.setCtx s.cur.act c).me = c := by rw [State.me, hcur', State.ctx_setCtx]
  obtain ⟨sp, pl, hret, hsp⟩ := State.retire_free (u.setCtx s.cur.act c) m (by rw [hme]; exact hp)
  rw [hcur', hme] at hret hsp
  exact ⟨sp, pl, by rw [hret, State.setCtx_setCtx], hsp⟩

theorem State.me_of_setCtx {c : Ctx} (hcur : u.cur = s.cur) : (u.setCtx s.cur.act c).me = c := by
  rw [State.me, State.setCtx_cur, hcur, State.ctx_setCtx]

/-- An instruction that writes its status and retires, once warnings and records are noted, answers with that status. -/
theorem State.answers_of {d : Nat} {v : Val W64} (hcur : u.cur = s.cur) (hctx : s.me.Noted (u.ctx s.cur.act)) (hq : s.quiet)
    (hexec : exec i s = .next ((u.upd (fun c => c.ws d v)).retire m)) : s.answers i d v u.mem := by
  have hnote : u.ctx s.cur.act = _ := hctx
  have hpend : (u.ctx s.cur.act).pend = [] := by rw [hnote]; exact hq
  have hu : u.upd (fun c => c.ws d v) = u.setCtx s.cur.act ((u.ctx s.cur.act).ws d v) := by rw [State.upd_eq, State.me, hcur]
  have hws := (u.ctx s.cur.act).ws_quiet hpend d v
  have hrs (r : Nat) := (u.ctx s.cur.act).rs_ws_quiet hpend d r v
  generalize (u.ctx s.cur.act).ws d v = c at hu hws hrs
  have hc : c.pend = [] ∧ c.splits = s.me.splits ∧ c.pool = s.me.pool ∧ c.q = s.me.q ∧ c.lanes = s.me.lanes := by
    rw [hws, hnote]
    split <;> exact ⟨hq, rfl, rfl, rfl, rfl⟩
  obtain ⟨hcp, hcs, hcpl, hcq, hcl⟩ := hc
  obtain ⟨sp, pl, hret, hsp⟩ := State.retire_setCtx (m := m) hcur hcp
  rw [hu, hret] at hexec
  refine ⟨_, hexec, State.setCtx_mem .., fun hlone => ?_, ?_⟩ <;> rw [State.me_of_setCtx hcur]
  · exact hsp _ (hcs.trans hlone.1) (hcpl.trans hlone.2.1)
  · refine ⟨fun hd => ?_, fun r hr => ?_, hcq, fun l => by rw [Ctx.withSplits_ln, Ctx.ln, hcl, Ctx.ln]⟩
    · rw [Ctx.withSplits_rs, hrs, if_pos ⟨rfl, hd⟩]
    · rw [Ctx.withSplits_rs, hrs, if_neg (fun h => hr h.1), hnote]
      rfl

/-- An instruction that gives its status register the poison of a fault and retires, answers with that fault. -/
theorem State.faults_of {d va : Nat} {f : Flt} (hu : s.Noted u) (hq : s.quiet)
    (hexec : exec i s = .next ((u.statusFault d f va).retire m)) : s.faults i d (f.cause % 64) := by
  obtain ⟨hnoted, hcause⟩ := u.fault1_spec f va
  have hall := hu.trans hnoted
  exact ⟨_, hcause, hall.mem ▸ State.answers_of hall.cur hall.me hq hexec⟩

theorem foldl_wawU_quiet (l : List Nat) (c : Ctx) (h : c.pend = []) : l.foldl (fun c d => c.wawU (d % 64)) c = c :=
  foldl_keeps (· = c) _ l (fun e r he => by rw [he]; simp [Ctx.wawU, h]) c rfl

/-- An instruction that holds its split and retires, waits. -/
theorem State.waits_of {b : Blk} {also : State → Prop} (hcur : u.cur = s.cur) (hctx : s.me.Noted (u.ctx s.cur.act)) (hq : s.quiet)
    (hexec : exec i s = .next ((u.block b).retire m)) (halso : ∀ c, also (u.setCtx s.cur.act c)) : s.waits i b u.mem also := by
  have hnote : u.ctx s.cur.act = _ := hctx
  have hme : u.me = u.ctx s.cur.act := by rw [State.me, hcur]
  have hpend : u.me.pend = [] := by rw [hme, hnote]; exact hq
  have hu : u.block b = u.setCtx s.cur.act (u.me.setSplit s.cur.act.slot { u.me.split s.cur.act.slot with blk := some b }) := by
    rw [State.block, State.updSp, State.upd_upd, State.upd_eq, State.upd_cur, foldl_wawU_quiet _ _ hpend, hcur]
  rw [hu, hme] at hexec
  generalize hc : (u.ctx s.cur.act).setSplit s.cur.act.slot _ = c at hexec
  have hcp : c.pend = [] := by rw [← hc, Ctx.setSplit_pend, hnote]; exact hq
  obtain ⟨sp, pl, hret, hsp⟩ := State.retire_setCtx (m := m) hcur hcp
  rw [hret] at hexec
  refine ⟨_, hexec, State.setCtx_mem .., fun hlone => ?_, ?_, ?_, fun l => ?_, halso _⟩ <;> rw [State.me_of_setCtx hcur]
  · refine hsp { s.sp with blk := some b } ?_ ?_
    · rw [← hc, hnote]
      simp only [Ctx.setSplit, Ctx.split, hlone.1, Tbl.get, if_true, Tbl.put_singleton]
    · rw [← hc, hnote]; exact hlone.2.1
  · rw [← hc, hnote]; rfl
  · rw [← hc, hnote]; rfl
  · rw [← hc, hnote]; rfl

end

/-! Completion. -/

theorem Ctx.wawU_splits (c : Ctx) (r : Nat) : (c.wawU r).splits = c.splits := by
  unfold Ctx.wawU
  split <;> rfl

theorem Ctx.splits_ws (c : Ctx) (d : Nat) (v : Val W64) : (c.ws d v).splits = c.splits := by
  unfold Ctx.ws
  split
  · rfl
  · exact Ctx.wawU_splits c _

theorem Ctx.rs_ws (c : Ctx) {d : Nat} (h : d % 64 ≠ 0) (v : Val W64) : (c.ws d v).rs d = v := by
  rw [Ctx.ws, if_neg h, Ctx.rs, if_neg h]
  exact Tbl.get_put_same ..

/-- The completion of the one instruction that holds a split writes its status there and frees it. -/
theorem State.unblock_spec {s : State} {a : Actor} {b : Blk} {d : Nat} (h : s.waitsAt a b) (hd : b.dests = [d].filter (fun d => d % 64 != 0)) (v : Val W64)
    (t : State) (ht : t.ctx a = s.ctx a) : (t.unblock a b v).completed a d v := by
  obtain ⟨hblk, halso⟩ := h
  rw [State.blkOf] at hblk
  have hon : (s.ctx a).on = true := by
    by_contra hne
    rw [if_neg hne] at hblk
    cases hblk
  rw [if_pos hon] at hblk
  have hblks : ((s.ctx a).split a.slot).blks = [b] := by rw [Split.blks, hblk, halso]; rfl
  have hctx : (t.unblock a b v).ctx a = (b.dests.foldl (fun c d => c.ws d v) (s.ctx a)).freed a.slot b := by
    rw [State.unblock, State.updCtx, State.ctx_setCtx, ht]
  have hws : (b.dests.foldl (fun c d => c.ws d v) (s.ctx a)).splits = (s.ctx a).splits
      ∧ (d % 64 ≠ 0 → (b.dests.foldl (fun c d => c.ws d v) (s.ctx a)).rs d = v) := by
    rw [hd]
    by_cases h0 : d % 64 = 0
    · simp [h0]
    · simp [h0, Ctx.splits_ws, Ctx.rs_ws]
  refine ⟨?_, fun h0 => ?_⟩
  · rw [State.blkOf, hctx]
    have hfree : ((b.dests.foldl (fun c d => c.ws d v) (s.ctx a)).freed a.slot b).split a.slot
        = (((s.ctx a).split a.slot).heldBy []) := by
      rw [Ctx.freed, Ctx.split_setSplit, Ctx.split, hws.1, ← Ctx.split, hblks, List.erase_cons_head]
    rw [hfree]
    exact ite_self _
  · rw [hctx]
    exact hws.2 h0

theorem State.unblock_mem (s : State) (a : Actor) (b : Blk) (v : Val W64) : (s.unblock a b v).mem = s.mem := State.updCtx_mem ..

end Sys2Proof.Machine
end

section
/-! Range operations, sealed buffers, records from software and page write-back (02 R73; 03 R115; 11 R357 to R361), instruction by instruction. -/

namespace Sys2Proof.Machine

section
variable {s : State} {i : Instr} {a b d : Nat} {u v : W64}

/-- A uniform instruction of two clean operands, allowed in its place, has its own effect after its warnings. -/
theorem State.uni_operands (ha : s.allows Legal.noSeq [] = true) (hu : s.me.rs a = .ok u) (hv : s.me.rs b = .ok v) (w : W32) (k : State → State → State) :
    s.uni Legal.noSeq [] (fun s => (s.warns w).sinkOps [(s.me.rs a).pl?, (s.me.rs b).pl?] (k s)) = .next (k s (s.warns w)) := by
  rw [State.uni_allowed s _ _ _ ha, hu, hv]
  rfl

/-! Ranges. -/

theorem State.rangeOp_noted {t : State} (h : s.Noted t) (asid lo hi : Nat) (sl inv disc : Bool) :
    (t.rangeOp asid lo hi sl inv disc).1 = { t with mem := (s.rangeOp asid lo hi sl inv disc).1.mem }
      ∧ (t.rangeOp asid lo hi sl inv disc).2 = (s.rangeOp asid lo hi sl inv disc).2 := by
  simp only [State.rangeOp, State.dieOf, h.cur, h.mem, h.coreOf]
  exact ⟨trivial, trivial⟩

theorem State.Noted.ctx_withMem {t : State} (h : s.Noted t) (m : Mem) : s.me.Noted (State.ctx { t with mem := m } s.cur.act) := by
  rw [State.ctx_withMem]
  exact h.me

/-- CWB and CINV with clean operands (11 R357). -/
theorem State.range_eq (ha : s.allows Legal.noSeq [] = true) (hu : s.me.rs a = .ok u) (hv : s.me.rs b = .ok v) (d lvl : Nat) (inv disc : Bool) (w : W32) :
    s.range d a b lvl inv disc w = .next (
      if v.toNat = 0 then ((s.warns w).upd (fun c => c.ws d (.ok 0))).retire s.mask
      else if 2 ^ 55 ≤ u.toNat || 2 ^ 55 < u.toNat + v.toNat then ((s.warns w).statusFault d ⟨cBounds, 0⟩).retire s.mask
      else
        match ((s.warns w).rangeOp s.me.asid u.toNat (u.toNat + v.toNat) (lvl != 0) inv disc).2 with
        | [] => (((s.warns w).rangeOp s.me.asid u.toNat (u.toNat + v.toNat) (lvl != 0) inv disc).1.block (.range d (.ok 0))).retire s.mask
        | sl :: _ =>
          let r := ((s.warns w).rangeOp s.me.asid u.toNat (u.toNat + v.toNat) (lvl != 0) inv disc).1.fault1 ⟨cCompressSpill, sl⟩
          (r.1.block (.range d (.bad r.2))).retire s.mask) := by
  rw [State.range, State.uni_operands ha hu hv]
  simp only [hu, hv, Val.getD] <;> rfl

section
variable {lvl : Nat} {inv disc : Bool} {w : W32} (ha : s.allows Legal.noSeq [] = true) (hq : s.quiet) (hu : s.me.rs a = .ok u) (hv : s.me.rs b = .ok v)
  (hi : exec i s = s.range d a b lvl inv disc w)
include ha hq hu hv hi

theorem State.range_empty (h0 : v = 0) : s.answers i d (.ok 0) s.mem := by
  have hw := s.noted_warns w
  refine hw.mem ▸ State.answers_of (m := s.mask) hw.cur hw.me hq ?_
  rw [hi, State.range_eq ha hu hv, if_pos (by simp [h0])]

theorem State.range_beyond (h0 : v ≠ 0) (hb : 2 ^ 55 ≤ u.toNat ∨ 2 ^ 55 < u.toNat + v.toNat) : s.faults i d cBounds := by
  refine State.faults_of (m := s.mask) (f := ⟨cBounds, 0⟩) (va := 0) (s.noted_warns w) hq ?_
  rw [hi, State.range_eq ha hu hv, if_neg (by simpa [BitVec.toNat_eq] using h0), if_pos (by simpa using hb)]

theorem State.range_runs (h0 : v ≠ 0) (hlo : u.toNat < 2 ^ 55) (hhi : u.toNat + v.toNat ≤ 2 ^ 55) :
    let r := s.rangeOp s.me.asid u.toNat (u.toNat + v.toNat) (lvl != 0) inv disc
    (r.2 = [] → s.waits i (.range d (.ok 0)) r.1.mem (fun _ => True))
      ∧ ∀ sl rest, r.2 = sl :: rest → ∃ p, plCause p = cCompressSpill ∧ s.waits i (.range d (.bad p)) r.1.mem (fun _ => True) := by
  have hw := s.noted_warns w
  obtain ⟨hst, hrf⟩ := State.rangeOp_noted hw s.me.asid u.toNat (u.toNat + v.toNat) (lvl != 0) inv disc
  have hexec := hi.trans (State.range_eq ha hu hv d lvl inv disc w)
  rw [if_neg (by simpa [BitVec.toNat_eq] using h0), if_neg (by simp; omega), hst, hrf] at hexec
  generalize s.rangeOp s.me.asid u.toNat (u.toNat + v.toNat) (lvl != 0) inv disc = r at hexec ⊢
  refine ⟨fun hr => ?_, fun sl rest hr => ?_⟩ <;> rw [hr] at hexec
  · exact State.waits_of (u := { s.warns w with mem := r.1.mem }) (m := s.mask) hw.cur (hw.ctx_withMem _) hq hexec (fun _ => trivial)
  · obtain ⟨hnoted, hcause⟩ := State.fault1_spec { s.warns w with mem := r.1.mem } ⟨cCompressSpill, sl⟩ 0
    have hctx := (hw.ctx_withMem r.1.mem).trans (hnoted.ctx s.cur.act)
    have hwaits := State.waits_of (m := s.mask) (also := fun _ => True) (hnoted.cur.trans hw.cur) hctx hq hexec (fun _ => trivial)
    rw [hnoted.mem] at hwaits
    exact ⟨_, hcause, hwaits⟩

end

end

end Sys2Proof.Machine
end

section
/-! Sealed buffers, records from software and page write-back (03 R115; 11 R358, R359, R361; 13 R412). -/

namespace Sys2Proof.Machine

theorem sealStatus_eq {ver : Nat} (h : ver < 65536) (r : Nat) : sealStatus ver r = BitVec.ofNat 64 (ver * 65536 + r) := by
  rw [sealStatus, Nat.mod_eq_of_lt h]

theorem findIdx?_of_find? {α : Type} {p : α → Bool} {l : List α} {e : α} (h : l.find? p = some e) : ∃ i, l.findIdx? p = some i ∧ l[i]? = some e := by
  obtain ⟨hp, i, hi, rfl, hlt⟩ := List.find?_eq_some_iff_getElem.1 h
  exact ⟨i, List.findIdx?_eq_some_iff_getElem.2 ⟨hi, hp, fun j hj => by simpa using hlt j hj⟩, List.getElem?_eq_getElem hi⟩

section
variable {s : State} {a b d : Nat} {u v : W64} (ha : s.allows Legal.noSeq [] = true) (hq : s.quiet) (hu : s.me.rs a = .ok u) (hv : s.me.rs b = .ok v)
include ha hq hu hv

/-! SEAL.CLOSE. -/

theorem State.sealClose_bounds (op z : Nat) (h : u.toNat % 65536 ≠ 0 ∨ v.toNat % 65536 = 0) : s.faults (.sealClose d a b op z) d cBounds := by
  refine State.faults_of (m := s.mask) (f := ⟨cBounds, 0⟩) (va := 0) (s.noted_warns (ignW (z != 0))) hq ?_
  show execSealClose d a b op z s = _
  rw [execSealClose, State.uni_operands ha hu hv]
  simp only [hu, hv, Val.getD]
  rw [if_pos (by simpa [fld] using h)]

/-- SEAL.CLOSE of an aligned base and a nonzero length gives the table and the status of `sealClose`, and tells a new version to the peers. -/
theorem State.sealClose_answers (op z : Nat) (hb : u.toNat % 65536 = 0) (hl : v.toNat % 65536 ≠ 0) {t : List Seal} {ver r : Nat}
    (hr : sealClose s.mem.seals s.me.asid u.toNat (v.toNat % 65536) (v.toNat / 65536 % 65536) = (t, ver, r)) :
    s.answers (.sealClose d a b op z) d (.ok (sealStatus ver r))
      { s.mem with seals := t, out := if r = 0 then s.mem.out ++ [{ kind := 512, addr := v.toNat / 65536 % 65536, data := ver }] else s.mem.out } := by
  have hw := s.noted_warns (ignW (z != 0))
  have hfld : fld v.toNat 0 16 = v.toNat % 65536 ∧ fld v.toNat 16 16 = v.toNat / 65536 % 65536 := by simp [fld]
  obtain ⟨m, hm⟩ : ∃ m : Mem, m = { s.mem with seals := t, out := if r = 0 then s.mem.out ++ [{ kind := 512, addr := v.toNat / 65536 % 65536, data := ver }] else s.mem.out } :=
    ⟨_, rfl⟩
  rw [← hm]
  refine State.answers_of (u := { s.warns (ignW (z != 0)) with mem := m }) (m := s.mask) hw.cur (hw.ctx_withMem _) hq ?_
  show execSealClose d a b op z s = _
  rw [execSealClose, State.uni_operands ha hu hv]
  simp only [hu, hv, Val.getD]
  rw [if_neg (by simp [hfld, hb, hl]), hfld.1, hfld.2, hr]
  by_cases h0 : r = 0
  · rw [if_pos h0, hm, if_pos h0, State.tellAll, State.send, Mem.send, hw.mem]
  · rw [if_neg h0, hm, if_neg h0, hw.mem]

/-! SEAL.OPEN. -/

theorem State.sealOpen_unknown (op z : Nat) (h : s.mem.seals.find? (fun e => e.asid == s.me.asid && e.buf == v.toNat / 65536 % 65536) = none) :
    s.answers (.sealOpen d a b op z) d (.ok 3) s.mem := by
  have hw := s.noted_warns (ignW (z != 0))
  refine hw.mem ▸ State.answers_of (m := s.mask) hw.cur hw.me hq ?_
  show execSealOpen d a b op z s = _
  have hnone : s.mem.seals.findIdx? (fun e => e.asid == s.me.asid && e.buf == fld v.toNat 16 16) = none := by
    simpa [List.findIdx?_eq_none_iff, List.find?_eq_none, fld] using h
  rw [execSealOpen, State.uni_operands ha hu hv]
  simp only [hv, Val.getD, hnone]
  rfl

theorem State.sealOpen_known (op z : Nat) {e : Seal} (h : s.mem.seals.find? (fun e => e.asid == s.me.asid && e.buf == v.toNat / 65536 % 65536) = some e) :
    (e.sealed = false → s.answers (.sealOpen d a b op z) d (.ok (sealStatus e.ver 2)) s.mem)
      ∧ (e.sealed = true → ∃ i, s.mem.seals[i]? = some e ∧ s.waits (.sealOpen d a b op z) (.sealOpen d i s.cur.pc)
        { s.mem with out := s.mem.out ++ [{ kind := 513, addr := v.toNat / 65536 % 65536, data := e.ver }] } (fun _ => True)) := by
  have hw := s.noted_warns (ignW (z != 0))
  obtain ⟨i, hi, hget⟩ := findIdx?_of_find? h
  have hfld : fld v.toNat 16 16 = v.toNat / 65536 % 65536 := by simp [fld]
  have hexec : exec (.sealOpen d a b op z) s = .next (
      if !e.sealed then ((s.warns (ignW (z != 0))).upd (fun c => c.ws d (.ok (sealStatus e.ver 2)))).retire s.mask
      else (((s.warns (ignW (z != 0))).tellAll 513 (v.toNat / 65536 % 65536) e.ver).block (.sealOpen d i s.cur.pc)).retire s.mask) := by
    show execSealOpen d a b op z s = _
    rw [execSealOpen, State.uni_operands ha hu hv]
    simp only [hv, Val.getD, hfld, hi, hget]
  refine ⟨fun hs => ?_, fun hs => ⟨i, hget, ?_⟩⟩ <;> rw [hs] at hexec
  · exact hw.mem ▸ State.answers_of (m := s.mask) hw.cur hw.me hq hexec
  · rw [← hw.mem]
    exact State.waits_of (m := s.mask) (u := (s.warns (ignW (z != 0))).tellAll 513 (v.toNat / 65536 % 65536) e.ver) hw.cur (hw.ctx_withMem _) hq hexec (fun _ => trivial)

end

end Sys2Proof.Machine
end

section
/-! Records from software and page write-back (11 R359, R361). -/

namespace Sys2Proof.Machine

theorem evRec_fields (type status asid token src die : Nat) (cc : Bool) (data : Nat) :
    (evRec type status asid token src die cc data).toNat / 2 ^ 120 = type % 256
      ∧ (evRec type status asid token src die cc data).toNat / 2 ^ 112 % 256 = status % 256
      ∧ (evRec type status asid token src die cc data).toNat % 2 ^ 64 = data % 2 ^ 64 := by
  have hcc : b2n cc < 2 := by cases cc <;> decide
  rw [evRec, BitVec.toNat_ofNat]
  omega

section
variable {s : State} {a b d : Nat} {u v : W64} (hq : s.quiet) (hu : s.me.rs a = .ok u)
include hq hu

/-- EVT offers its record and changes no register. -/
theorem State.evt_offers (ha : s.allows Legal.noSeq [] = true) (y z : Nat) :
    ∃ t, exec (.evt y a z) s = .next t ∧ s.offers t (s.dieOf s.cur.act) 10 (u.toNat % 256) u.toNat ∧ s.keepsRegs t ∧ s.endsAs t s.after := by
  have hw := s.marked_warns (ignW (y != 0 || z != 0))
  have hall : s.allows Legal.all [a] = true := by
    revert ha
    unfold State.allows
    cases s.cur.act.isCtl <;> cases s.cur.act.isSeq <;> simp [Legal.all, Legal.noSeq]
  obtain ⟨src, cc, hexec⟩ : ∃ src cc, exec (.evt y a z) s
      = .next (((s.warns (ignW (y != 0 || z != 0))).event (s.dieOf s.cur.act)
        (evRec 10 (u.toNat % 256) s.me.asid 0 src (s.dieOf s.cur.act) cc u.toNat)).retire s.mask) := by
    show ∃ src cc, execEvt y a z s = _
    rw [execEvt, State.uni1, State.uni_allowed s _ _ _ hall, hu]
    dsimp only
    split
    · exact ⟨_, _, rfl⟩
    · exact ⟨_, _, rfl⟩
  have hctx (r : BitVec 128) : s.me.Marked (((s.warns (ignW (y != 0 || z != 0))).event (s.dieOf s.cur.act) r).ctx s.cur.act) := by
    rw [State.event, State.ctx_withMem]
    exact hw.ctx _
  obtain ⟨hmem, hregs, hends⟩ := State.retire_marked (u := (s.warns (ignW (y != 0 || z != 0))).event _ _) s.mask hw.cur (hctx _) hq
  obtain ⟨htype, hstatus, hdata⟩ := evRec_fields 10 (u.toNat % 256) s.me.asid 0 src (s.dieOf s.cur.act) cc u.toNat
  refine ⟨_, hexec, ⟨_, ?_, htype, hstatus.trans (Nat.mod_mod ..), hdata⟩, hregs, hends⟩
  rw [hmem]
  exact congrArg (fun m : Mem => m.offer ++ _) hw.mem

variable (ha : s.allows Legal.noSeq [] = true) (hv : s.me.rs b = .ok v) (hp : s.priv = true)
include ha hv hp

omit hq in
/-- A privileged instruction of two clean operands has its own effect after its warnings. -/
theorem State.privileged_operands (w : W32) (k : State → State → State) :
    s.privileged d (fun s => (s.warns w).sinkOps [(s.me.rs a).pl?, (s.me.rs b).pl?] (k s)) = .next (k s (s.warns w)) := by
  rw [State.privileged, State.uni_allowed s _ _ _ ha, if_pos hp, hu, hv]
  rfl

omit hq in
/-- FLUSHST with clean operands. -/
theorem State.flushst_eq (fua z : Nat) : exec (.flushst d a b fua z) s = .next (
    if u.toNat / 2 ^ 55 != 0 then ((s.warns (ignW (z != 0))).statusFault d ⟨cBounds, 0⟩ u.toNat).retire s.mask
    else match s.mem.flushLeaf s.me.asid u.toNat with
    | .error f => ((s.warns (ignW (z != 0))).statusFault d f u.toNat).retire s.mask
    | .ok _ =>
      let page := u.toNat / 65536 * 65536
      let p := v.toNat / 2 ^ 40 % 8
      let q := s.port p
      let s2 : State := { s.warns (ignW (z != 0)) with mem := (s.rangeOp s.me.asid page (page + 65536) true false false).1.mem }
      if !q.ready then (s2.upd (fun c => c.ws d (.ok 0xFFFF))).retire s.mask
      else ((s2.setPort p ({ q with flushes := q.flushes ++ [⟨s.cur.act, s.me.asid, page, v.toNat % 2 ^ 37, fua != 0, q.cmdsFor s.me.asid page⟩] } : Port).submit).block
        (.flush d p s.me.asid page)).retire s.mask) := by
  have hw := s.noted_warns (ignW (z != 0))
  have hport (p : Nat) (m : Mem) : State.port { s.warns (ignW (z != 0)) with mem := m } p = s.port p := by
    rw [State.port, State.port]; exact congrArg (Tbl.get _ · p) hw.ports
  have hfld : fld v.toNat 40 3 = v.toNat / 2 ^ 40 % 8 ∧ fld v.toNat 0 37 = v.toNat % 2 ^ 37 := by simp [fld]
  show execFlushst d a b fua z s = _
  rw [execFlushst, State.privileged_operands hu ha hv hp]
  simp only [hu, hv, Val.getD, hw.mem, (State.rangeOp_noted hw _ _ _ _ _ _).1, hport, hfld.1, hfld.2] <;> rfl


theorem State.flushst_bounds (fua z : Nat) (h : 2 ^ 55 ≤ u.toNat) : s.faults (.flushst d a b fua z) d cBounds := by
  refine State.faults_of (m := s.mask) (f := ⟨cBounds, 0⟩) (va := u.toNat) (s.noted_warns (ignW (z != 0))) hq ?_
  rw [State.flushst_eq hu ha hv hp, if_pos]
  simp
  omega

theorem State.flushst_absent (fua z : Nat) (h : u.toNat < 2 ^ 55) {f : Flt} (hf : s.mem.flushLeaf s.me.asid u.toNat = .error f) :
    s.faults (.flushst d a b fua z) d (f.cause % 64) := by
  refine State.faults_of (m := s.mask) (f := f) (va := u.toNat) (s.noted_warns (ignW (z != 0))) hq ?_
  rw [State.flushst_eq hu ha hv hp, if_neg (by simp; omega), hf]

theorem State.flushst_moves (fua z : Nat) (h : u.toNat < 2 ^ 55) {l : Leaf} (hl : s.mem.flushLeaf s.me.asid u.toNat = .ok l) :
    let p := v.toNat / 2 ^ 40 % 8
    let page := u.toNat / 65536 * 65536
    let m := (s.rangeOp s.me.asid page (page + 65536) true false false).1.mem
    ((s.port p).ready = false → s.answers (.flushst d a b fua z) d (.ok 0xFFFF) m)
      ∧ ((s.port p).ready = true → s.waits (.flushst d a b fua z) (.flush d p s.me.asid page) m (fun t =>
        t.port p = ({ s.port p with flushes := (s.port p).flushes ++ [⟨s.cur.act, s.me.asid, page, v.toNat % 2 ^ 37, fua != 0,
          (s.port p).cmdsFor s.me.asid page⟩] } : Port).submit)) := by
  have hw := s.noted_warns (ignW (z != 0))
  have hexec := State.flushst_eq (d := d) hu ha hv hp fua z
  rw [if_neg (by simp; omega), hl] at hexec
  dsimp only at hexec ⊢
  generalize s.warns (ignW (z != 0)) = t at hw hexec
  generalize u.toNat / 65536 * 65536 = page at hexec ⊢
  generalize v.toNat / 2 ^ 40 % 8 = p at hexec ⊢
  generalize (s.rangeOp s.me.asid page (page + 65536) true false false).1.mem = m at hexec ⊢
  have hctx := hw.ctx_withMem m
  refine ⟨fun hr => ?_, fun hr => ?_⟩
  · rw [if_pos (by simp [hr])] at hexec
    exact State.answers_of (u := { t with mem := m }) (m := s.mask) hw.cur hctx hq hexec
  · rw [if_neg (by simp [hr])] at hexec
    refine State.waits_of (u := State.setPort { t with mem := m } p _) (m := s.mask) hw.cur hctx hq hexec (fun c => ?_)
    rw [State.port, State.setCtx_ports]
    exact Tbl.get_put_same ..

end

end Sys2Proof.Machine
end

section
/-! Completion of range operations and of SEAL.OPEN, and a peer's versions at the dies (02 R73; 03 R115; 13 R412). -/

namespace Sys2Proof.Machine

theorem getElem?_listUpd {α : Type} (f : α → α) (l : List α) (n : Nat) : (listUpd l n f)[n]? = l[n]?.map f := by
  induction l generalizing n with
  | nil => rfl
  | cons x xs ih =>
    cases n with
    | zero => rfl
    | succ n => simpa [listUpd] using ih n

/-! The seal table at SEAL.CLOSE, case by case. -/

section
variable {t : List Seal} {asid buf : Nat} (base len : Nat)

theorem sealClose_new (h : t.find? (fun e => e.asid == asid && e.buf == buf) = none) (hroom : t.length < 1024) :
    sealClose t asid base len buf = (t ++ [⟨asid, base, len, buf, 1, true⟩], 1, 0) := by
  rw [sealClose, h]
  exact if_neg (by omega)

theorem sealClose_full (h : t.find? (fun e => e.asid == asid && e.buf == buf) = none) (hfull : 1024 ≤ t.length) :
    sealClose t asid base len buf = (t, 0, 1) := by
  rw [sealClose, h]
  exact if_pos hfull

theorem sealClose_open {e : Seal} (h : t.find? (fun e => e.asid == asid && e.buf == buf) = some e) (hopen : e.sealed = false) :
    sealClose t asid base len buf = (t.map (fun x => if x.asid = asid ∧ x.buf = buf then ⟨asid, base, len, buf, (e.ver + 1) % 65536, true⟩ else x),
      (e.ver + 1) % 65536, 0) := by
  rw [sealClose, h]
  simp [hopen]

theorem sealClose_sealed {e : Seal} (h : t.find? (fun e => e.asid == asid && e.buf == buf) = some e) (hsealed : e.sealed = true) :
    sealClose t asid base len buf = (t, e.ver, 2) := by
  rw [sealClose, h]
  exact if_pos hsealed

end

section
variable {s : State} {a : Actor} {d : Nat}

theorem State.rangeOperationDone_completes {v : Val W64} (h : s.waitsAt a (.range d v)) :
    s.event? (.rangeOperationDone a) (fun t => t.completed a d v ∧ t.mem = s.mem) := by
  refine ⟨s.unblock a (.range d v) v, ?_, State.unblock_spec h rfl v s rfl, State.unblock_mem ..⟩
  show execRangeOperationDone a s = _
  rw [execRangeOperationDone, h.1]

theorem State.sealRetireAck_completes {i : Nat} {pc : W64} {e : Seal} (h : s.waitsAt a (.sealOpen d i pc)) (he : s.mem.seals[i]? = some e)
    (hver : e.ver < 65536) :
    s.event? (.sealRetireAck a) (fun t => t.completed a d (.ok (BitVec.ofNat 64 (e.ver * 65536))) ∧ t.mem.seals[i]? = some { e with sealed := false }) := by
  let m : Mem := { s.mem with seals := listUpd s.mem.seals i (fun e => { e with sealed := false }) }
  refine ⟨State.unblock { s with mem := m } a (.sealOpen d i pc) (.ok (BitVec.ofNat 64 (e.ver * 65536))), ?_,
    State.unblock_spec h rfl _ _ (State.ctx_withMem ..), ?_⟩
  · show execSealRetireAck a s = _
    rw [execSealRetireAck, h.1]
    simp only [he, sealStatus_eq hver, Nat.add_zero]
    rfl
  · rw [State.unblock_mem]
    exact (getElem?_listUpd _ s.mem.seals i).trans (congrArg _ he)

end

/-! Versions at the dies. -/

theorem State.readsBuf_withMem (s : State) (m : Mem) (die dev buf : Nat) : State.readsBuf { s with mem := m } die dev buf = s.readsBuf die dev buf := by
  simp only [State.readsBuf, State.opOf, State.ctx_withMem, State.actors, State.dieOf]

theorem State.ackRetires_one {s : State} {r : Nat × Nat × Nat × Nat} (h : s.mem.retires = [r]) :
    s.ackRetires = if s.readsBuf r.1 r.2.1 r.2.2.1 then s
      else { s with mem := { s.mem with retires := [], out := s.mem.out ++ [{ kind := 514, addr := r.2.1 * 65536 + r.2.2.1, data := r.2.2.2 }] } } := by
  rw [State.ackRetires, h]
  simp [h, State.send, Mem.send]

/-- The acknowledgement of retires leaves the dies' caches and the versions as they are. -/
theorem State.ackRetires_keeps (s : State) : s.ackRetires.mem.vers = s.mem.vers ∧ s.ackRetires.mem.dc = s.mem.dc :=
  foldl_keeps (fun t : State => t.mem.vers = s.mem.vers ∧ t.mem.dc = s.mem.dc) _ _ (fun t r ht => by
    dsimp only
    split <;> exact ht) s ⟨rfl, rfl⟩

theorem State.sealVersionNotice_spec (s : State) (dev buf ver : Nat) :
    s.event? (.sealVersionNotice dev buf ver) (fun t => (∀ k < 4, (k, dev, buf, ver) ∈ t.mem.vers)
      ∧ ∀ x ∈ t.mem.vers, x.2.1 = dev → x.2.2.1 = buf → x.2.2.2 = ver) := by
  refine ⟨_, rfl, fun k hk => ?_, fun x hx hdev hbuf => ?_⟩
  · exact List.mem_append_right _ (List.mem_map.2 ⟨k, List.mem_range.2 hk, rfl⟩)
  · rcases List.mem_append.1 hx with hold | hnew
    · simp [hdev, hbuf] at hold
    · obtain ⟨k, -, rfl⟩ := List.mem_map.1 hnew
      rfl

theorem State.sealRetire_spec (s : State) (die dev buf ver : Nat) :
    s.event? (.sealRetire die dev buf ver) (fun t => (die, dev, buf, ver) ∉ t.mem.vers
      ∧ (∀ l ∈ Tbl.get [] t.mem.dc die, l.ver ≠ some (dev, buf, ver))
      ∧ (s.mem.retires = [] → if s.readsBuf die dev buf then t.mem.out = s.mem.out ∧ t.mem.retires = [(die, dev, buf, ver)]
        else t.mem.out = s.mem.out ++ [{ kind := 514, addr := dev * 65536 + buf, data := ver }] ∧ t.mem.retires = [])) := by
  let m : Mem := { s.mem with
    vers := s.mem.vers.filter (fun v => v != (die, dev, buf, ver))
    dc := Tbl.upd [] s.mem.dc die (fun ls => ls.filter (fun l => l.ver != some (dev, buf, ver)))
    retires := s.mem.retires.filter (· != (die, dev, buf, ver)) ++ [(die, dev, buf, ver)] }
  obtain ⟨hvers, hdc⟩ := State.ackRetires_keeps { s with mem := m }
  refine ⟨State.ackRetires { s with mem := m }, rfl, ?_, fun l hl => ?_, fun hr => ?_⟩
  · rw [hvers]
    simp [m]
  · rw [hdc] at hl
    have hmem : l ∈ (Tbl.get [] s.mem.dc die).filter (fun l => l.ver != some (dev, buf, ver)) := by
      simpa [m, Tbl.upd] using hl
    simpa using (List.mem_filter.1 hmem).2
  · have hone : (State.mem { s with mem := m }).retires = [(die, dev, buf, ver)] := by simp [m, hr]
    have hack := State.ackRetires_one hone
    rw [State.readsBuf_withMem] at hack
    by_cases hreads : s.readsBuf die dev buf = true
    · rw [hack, if_pos hreads, if_pos hreads]
      exact ⟨rfl, hone⟩
    · rw [hack, if_neg hreads, if_neg hreads]
      exact ⟨rfl, rfl⟩

end Sys2Proof.Machine
end

section
open Sys2Proof Sys2Proof.Machine

/-- Settles O48: each form by its own lemma, each answer, fault and wait by what retirement after notes leaves. -/
theorem rangesAndSeals : Obligations.RangesAndSeals := by
  unfold Obligations.RangesAndSeals
  refine ⟨fun s d a b lvl mode op z fua y u v ha hq hu hv _ => ⟨?_, ?_, ?_, ?_⟩, fun s a d i die dev buf ver v pc e => ⟨?_, ?_, ?_, ?_, ?_⟩⟩
  · intro i inv disc hmem
    obtain ⟨w, hi⟩ : ∃ w, exec i s = s.range d a b lvl inv disc w := by
      simp only [List.mem_cons, List.not_mem_nil, or_false, Prod.mk.injEq] at hmem
      obtain ⟨rfl, rfl, rfl⟩ | ⟨rfl, rfl, rfl⟩ := hmem <;> exact ⟨_, rfl⟩
    refine ⟨State.range_empty ha hq hu hv hi, State.range_beyond ha hq hu hv hi, fun h0 hlo hhi => ?_⟩
    have hruns := State.range_runs ha hq hu hv hi h0 hlo hhi
    simpa only [State.rangeOp, bne_iff_ne, ite_not] using hruns
  · intro base len buf
    refine ⟨State.sealClose_bounds ha hq hu hv op z, fun hb hl => ⟨fun hnone => ?_, fun e he hver => ?_⟩⟩
    · have hfind : s.mem.seals.find? (fun e => e.asid == s.me.asid && e.buf == buf) = none := by
        simpa [List.find?_eq_none] using hnone
      refine ⟨fun hroom => ?_, fun hfull => ?_, State.sealOpen_unknown ha hq hu hv op z hfind⟩
      · exact State.sealClose_answers ha hq hu hv op z hb hl (sealClose_new _ _ hfind hroom)
      · exact State.sealClose_answers ha hq hu hv op z hb hl (sealClose_full _ _ hfind hfull)
    · obtain ⟨hopens, hretires⟩ := State.sealOpen_known ha hq hu hv op z he
      rw [← sealStatus_eq hver]
      refine ⟨fun hopen => ⟨?_, hopens hopen⟩, fun hsealed => ⟨?_, hretires hsealed⟩⟩
      · have hclose := State.sealClose_answers (d := d) ha hq hu hv op z hb hl (sealClose_open _ _ he hopen)
        rw [sealStatus_eq (Nat.mod_lt _ (by decide)), Nat.add_zero, if_pos rfl] at hclose
        exact hclose
      · exact State.sealClose_answers ha hq hu hv op z hb hl (sealClose_sealed _ _ he hsealed)
  · exact State.evt_offers hq hu ha y z
  · exact fun hp => ⟨State.flushst_bounds hq hu ha hv hp fua z, fun hlt => ⟨fun f => State.flushst_absent hq hu ha hv hp fua z hlt,
      fun l => State.flushst_moves hq hu ha hv hp fua z hlt⟩⟩
  · exact State.rangeOperationDone_completes
  · exact State.sealRetireAck_completes
  · exact State.sealVersionNotice_spec s dev buf ver
  · exact State.sealRetire_spec s die dev buf ver
  · intro hr hreads
    rw [State.ackRetires_one hr, if_neg (by simp [hreads])]
    exact ⟨rfl, rfl⟩

end

section
/-! Harvest and the forms of TLBI and HASHSW, instruction by instruction (02 R66, R67; 04 R125, R128, R129, R137; 11 R357, R362). -/

namespace Sys2Proof.Machine

/-! A held split beside what is outside the contexts. -/

/-- A state with another memory, other management registers, broadcasts, invalidations and switches. -/
def State.outside (s : State) (m : Mem) (mf : Mf) (bc : List Bcast) (iv : List Inval) (sw : List (Nat × Nat)) : State :=
  { s with mem := m, mf := mf, bcasts := bc, invals := iv, switches := sw }

/-- A context whose split in a slot is held by an instruction, in the windows of earlier results of its destinations. -/
def Ctx.holding (c : Ctx) (k : Nat) (b : Blk) : Ctx :=
  let c := b.dests.foldl (fun c d => c.wawU (d % 64)) c
  c.setSplit k { c.split k with blk := some b }

section
variable (s : State) (m : Mem) (mf : Mf) (bc : List Bcast) (iv : List Inval) (sw : List (Nat × Nat))

theorem State.ctx_outside (a : Actor) : (s.outside m mf bc iv sw).ctx a = s.ctx a := by cases a <;> rfl

theorem State.setCtx_outside (a : Actor) (c : Ctx) : (s.setCtx a c).outside m mf bc iv sw = (s.outside m mf bc iv sw).setCtx a c := by cases a <;> rfl

theorem State.block_eq (b : Blk) : s.block b = s.setCtx s.cur.act (s.me.holding s.cur.act.slot b) := by
  rw [State.block, State.updSp, State.upd_upd, State.upd_eq, State.upd_cur]
  rfl

/-- Holding a split commutes with changes outside the contexts. -/
theorem State.block_outside (b : Blk) : (s.block b).outside m mf bc iv sw = (s.outside m mf bc iv sw).block b := by
  rw [State.block_eq, State.block_eq, State.setCtx_outside, State.me, State.me, State.ctx_outside]
  rfl

end

section
variable {s t : State} {i : Instr} {a b d : Nat} {u v : W64}

/-- An instruction that holds its split and changes things outside the contexts, waits. -/
theorem State.waits_outside {k : Blk} {n : Nat} {m : Mem} {mf : Mf} {bc : List Bcast} {iv : List Inval} {sw : List (Nat × Nat)} {also : State → Prop}
    (h : s.Noted t) (hq : s.quiet) (hexec : exec i s = .next (((t.block k).outside m mf bc iv sw).retire n))
    (halso : ∀ t : State, t.mem = m → t.mf = mf → t.bcasts = bc → t.invals = iv → t.switches = sw → also t) : s.waits i k m also := by
  rw [State.block_outside] at hexec
  have hctx : s.me.Noted ((t.outside m mf bc iv sw).ctx s.cur.act) := by
    rw [State.ctx_outside]
    exact h.me
  refine State.waits_of (u := t.outside m mf bc iv sw) h.cur hctx hq hexec (fun c => halso _ ?_ ?_ ?_ ?_ ?_)
  all_goals simp [State.outside]

theorem State.Noted.mf (h : s.Noted t) : t.mf = s.mf := by rw [h.eq]
theorem State.Noted.bcasts (h : s.Noted t) : t.bcasts = s.bcasts := by rw [h.eq]
theorem State.Noted.invals (h : s.Noted t) : t.invals = s.invals := by rw [h.eq]
theorem State.Noted.switches (h : s.Noted t) : t.switches = s.switches := by rw [h.eq]

/-! HARV. -/

section
variable (hrun : s.mayRun) (hu : s.me.rs a = .ok u) (hv : s.me.rs b = .ok v)
include hrun hu hv

/-- HARV with clean operands. -/
theorem State.harv_eq (d clr z : Nat) : exec (.harv d a b clr z) s = .next (
    if !s.mayName (v.toNat % 65536) then ((s.warns (ignW (z != 0))).statusFault d ⟨cProt, s.cur.word⟩).retire s.mask
    else match s.mem.harvest s.me.asid (v.toNat % 65536) (u.toNat % 2 ^ 56) (clr != 0) with
      | (m, some f) => (State.statusFault { s.warns (ignW (z != 0)) with mem := m } d f).retire s.mask
      | (m, none) => (State.block { s.warns (ignW (z != 0)) with mem := m } (.harv d)).retire s.mask) := by
  obtain ⟨ha, hp, -⟩ := hrun
  show execHarv d a b clr z s = _
  rw [execHarv, State.privileged_operands hu ha hv hp]
  simp only [hu, hv, Val.getD, (s.noted_warns (ignW (z != 0))).mem] <;> rfl

theorem State.harv_foreign (d clr z : Nat) (h : s.mayName (v.toNat % 65536) = false) : s.faults (.harv d a b clr z) d cProt := by
  refine State.faults_of (m := s.mask) (f := ⟨cProt, s.cur.word⟩) (va := 0) (s.noted_warns (ignW (z != 0))) hrun.2.2 ?_
  rw [State.harv_eq hrun hu hv, if_pos (by simp [h])]

theorem State.harv_fault (d clr z : Nat) (h : s.mayName (v.toNat % 65536) = true) {f : Flt}
    (hf : s.mem.harvest s.me.asid (v.toNat % 65536) (u.toNat % 2 ^ 56) (clr != 0) = (s.mem, some f)) : s.faults (.harv d a b clr z) d (f.cause % 64) := by
  have hw := s.noted_warns (ignW (z != 0))
  refine State.faults_of (m := s.mask) (f := f) (va := 0) hw hrun.2.2 ?_
  rw [State.harv_eq hrun hu hv, if_neg (by simp [h]), hf, ← hw.mem]

theorem State.harv_starts (d clr z : Nat) (h : s.mayName (v.toNat % 65536) = true)
    (hn : (s.mem.harvest s.me.asid (v.toNat % 65536) (u.toNat % 2 ^ 56) (clr != 0)).2 = none) :
    s.waits (.harv d a b clr z) (.harv d) (s.mem.harvest s.me.asid (v.toNat % 65536) (u.toNat % 2 ^ 56) (clr != 0)).1 (fun _ => True) := by
  have hw := s.noted_warns (ignW (z != 0))
  have hexec := State.harv_eq hrun hu hv d clr z
  rw [if_neg (by simp [h])] at hexec
  generalize s.mem.harvest s.me.asid (v.toNat % 65536) (u.toNat % 2 ^ 56) (clr != 0) = r at hexec hn ⊢
  obtain ⟨m, f⟩ := r
  cases hn
  exact State.waits_of (u := { s.warns (ignW (z != 0)) with mem := m }) (m := s.mask) hw.cur (hw.ctx_withMem m) hrun.2.2 hexec (fun _ => trivial)

end

end

end Sys2Proof.Machine
end

section
/-! The forms of TLBI and HASHSW where they are issued (02 R66, R67; 04 R125, R128, R129; 11 R357, R362). -/

namespace Sys2Proof.Machine

theorem Mem.tblEntry_ok {m : Mem} {slot pa : Nat} (hp : populated pa = true) (hk : (m.key slot).revoked = false) (hs : m.secFault (pa / 32) = none) :
    m.tblEntry slot pa = .ok (m.num slot pa 8) := by
  rw [Mem.tblEntry, if_neg (by simp [hp]), if_neg (by simp [hk]), hs]

theorem Mem.ctxWord_ok {m : Mem} {asid : Nat} (hp : populated (m.ctxb * 65536 + asid * 32 + 8) = true)
    (hs : m.secFault ((m.ctxb * 65536 + asid * 32 + 8) / 32) = none) : m.ctxWord asid 1 = .ok (m.num 0 (m.ctxb * 65536 + asid * 32 + 8) 8) := by
  rw [Mem.ctxWord]
  simp [hp, hs]

theorem State.block_mem (s : State) (b : Blk) : (s.block b).mem = s.mem := by rw [State.block_eq, State.setCtx_mem]

theorem State.waits.imp {s : State} {i : Instr} {b : Blk} {m : Mem} {p q : State → Prop} (h : s.waits i b m p) (hpq : ∀ t, p t → q t) : s.waits i b m q := by
  obtain ⟨t, hexec, hmem, hends, hs, hqq, hl, hp⟩ := h
  exact ⟨t, hexec, hmem, hends, hs, hqq, hl, hpq t hp⟩

theorem State.setSlhm_eq {s t : State} (hm : t.mem = s.mem) (hf : t.mf = s.mf) (dom : Nat) (f : W32 → W32) :
    t.setSlhm dom f = t.outside (s.setSlhm dom f).mem (s.setSlhm dom f).mf t.bcasts t.invals t.switches := by
  simp only [State.setSlhm, State.outside, hm, hf]

/-- A release leaves no hold on the page of the address at any slice (04 R129). -/
theorem Mem.release129_held (m : Mem) (asid va sl : Nat) (hsl : sl < 16) (h : HeldPage) (hh : h ∈ ((m.release129 asid va).slice sl).held)
    (hs : h.sticky = true) (ha : h.asid = asid) : va < h.page ∨ h.page + 2 ^ h.size ≤ va := by
  rw [Mem.release129, Mem.slice_sweep (fun _ x => { x with held := x.held.filter (fun h =>
    !(h.sticky && h.asid == asid && h.page ≤ va && va < h.page + 2 ^ h.size)) }) _ List.nodup_range, if_pos (mem_range_slices hsl)] at hh
  have hkeep := (List.mem_filter.1 hh).2
  simp only [hs, ha, beq_self_eq_true, Bool.true_and, Bool.not_eq_true', Bool.and_eq_false_iff, decide_eq_false_iff_not] at hkeep
  omega

section
variable {s t : State} {i : Instr} {a b d : Nat} {u v : W64}

section
variable (hrun : s.mayRun) (hu : s.me.rs a = .ok u)
include hrun hu

section
variable (hv : s.me.rs b = .ok v)
include hv

theorem State.tlbi_eq (d z : Nat) (k : State → Nat → Nat → State) : s.tlbi d a b z k = .next (
    (if !s.mayName (u.toNat % 65536) then (s.warns (ignW (z != 0))).statusFault d ⟨cProt, s.cur.word⟩
      else k (s.warns (ignW (z != 0))) (u.toNat % 65536) v.toNat).retire s.mask) := by
  obtain ⟨ha, hp, -⟩ := hrun
  rw [State.tlbi, State.privileged_operands hu ha hv hp]
  simp only [hu, hv, Val.getD]

/-- A form of TLBI that names another's ASID (11 R357). -/
theorem State.tlbi_foreign {z : Nat} {k : State → Nat → Nat → State} (hi : exec i s = s.tlbi d a b z k) (h : s.mayName (u.toNat % 65536) = false) :
    s.faults i d cProt := by
  refine State.faults_of (m := s.mask) (f := ⟨cProt, s.cur.word⟩) (va := 0) (s.noted_warns (ignW (z != 0))) hrun.2.2 ?_
  rw [hi, State.tlbi_eq hrun hu hv, if_pos (by simp [h])]

theorem State.tlbi_own {z : Nat} {k : State → Nat → Nat → State} (hi : exec i s = s.tlbi d a b z k) (h : s.mayName (u.toNat % 65536) = true) :
    exec i s = .next ((k (s.warns (ignW (z != 0))) (u.toNat % 65536) v.toNat).retire s.mask) := by
  rw [hi, State.tlbi_eq hrun hu hv, if_neg (by simp [h])]

end

end

section
variable {n asid va : Nat} (hq : s.quiet) (h : s.Noted t)
include hq h

/-! TLBI.GEN. -/

theorem State.tlbiGen_fault (hexec : exec i s = .next ((t.tlbiGen d asid).retire n)) {f : Flt} (hf : s.mem.ctxWord asid 1 = .error f) :
    s.faults i d (f.cause % 64) := by
  refine State.faults_of (m := n) (f := f) (va := 0) h hq ?_
  rw [hexec, State.tlbiGen, h.mem, hf]

theorem State.tlbiGen_raises (hexec : exec i s = .next ((t.tlbiGen d asid).retire n))
    (hp : populated (s.mem.ctxb * 65536 + asid * 32 + 8) = true) (hs : s.mem.secFault ((s.mem.ctxb * 65536 + asid * 32 + 8) / 32) = none) :
    let at' := s.mem.ctxb * 65536 + asid * 32 + 8
    let w := s.mem.num 0 at' 8
    let g := (w / 2 ^ 56 % 256 + 1) % 256
    let m := s.mem.putNum 0 at' 8 (w % 2 ^ 56 + g * 2 ^ 56)
    s.waits i (.tlbi d asid true g) (if g = 0 then m.wrapGen asid else m) (fun t => t.bcasts = s.bcasts ++ [⟨asid, g, List.range 20⟩]) := by
  intro at' w g m
  rw [State.tlbiGen, h.mem, Mem.ctxWord_ok hp hs] at hexec
  exact State.waits_outside h hq hexec (fun t' _ _ hb _ _ => hb.trans (by rw [h.bcasts]; rfl))

/-! TLBI.PAGE and TLBI.HOLD. -/

variable {hold : Bool}

theorem State.tlbiPage_beyond (hexec : exec i s = .next ((t.tlbiPage d asid va hold).retire n)) (hva : 2 ^ 55 ≤ va) : s.faults i d cBounds := by
  refine State.faults_of (m := n) (f := ⟨cBounds, 0⟩) (va := 0) h hq ?_
  rw [hexec, State.tlbiPage, if_pos]
  simp
  omega

theorem State.tlbiPage_starts (hexec : exec i s = .next ((t.tlbiPage d asid va hold).retire n))
    (hva : va < 2 ^ 55) (hnew : ∀ i ∈ s.invals, ¬ (i.asid = asid ∧ i.page = (s.mem.dirPage asid va).1)) :
    s.waits i (.tlbi d asid false (s.mem.dirPage asid va).1) s.mem (fun t => ∃ x, t.invals = s.invals ++ [x] ∧ x.asid = asid
      ∧ x.page = (s.mem.dirPage asid va).1 ∧ x.hold = hold ∧ (∀ sl ∈ s.mem.dirNames asid x.page, sl ∈ x.left)
      ∧ (hold = true → ∀ sl < 16, (Tbl.get (0 : W32) (s.mem.slice sl).slhm (s.mem.dom asid)).getLsbD sl = true → sl ∈ x.left)) := by
  rw [State.tlbiPage, if_neg (by simp; omega), h.mem, h.invals] at hexec
  generalize s.mem.dirPage asid va = r at hexec hnew ⊢
  obtain ⟨page, size⟩ := r
  dsimp only at hexec hnew ⊢
  rw [if_neg (by simpa using hnew)] at hexec
  have hwaits := State.waits_outside (also := fun t' => t'.invals = _) h hq hexec (fun t' _ _ _ hi _ => hi)
  rw [State.block_mem, h.mem] at hwaits
  refine hwaits.imp fun t' hi => ⟨_, hi, rfl, rfl, rfl, fun sl hsl => ?_, fun hh sl hlt hsl => ?_⟩
  · exact List.mem_append_left _ hsl
  · by_cases hn : sl ∈ s.mem.dirNames asid page
    · exact List.mem_append_left _ hn
    · refine List.mem_append_right _ (List.mem_filter.2 ⟨?_, by simpa using hn⟩)
      rw [if_pos hh]
      exact List.mem_filter.2 ⟨List.mem_range.2 hlt, by rw [bit_toNat]; exact hsl⟩

end

/-! HASHSW. -/

section
variable (hrun : s.mayRun) (hu : s.me.rs a = .ok u)
include hrun hu

/-- A privileged instruction of one clean operand has its own effect after its warnings. -/
theorem State.privileged_operand (w : W32) (k : State → State → State) :
    s.privileged d (fun s => (s.warns w).sinkOps [(s.me.rs a).pl?] (k s)) = .next (k s (s.warns w)) := by
  obtain ⟨ha, hp, -⟩ := hrun
  rw [State.privileged, State.uni_allowed s _ _ _ ha, if_pos hp, hu]
  rfl

theorem State.hashsw_eq (d z : Nat) : exec (.hashsw d a z) s = .next (
    let t := s.warns (ignW (z != 0))
    let dom := u.toNat % 16
    let mask := u.toNat / 65536 % 65536
    let r : W32 := Tbl.get 0 s.mf.slhm dom
    if s.cur.act.isCtl && !s.me.fw && dom != s.mem.dom s.me.asid then (t.statusFault d ⟨cProt, s.cur.word⟩).retire s.mask
    else if mask = 0 || !r.getLsbD 31 then (t.upd (fun c => c.ws d (.ok 2))).retire s.mask
    else if r.getLsbD 16 then (t.upd (fun c => c.ws d (.ok 1))).retire s.mask
    else
      let v := s.setSlhm dom (fun w => w ||| 0x10000)
      ((t.block (.hashsw d dom)).outside v.mem v.mf s.bcasts s.invals (s.switches ++ [(dom, mask)])).retire s.mask) := by
  have hw := s.noted_warns (ignW (z != 0))
  have hfld : fld u.toNat 0 4 = u.toNat % 16 ∧ fld u.toNat 16 16 = u.toNat / 65536 % 65536 := by simp [fld]
  show execHashsw d a z s = _
  rw [execHashsw, State.privileged_operand hrun hu]
  simp only [hu, Val.getD, hfld.1, hfld.2, bit_toNat]
  generalize s.warns (ignW (z != 0)) = t at hw
  have hb := t.block_eq (.hashsw d (u.toNat % 16))
  rw [State.setSlhm_eq (s := s) ((State.block_mem ..).trans hw.mem) (by rw [hb, State.setCtx_mf, hw.mf])]
  congr 3
  simp only [State.outside, hb, State.setCtx_bcasts, State.setCtx_invals, State.setCtx_switches, hw.bcasts, hw.invals, hw.switches]

end

end

end Sys2Proof.Machine
end

section
/-! Completion of every instruction that waits for one event: each held split that the event names is freed and its status reads 0. -/

namespace Sys2Proof.Machine

/-- A fold through an element that turns `P` into `Q` ends in `Q`, when no step loses either. -/
theorem foldl_reaches {α β : Type} {P Q : α → Prop} {f : α → β → α} {l : List β} {x : β} (hP : ∀ a b, P a → P (f a b)) (hQ : ∀ a b, Q a → Q (f a b))
    (hx : ∀ a, P a → Q (f a x)) (hl : x ∈ l) {a : α} (ha : P a) : Q (l.foldl f a) := by
  obtain ⟨l1, l2, rfl⟩ := List.append_of_mem hl
  rw [List.foldl_append, List.foldl_cons]
  exact foldl_keeps Q f l2 hQ _ (hx _ (foldl_keeps P f l1 hP a ha))

/-- No instruction holds the split of a slot, and a status register reads 0. -/
def Ctx.Woken (c : Ctx) (k d : Nat) : Prop := (c.split k).blks = [] ∧ (d % 64 ≠ 0 → c.rs d = .ok 0)

/-- A context after one instruction that held a split has completed with status 0. -/
def Ctx.wakes (c : Ctx) (k : Nat) (b : Blk) : Ctx := (b.dests.foldl (fun c d => c.ws d (.ok 0)) c).freed k b

theorem Ctx.foldl_ws_splits (c : Ctx) (l : List Nat) (v : Val W64) : (l.foldl (fun c d => c.ws d v) c).splits = c.splits :=
  foldl_keeps (fun e : Ctx => e.splits = c.splits) _ l (fun e d h => (Ctx.splits_ws e d v).trans h) c rfl

theorem Ctx.rs_ws_zero {c : Ctx} {d : Nat} (h : c.rs d = .ok 0) (r : Nat) : (c.ws r (.ok 0)).rs d = .ok 0 := by
  have hs : (c.wawU (r % 64)).s = c.s := by
    unfold Ctx.wawU
    split <;> rfl
  unfold Ctx.ws
  split
  · exact h
  · rw [Ctx.rs] at h ⊢
    split
    · rfl
    · next hd =>
      rw [if_neg hd] at h
      dsimp only
      rw [Tbl.get_put, hs, h, ite_self]

theorem Ctx.foldl_ws_zero {c : Ctx} {d : Nat} (h : c.rs d = .ok 0) (l : List Nat) : (l.foldl (fun c d => c.ws d (.ok 0)) c).rs d = .ok 0 :=
  foldl_keeps (fun e : Ctx => e.rs d = .ok 0) _ l (fun _ r he => Ctx.rs_ws_zero he r) c h

theorem Ctx.blks_wakes (c : Ctx) (k j : Nat) (b : Blk) :
    ((c.wakes k b).split j).blks = if j = k then (c.split k).blks.erase b else (c.split j).blks := by
  have hsplit (n : Nat) : (b.dests.foldl (fun c d => c.ws d (.ok 0)) c).split n = c.split n := by
    rw [Ctx.split, Ctx.foldl_ws_splits, Ctx.split]
  rw [Ctx.wakes, Ctx.freed, hsplit]
  by_cases h : j = k
  · rw [h, Ctx.split_setSplit, if_pos rfl, Split.blks_heldBy]
  · rw [if_neg h, ← hsplit j, Ctx.split, Ctx.setSplit, Tbl.get_put_ne _ _ _ h, Ctx.split]

theorem Ctx.rs_wakes (c : Ctx) (k d : Nat) (b : Blk) : (c.wakes k b).rs d = (b.dests.foldl (fun c d => c.ws d (.ok 0)) c).rs d := rfl

theorem Ctx.Woken.wakes {c : Ctx} {k d : Nat} (h : c.Woken k d) (j : Nat) (b : Blk) : (c.wakes j b).Woken k d := by
  obtain ⟨hblks, hrs⟩ := h
  refine ⟨?_, fun hd => (Ctx.rs_wakes c j d b).trans (Ctx.foldl_ws_zero (hrs hd) _)⟩
  rw [Ctx.blks_wakes]
  split
  · next hkj => rw [← hkj, hblks]; rfl
  · exact hblks

/-- The completion of the one instruction that holds a split wakes it. -/
theorem Ctx.wakes_sole {c : Ctx} {k d : Nat} {b : Blk} (h : (c.split k).blks = [b]) (hd : b.dests = [d].filter (fun d => d % 64 != 0)) :
    (c.wakes k b).Woken k d := by
  refine ⟨by rw [Ctx.blks_wakes, if_pos rfl, h, List.erase_cons_head], fun h0 => ?_⟩
  rw [Ctx.rs_wakes, hd, List.filter_cons_of_pos (by simpa using h0)]
  exact Ctx.rs_ws c h0 _

/-- The completion of any instruction leaves another that holds a split alone in place, or wakes it. -/
theorem Ctx.sole_wakes {c : Ctx} {k d : Nat} {b : Blk} (h : (c.split k).blks = [b]) (hd : b.dests = [d].filter (fun d => d % 64 != 0)) (j : Nat) (x : Blk) :
    ((c.wakes j x).split k).blks = [b] ∨ (c.wakes j x).Woken k d := by
  by_cases hjk : k = j
  · subst hjk
    by_cases hx : x = b
    · exact .inr (hx ▸ Ctx.wakes_sole h hd)
    · left
      rw [Ctx.blks_wakes, if_pos rfl, h, List.erase_cons_tail (by simpa using Ne.symm hx), List.erase_nil]
  · left
    rw [Ctx.blks_wakes, if_neg hjk, h]

/-- Every instruction that a test names completes with status 0. -/
def State.wake (s : State) (f : Blk → Bool) : State := (s.blocked f).foldl (fun s e => s.unblock e.1 e.2 (.ok 0)) s

theorem State.blocked_of_all {s : State} {a : Actor} {b : Blk} {f : Blk → Bool} (h : (a, b) ∈ s.blocked (fun _ => true)) (hf : f b = true) :
    (a, b) ∈ s.blocked f := by
  simp only [State.blocked, List.mem_append, List.mem_flatMap, List.mem_ite_nil_right, List.mem_map, List.mem_filter] at h ⊢
  rcases h with (⟨e, he, hon, x, hx, hm, c, ⟨hc, -⟩, heq⟩ | ⟨e, he, hon, x, hx, hm, c, ⟨hc, -⟩, heq⟩) | ⟨e, he, hon, x, hx, hm, c, ⟨hc, -⟩, heq⟩ <;>
    have hfc : f c = true := by rw [show c = b from congrArg Prod.snd heq]; exact hf
  · exact .inl (.inl ⟨e, he, hon, x, hx, hm, c, ⟨hc, hfc⟩, heq⟩)
  · exact .inl (.inr ⟨e, he, hon, x, hx, hm, c, ⟨hc, hfc⟩, heq⟩)
  · exact .inr ⟨e, he, hon, x, hx, hm, c, ⟨hc, hfc⟩, heq⟩

theorem State.waitsAt.blks {s : State} {a : Actor} {b : Blk} (h : s.waitsAt a b) : ((s.ctx a).split a.slot).blks = [b] := by
  obtain ⟨hblk, halso⟩ := h
  rw [State.blkOf] at hblk
  split at hblk
  · rw [Split.blks, hblk, halso]; rfl
  · cases hblk

/-- What waits for an event alone has completed with status 0 after it. -/
theorem State.wake_completed {s : State} {a : Actor} {b : Blk} {d : Nat} {f : Blk → Bool} (h : s.heldAt a b)
    (hd : b.dests = [d].filter (fun d => d % 64 != 0)) (hf : f b = true) : (s.wake f).completed a d (.ok 0) := by
  obtain ⟨hmem, hwait⟩ := h
  have hctx (t : State) (e : Actor × Blk) : (t.unblock e.1 e.2 (.ok 0)).ctx a = t.ctx a ∨
      (t.unblock e.1 e.2 (.ok 0)).ctx a = (t.ctx a).wakes e.1.slot e.2 := by
    rcases State.ctx_setCtx_or t a e.1 ((t.ctx e.1).wakes e.1.slot e.2) with h | ⟨h, heq⟩
    · exact .inl h
    · exact .inr (h.trans (by rw [heq]))
  have hwoken : ((s.wake f).ctx a).Woken a.slot d := by
    refine foldl_reaches (P := fun t : State => ((t.ctx a).split a.slot).blks = [b] ∨ (t.ctx a).Woken a.slot d) (Q := fun t : State => (t.ctx a).Woken a.slot d)
      (fun t e ht => ?_) (fun t e ht => ?_) (fun t ht => ?_) (State.blocked_of_all hmem hf) (.inl hwait.blks)
    · rcases hctx t e with h | h <;> rw [h]
      · exact ht
      · exact ht.elim (fun hb => Ctx.sole_wakes hb hd _ _) (fun hw => .inr (hw.wakes _ _))
    · rcases hctx t e with h | h <;> rw [h]
      · exact ht
      · exact ht.wakes _ _
    · have hsame : (t.unblock a b (.ok 0)).ctx a = (t.ctx a).wakes a.slot b := State.ctx_setCtx ..
      rw [hsame]
      exact ht.elim (fun hb => Ctx.wakes_sole hb hd) (fun hw => hw.wakes _ _)
  obtain ⟨hblks, hrs⟩ := hwoken
  refine ⟨?_, hrs⟩
  rw [State.blkOf]
  cases hblk : (((s.wake f).ctx a).split a.slot).blk with
  | none => exact ite_self _
  | some x => rw [Split.blks, hblk] at hblks; cases hblks

theorem State.wake_outside (s : State) (f : Blk → Bool) : (s.wake f).mem = s.mem ∧ (s.wake f).mf = s.mf ∧ (s.wake f).bcasts = s.bcasts
    ∧ (s.wake f).invals = s.invals ∧ (s.wake f).switches = s.switches :=
  foldl_keeps (fun t : State => t.mem = s.mem ∧ t.mf = s.mf ∧ t.bcasts = s.bcasts ∧ t.invals = s.invals ∧ t.switches = s.switches) _ _
    (fun t e ht => by simpa [State.unblock, State.updCtx] using ht) s ⟨rfl, rfl, rfl, rfl, rfl⟩

theorem State.heldAt.outside {s : State} {a : Actor} {b : Blk} (h : s.heldAt a b) (m : Mem) (mf : Mf) (bc : List Bcast) (iv : List Inval) (sw : List (Nat × Nat)) :
    (s.outside m mf bc iv sw).heldAt a b := by
  obtain ⟨hmem, hwait⟩ := h
  refine ⟨hmem, ?_⟩
  rw [State.waitsAt, State.blkOf, State.ctx_outside]
  exact hwait

end Sys2Proof.Machine
end

section
/-! Events that end translation management: harvests, broadcasts, page invalidations, domain switches (02 R67; 04 R125 to R130, R137). -/

namespace Sys2Proof.Machine

/-! Slices and dies that adopt a generation. -/

/-- A slice that leaves a generation of an ASID keeps no line and no entry of it. -/
theorem Mem.dropGen_spec (m : Mem) (sl asid : Nat) :
    (∀ l ∈ ((m.dropGen sl asid).slice sl).lines, l.asid ≠ asid) ∧ ∀ e ∈ ((m.dropGen sl asid).slice sl).tlb, e.asid ≠ asid := by
  unfold Mem.dropGen
  extract_lets x m1 n m2
  have hm2 : (∀ l ∈ (m2.slice sl).lines, l.asid ≠ asid) ∧ ∀ e ∈ (m2.slice sl).tlb, e.asid ≠ asid := by
    unfold m2
    rw [Mem.slice_updSlice_same]
    simp
  split
  · exact hm2
  · exact hm2

theorem Mem.adopt_slice (m : Mem) {r : Nat} (asid g : Nat) (h : r < 16) : ((m.adopt r asid g).slice r).gen asid = g
    ∧ (∀ l ∈ ((m.adopt r asid g).slice r).lines, l.asid ≠ asid) ∧ ∀ e ∈ ((m.adopt r asid g).slice r).tlb, e.asid ≠ asid := by
  rw [Mem.adopt, if_pos h, Mem.slice_updSlice_same]
  exact ⟨Tbl.get_put_same .., m.dropGen_spec r asid⟩

theorem Mem.adopt_die (m : Mem) {r : Nat} (asid g : Nat) (h : 16 ≤ r) : Tbl.get 0 (Tbl.get [] (m.adopt r asid g).dgen (r - 16)) asid = g
    ∧ ∀ l ∈ Tbl.get [] (m.adopt r asid g).dc (r - 16), l.asid = asid → l.gen = g := by
  rw [Mem.adopt, if_neg (by omega)]
  refine ⟨by simp [Tbl.get_upd], fun l hl ha => ?_⟩
  have hkeep : l ∈ (Tbl.get [] m.dc (r - 16)).filter (fun l => !(l.asid == asid && l.gen != g)) := by simpa [Tbl.get_upd] using hl
  simpa [ha] using (List.mem_filter.1 hkeep).2

section
variable {s : State} {a : Actor} {d asid : Nat}

theorem State.harvestDone_completes (h : s.waitsAt a (.harv d)) : s.event? (.harvestDone a) (fun t => t.completed a d (.ok 0) ∧ t.mem = s.mem) := by
  refine ⟨s.unblock a (.harv d) (.ok 0), ?_, State.unblock_spec h rfl _ s rfl, State.unblock_mem ..⟩
  show execHarvestDone a s = _
  rw [execHarvestDone, h.1]

/-! Generation broadcasts. -/

section
variable {b : Bcast} (hb : s.bcasts = [b]) (ha : b.asid = asid)
include hb ha

theorem State.bcast_found : s.bcasts.find? (fun b => b.asid == asid) = some b := by
  rw [hb]
  exact List.find?_cons_of_pos (by simpa using ha)

theorem State.genBroadcastReceive_adopts {r : Nat} (hr : r ∈ b.left) : s.event? (.genBroadcastReceive asid r) (fun t =>
    t.bcasts = [{ b with left := b.left.filter (· != r) }]
      ∧ (r < 16 → (t.mem.slice r).gen asid = b.gen ∧ (∀ l ∈ (t.mem.slice r).lines, l.asid ≠ asid) ∧ ∀ e ∈ (t.mem.slice r).tlb, e.asid ≠ asid)
      ∧ (16 ≤ r → Tbl.get 0 (Tbl.get [] t.mem.dgen (r - 16)) asid = b.gen ∧ ∀ l ∈ Tbl.get [] t.mem.dc (r - 16), l.asid = asid → l.gen = b.gen)) := by
  refine ⟨{ s with mem := s.mem.adopt r asid b.gen, bcasts := [{ b with left := b.left.filter (· != r) }] }, ?_, rfl,
    Mem.adopt_slice s.mem asid b.gen, Mem.adopt_die s.mem asid b.gen⟩
  show execGenBroadcastReceive asid r s = _
  rw [execGenBroadcastReceive, State.bcast_found hb ha]
  simp [hr, hb]

theorem State.genBroadcastDone_eq : exec (.genBroadcastDone asid) s = .next (if b.left ≠ [] then s
    else (s.outside s.mem s.mf [] s.invals s.switches).wake (fun x => match x with | .tlbi _ i true g => i == asid && g == b.gen | _ => false)) := by
  show execGenBroadcastDone asid s = _
  rw [execGenBroadcastDone, State.bcast_found hb ha]
  dsimp only
  by_cases hl : b.left = []
  · rw [if_neg (by simp [hl]), if_neg (by simp [hl]), hb, List.filter_cons_of_neg (by simp), List.filter_nil]
    rfl
  · rw [if_pos (by simpa using hl), if_pos hl]

theorem State.genBroadcastDone_completes {g : Nat} (hl : b.left = []) (hg : b.gen = g) (hheld : s.heldAt a (.tlbi d asid true g)) :
    s.event? (.genBroadcastDone asid) (fun t => t.bcasts = [] ∧ t.completed a d (.ok 0) ∧ t.mem = s.mem) := by
  refine ⟨_, (State.genBroadcastDone_eq hb ha).trans (by rw [if_neg (by simp [hl])]), ?_⟩
  obtain ⟨hmem, -, hbc, -, -⟩ := State.wake_outside (s.outside s.mem s.mf [] s.invals s.switches)
    (fun x => match x with | .tlbi _ i true g => i == asid && g == b.gen | _ => false)
  exact ⟨hbc, State.wake_completed (hheld.outside ..) rfl (by simp [hg]), hmem⟩

end

theorem State.dropNotice_counts {sl : Nat} (h : sl ∈ s.mem.notices) : s.event? (.dropNotice sl) (fun t =>
    (t.mem.slice sl).gendrop = min 0xFFFFFF ((s.mem.slice sl).gendrop + 1) ∧ t.mem.notices = s.mem.notices.erase sl) := by
  refine ⟨{ s with mem := { (s.mem.updSlice sl (fun x => { x with gendrop := satAdd 0xFFFFFF x.gendrop 1 })) with notices := s.mem.notices.erase sl } },
    ?_, ?_, rfl⟩
  · show execDropNotice sl s = _
    rw [execDropNotice, if_pos (by simpa using h)]
  · exact congrArg Slice.gendrop (Mem.slice_updSlice_same s.mem sl (fun x => { x with gendrop := satAdd 0xFFFFFF x.gendrop 1 }))

/-! Page invalidations. -/

section
variable {i : Inval} {page sl : Nat} (hi : s.invals = [i]) (ha : i.asid = asid) (hp : i.page = page)
include hi ha hp

theorem State.pageInvalidateReceive_eq (hsl : sl ∈ i.left) : ∃ m, exec (.pageInvalidateReceive sl asid page) s = .next (
    if s.bcasts.any (fun b => b.asid == asid) then s
    else if i.hold && 16 ≤ ((s.mem.slice sl).held.filter (fun h => h.sticky && !(h.asid == asid && h.page == page))).length then s
    else { s with
      mem := Mem.updSlice m sl (fun x => { x with held := x.held.filter (fun h => !(h.asid == asid && h.page == page))
        ++ [⟨asid, page, i.size, i.hold || x.held.any (fun h => (h.asid == asid && h.page == page) && h.sticky)⟩] })
      invals := [{ i with left := i.left.filter (· != sl) }] }) := by
  refine ⟨match (s.mem.slice sl).findEnt asid page with | some e => s.mem.evictEnt sl (sl / 4) e | none => s.mem, ?_⟩
  show execPageInvalidateReceive sl asid page s = _
  have hfind : s.invals.find? (fun i => i.asid == asid && i.page == page && i.left.contains sl) = some i := by
    rw [hi]
    exact List.find?_cons_of_pos (by simp [ha, hp, hsl])
  rw [execPageInvalidateReceive, hfind]
  dsimp only
  rw [hi]
  simp only [List.map_cons, List.map_nil, beq_self_eq_true, if_true]
  split
  · rfl
  · split <;> rfl

/-- What a hold of sixteen other pages says (04 R129). -/
theorem State.pageInvalidateReceive_holds (hsl : sl ∈ i.left) (hb : ∀ b ∈ s.bcasts, b.asid ≠ asid)
    (hroom : ¬ (i.hold = true ∧ 16 ≤ ((s.mem.slice sl).held.filter (fun h => h.sticky && !(h.asid == asid && h.page == page))).length)) :
    s.event? (.pageInvalidateReceive sl asid page) (fun t => t.invals = [{ i with left := i.left.filter (· != sl) }]
      ∧ ∃ h ∈ (t.mem.slice sl).held, h.asid = asid ∧ h.page = page ∧ h.size = i.size ∧ (i.hold = true → h.sticky = true)) := by
  obtain ⟨m, hexec⟩ := State.pageInvalidateReceive_eq hi ha hp hsl
  rw [if_neg (by simpa using hb), if_neg (by simpa using hroom)] at hexec
  refine ⟨_, hexec, rfl, ?_⟩
  dsimp only
  rw [Mem.slice_updSlice_same]
  exact ⟨_, List.mem_append_right _ (List.mem_singleton.2 rfl), rfl, rfl, rfl, fun h => by simp [h]⟩

theorem State.pageInvalidateReceive_waits (hsl : sl ∈ i.left) (h : (∃ b ∈ s.bcasts, b.asid = asid)
    ∨ (i.hold = true ∧ 16 ≤ ((s.mem.slice sl).held.filter (fun h => h.sticky && !(h.asid == asid && h.page == page))).length)) :
    exec (.pageInvalidateReceive sl asid page) s = .next s := by
  obtain ⟨m, hexec⟩ := State.pageInvalidateReceive_eq hi ha hp hsl
  rw [hexec]
  by_cases hb : s.bcasts.any (fun b => b.asid == asid) = true
  · rw [if_pos hb]
  · rw [if_neg hb, if_pos]
    rcases h with h | h
    · exact absurd (by simpa using h) hb
    · simpa using h

theorem State.pageInvalidationDone_eq : exec (.pageInvalidationDone asid page) s = .next (if !i.left.isEmpty || s.bcasts.any (fun b => b.asid == asid) then s
    else (s.outside ((List.range Config.slices).foldl (fun (m : Mem) sl => m.updSlice sl (fun x => { x with
        held := x.held.filter (fun h => h.sticky || !(h.asid == asid && h.page == page))
        dir := x.dir.filter (fun d => !(d.asid == asid && d.page == page && d.mask == 0)) })) s.mem) s.mf s.bcasts [] s.switches).wake
      (fun x => match x with | .tlbi _ k false p => k == asid && p == page | _ => false)) := by
  show execPageInvalidationDone asid page s = _
  have hfind : s.invals.find? (fun i => i.asid == asid && i.page == page) = some i := by
    rw [hi]
    exact List.find?_cons_of_pos (by simp [ha, hp])
  rw [execPageInvalidationDone, hfind]
  dsimp only
  split
  · rfl
  · rw [hi, List.filter_cons_of_neg (by simp), List.filter_nil]
    rfl

theorem State.pageInvalidationDone_completes (hl : i.left = []) (hb : ∀ b ∈ s.bcasts, b.asid ≠ asid) (hheld : s.heldAt a (.tlbi d asid false page)) :
    s.event? (.pageInvalidationDone asid page) (fun t => t.invals = [] ∧ t.completed a d (.ok 0)
      ∧ ∀ k < 16, ∀ h ∈ (t.mem.slice k).held, h.asid = asid → h.page = page → h.sticky = true) := by
  refine ⟨_, (State.pageInvalidationDone_eq hi ha hp).trans (by rw [if_neg (by simpa [hl] using hb)]), ?_⟩
  generalize hm : (List.range Config.slices).foldl _ s.mem = m
  obtain ⟨hmem, -, -, hinv, -⟩ := State.wake_outside (s.outside m s.mf s.bcasts [] s.switches)
    (fun x => match x with | .tlbi _ k false p => k == asid && p == page | _ => false)
  refine ⟨hinv, State.wake_completed (hheld.outside ..) rfl (by simp), fun k hk h hh hasid hpage => ?_⟩
  rw [hmem, State.outside, ← hm, Mem.slice_sweep (fun _ x => { x with
    held := x.held.filter (fun h => h.sticky || !(h.asid == asid && h.page == page))
    dir := x.dir.filter (fun d => !(d.asid == asid && d.page == page && d.mask == 0)) }) _ List.nodup_range, if_pos (mem_range_slices hk)] at hh
  simpa [hasid, hpage] using (List.mem_filter.1 hh).2

end

/-! Domain switches. -/

/-- The low 24 bits of an SLHM word with SW clear are its mask. -/
theorem slhmWord_low (en : Bool) (epoch : Nat) {mask : Nat} (h : mask < 65536) : (slhmWord en epoch false mask).toNat % 2 ^ 24 = mask := by
  have hen : b2n en < 2 := by cases en <;> decide
  rw [slhmWord, BitVec.toNat_ofNat, show b2n false = 0 from rfl]
  omega

theorem State.domainSwitchDone_completes {dom mask : Nat} (hs : s.switches = [(dom, mask)]) (hmask : mask < 65536) (hheld : s.heldAt a (.hashsw d dom)) :
    let w : W32 := Tbl.get 0 s.mf.slhm dom
    let set (x : W32) : Prop := x.toNat % 2 ^ 24 = mask
    s.event? (.domainSwitchDone dom) (fun t => t.switches = [] ∧ t.completed a d (.ok 0)
      ∧ Tbl.get 0 t.mf.slhm dom = slhmWord (w.getLsbD 31) (w.toNat / 2 ^ 24 % 16 + 1) false mask
      ∧ (∀ k < 16, set (Tbl.get 0 (t.mem.slice k).slhm dom)) ∧ ∀ k < 4, set (Tbl.get 0 (Tbl.get [] t.mem.dslhm k) dom)) := by
  intro w set
  obtain ⟨m, hexec⟩ : ∃ m, exec (.domainSwitchDone dom) s = .next (((s.outside m s.mf s.bcasts s.invals []).setSlhm dom
      (fun w => slhmWord (bit w.toNat 31) (fld w.toNat 24 4 + 1) false mask)).wake (fun x => match x with | .hashsw _ i => i == dom | _ => false)) := by
    refine ⟨(List.range Config.slices).foldl (fun (m : Mem) sl => if bit (Tbl.get 0 s.mf.slhm dom).toNat sl then m.switchSlice sl dom mask else m) s.mem, ?_⟩
    show execDomainSwitchDone dom s = _
    have hfind : s.switches.find? (fun x => x.1 == dom) = some (dom, mask) := by
      rw [hs]
      exact List.find?_cons_of_pos (by simp)
    rw [execDomainSwitchDone, hfind]
    dsimp only
    rw [hs, List.filter_cons_of_neg (by simp), List.filter_nil]
    rfl
  have hset := State.setSlhm_eq (s := s.outside m s.mf s.bcasts s.invals []) rfl rfl dom (fun w => slhmWord (bit w.toNat 31) (fld w.toNat 24 4 + 1) false mask)
  obtain ⟨hmf, hslices, hdies⟩ := State.setSlhm_spec (s.outside m s.mf s.bcasts s.invals []) dom (fun w => slhmWord (bit w.toNat 31) (fld w.toNat 24 4 + 1) false mask)
  generalize (s.outside m s.mf s.bcasts s.invals []).setSlhm dom _ = v at hexec hset hmf hslices hdies
  obtain ⟨hmem, hmf', -, -, hsw⟩ := State.wake_outside v (fun x => match x with | .hashsw _ i => i == dom | _ => false)
  refine ⟨_, hexec, ?_, State.wake_completed (hset ▸ (hheld.outside ..).outside ..) rfl (by simp), ?_, fun k hk => ?_, fun k hk => ?_⟩
  · rw [hsw, hset]; rfl
  · rw [hmf', hmf, bit_toNat]; rfl
  · rw [hmem]
    exact (congrArg (fun w : W32 => w.toNat % 2 ^ 24) (hslices k hk)).trans (slhmWord_low _ _ hmask)
  · rw [hmem]
    exact (congrArg (fun w : W32 => w.toNat % 2 ^ 24) (hdies k hk)).trans (slhmWord_low _ _ hmask)

end

end Sys2Proof.Machine
end

section
/-! The forms of HARV, TLBI and HASHSW together (11 R357, R362). -/

namespace Sys2Proof.Machine

section
variable {m : Mem} {issuer asid desc : Nat} {clr : Bool}

theorem Mem.harvest_misaligned (h : desc % 16 ≠ 0) : m.harvest issuer asid desc clr = (m, some ⟨cMisalign, 16⟩) := by
  rw [Mem.harvest, if_pos (by simpa using h)]

theorem Mem.harvest_unread (h : desc % 16 = 0) {f : Flt} (hf : m.tblEntry (m.harvSlot issuer asid) desc = .error f) :
    m.harvest issuer asid desc clr = (m, some f) := by
  rw [Mem.harvest, if_neg (by simpa using h)]
  simp only [hf]

theorem Mem.harvest_read (h : desc % 16 = 0) {w : Nat} (hw : m.tblEntry (m.harvSlot issuer asid) desc = .ok w) :
    (m.harvest issuer asid desc clr).2 = none := by
  rw [Mem.harvest, if_neg (by simpa using h)]
  simp only [hw]

end

section
variable (s : State) (d a b f z : Nat)

theorem exec_tlbiGen : exec (.tlbiGen d a b f z) s = s.tlbi d a b z (fun s asid _ => s.tlbiGen d asid) := rfl
theorem exec_tlbiPage : exec (.tlbiPage d a b f z) s = s.tlbi d a b z (fun s asid va => s.tlbiPage d asid va false) := rfl
theorem exec_tlbiHold : exec (.tlbiHold d a b f z) s = s.tlbi d a b z (fun s asid va => s.tlbiPage d asid va true) := rfl
theorem exec_tlbiRel : exec (.tlbiRel d a b f z) s
    = s.tlbi d a b z (fun s asid va => (State.upd { s with mem := s.mem.release129 asid va } (fun c => c.ws d (.ok 0)))) := rfl

end

section
variable {s : State} {a b d : Nat} {u v : W64} (hrun : s.mayRun) (hu : s.me.rs a = .ok u)
include hrun hu

theorem State.tlbiRel_frees (hv : s.me.rs b = .ok v) (h : s.mayName (u.toNat % 65536) = true) (f z : Nat) : ∃ m, s.answers (.tlbiRel d a b f z) d (.ok 0) m
    ∧ ∀ sl < 16, ∀ h ∈ (m.slice sl).held, h.sticky = true → h.asid = u.toNat % 65536 → v.toNat < h.page ∨ h.page + 2 ^ h.size ≤ v.toNat := by
  have hw := s.noted_warns (ignW (z != 0))
  have hexec := State.tlbi_own hrun hu hv (exec_tlbiRel s d a b f z) h
  have hheld (sl : Nat) (hsl : sl < 16) (h : HeldPage) := Mem.release129_held s.mem (u.toNat % 65536) v.toNat sl hsl h
  rw [hw.mem] at hexec
  generalize s.mem.release129 (u.toNat % 65536) v.toNat = m at hexec hheld
  exact ⟨m, State.answers_of (m := s.mask) (u := { s.warns (ignW (z != 0)) with mem := m }) hw.cur (hw.ctx_withMem _) hrun.2.2 hexec, hheld⟩

/-! HASHSW. -/

theorem State.hashsw_foreign (z : Nat) (hctl : s.cur.act.isCtl = true) (hfw : s.me.fw = false) (hdom : u.toNat % 16 ≠ s.mem.dom s.me.asid) :
    s.faults (.hashsw d a z) d cProt := by
  refine State.faults_of (m := s.mask) (f := ⟨cProt, s.cur.word⟩) (va := 0) (s.noted_warns (ignW (z != 0))) hrun.2.2 ?_
  rw [State.hashsw_eq hrun hu]
  dsimp only
  rw [if_pos (by simp [hctl, hfw, hdom])]

section
variable (h : s.cur.act.isCtl = false ∨ s.me.fw = true ∨ u.toNat % 16 = s.mem.dom s.me.asid)
include h

theorem State.hashsw_own (d z : Nat) : exec (.hashsw d a z) s = .next (
    let t := s.warns (ignW (z != 0))
    let dom := u.toNat % 16
    let mask := u.toNat / 65536 % 65536
    let r : W32 := Tbl.get 0 s.mf.slhm dom
    if mask = 0 || !r.getLsbD 31 then (t.upd (fun c => c.ws d (.ok 2))).retire s.mask
    else if r.getLsbD 16 then (t.upd (fun c => c.ws d (.ok 1))).retire s.mask
    else
      let v := s.setSlhm dom (fun w => w ||| 0x10000)
      ((t.block (.hashsw d dom)).outside v.mem v.mf s.bcasts s.invals (s.switches ++ [(dom, mask)])).retire s.mask) := by
  rw [State.hashsw_eq hrun hu]
  dsimp only
  rw [if_neg]
  rcases h with h | h | h <;> simp [h]

theorem State.hashsw_disabled (z : Nat) (hm : u.toNat / 65536 % 65536 = 0 ∨ (Tbl.get (0 : W32) s.mf.slhm (u.toNat % 16)).getLsbD 31 = false) :
    s.answers (.hashsw d a z) d (.ok 2) s.mem := by
  have hw := s.noted_warns (ignW (z != 0))
  refine hw.mem ▸ State.answers_of (m := s.mask) hw.cur hw.me hrun.2.2 ?_
  rw [State.hashsw_own hrun hu h]
  dsimp only
  rw [if_pos (by simpa using hm)]

variable (hm : u.toNat / 65536 % 65536 ≠ 0) (hen : (Tbl.get (0 : W32) s.mf.slhm (u.toNat % 16)).getLsbD 31 = true)
include hm hen

theorem State.hashsw_running (z : Nat) (hsw : (Tbl.get (0 : W32) s.mf.slhm (u.toNat % 16)).getLsbD 16 = true) :
    s.answers (.hashsw d a z) d (.ok 1) s.mem := by
  have hw := s.noted_warns (ignW (z != 0))
  refine hw.mem ▸ State.answers_of (m := s.mask) hw.cur hw.me hrun.2.2 ?_
  rw [State.hashsw_own hrun hu h]
  dsimp only
  rw [if_neg (by rw [hen]; simpa using hm), if_pos hsw]

theorem State.hashsw_starts (z : Nat) (hsw : (Tbl.get (0 : W32) s.mf.slhm (u.toNat % 16)).getLsbD 16 = false) :
    let dom := u.toNat % 16
    let mask := u.toNat / 65536 % 65536
    let r : W32 := Tbl.get 0 s.mf.slhm dom
    ∃ m, s.waits (.hashsw d a z) (.hashsw d dom) m (fun t => t.switches = s.switches ++ [(dom, mask)]
      ∧ (Tbl.get 0 t.mf.slhm dom) = r ||| 0x10000 ∧ (∀ sl < 16, Tbl.get 0 (m.slice sl).slhm dom = Tbl.get 0 (s.mem.slice sl).slhm dom ||| 0x10000)
      ∧ ∀ k < 4, Tbl.get 0 (Tbl.get [] m.dslhm k) dom = Tbl.get 0 (Tbl.get [] s.mem.dslhm k) dom ||| 0x10000) := by
  intro dom mask r
  obtain ⟨hmf, hslices, hdies⟩ := State.setSlhm_spec s dom (fun w => w ||| 0x10000)
  have hexec := State.hashsw_own hrun hu h d z
  dsimp only at hexec
  rw [if_neg (by rw [hen]; simpa using hm), if_neg (by rw [hsw]; simp)] at hexec
  exact ⟨_, State.waits_outside (s.noted_warns (ignW (z != 0))) hrun.2.2 hexec
    (fun t _ hf _ _ hs => ⟨hs, (congrArg (fun f : Mf => Tbl.get 0 f.slhm dom) hf).trans hmf, hslices, hdies⟩)⟩

end

end

end Sys2Proof.Machine
end

section
open Sys2Proof Sys2Proof.Machine

/-- Settles O47: each form where it is issued, then each event; the last acknowledgement wakes what waits for it. -/
theorem translationForms : Obligations.TranslationForms := by
  unfold Obligations.TranslationForms
  refine ⟨fun s d a b f z clr u v hrun hu hv _ => ⟨?_, ?_, ?_, ?_⟩, fun s a d asid g page dom mask r sl => ⟨?_, ?_, ?_, ?_, ?_⟩⟩
  · intro asid desc
    have hmod : desc % 16 = u.toNat % 16 := by omega
    refine ⟨State.harv_foreign hrun hu hv d clr z, fun hname => ⟨fun hal => ?_, fun x hal hx => ?_, fun hal hp hk hs => ?_⟩⟩
    · exact State.harv_fault hrun hu hv d clr z hname (Mem.harvest_misaligned (hmod ▸ hal))
    · exact State.harv_fault hrun hu hv d clr z hname (Mem.harvest_unread (hmod ▸ hal) hx)
    · exact State.harv_starts hrun hu hv d clr z hname (Mem.harvest_read (hmod ▸ hal) (Mem.tblEntry_ok hp hk hs))
  · exact fun hname => ⟨State.tlbi_foreign hrun hu hv (exec_tlbiGen s d a b f z) hname, State.tlbi_foreign hrun hu hv (exec_tlbiPage s d a b f z) hname,
      State.tlbi_foreign hrun hu hv (exec_tlbiHold s d a b f z) hname, State.tlbi_foreign hrun hu hv (exec_tlbiRel s d a b f z) hname⟩
  · intro hname asid at' w g
    have hw := s.noted_warns (ignW (z != 0))
    have hq := hrun.2.2
    have hgen := State.tlbi_own hrun hu hv (exec_tlbiGen s d a b f z) hname
    have hpage := State.tlbi_own hrun hu hv (exec_tlbiPage s d a b f z) hname
    have hhold := State.tlbi_own hrun hu hv (exec_tlbiHold s d a b f z) hname
    refine ⟨fun x hx => State.tlbiGen_fault hq hw hgen hx, State.tlbiGen_raises hq hw hgen, fun hva hnew hold i hi => ?_,
      fun hva => ⟨State.tlbiPage_beyond hq hw hpage hva, State.tlbiPage_beyond hq hw hhold hva⟩, State.tlbiRel_frees hrun hu hv hname f z⟩
    obtain ⟨rfl, rfl⟩ | ⟨rfl, rfl⟩ := hi
    · exact State.tlbiPage_starts hq hw hpage hva hnew
    · exact State.tlbiPage_starts hq hw hhold hva hnew
  · exact ⟨State.hashsw_foreign hrun hu z, fun h => ⟨State.hashsw_disabled hrun hu h z, fun hm hen => State.hashsw_running hrun hu h hm hen z,
      fun hm hen => State.hashsw_starts hrun hu h hm hen z⟩⟩
  · exact State.harvestDone_completes
  · intro b hb ha
    refine ⟨State.genBroadcastReceive_adopts hb ha, State.genBroadcastDone_completes hb ha, fun hl => ?_⟩
    rw [State.genBroadcastDone_eq hb ha, if_pos hl]
  · exact State.dropNotice_counts
  · intro i hi ha hp full
    refine ⟨State.pageInvalidateReceive_holds hi ha hp, State.pageInvalidateReceive_waits hi ha hp,
      State.pageInvalidationDone_completes hi ha hp, fun h => ?_⟩
    rw [State.pageInvalidationDone_eq hi ha hp, if_pos (by simpa [Bool.or_eq_true] using h)]
  · exact State.domainSwitchDone_completes

end

section
/-! Answers to reads and their fills (02 R52, R54, R74; 03 R90; 05 R158). -/

namespace Sys2Proof.Machine

section
variable {s : State} {a : Actor} {o : MemOp} {r : Req} {p : Resp} {x : Acc} {rest : List Acc} (h : s.hasReq a o r) (hk : r.kind = .read) (ht : o.todo = x :: rest)
include h hk ht

/-- A fault in an answer is the result of the access (05 R158). -/
theorem State.respond_fault {f : Flt} (hf : p.fault = some f) :
    let s1 := s.warnOf a (flagIf p.shc wShcRsvd)
    s.respond a r p = (({ s1 with mem := s1.mem.unreserve1 (s1.coreOf a) (fun b => b == a) }).setOp a
      (some ({ o with req := none }.done x (gFault f x.addr)))).memGo memFuel a := by
  have hop : (s.warnOf a (flagIf p.shc wShcRsvd)).opOf a = some o := by rw [State.opOf_warnOf, h.opOf]
  simp [State.respond, hop, hk, ht, hf, State.answerNow]

variable (hst : r.st = .back p) (hh : o.info.hint ≠ 3) (hp : p.peer = false)
include hst hh hp

/-- L1_FILL of an answer whose line has left the L1, or waits for it no more: the request goes again (03 R90). -/
theorem l1Fill_lost {m : Mem} (hf : s.mem.fill1 (s.coreOf a) (s.ctx a).asid (x.addr / 128) (secMask x.addr x.size) a p = (m, false)) :
    exec (.l1Fill a) s = .next ((s.setOp a (some { o with req := none })).memGo memFuel a) := by
  obtain ⟨kind, addr, hint, accs, epoch, gen, sl, st⟩ := r
  cases hk
  cases hst
  show execL1Fill a s = _
  rw [execL1Fill, h.opOf]
  dsimp only
  rw [h.req, ht]
  dsimp only
  rw [if_neg (by simp [hh, hp]), hf]

/-- L1_FILL of an answer whose line waits for it. -/
theorem l1Fill_merges {m1 m2 : Mem} {l : L1Line}
    (hf : s.mem.fill1 (s.coreOf a) (s.ctx a).asid (x.addr / 128) (secMask x.addr x.size) a p = (m1, true))
    (hl : m1.look1 (s.coreOf a) (s.ctx a).asid (x.addr / 128) = (m2, some l)) :
    exec (.l1Fill a) s = .next (let q := State.tryLine { s with mem := m2 } a { o with req := none } x l true
      (q.1.setOp a (some ({ o with req := none }.done x q.2))).memGo memFuel a) := by
  obtain ⟨kind, addr, hint, accs, epoch, gen, sl, st⟩ := r
  cases hk
  cases hst
  show execL1Fill a s = _
  rw [execL1Fill, h.opOf]
  dsimp only
  rw [h.req, ht]
  dsimp only
  rw [if_neg (by simp [hh, hp]), hf]
  dsimp only
  rw [hl]

end

/-! The line that waits for a fill. -/

theorem Mem.fill1_none {m : Mem} {core asid line secs : Nat} {a : Actor} {p : Resp} (h : ∀ l ∈ m.lines1 core, a ∉ l.rsv) :
    m.fill1 core asid line secs a p = (m, false) := by
  have hfind : (m.lines1 core).find? (fun l => l.asid == asid && l.gen == m.coreGen core asid && l.line == line && l.rsv.contains a) = none := by
    rw [List.find?_eq_none]
    intro l hl
    simp [h l hl]
  rw [Mem.fill1, hfind]

/-- A line with the answer merged into it. -/
def L1Line.filled (l : L1Line) (secs : Nat) (a : Actor) (p : Resp) (stamp : Nat) : L1Line :=
  let need := without secs l.valid
  { l with
    data := (List.range 128).foldl (fun t i => if bit need (i / 32) && !bit l.dirty i then Tbl.set 0 t i (Tbl.get 0 p.bytes i) else t) l.data
    valid := l.valid ||| need
    pois := l.pois ||| (p.pois &&& need)
    cls := p.cls
    stamp := stamp
    slot := some p.slot
    rsv := l.rsv.filter (fun b => b != a) }

section
variable {m : Mem} {core asid line secs : Nat} {a : Actor} {p : Resp} {l : L1Line} (h : m.lines1 core = [l]) (ha : l.asid = asid) (hg : l.gen = m.coreGen core asid)
  (hl : l.line = line)
include h ha hg hl

/-- The fill of the only line of an L1. -/
theorem Mem.fill1_sole (hr : a ∈ l.rsv) :
    m.fill1 core asid line secs a p = (m.setLines1 core [l.filled secs a p (m.clsGen core p.cls)], true) := by
  have hfind : (m.lines1 core).find? (fun l => l.asid == asid && l.gen == m.coreGen core asid && l.line == line && l.rsv.contains a) = some l := by
    rw [h]
    exact List.find?_cons_of_pos (by simp [ha, hg, hl, hr])
  rw [Mem.fill1, hfind]
  dsimp only
  rw [Mem.put1, h, List.filter_cons_of_neg (by simp [L1Line.same]), List.filter_nil]
  rfl

/-- A lookup finds the only line of an L1, unless it is stale. -/
theorem Mem.look1_sole (hs : m.stale core l = false) : m.look1 core asid line = (m, some l) := by
  have hold : (m.lines1 core).filter (fun l => l.asid == asid && l.line == line && l.gen != m.coreGen core asid) = [] := by
    rw [h]
    exact List.filter_eq_nil_iff.2 (by simp [hg])
  have hfind : (m.lines1 core).find? (fun l => l.asid == asid && l.gen == m.coreGen core asid && l.line == line) = some l := by
    rw [h]
    exact List.find?_cons_of_pos (by simp [ha, hg, hl])
  unfold Mem.look1
  simp only [hold, List.foldl_nil, hfind, hs, Bool.false_eq_true, if_false]

end

theorem land_add_ldiff (a b : Nat) : (a &&& b) + Nat.ldiff a b = a := by
  induction a using Nat.binaryRec generalizing b with
  | zero =>
    rw [Nat.zero_and, Nat.zero_add]
    exact Nat.eq_of_testBit_eq fun i => by simp [Nat.testBit_ldiff]
  | bit x a ih =>
    obtain ⟨y, c, rfl⟩ : ∃ y c, b = Nat.bit y c := ⟨b.bodd, b.div2, (Nat.bit_bodd_div2 b).symm⟩
    have hc := ih c
    rw [Nat.land_bit, Nat.ldiff_bit]
    cases x <;> cases y <;> simp only [Nat.bit_val] <;> simp <;> omega

theorem testBit_without (a b i : Nat) : (without a b).testBit i = (a.testBit i && !b.testBit i) := by
  have hdiff : without a b = Nat.ldiff a b := by
    have hsum := land_add_ldiff a b
    rw [without]
    omega
  rw [hdiff, Nat.testBit_ldiff]

/-- What a byte reads after those of a range that a test names have been written. -/
theorem get_foldl_if (c : Nat → Bool) (f : Nat → Byte) (old : Tbl Byte) (n b : Nat) :
    Tbl.get 0 ((List.range n).foldl (fun t i => if c i then Tbl.set 0 t i (f i) else t) old) b = if b < n ∧ c b = true then f b else Tbl.get 0 old b := by
  induction n with
  | zero => simp
  | succ n ih =>
    rw [List.range_succ, List.foldl_append, List.foldl_cons, List.foldl_nil]
    by_cases hbn : b = n
    · subst hbn
      split <;> simp_all [Tbl.get_set]
    · have hlt : b < n + 1 ↔ b < n := by omega
      split <;> simp only [Tbl.get_set, if_neg hbn, hlt, ih]

/-- What a byte of a fetched sector reads after the fill: the bytes that the line had stay. -/
theorem L1Line.get_filled (l : L1Line) (secs : Nat) (a : Actor) (p : Resp) (stamp : Nat) {i : Nat} (hi : i < 128) (hs : bit secs (i / 32) = true) :
    Tbl.get 0 (l.filled secs a p stamp).data i = if bit l.dirty i || bit l.valid (i / 32) then Tbl.get 0 l.data i else Tbl.get 0 p.bytes i := by
  rw [L1Line.filled]
  dsimp only
  rw [get_foldl_if (fun i => bit (without secs l.valid) (i / 32) && !bit l.dirty i) (fun i => Tbl.get 0 p.bytes i), bit_eq_testBit, testBit_without,
    ← bit_eq_testBit, ← bit_eq_testBit, hs]
  cases bit l.dirty i <;> cases bit l.valid (i / 32) <;> simp [hi]

theorem L1Line.filled_valid (l : L1Line) (secs : Nat) (a : Actor) (p : Resp) (stamp : Nat) : (l.filled secs a p stamp).valid = l.valid ||| secs := by
  refine Nat.eq_of_testBit_eq fun i => ?_
  rw [L1Line.filled, Nat.testBit_or, testBit_without, Nat.testBit_or]
  cases l.valid.testBit i <;> simp

/-- A load's bytes where the group holds no store: those of the line. -/
theorem overlay_none (t : Tbl Byte) (k n : Nat) : overlay (List.replicate n none) (.num (tblNum t k n)) = .num (tblNum t k n) := by
  by_cases hn : n = 0
  · subst hn; rfl
  · have hlen : ((List.range n).map (fun i => Tbl.get 0 t (k + i))).length = n := by simp
    have hover := overlay_unheld ((List.range n).map (fun i => Tbl.get 0 t (k + i))) (by simpa using hn)
    rwa [hlen] at hover

theorem State.held_empty {s : State} {a : Actor} (h : (s.core (s.coreOf a)).quar = []) (d : Dst) (n : Nat) : s.held a d n = List.replicate n none := by
  rw [State.held]
  split
  · rfl
  · exact Core.heldAt_empty h _ d n

/-- A load of bytes without poison of a line that the L1 keeps, where the group holds no store. -/
theorem State.tryLine_load {s : State} {a : Actor} {o : MemOp} {x : Acc} {l : L1Line} (hk : o.info.kind = .load)
    (hbad : l.bad (x.addr % 128) x.size = false) (hq : (s.core (s.coreOf a)).quar = []) :
    s.tryLine a o x l true = ({ s with mem := s.mem.put1 (s.coreOf a) l }, .num (tblNum l.data (x.addr % 128) x.size)) := by
  unfold State.tryLine
  extract_lets i cn asid off d s1 r
  have hr : r = .num (tblNum l.data off x.size) := if_neg (by simp [off, hbad])
  rw [if_neg (by rw [show i.kind = .load from hk]; decide), State.held_empty hq, hr, overlay_none]
  rfl

/-- L1_FILL completes a load through the only line of an L1, without poison (02 R52, R54, R74). -/
theorem l1Fill_loads {s : State} {a : Actor} {o : MemOp} {r : Req} {p : Resp} {x : Acc} {rest : List Acc} {l : L1Line} (h : s.hasReq a o r) (hk : r.kind = .read)
    (ht : o.todo = x :: rest) (hst : r.st = .back p) (hh : o.info.hint ≠ 3) (hp : p.peer = false) (hload : o.info.kind = .load)
    (hsole : s.mem.lines1 (s.coreOf a) = [l]) (hasid : l.asid = (s.ctx a).asid) (hgen : l.gen = s.mem.coreGen (s.coreOf a) (s.ctx a).asid)
    (hline : l.line = x.addr / 128) (hr : a ∈ l.rsv) (hlp : l.pois = 0) (hpp : p.pois = 0) (hq : (s.core (s.coreOf a)).quar = []) :
    let cn := s.coreOf a
    let o1 : MemOp := { o with req := none }
    ∃ (m : Mem) (l' : L1Line), exec (.l1Fill a) s = .next ((({ s with mem := m }).setOp a (some (o1.done x (.num (tblNum l'.data (x.addr % 128) x.size))))).memGo memFuel a)
      ∧ m.lines1 cn = [l'] ∧ l'.asid = (s.ctx a).asid ∧ l'.line = x.addr / 128 ∧ l'.cls = p.cls ∧ l'.dirty = l.dirty ∧ a ∉ l'.rsv
      ∧ l'.valid = l.valid ||| secMask x.addr x.size
      ∧ ∀ i < 128, bit (secMask x.addr x.size) (i / 32) = true →
        Tbl.get 0 l'.data i = if bit l.dirty i || bit l.valid (i / 32) then Tbl.get 0 l.data i else Tbl.get 0 p.bytes i := by
  intro cn o1
  let stamp := s.mem.clsGen cn p.cls
  let l' := l.filled (secMask x.addr x.size) a p stamp
  let m1 := s.mem.setLines1 cn [l']
  have hfill : s.mem.fill1 cn (s.ctx a).asid (x.addr / 128) (secMask x.addr x.size) a p = (m1, true) := Mem.fill1_sole hsole hasid hgen hline hr
  have hlines : m1.lines1 cn = [l'] := Mem.lines1_setLines1_same ..
  have hstale : m1.stale cn l' = false := by
    have hstamp : l'.stamp = m1.clsGen cn l'.cls := rfl
    simp [Mem.stale, hstamp]
  have hlook : m1.look1 cn (s.ctx a).asid (x.addr / 128) = (m1, some l') := Mem.look1_sole hlines hasid hgen hline hstale
  have hpois : l'.pois = 0 := by
    show l.pois ||| (p.pois &&& _) = 0
    simp [hlp, hpp]
  have htry := State.tryLine_load (s := { s with mem := m1 }) (a := a) (o := o1) (x := x) (l := l') hload (by simp [L1Line.bad, hpois, bit]) hq
  refine ⟨m1.put1 cn l', l', ?_, ?_, hasid, hline, rfl, rfl, by simp [l', L1Line.filled], L1Line.filled_valid .., fun i hi hs => L1Line.get_filled _ _ _ _ _ hi hs⟩
  · rw [l1Fill_merges h hk ht hst hh hp hfill hlook]
    dsimp only
    rw [htry]
    rfl
  · rw [Mem.put1, Mem.lines1_setLines1_same, hlines, List.filter_cons_of_neg (by simp [L1Line.same]), List.filter_nil]
    rfl

end Sys2Proof.Machine
end

section
/-! A store that takes effect in the L1 once its probes have returned (02 R52, R54, R444). -/

namespace Sys2Proof.Machine

/-! A store into an empty L1. -/

section
variable {m : Mem} {core : Nat} (h : m.lines1 core = [])
include h

theorem Mem.look1_empty (asid line : Nat) : m.look1 core asid line = (m, none) := by
  unfold Mem.look1
  simp only [h, List.filter_nil, List.foldl_nil, List.find?_nil]

theorem Mem.room1_empty (line : Nat) : m.room1 core line = (m, .free) := by
  unfold Mem.room1
  simp only [h, List.filter_nil, List.length_nil]
  rfl

/-- The store allocates its line, unclassified and dirty in its bytes (02 R54). -/
theorem Mem.storeG_empty {w : Who} {asid va hint : Nat} (n x : Nat) (hpeer : m.peerVa w.die asid va = false) (hh : hint ≠ 3) :
    (m.storeG w core asid va n x hint).2 = none ∧ ∃ l, (m.storeG w core asid va n x hint).1.lines1 core = [l] ∧ l.asid = asid ∧ l.line = va / 128
      ∧ l.cls = 7 ∧ l.dirty = ones (va % 128) n ∧ ∀ i < n, Tbl.get 0 l.data (va % 128 + i) = BitVec.ofNat 8 (x / 2 ^ (8 * i)) := by
  unfold Mem.storeG
  rw [if_neg (by simp [hpeer, hh])]
  unfold Mem.store1
  simp only [Mem.look1_empty h, Mem.room1_empty h]
  have hput (l : L1Line) : (m.put1 core l).lines1 core = [l] := by
    rw [Mem.put1, Mem.lines1_setLines1_same, h]
    rfl
  refine ⟨trivial, _, hput _, rfl, rfl, rfl, Nat.zero_or _, fun i hi => ?_⟩
  dsimp only
  rw [get_tblPut, if_pos (by omega), Nat.add_sub_cancel_left]

end

/-! A context whose memory instructions alone change. -/

/-- A context with other memory instructions in flight. -/
def Ctx.But (c d : Ctx) : Prop := d = { c with memops := d.memops }

theorem State.ctx_setOp (s : State) (a b : Actor) (o : Option MemOp) : (s.ctx b).But ((s.setOp a o).ctx b) := by
  rcases State.ctx_setCtx_or s b a
    { s.ctx a with memops := match o with | some o => Tbl.put (s.ctx a).memops a.slot o | none => Tbl.del (s.ctx a).memops a.slot } with h | ⟨h, heq⟩
  · exact (congrArg (Ctx.But (s.ctx b)) h).mpr rfl
  · exact (congrArg (Ctx.But (s.ctx b)) h).mpr (by rw [heq]; rfl)

section
variable (s : State) (a : Actor) (o : Option MemOp)

theorem State.ctx_setOp_eq (b : Actor) : (s.setOp a o).ctx b = { s.ctx b with memops := ((s.setOp a o).ctx b).memops } := s.ctx_setOp a b o

theorem State.coreOf_setOp (b : Actor) : (s.setOp a o).coreOf b = s.coreOf b := by
  cases b with
  | thread d n => rw [State.coreOf, State.coreOf, State.ctx_setOp_eq]
  | _ => rfl

theorem State.cores_setOp : (s.setOp a o).cores = s.cores := State.setCtx_cores ..

theorem State.core_setOp (c : Nat) : (s.setOp a o).core c = s.core c := by rw [State.core, State.cores_setOp, State.core]

theorem State.wgOf_setOp (b : Actor) : (s.setOp a o).wgOf b = s.wgOf b := by
  rw [State.wgOf, State.wgOf, State.coreOf_setOp, State.core_setOp, State.ctx_setOp_eq]

theorem State.marker_setOp (b : Actor) : (s.setOp a o).marker b = s.marker b := by cases b <;> simp only [State.marker, State.wgOf_setOp]

theorem State.rgnAt_setOp (b : Actor) (l : Nat) : (s.setOp a o).rgnAt b l = s.rgnAt b l := by
  have hlane : (s.setOp a o).laneActor b l = s.laneActor b l := by
    rw [State.laneActor, State.laneActor, State.ctx_setOp_eq]
    rfl
  rw [State.rgnAt, State.rgnAt, hlane, State.ctx_setOp_eq]
  rfl

theorem State.who_setOp (b : Actor) : (s.setOp a o).who b = s.who b := by
  cases b <;> simp only [State.who, State.coreOf_setOp] <;> rw [State.ctx_setOp_eq] <;> rfl

end

theorem State.asid_setOp (s : State) (a : Actor) (o : Option MemOp) (b : Actor) : ((s.setOp a o).ctx b).asid = (s.ctx b).asid := by
  rw [State.ctx_setOp_eq]

/-- What is first stays first when its own state changes. -/
theorem State.first_setOp {s : State} {a : Actor} {o p : MemOp} (h : (s.ctx a).first o = true) (hord : p.ord = o.ord) (hins : p.ins = o.ins) :
    ((s.setOp a (some p)).ctx a).first p = true := by
  have hpack : p.toPack = o.toPack := by rw [MemOp.toPack, MemOp.info, hins]; rfl
  have hmem : ((s.setOp a (some p)).ctx a).memops = Tbl.put (s.ctx a).memops a.slot p := by rw [State.setOp, State.updCtx, State.ctx_setCtx]
  rw [Ctx.first, hmem, List.all_eq_true, hord, hpack]
  intro e he
  rw [Tbl.put, Tbl.mem_ins, Tbl.del_eq_filter] at he
  rcases he with rfl | he
  · simp [hord]
  · exact List.all_eq_true.1 h e (List.mem_filter.1 he).1

/-! An operation with one access. -/

/-- An operation whose one access is done where its context has it completes with the result. -/
theorem State.memGo_one {s s1 : State} {a : Actor} {o : MemOp} {x : Acc} {r : Res} (fuel : Nat) (ho : s.opOf a = some o) (hmesh : o.mesh = false)
    (hr : o.remote = false) (hreq : o.req = none) (hprobes : o.probes = []) (hprobed : o.probed = true) (htodo : o.todo = [x])
    (hfirst : (s.ctx a).first o = true) (hacc : s.tryAcc a o x = (s1, .done r)) :
    s.memGo (fuel + 2) a = (s1.setOp a (some (o.done x r))).memFinish a (o.done x r) := by
  have hdone : (o.done x r).todo = [] := by simp [MemOp.done, htodo]
  have hlast : (s1.setOp a (some (o.done x r))).memGo (fuel + 1) a = (s1.setOp a (some (o.done x r))).memFinish a (o.done x r) := by
    have hm : (o.done x r).mesh = false := hmesh
    have hrem : (o.done x r).remote = false := hr
    have hq : (o.done x r).req = none := hreq
    have hps : (o.done x r).probes = [] := hprobes
    have hpd : (o.done x r).probed = true := hprobed
    rw [State.memGo, State.opOf_setOp]
    simp only [hm, hrem, hq, hps, hpd, hdone, Option.isSome_none, Bool.or_self, Bool.false_eq_true, if_false, Bool.not_true]
  rw [State.memGo, ho]
  simp only [hmesh, hr, hreq, hprobes, hprobed, htodo, hfirst, hacc, hlast, Option.isSome_none, Bool.or_self, Bool.false_eq_true, if_false, Bool.not_true]

/-- A clean store into an empty L1, outside open regions, is performed. -/
theorem State.tryAcc_store {s : State} {a : Actor} {o : MemOp} {x : Acc} (hk : o.info.kind = .store) (hsp : o.info.space = none) (hpeers : o.peers = [])
    (hbad : x.bad = none) (hopn : ∀ l, (s.rgnAt (s.marker a) l).opn = false) (hlines : s.mem.lines1 (s.coreOf a) = []) :
    s.tryAcc a o x = (s.perform (s.marker a) (s.homeSlot (s.marker a)) ⟨0, (s.ctx a).asid, x.addr⟩ x.size x.data o.info.hint, .done (.num 0)) := by
  have hnow : s.storesNow a o x = true := by simp [State.storesNow, hbad, hopn]
  have hstore : s.doStore a o x ⟨0, (s.ctx a).asid, x.addr⟩ o.info.hint
      = (s.perform (s.marker a) (s.homeSlot (s.marker a)) ⟨0, (s.ctx a).asid, x.addr⟩ x.size x.data o.info.hint, .num 0) := by
    have hkept (ls : List Nat) : maskOf (ls.filter (fun l => (s.rgnAt (s.marker a) l).opn && (s.rgnAt (s.marker a) l).kind)) = 0 := by
      simp [hopn]
      rfl
    simp only [State.doStore, hbad, hkept, bne_self_eq_false, Bool.false_eq_true, if_false]
  have hlook : (if (true && o.info.hint != 3) = true then s.mem.look1 (s.coreOf a) (s.ctx a).asid (x.addr / 128) else (s.mem, none)) = (s.mem, none) := by
    split
    · exact Mem.look1_empty hlines ..
    · rfl
  have hroom (b : Bool) : (if b = true then s.mem.room1 (s.coreOf a) (x.addr / 128) else (s.mem, .free)) = (s.mem, .free) := by
    cases b
    · rfl
    · exact Mem.room1_empty hlines _
  unfold State.tryAcc
  simp only [hsp, hk, hnow, hpeers, hlook, hroom, hstore]
  simp

/-- A store whose results are no faults completes without a trace. -/
theorem State.memFinish_clean {s : State} {a : Actor} {o : MemOp} (hk : o.info.kind = .store) (hres : ∀ k r, Tbl.find o.res k = some r → ∃ v, r = .num v) :
    s.memFinish a o = (s.setOp a none).updCtx a Ctx.settle := by
  have hfaults (lead : Option Nat) (ls : List Nat) : faultsOf lead (ls.filterMap (fun l => (Tbl.find o.res (l * 8)).map (fun r => (l, r)))) = [] := by
    refine List.filterMap_eq_nil_iff.2 (fun e he => ?_)
    obtain ⟨l, -, hl⟩ := List.mem_filterMap.1 he
    obtain ⟨r, hr, rfl⟩ := Option.map_eq_some_iff.1 hl
    obtain ⟨v, rfl⟩ := hres _ _ hr
    rfl
  simp [State.memFinish, hk, hfaults, State.markOp]

theorem Ctx.writeHeld_memops (c : Ctx) (h : Held) : (c.writeHeld h).memops = c.memops := by
  unfold Ctx.writeHeld
  split
  · rfl
  · refine foldl_keeps (fun d : Ctx => d.memops = c.memops) _ _ (fun d e hd => foldl_keeps (fun d : Ctx => d.memops = c.memops) _ _ (fun d rv hd => ?_) d hd) c rfl
    dsimp only
    split
    · exact hd
    · split
      · split <;> exact hd
      · exact hd

theorem Ctx.settle_memops (c : Ctx) : c.settle.memops = c.memops :=
  foldl_keeps (fun d : Ctx => d.memops = c.memops) _ _ (fun d h hd => by
    dsimp only
    split
    · exact (Ctx.writeHeld_memops d h.2).trans hd
    · exact hd) c rfl

/-- An instruction that has completed is in flight no more. -/
theorem State.opOf_settled (s : State) (a : Actor) : ((s.setOp a none).updCtx a Ctx.settle).opOf a = none := by
  rw [State.opOf, State.updCtx, State.ctx_setCtx, Ctx.settle_memops, State.setOp, State.updCtx, State.ctx_setCtx]
  exact Tbl.find_del_same ..

/-- PROBE_RETURN of a store of one access into an empty L1 (02 R444). -/
theorem probeReturn_stores {s : State} {a : Actor} {o : MemOp} {x : Acc} (ho : s.opOf a = some o) (hreq : o.req = none) (hmesh : o.mesh = false)
    (hprobed : o.probed = false) (hprobes : o.probes = []) (hfirst : (s.ctx a).first o = true) (hk : o.info.kind = .store) (hsp : o.info.space = none)
    (hr : o.remote = false) (hpeers : o.peers = []) (htodo : o.todo = [x]) (hbad : x.bad = none) (hres : o.res = [])
    (hopn : ∀ l, (s.rgnAt (s.marker a) l).opn = false) (hlines : s.mem.lines1 (s.coreOf a) = []) :
    let g := s.marker a
    s.event? (.probeReturn a) (fun t => t.opOf a = none
      ∧ t.mem = (s.mem.storeG (s.who g) (s.coreOf g) (s.ctx a).asid x.addr x.size x.data o.info.hint).1) := by
  intro g
  let o' : MemOp := { o with probed := true }
  let s0 := s.setOp a (some o')
  have hacc := State.tryAcc_store (s := s0) (a := a) (o := o') hk hsp hpeers hbad
    (fun l => by rw [State.marker_setOp, State.rgnAt_setOp]; exact hopn l) (by rw [State.coreOf_setOp, State.setOp_mem]; exact hlines)
  have hgo := State.memGo_one (s := s0) (o := o') 198 (State.opOf_setOp ..) hmesh hr hreq hprobes rfl htodo (State.first_setOp hfirst rfl rfl) hacc
  have hclean (k : Nat) (r : Res) (hr : Tbl.find (o'.done x (.num 0)).res k = some r) : ∃ v, r = .num v := by
    rw [MemOp.done, hres, Tbl.put_nil, Tbl.find] at hr
    split at hr
    · exact ⟨0, (Option.some.inj hr).symm⟩
    · cases hr
  rw [State.memFinish_clean (o := o'.done x (.num 0)) hk hclean] at hgo
  have hexec : exec (.probeReturn a) s = .next (s0.memGo (198 + 2) a) := by
    show execProbeReturn a s = _
    rw [execProbeReturn, ho]
    dsimp only
    rw [if_pos (by simp [hprobes, hreq, hprobed, hmesh])]
    rfl
  rw [hgo] at hexec
  refine ⟨_, hexec, State.opOf_settled _ a, ?_⟩
  · have hcore (c : Nat) (y : Core) : (s0.setCore c y).coreOf g = s.coreOf g := by
      rw [← State.coreOf_setOp s a (some o') g]
      show (s0.setCore c y).coreOf g = s0.coreOf g
      cases g <;> rfl
    have hwho (c : Nat) (y : Core) : (s0.setCore c y).who g = s.who g := by
      rw [← State.who_setOp s a (some o') g]
      show (s0.setCore c y).who g = s0.who g
      cases g <;> rfl
    simp only [State.updCtx_mem, State.setOp_mem, State.perform, State.place, if_true]
    rw [State.marker_setOp, hcore, hwho, State.asid_setOp]
    exact congrArg (fun m : Mem => (m.storeG _ _ _ _ _ _ _).1) (State.setOp_mem s a (some o'))

end Sys2Proof.Machine
end

section
/-! Write-backs of an L1: room in a full set, the dirty bytes at the home slice, a refused line (02 R51, R52, R76, R89). -/

namespace Sys2Proof.Machine

/-! Room in a set. -/

/-- The lines of an L1 that share the set of a line. -/
def Mem.set1Of (m : Mem) (core line : Nat) : List L1Line := (m.lines1 core).filter (fun l => l.line % 256 == line % 256)

/-- What making room does with one line of the set. -/
def Mem.roomStep (core line : Nat) (m : Mem) (v : L1Line) : Mem :=
  if (m.set1Of core line).length < 12 || v.refused || !v.rsv.isEmpty then m
  else match m.writeBack1 core v with
    | (m1, none) => m1.drop1 core v
    | (m1, some _) => m1.set1 core { v with refused := true }

theorem Mem.room1_mem (m : Mem) (core line : Nat) : (m.room1 core line).1
    = if (m.set1Of core line).length < 12 then m else (m.set1Of core line).foldl (Mem.roomStep core line) m := by
  unfold Mem.room1
  extract_lets set m1
  rw [apply_ite Prod.fst]
  rfl

section
variable {m m1 : Mem} {core line : Nat} {v : L1Line} {rest : List L1Line}

theorem Mem.roomStep_skips (h : (m.set1Of core line).length < 12 ∨ v.refused = true ∨ v.rsv ≠ []) : Mem.roomStep core line m v = m := by
  rw [Mem.roomStep, if_pos]
  rcases h with h | h | h <;> simp [h]

theorem Mem.foldl_roomStep_skips (ls : List L1Line) (h : ∀ v ∈ ls, (m.set1Of core line).length < 12 ∨ v.refused = true ∨ v.rsv ≠ []) :
    ls.foldl (Mem.roomStep core line) m = m := by
  induction ls with
  | nil => rfl
  | cons v ls ih => rw [List.foldl_cons, Mem.roomStep_skips (h v List.mem_cons_self), ih (fun w hw => h w (List.mem_cons_of_mem v hw))]

theorem Mem.room1_stays (h : (m.set1Of core line).length < 12 ∨ ∀ v ∈ m.set1Of core line, v.refused = true ∨ v.rsv ≠ []) : (m.room1 core line).1 = m := by
  rw [Mem.room1_mem]
  split
  · rfl
  · next hfull => exact Mem.foldl_roomStep_skips _ (fun v hv => .inr (h.resolve_left hfull v hv))

/-- A line that leaves a full set makes room there. -/
theorem Mem.set1Of_drop1 (hlines : m1.lines1 core = m.lines1 core) (hset : m.set1Of core line = v :: rest) (hlen : (m.set1Of core line).length = 12) :
    ((m1.drop1 core v).set1Of core line).length < 12 := by
  have hdrop : (m1.drop1 core v).set1Of core line = (m.set1Of core line).filter (fun k => !v.same k) := by
    rw [Mem.set1Of, Mem.drop1, Mem.lines1_setLines1_same, hlines, List.filter_comm]
    rfl
  rw [hdrop, ← hlen]
  exact List.length_filter_lt_length_iff_exists.2 ⟨v, by rw [hset]; exact List.mem_cons_self, by simp [L1Line.same]⟩

variable (hset : m.set1Of core line = v :: rest) (hlen : (m.set1Of core line).length = 12) (hr : v.refused = false) (hrsv : v.rsv = [])
  (hlines : m1.lines1 core = m.lines1 core)
include hset hlen hr hrsv hlines

theorem Mem.room1_drops (hw : m.writeBack1 core v = (m1, none)) : (m.room1 core line).1 = m1.drop1 core v := by
  rw [Mem.room1_mem, if_neg (by omega), hset, List.foldl_cons]
  have hstep : Mem.roomStep core line m v = m1.drop1 core v := by
    rw [Mem.roomStep, if_neg (by simp [hlen, hr, hrsv]), hw]
  rw [hstep]
  exact Mem.foldl_roomStep_skips _ (fun _ _ => .inl (Mem.set1Of_drop1 hlines hset hlen))

omit hlines in
theorem Mem.room1_refused {sl : Nat} (hw : m.writeBack1 core v = (m1, some sl)) (hrest : ∀ w ∈ rest, w.refused = true ∨ w.rsv ≠ []) :
    (m.room1 core line).1 = m1.set1 core { v with refused := true } := by
  rw [Mem.room1_mem, if_neg (by omega), hset, List.foldl_cons]
  have hstep : Mem.roomStep core line m v = m1.set1 core { v with refused := true } := by
    rw [Mem.roomStep, if_neg (by simp [hlen, hr, hrsv]), hw]
  rw [hstep]
  exact Mem.foldl_roomStep_skips _ (fun w hw => .inr (hrest w hw))

end

/-- WRITE_BACK, by the state of the set (02 R51, R52, R76). -/
theorem writeBack_spec (s : State) (core n : Nat) : let set := (s.mem.lines1 core).filter (fun l => l.line % 256 == n % 256)
    (set.length < 12 → exec (.writeBack core n) s = .next s)
    ∧ ((∀ v ∈ set, v.refused = true ∨ v.rsv ≠ []) → exec (.writeBack core n) s = .next s)
    ∧ (∀ v rest, set = v :: rest → set.length = 12 → v.refused = false → v.rsv = [] →
      (v.dirty = 0 → exec (.writeBack core n) s = .next { s with mem := s.mem.drop1 core v })
      ∧ match s.mem.writeBack1 core v with
        | (m, none) => m.lines1 core = s.mem.lines1 core → exec (.writeBack core n) s = .next { s with mem := m.drop1 core v }
        | (m, some _) => m.lines1 core = s.mem.lines1 core → (∀ w ∈ rest, w.refused = true ∨ w.rsv ≠ []) →
          exec (.writeBack core n) s = .next { s with mem := m.set1 core { v with refused := true } }) := by
  intro set
  have hexec {m : Mem} (h : (s.mem.room1 core n).1 = m) : exec (.writeBack core n) s = .next { s with mem := m } := by rw [← h]; rfl
  refine ⟨fun h => hexec (Mem.room1_stays (.inl h)), fun h => hexec (Mem.room1_stays (.inr h)), fun v rest hset hlen hr hrsv => ⟨fun hd => ?_, ?_⟩⟩
  · exact hexec (Mem.room1_drops hset hlen hr hrsv rfl (by rw [Mem.writeBack1, if_pos hd]))
  · split
    · next m hw => exact fun hl => hexec (Mem.room1_drops hset hlen hr hrsv hl hw)
    · next m sl hw => exact fun _ hrest => hexec (Mem.room1_refused hset hlen hr hrsv hw hrest)

/-- A write-back at its home slice (02 R52, R76, R88). -/
theorem Mem.writeBack1_home {m : Mem} {core sl : Nat} {l : L1Line} (hd : l.dirty ≠ 0) (hh : m.hash (core / 64) l.asid (l.line * 128) = .ok sl)
    (hg : l.gen = m.coreGen core l.asid) :
    match m.translate sl l.asid (l.line * 128) 2 ⟨some core, core / 64, true, false⟩ false false with
    | (m1, .error _) => (m.writeBack1 core l).2 = none ∧ (m.writeBack1 core l).1.slices = m1.slices
    | (m1, .ok t) => (m1.refuses sl t.loc = true → (m.writeBack1 core l).2 = some sl)
      ∧ (m1.refuses sl t.loc = false → m.writeBack1 core l
          = (({ m1 with shc := m.shc }).merge sl (core / 64) l.asid l.line t l.hint l.data l.dirty l.pois, none)) := by
  rw [Mem.writeBack1, if_neg hd, hh]
  dsimp only
  rw [if_neg (by simp [hg])]
  generalize m.translate sl l.asid (l.line * 128) 2 ⟨some core, core / 64, true, false⟩ false false = r
  obtain ⟨m1, t | t⟩ := r
  · exact ⟨rfl, rfl⟩
  · dsimp only
    exact ⟨fun h => by rw [if_pos h], fun h => by rw [if_neg (by simp [h])]⟩

/-- Written bytes on a hit stand in the line over those that it had, dirty where the page has a memory of its own. -/
theorem Mem.merge_hit {m : Mem} {sl asid line : Nat} {l : SLine} {t : Tr} (die hint : Nat) (data : Tbl Byte) (mask pois : Nat)
    (h : (m.slice sl).findLine asid line = some l) (hnear : t.loc.isFar = false) :
    ∃ l', ((m.merge sl die asid line t hint data mask pois).slice sl).findLine asid line = some l'
      ∧ l'.dirty = l.dirty ||| mask ∧ ∀ i < 128, Tbl.get 0 l'.data i = if bit mask i then Tbl.get 0 data i else Tbl.get 0 l.data i := by
  obtain ⟨ha, hg, hl⟩ := Slice.findLine_tag h
  rw [Mem.merge]
  simp only [h, hnear, Bool.false_eq_true, if_false]
  refine ⟨_, Mem.findLine_lineUse m sl hint asid line _ ha hg hl, ?_, fun i hi => ?_⟩
  · split <;> rfl
  · rw [← get_overBytes mask data l.data hi]
    split <;> rfl

end Sys2Proof.Machine
end

section
/-! Write-backs leave the translations of every slice in place: entries change what they count and note, not what they translate (02 R63; 04 R118,
R132). -/

namespace Sys2Proof.Machine

/-! What HBM and compressed blocks take leaves the slices as they are. -/

theorem Mem.slices_putSec (m : Mem) (slot sn : Nat) (bs : List (Nat × Byte)) (poi : Bool) : (m.putSec slot sn bs poi).slices = m.slices := by
  unfold Mem.putSec
  dsimp only
  split <;> rfl

theorem Mem.slices_putNum (m : Mem) (slot pa n x : Nat) : (m.putNum slot pa n x).slices = m.slices := Mem.slices_putSec ..

theorem Mem.slices_scrub (m : Mem) (sn : Nat) : (m.scrub sn).slices = m.slices := by
  unfold Mem.scrub
  dsimp only
  split <;> rfl

theorem Mem.slices_scrubBlk (m : Mem) (k : Nat) : (m.scrubBlk k).slices = m.slices := by
  unfold Mem.scrubBlk
  dsimp only
  split
  · exact Mem.slices_scrub m _
  · next sn _ _ => exact (Mem.slices_scrub (m.scrub _) sn).trans (Mem.slices_scrub m _)

theorem Mem.slices_blkPut (m : Mem) (slot k off : Nat) (bs : List (Nat × Byte)) (poi : Bool) : (m.blkPut slot k off bs poi).slices = m.slices := by
  have hwith (n : Mem) (a : Tbl Sec) (b : Tbl (Tbl Byte)) (c : Tbl (Tbl Sec)) : Mem.slices { n with sec := a, blocks := b, bsec := c } = n.slices := rfl
  have hblk (n : Mem) (b : Tbl (Tbl Byte)) (c : Tbl (Tbl Sec)) : Mem.slices { n with blocks := b, bsec := c } = n.slices := rfl
  unfold Mem.blkPut
  rw [hwith]
  split
  · rw [hblk, Mem.slices_putNum]
  · rfl

theorem Mem.slices_locPut (m : Mem) (slot : Nat) (l : Loc) (bs : List (Nat × Byte)) (poi : Bool) : (m.locPut slot l bs poi).slices = m.slices := by
  cases l with
  | hbm pa => exact Mem.slices_putSec ..
  | blk k off => exact (Mem.slices_blkPut ..).trans (Mem.slices_scrubBlk m k)
  | far k a => rfl

theorem Mem.slices_lineStore (m : Mem) (slot : Nat) (loc : Loc) (d : Tbl Byte) (mask pois : Nat) : (m.lineStore slot loc d mask pois).slices = m.slices :=
  foldl_keeps (fun n : Mem => n.slices = m.slices) _ _ (fun n s hn => by
    dsimp only
    split
    · exact hn
    · exact (Mem.slices_locPut ..).trans hn) m rfl

theorem Mem.slices_lineIn (m : Mem) (slot : Nat) (loc : Loc) (secs : Nat) : (m.lineIn slot loc secs).1.slices = m.slices := by
  unfold Mem.lineIn
  split
  · rfl
  · rfl
  · cases loc with
    | hbm a =>
      refine foldl_keeps (fun n : Mem => n.slices = m.slices) (fun (m : Mem) s => if bit secs s then m.scrub (a / 32 + s) else m) _ (fun n s hn => ?_) m rfl
      split
      · exact (Mem.slices_scrub ..).trans hn
      · exact hn
    | blk k o => exact Mem.slices_scrubBlk m k
    | far k a => rfl

/-! The translations of a slice. -/

/-- What the entries of a slice translate, with the generations that make them current. -/
def Slice.ents (x : Slice) : Tbl Nat × List (Nat × Nat × Leaf) := (x.gens, x.tlb.map (fun e => (e.asid, e.gen, e.leaf)))

theorem Slice.ents_spill (x : Slice) (l : List SpillLine) (n : Nat) : Slice.ents { x with spill := l, spills := n } = x.ents := rfl

/-- What the entries of all slices translate. -/
def Mem.ents (m : Mem) (i : Nat) : Tbl Nat × List (Nat × Nat × Leaf) := (m.slice i).ents

theorem Mem.ents_of_slices {m n : Mem} (h : n.slices = m.slices) : n.ents = m.ents := by
  funext i
  rw [Mem.ents, Mem.slice, h]
  rfl

theorem Mem.ents_setSlice {m : Mem} {i : Nat} {x : Slice} (h : x.ents = (m.slice i).ents) : (m.setSlice i x).ents = m.ents := by
  funext k
  rw [Mem.ents, Mem.slice_setSlice]
  split
  · next hk => rw [h, hk]; rfl
  · rfl

theorem Mem.ents_updSlice (m : Mem) (i : Nat) {f : Slice → Slice} (h : ∀ x, (f x).ents = x.ents) : (m.updSlice i f).ents = m.ents := Mem.ents_setSlice (h _)

theorem Mem.ents_setLines1 (m : Mem) (c : Nat) (ls : List L1Line) : (m.setLines1 c ls).ents = m.ents := rfl

theorem Mem.ents_foldl {β : Type} (f : Mem → β → Mem) (l : List β) (hf : ∀ m b, (f m b).ents = m.ents) (m : Mem) : (l.foldl f m).ents = m.ents :=
  foldl_keeps (fun n : Mem => n.ents = m.ents) f l (fun n b hn => (hf n b).trans hn) m rfl

theorem Slice.ents_updEnt (x : Slice) (asid va : Nat) {f : TEnt → TEnt} (hf : ∀ e, (f e).asid = e.asid ∧ (f e).gen = e.gen ∧ (f e).leaf = e.leaf) :
    (x.updEnt asid va f).ents = x.ents := by
  refine Prod.ext rfl ?_
  show List.map _ (List.map _ x.tlb) = List.map _ x.tlb
  rw [List.map_map]
  refine List.map_congr_left (fun e _ => ?_)
  obtain ⟨ha, hg, hl⟩ := hf e
  dsimp only [Function.comp]
  split
  · rw [ha, hg, hl]
  · rfl

/-- An entry that translates an address is found as long as what the entries translate stays. -/
theorem Slice.findEnt_of_ents {x y : Slice} (h : y.ents = x.ents) {asid va : Nat} {e : TEnt} (he : x.findEnt asid va = some e) :
    ∃ e', y.findEnt asid va = some e' := by
  have hfind (z : Slice) : (z.findEnt asid va).map (fun e => (e.asid, e.gen, e.leaf))
      = z.ents.2.find? (fun e => e.1 == asid && e.2.1 == Tbl.get 0 z.ents.1 asid && e.2.2.covers va) := by
    rw [Slice.ents, List.find?_map]
    rfl
  have hsome := hfind y
  rw [h, ← hfind x, he] at hsome
  obtain ⟨e', he', -⟩ := Option.map_eq_some_iff.1 hsome
  exact ⟨e', he'⟩

/-! Lines that come and go. -/

theorem Mem.ents_lineStore (m : Mem) (slot : Nat) (loc : Loc) (d : Tbl Byte) (mask pois : Nat) : (m.lineStore slot loc d mask pois).ents = m.ents :=
  Mem.ents_of_slices (Mem.slices_lineStore ..)

theorem Mem.ents_setSpl (m : Mem) (k : Nat) (on : Bool) : (m.setSpl k on).ents = m.ents := Mem.ents_of_slices (Mem.slices_putSec ..)

theorem Mem.ents_event (m : Mem) (die : Nat) (r : BitVec 128) : (m.event die r).ents = m.ents := rfl

theorem Mem.ents_unpin (m : Mem) (k : Nat) : (m.unpin k).ents = m.ents := by
  refine Mem.ents_foldl _ _ (fun m i => ?_) m
  dsimp only
  generalize hn : ((m.slice i).spill.filter (fun p => blkKey p.stack p.crec p.blk == k)).foldl _ m = n
  have hfold : n.ents = m.ents := by
    rw [← hn]
    exact Mem.ents_foldl _ _ (fun m p => Mem.ents_lineStore ..) m
  refine (Mem.ents_setSlice ?_).trans hfold
  exact (congrFun hfold i).symm

theorem Mem.ents_lineOut (m : Mem) (sl die : Nat) (l : SLine) : (m.lineOut sl die l).ents = m.ents := by
  unfold Mem.lineOut
  split
  · dsimp only
    split
    · rw [Mem.ents_setSpl, Mem.ents_lineStore, Mem.ents_unpin]
      rfl
    · rw [Mem.ents_event, Mem.ents_setSpl, Mem.ents_setSlice (Slice.ents_spill ..), Mem.ents_foldl]
      · rfl
      · exact fun m i => Mem.ents_updSlice m i (fun x => Slice.ents_spill x _ x.spills)
  · exact Mem.ents_lineStore ..

theorem Mem.ents_lineDrop (m : Mem) (sl die : Nat) (l : SLine) (w : Bool) : (m.lineDrop sl die l w).ents = m.ents := by
  unfold Mem.lineDrop
  dsimp only
  rw [Mem.ents_updSlice]
  case h => exact fun x => rfl
  split
  · exact Mem.ents_lineOut ..
  · rfl

theorem Mem.ents_lineInsert (m : Mem) (sl die : Nat) (l : SLine) : (m.lineInsert sl die l).ents = m.ents := by
  unfold Mem.lineInsert
  dsimp only
  rw [Mem.ents_updSlice]
  case h => exact fun x => rfl
  split
  · exact Mem.ents_lineDrop ..
  · rfl

theorem Mem.ents_merge (m : Mem) (sl die asid line : Nat) (t : Tr) (hint : Nat) (d : Tbl Byte) (mask pois : Nat) :
    (m.merge sl die asid line t hint d mask pois).ents = m.ents := by
  have send (n : Mem) (hn : n.ents = m.ents) : (if t.loc.isFar = true then n.lineStore t.slot t.loc d mask pois else n).ents = m.ents := by
    split
    · exact (Mem.ents_lineStore ..).trans hn
    · exact hn
  have hin : (m.lineIn t.slot t.loc 15).1.ents = m.ents := Mem.ents_of_slices (Mem.slices_lineIn ..)
  unfold Mem.merge
  dsimp only
  split
  · exact send _ (Mem.ents_updSlice _ _ (fun x => by rfl))
  · split
    · split
      · exact (Mem.ents_lineOut ..).trans hin
      · exact Mem.ents_lineStore ..
    · split
      · exact send _ hin
      · exact send _ ((Mem.ents_lineInsert ..).trans hin)

theorem Slice.ents_wrote (x : Slice) (asid va cfg : Nat) (hit far : Bool) : (x.wrote asid va cfg hit far).ents = x.ents := by
  refine Slice.ents_updEnt x asid va (fun e => ?_)
  have hcount : (e.count cfg false false).asid = e.asid ∧ (e.count cfg false false).gen = e.gen ∧ (e.count cfg false false).leaf = e.leaf := by
    unfold TEnt.count
    split <;> exact ⟨rfl, rfl, rfl⟩
  have hnoted : (if hit = true then e else { e.count cfg false false with a := true, d := true }).asid = e.asid
      ∧ (if hit = true then e else { e.count cfg false false with a := true, d := true }).gen = e.gen
      ∧ (if hit = true then e else { e.count cfg false false with a := true, d := true }).leaf = e.leaf := by
    split
    · exact ⟨rfl, rfl, rfl⟩
    · exact hcount
  dsimp only
  generalize (if hit = true then e else { e.count cfg false false with a := true, d := true }) = e' at hnoted ⊢
  split
  · obtain ⟨ha, hg, hl, -⟩ := TEnt.remote_tag e' true
    exact ⟨ha.trans hnoted.1, hg.trans hnoted.2.1, hl.trans hnoted.2.2⟩
  · exact hnoted

theorem Mem.ents_sendBack (m : Mem) (sl core : Nat) (e : TEnt) (l : L1Line) : (m.sendBack sl core e l).1.ents = m.ents := by
  unfold Mem.sendBack
  split
  · rfl
  · dsimp only
    split
    · exact Mem.ents_updSlice _ _ (fun x => by rfl)
    · exact (Mem.ents_merge ..).trans (Mem.ents_updSlice _ _ (fun x => Slice.ents_wrote ..))

theorem Mem.ents_reclaimL1 (m : Mem) (sl core : Nat) (e : TEnt) : (m.reclaimL1 sl core e).ents = m.ents := by
  refine Mem.ents_foldl _ _ (fun m l => ?_) m
  split
  · rfl
  · dsimp only
    rw [Mem.ents_setLines1]
    split
    · rfl
    · exact Mem.ents_sendBack ..

end Sys2Proof.Machine
end

section
/-! Reclaims and replica invalidations (02 R60, R64, R76). -/

namespace Sys2Proof.Machine

/-! The owner's L1. -/

/-- A line of the owner's L1 that the reclaim of an entry is about: of the page, of the generation in force, homed at the slice. -/
def Mem.OfEntry (m : Mem) (sl core : Nat) (e : TEnt) (l : L1Line) : Prop :=
  l.asid = e.asid ∧ l.gen = m.coreGen core e.asid ∧ e.leaf.covers (l.line * 128) = true
    ∧ homeIn (Tbl.get [] m.dslhm (core / 64)) (m.dom e.asid) e.asid (l.line * 128) = some sl

theorem L1Line.same_iff (k l : L1Line) : k.same l = true ↔ k.asid = l.asid ∧ k.gen = l.gen ∧ k.line = l.line := by
  simp [L1Line.same, and_assoc]

theorem Mem.OfEntry.of_same {m : Mem} {sl core : Nat} {e : TEnt} {k l : L1Line} (h : m.OfEntry sl core e k) (hs : l.same k = true) : m.OfEntry sl core e l := by
  obtain ⟨ha, hg, hl⟩ := (L1Line.same_iff l k).1 hs
  rw [Mem.OfEntry, ha, hg, hl]
  exact h

/-- What a reclaim does with one line of its entry. -/
def Mem.reclaimLine (sl core : Nat) (e : TEnt) (m : Mem) (l : L1Line) : Mem :=
  let r := if l.dirty = 0 then (m, true) else m.sendBack sl core e l
  r.1.setLines1 core ((r.1.lines1 core).filterMap (fun y => if !y.same l then some y else if r.2 then none else some y.keepDirty))

/-- The lines of an entry that are still as they were before the reclaim are among those listed. -/
def Mem.LeftOf (m : Mem) (sl core : Nat) (e : TEnt) (n : Mem) (ls : List L1Line) : Prop :=
  ∀ k ∈ n.lines1 core, m.OfEntry sl core e k → (k.refused = true ∧ k.valid = 0) ∨ ∃ r ∈ ls, r.same k = true

section
variable {m n : Mem} {sl core : Nat} {e : TEnt} {l : L1Line} {ls : List L1Line} (h : m.LeftOf sl core e n (l :: ls))
include h

theorem Mem.LeftOf.skips (hl : ¬ m.OfEntry sl core e l) : m.LeftOf sl core e n ls := by
  intro k hk hof
  rcases h k hk hof with hgood | ⟨r, hr, hs⟩
  · exact .inl hgood
  · rcases List.mem_cons.1 hr with rfl | hr
    · exact absurd (hof.of_same hs) hl
    · exact .inr ⟨r, hr, hs⟩

theorem Mem.LeftOf.takes : m.LeftOf sl core e (Mem.reclaimLine sl core e n l) ls := by
  intro k hk hof
  rw [Mem.reclaimLine] at hk
  generalize hr : (if l.dirty = 0 then (n, true) else n.sendBack sl core e l) = r at hk
  have hside : r.1.lines1 core = n.lines1 core := by
    rw [← hr]
    split
    · rfl
    · exact Mem.lines1_of_coreSide (Mem.coreSide_sendBack ..) core
  rw [Mem.lines1_setLines1_same, hside] at hk
  obtain ⟨y, hy, hyk⟩ := List.mem_filterMap.1 hk
  by_cases hsame : y.same l = true
  · rw [if_neg (by simp [hsame])] at hyk
    split at hyk
    · cases hyk
    · rw [← Option.some.inj hyk]
      exact .inl ⟨rfl, rfl⟩
  · rw [if_pos (by simp [hsame])] at hyk
    obtain rfl := Option.some.inj hyk
    rcases h y hy hof with hgood | ⟨r', hr', hs⟩
    · exact .inl hgood
    · rcases List.mem_cons.1 hr' with rfl | hr'
      · obtain ⟨ha, hg, hl⟩ := (L1Line.same_iff r' y).1 hs
        exact absurd ((L1Line.same_iff y r').2 ⟨ha.symm, hg.symm, hl.symm⟩) hsame
      · exact .inr ⟨r', hr', hs⟩

end

/-- What a reclaim leaves in the owner's L1 of its lines: dirty bytes that the slice refused (02 R60, R76). -/
theorem Mem.reclaimL1_lines (m : Mem) (sl core : Nat) (e : TEnt) :
    ∀ l ∈ (m.reclaimL1 sl core e).lines1 core, m.OfEntry sl core e l → l.refused = true ∧ l.valid = 0 := by
  unfold Mem.reclaimL1
  extract_lets copy g mine
  have hmine (l : L1Line) : mine l = true ↔ m.OfEntry sl core e l := by
    simp [mine, Mem.OfEntry, Mem.coreGen, g, copy, and_assoc]
  have hfold (ls : List L1Line) (n : Mem) (hn : m.LeftOf sl core e n ls) :
      m.LeftOf sl core e (ls.foldl (fun n l => if !mine l then n else Mem.reclaimLine sl core e n l) n) [] := by
    induction ls generalizing n with
    | nil => exact hn
    | cons l ls ih =>
      refine ih _ ?_
      dsimp only
      by_cases hl : mine l = true
      · rw [if_neg (by simp [hl])]
        exact hn.takes
      · rw [if_pos (by simp [hl])]
        exact hn.skips (fun hof => hl ((hmine l).2 hof))
  exact fun l hl hof => (hfold _ m (fun k hk _ => .inr ⟨k, hk, by simp [L1Line.same]⟩) l hl hof).resolve_right (by simp)

/-! The entry of a page. -/

theorem Slice.findEnt_tag {x : Slice} {asid va : Nat} {e : TEnt} (h : x.findEnt asid va = some e) : e.asid = asid ∧ e.gen = x.gen asid ∧ e.leaf.covers va = true := by
  simpa [and_assoc] using List.find?_some h

/-- A change of every entry of a page by its first byte reaches the entry that an address of the page finds. -/
theorem Slice.findEnt_updEnt_page {x : Slice} {asid va : Nat} {e : TEnt} (h : x.findEnt asid va = some e) {f : TEnt → TEnt}
    (hf : ∀ e, (f e).asid = e.asid ∧ (f e).gen = e.gen ∧ (f e).leaf = e.leaf) : (x.updEnt e.asid e.leaf.page f).findEnt asid va = some (f e) := by
  obtain ⟨ha, hg, hc⟩ := Slice.findEnt_tag h
  have hfind : (x.updEnt e.asid e.leaf.page f).findEnt asid va
      = (x.findEnt asid va).map (fun t => if t.asid == e.asid && t.gen == x.gen e.asid && t.leaf.covers e.leaf.page then f t else t) := by
    simp only [Slice.findEnt, Slice.updEnt, List.find?_map]
    congr 1
    refine congrArg (fun p => List.find? p x.tlb) (funext fun t => ?_)
    obtain ⟨hta, htg, htl⟩ := hf t
    dsimp only [Function.comp]
    split
    · rw [hta, htg, htl]; rfl
    · rfl
  have hcov : e.leaf.covers e.leaf.page = true := by simp [Leaf.covers]
  rw [hfind, h, Option.map_some, if_pos (by simp [ha, hg, hcov])]

section
variable {s : State} {sl asid page die : Nat} {e : TEnt} (he : (s.mem.slice sl).findEnt asid page = some e)
include he

/-! RECLAIM and RECLAIM_ACK. -/

section
variable {y : Option Nat} {x : Nat} (hrcl : e.rcl = some y) (howner : e.owner = some x)
include hrcl howner

theorem reclaim_empties (hack : e.acked = false) : s.event? (.reclaim sl asid page) (fun t =>
    (∃ e', (t.mem.slice sl).findEnt asid page = some e' ∧ e'.acked = true)
      ∧ ∀ l ∈ t.mem.lines1 x, l.asid = e.asid → l.gen = s.mem.coreGen x e.asid → e.leaf.covers (l.line * 128) = true →
        homeIn (Tbl.get [] s.mem.dslhm (x / 64)) (s.mem.dom e.asid) e.asid (l.line * 128) = some sl → l.refused = true ∧ l.valid = 0) := by
  refine ⟨{ s with mem := (s.mem.reclaimL1 sl x e).updSlice sl (fun y => y.updEnt asid page (fun t => { t with acked := true })) }, ?_, ?_,
    fun l hl ha hg hc hh => Mem.reclaimL1_lines s.mem sl x e l hl ⟨ha, hg, hc, hh⟩⟩
  · show execReclaim sl asid page s = _
    rw [execReclaim, he]
    dsimp only
    rw [hrcl, howner]
    dsimp only
    rw [if_neg (by simp [hack])]
  · obtain ⟨e', he'⟩ := Slice.findEnt_of_ents (congrFun (Mem.ents_reclaimL1 s.mem sl x e) sl) he
    refine ⟨{ e' with acked := true }, ?_, rfl⟩
    dsimp only
    rw [Mem.slice_updSlice_same, Slice.findEnt_updEnt (f := fun t => { t with acked := true }) (hf := fun _ => ⟨rfl, rfl, rfl⟩), he']
    rfl

theorem reclaimAck_early (hack : e.acked = false) : exec (.reclaimAck sl asid page) s = .next s := by
  show execReclaimAck sl asid page s = _
  rw [execReclaimAck, he]
  dsimp only
  rw [hrcl, howner, hack]

theorem reclaimAck_eq (hack : e.acked = true) : exec (.reclaimAck sl asid page) s = .next (s.reclaimDone sl x e y) := by
  show execReclaimAck sl asid page s = _
  rw [execReclaimAck, he]
  dsimp only
  rw [hrcl, howner, hack]

end

omit he in
/-- The end of a reclaim that no request waits for. -/
theorem State.reclaimDone_unawaited {x : Nat} {who : Option Nat} (hw : ((s.mem.reclaimEnd sl (x / 64) e who).slice sl).waits = []) :
    s.reclaimDone sl x e who = { s with mem := s.mem.reclaimEnd sl (x / 64) e who } := by
  unfold State.reclaimDone
  refine foldl_keeps (fun t : State => t = { s with mem := s.mem.reclaimEnd sl (x / 64) e who }) _ _ (fun t i ht => ?_) _ rfl
  rw [ht, if_neg (by simp [hw])]

omit he in
theorem Mem.reclaimEnd_shared (m : Mem) {die : Nat} {who : Option Nat} (hcls : e.leaf.raw / 2 ^ 49 % 8 ≠ 0) : m.reclaimEnd sl die e who
    = m.updSlice sl (fun x => x.updEnt e.asid e.leaf.page (fun t => { t with owner := none, rcl := none, acked := false })) :=
  if_neg hcls

omit he in
theorem Mem.reclaimEnd_owned (m : Mem) {die c : Nat} (hcls : e.leaf.raw / 2 ^ 49 % 8 = 0) : m.reclaimEnd sl die e (some c)
    = m.updSlice sl (fun x => x.updEnt e.asid e.leaf.page (fun t => { t with owner := some c, rcl := none, acked := false })) :=
  if_pos hcls

section
variable {y : Option Nat} {x : Nat} (hrcl : e.rcl = some y) (howner : e.owner = some x) (hack : e.acked = true) (hwaits : (s.mem.slice sl).waits = [])
include hrcl howner hack hwaits

/-- A reclaim that changes the entry alone. -/
theorem reclaimAck_changes {f : TEnt → TEnt} (hf : ∀ e, (f e).asid = e.asid ∧ (f e).gen = e.gen ∧ (f e).leaf = e.leaf)
    (hend : s.mem.reclaimEnd sl (x / 64) e y = s.mem.updSlice sl (fun z => z.updEnt e.asid e.leaf.page f)) :
    s.event? (.reclaimAck sl asid page) (fun t => (t.mem.slice sl).findEnt asid page = some (f e)) := by
  have hdone := State.reclaimDone_unawaited (s := s) (sl := sl) (e := e) (x := x) (who := y) (by rw [hend, Mem.slice_updSlice_same]; exact hwaits)
  refine ⟨_, (reclaimAck_eq he hrcl howner hack).trans (congrArg _ hdone), ?_⟩
  dsimp only
  rw [hend, Mem.slice_updSlice_same]
  exact Slice.findEnt_updEnt_page he hf

theorem reclaimAck_shared (hcls : e.leaf.raw / 2 ^ 49 % 8 ≠ 0) : s.event? (.reclaimAck sl asid page) (fun t =>
    (t.mem.slice sl).findEnt asid page = some { e with owner := none, rcl := none, acked := false }) :=
  reclaimAck_changes he hrcl howner hack hwaits (f := fun t => { t with owner := none, rcl := none, acked := false }) (fun _ => ⟨rfl, rfl, rfl⟩)
    (Mem.reclaimEnd_shared _ hcls)

theorem reclaimAck_owned {c : Nat} (hcls : e.leaf.raw / 2 ^ 49 % 8 = 0) (hy : y = some c) : s.event? (.reclaimAck sl asid page) (fun t =>
    (t.mem.slice sl).findEnt asid page = some { e with owner := some c, rcl := none, acked := false }) :=
  reclaimAck_changes he hrcl howner hack hwaits (f := fun t => { t with owner := some c, rcl := none, acked := false }) (fun _ => ⟨rfl, rfl, rfl⟩)
    (by rw [hy, Mem.reclaimEnd_owned _ hcls])

end

/-! REPLICA_INVALIDATE and its acknowledgement. -/

theorem replicaInvalidate_idle (hinv : e.inval = false) : exec (.replicaInvalidate sl asid page die) s = .next s ∧ exec (.replicaInvalidateAck sl asid page) s = .next s := by
  refine ⟨?_, ?_⟩
  · show execReplicaInvalidate sl asid page die s = _
    rw [execReplicaInvalidate, he]
    simp [hinv]
  · show execReplicaInvalidateAck sl asid page s = _
    rw [execReplicaInvalidateAck, he]
    simp [hinv]

theorem replicaInvalidate_drops (hinv : e.inval = true) (hbit : bit e.repMask die = true) : s.event? (.replicaInvalidate sl asid page die) (fun t =>
    (t.mem.slice sl).findEnt asid page = some { e with repMask := without e.repMask (2 ^ die) }
      ∧ ∀ l ∈ Tbl.get [] t.mem.dc die, l.ver = none → l.asid = asid → e.leaf.covers (l.line * 128) = false) := by
  refine ⟨{ s with mem := { (s.mem.updSlice sl (fun x => x.updEnt asid page (fun t => { t with repMask := without t.repMask (2 ^ die) }))) with
        dc := Tbl.upd [] s.mem.dc die (fun ls => ls.filter (fun l => !(l.ver.isNone && l.asid == asid && e.leaf.covers (l.line * 128)))) } }, ?_, ?_,
    fun l hl hver hasid => ?_⟩
  · show execReplicaInvalidate sl asid page die s = _
    rw [execReplicaInvalidate, he]
    dsimp only
    rw [if_pos (by simp [hinv, hbit])]
  · have hslice : ((s.mem.updSlice sl (fun x => x.updEnt asid page (fun t => { t with repMask := without t.repMask (2 ^ die) }))).slice sl).findEnt asid page
        = some { e with repMask := without e.repMask (2 ^ die) } := by
      rw [Mem.slice_updSlice_same, Slice.findEnt_updEnt (f := fun t => { t with repMask := without t.repMask (2 ^ die) }) (hf := fun _ => ⟨rfl, rfl, rfl⟩), he]
      rfl
    exact hslice
  · have hkeep : l ∈ (Tbl.get [] s.mem.dc die).filter (fun l => !(l.ver.isNone && l.asid == asid && e.leaf.covers (l.line * 128))) := by
      simpa [Tbl.get_upd] using hl
    simpa [hver, hasid] using (List.mem_filter.1 hkeep).2

theorem replicaInvalidateAck_ends (hinv : e.inval = true) (hmask : e.repMask = 0) (hwaits : (s.mem.slice sl).waits = []) :
    s.event? (.replicaInvalidateAck sl asid page) (fun t =>
      (t.mem.slice sl).findEnt asid page = some { e with inval := false, rep := false, rrd := 0, rwr := 0 }) := by
  refine ⟨{ s with mem := s.mem.updSlice sl (fun x => x.updEnt asid page (fun t => { t with inval := false, rep := false, rrd := 0, rwr := 0 })) }, ?_, ?_⟩
  · show execReplicaInvalidateAck sl asid page s = _
    rw [execReplicaInvalidateAck, he]
    dsimp only
    rw [if_pos (by simp [hinv, hmask]), Mem.slice_updSlice_same]
    show Host.Outcome.next (List.foldl _ _ (List.filter _ (s.mem.slice sl).waits)) = _
    rw [hwaits, List.filter_nil, List.foldl_nil]
  · dsimp only
    rw [Mem.slice_updSlice_same, Slice.findEnt_updEnt (f := fun t => { t with inval := false, rep := false, rrd := 0, rwr := 0 }) (hf := fun _ => ⟨rfl, rfl, rfl⟩), he]
    rfl

end

end Sys2Proof.Machine
end

section
/-! Accesses that travel, and their completions from outside (03 R87, R102; 13 R408, R414). -/

namespace Sys2Proof.Machine

section
variable {s : State} {a : Actor} {o : MemOp} (ho : s.opOf a = some o)
include ho

/-! PROBE_RETURN before a store takes effect. -/

theorem probeReturn_waits (hp : o.probes ≠ []) : exec (.probeReturn a) s = .next s := by
  show execProbeReturn a s = _
  rw [execProbeReturn, ho]
  dsimp only
  rw [if_neg (by simp [hp])]

theorem probeReturn_goes (hreq : o.req = none) (hmesh : o.mesh = false) (hprobed : o.probed = false) (hp : o.probes = []) :
    exec (.probeReturn a) s = .next ((s.setOp a (some { o with probed := true })).memGo memFuel a) := by
  show execProbeReturn a s = _
  rw [execProbeReturn, ho]
  dsimp only
  rw [if_pos (by simp [hp, hreq, hprobed, hmesh])]

/-! The accesses of ejected lanes and to pack scratchpads. -/

theorem retrieverAccess_eq : exec (.retrieverAccess a) s
    = .next (if o.mesh then (s.setOp a (some { o with mesh := false })).memGo memFuel a else s) := by
  show execRetrieverAccess a s = _
  rw [execRetrieverAccess, ho, apply_ite Host.Outcome.next]

theorem remoteScratchpadAccess_eq : exec (.remoteScratchpadAccess a) s
    = .next (if o.remote && !o.mesh && (s.ctx a).first o then (s.setOp a (some { o with remote := false })).memGo memFuel a else s) := by
  show execRemoteScratchpadAccess a s = _
  rw [execRemoteScratchpadAccess, ho, apply_ite Host.Outcome.next]

end

theorem Ctx.first_iff (c : Ctx) (o : MemOp) : c.first o = true ↔ ∀ e ∈ c.memops, o.ord ≤ e.2.ord ∨ e.2.toPack ≠ o.toPack := by
  simp [Ctx.first]

/-! Completions of a request that went out. -/

section
variable {s : State} {a : Actor} {o : MemOp} {r : Req} {tr : Tr} {sl : Nat} (h : s.hasReq a o r) (hst : r.st = .remote tr)
include h hst

theorem State.sentTo_eq : s.sentTo a = tr.peer := by
  obtain ⟨hop, hreq⟩ := h
  cases o
  cases r
  cases hreq
  cases hst
  rw [State.sentTo, hop]

theorem cxlCompletion_eq (k v : Nat) : exec (.cxlCompletion a k v) s
    = .next (if tr.peer.isSome then s else s.remoteDone a k v (remoteFlt false 0 0)) := by
  show execCxlCompletion a k v s = _
  rw [execCxlCompletion, State.sentTo_eq h hst]

theorem peerAccessCompletion_peer {fab : Nat} (hp : tr.peer = some fab) (k v : Nat) : exec (.peerAccessCompletion a k v) s
    = .next (s.remoteDone a k v (remoteFlt false fab s.uaPort)) := by
  show execPeerAccessCompletion a k v s = _
  rw [execPeerAccessCompletion, State.sentTo_eq h hst, hp]

theorem peerAccessCompletion_host (hp : tr.peer = none) (k v : Nat) : exec (.peerAccessCompletion a k v) s = .next s := by
  show execPeerAccessCompletion a k v s = _
  rw [execPeerAccessCompletion, State.sentTo_eq h hst, hp]

/-- PEER_TIMEOUT of a request that went out (13 R414). -/
theorem peerTimeout_request : ∃ f : Flt, f.cause = cRemoteTimeout ∧ exec (.peerTimeout a) s = .next (s.respond a r { fault := some f }) := by
  refine ⟨match tr.peer with | some fab => remoteFlt true fab s.uaPort | none => remoteFlt true 0 0, by split <;> rfl, ?_⟩
  show execPeerTimeout a s = _
  obtain ⟨hop, hreq⟩ := h
  cases o
  cases hreq
  rw [execPeerTimeout, hop]
  simp only [hst] <;> rfl

/-- What the answer to a request says of its page. -/
def Tr.answer (t : Tr) : Resp := { shc := 5 ≤ t.raw / 2 ^ 49 % 8, slot := t.slot, peer := t.peer.isSome, cls := t.cls, rep := t.rep }

variable (hsl : r.sl = some sl)
include hsl

theorem State.remoteDone_fault (v : Nat) (f : Flt) : s.remoteDone a 2 v f = s.respond a r { fault := some f } := by
  obtain ⟨hop, hreq⟩ := h
  cases o
  cases hreq
  rw [State.remoteDone, hop]
  dsimp only
  rw [hst, hsl]
  rfl

theorem State.remoteDone_read {k : Nat} (hk : k < 2) (hr : r.kind = .read) (v : Nat) (f : Flt) : ∃ m, s.remoteDone a k v f
    = ({ s with mem := m } : State).respond a r { tr.answer with
        bytes := tblPut [] 0 128 v, pois := if k ≠ 1 then 0 else if v / 2 ^ 1024 % 16 = 0 then 15 else v / 2 ^ 1024 % 16 } := by
  obtain ⟨hop, hreq⟩ := h
  cases o
  cases hreq
  rw [State.remoteDone, hop]
  dsimp only
  rw [hst, hsl]
  dsimp only
  rw [if_neg (by omega), hr]
  dsimp only
  rw [ite_not]
  exact ⟨_, rfl⟩

theorem State.remoteDone_atomic {k : Nat} (hk : k < 2) (hr : r.kind = .atomic) (hfar : o.info.scope = 3 ∨ tr.peer.isSome = true) (v : Nat) (f : Flt) :
    s.remoteDone a k v f = ({ s with mem := s.mem.farDrop sl (s.dieOf a) (s.ctx a).asid r.addr } : State).respond a r { tr.answer with
      old := r.accs.map (fun x => (x.lane, if k = 1 then gFault ⟨cPoisonMem, 0⟩ x.addr else Res.num (v % 2 ^ (8 * x.size)))) } := by
  obtain ⟨hop, hreq⟩ := h
  cases o
  cases hreq
  rw [State.remoteDone, hop]
  dsimp only
  rw [hst, hsl]
  dsimp only
  rw [if_neg (by omega), hr]
  dsimp only
  rw [if_pos (by rcases hfar with hs | hp <;> simp_all [MemOp.info])]
  rfl

theorem State.remoteDone_write (hr : r.kind = .bypass ∨ r.kind = .uncached) (v : Nat) (f : Flt) : s.remoteDone a 0 v f = s.respond a r tr.answer := by
  obtain ⟨hop, hreq⟩ := h
  cases o
  cases hreq
  rw [State.remoteDone, hop]
  dsimp only
  rw [hst, hsl]
  dsimp only
  rw [if_neg (by omega)]
  rcases hr with hr | hr <;> rw [hr] <;> rfl

omit hsl in
/-- The completion of a request is that of the port it went to, with REMOTE_FAULT as its fault (13 R408, R412). -/
theorem State.remoteDone_of {i : Instr} {k v : Nat} (hi : tr.peer = none ∧ i = .cxlCompletion a k v ∨ tr.peer.isSome = true ∧ i = .peerAccessCompletion a k v) :
    ∃ f : Flt, f.cause = cRemoteFault ∧ exec i s = .next (s.remoteDone a k v f) := by
  rcases hi with ⟨hp, rfl⟩ | ⟨hp, rfl⟩
  · exact ⟨_, rfl, by rw [cxlCompletion_eq h hst, if_neg (by simp [hp])]⟩
  · obtain ⟨fab, hfab⟩ := Option.isSome_iff_exists.1 hp
    exact ⟨_, rfl, peerAccessCompletion_peer h hst hfab k v⟩

end

/-! SEAL.OPEN whose peer answers no more. -/

theorem State.Noted.waitsAt {s t : State} (h : s.Noted t) {a : Actor} {b : Blk} (hw : s.waitsAt a b) : t.waitsAt a b := by
  have hctx : t.ctx a = _ := h.ctx a
  have hsplit : (t.ctx a).split a.slot = (s.ctx a).split a.slot := by rw [hctx]; rfl
  have hon : (t.ctx a).on = (s.ctx a).on := by rw [hctx]
  rw [State.waitsAt, State.blkOf, hsplit, hon]
  exact hw

theorem State.alloc1_spec (s : State) (a : Actor) (pc : W64) (mask : Nat) (f : Flt) (va : Nat) :
    s.Noted (s.alloc1 a pc mask f va).1 ∧ plCause (s.alloc1 a pc mask f va).2 = f.cause % 64 := by
  unfold State.alloc1
  exact ⟨State.noted_alloc .., State.cause_alloc s _ _ { lane := (lowest 32 mask).getD 0, flt := f, va := va, page := va % 2 ^ 55 / 65536 } _⟩

/-- PEER_TIMEOUT of a SEAL.OPEN that waits for its peers (13 R414). -/
theorem peerTimeout_seal {s : State} {a : Actor} {d n : Nat} {pc : W64} (ho : s.opOf a = none) (hw : s.waitsAt a (.sealOpen d n pc)) :
    s.event? (.peerTimeout a) (fun t => ∃ p, plCause p = cRemoteTimeout ∧ t.completed a d (.bad p)) := by
  have hexec : exec (.peerTimeout a) s = .next (let q := s.alloc1 a pc ((s.ctx a).split a.slot).mask (remoteFlt true (Config.lateFab s.mem.ctr % 1024) s.uaPort) 0
      q.1.unblock a (.sealOpen d n pc) (.bad q.2)) := by
    show execPeerTimeout a s = _
    rw [execPeerTimeout, ho, hw.1]
  obtain ⟨hnoted, hcause⟩ := s.alloc1_spec a pc ((s.ctx a).split a.slot).mask (remoteFlt true (Config.lateFab s.mem.ctr % 1024) s.uaPort) 0
  generalize s.alloc1 .. = q at hexec hnoted hcause
  exact ⟨_, hexec, _, hcause, State.unblock_spec (hnoted.waitsAt hw) rfl _ _ rfl⟩

end Sys2Proof.Machine
end

section
/-! The memory events, settled. -/

open Sys2Proof Sys2Proof.Machine

/-- Settles O52: a conjunct for each event, from the lemma about it. -/
theorem memoryEvents : Obligations.MemoryEvents := by
  unfold Obligations.MemoryEvents
  refine ⟨?fills, ?stores, ?storeG, writeBack_spec, ?home, ?merge, ?pages, ?travels, fun s a o n pc ho hw => peerTimeout_seal ho hw⟩
  case fills =>
    intro s a o r p x rest h hk ht cn asid o1
    refine ⟨fun f hf => State.respond_fault h hk ht hf, fun hst hh hp => ⟨fun hrsv => l1Fill_lost h hk ht hst hh hp (Mem.fill1_none hrsv), ?_⟩⟩
    exact fun l hload hsole ha hg hl hr hlp hpp hq => l1Fill_loads h hk ht hst hh hp hload hsole ha hg hl hr hlp hpp hq
  case stores =>
    intro s a o ho hreq hmesh hprobed
    refine ⟨probeReturn_waits ho, probeReturn_goes ho hreq hmesh hprobed, ?_⟩
    exact fun x hp hf hk hsp hr hpeers htodo hbad hres hopn hlines =>
      probeReturn_stores ho hreq hmesh hprobed hp hf hk hsp hr hpeers htodo hbad hres hopn hlines
  case storeG =>
    intro m w core asid va n x hint hp hl hh _
    exact Mem.storeG_empty hl n x hp hh
  case home => exact fun m core sl l hd hh hg => Mem.writeBack1_home hd hh hg
  case merge => exact fun m sl die asid line hint mask pois t data l h hnear => Mem.merge_hit die hint data mask pois h hnear
  case pages =>
    intro s sl asid page die e he
    refine ⟨fun y x hrcl howner => ⟨reclaim_empties he hrcl howner, reclaimAck_early he hrcl howner, fun hack hwaits => ?_⟩,
      replicaInvalidate_idle he, replicaInvalidate_drops he, replicaInvalidateAck_ends he⟩
    exact ⟨reclaimAck_shared he hrcl howner hack hwaits, fun c => reclaimAck_owned he hrcl howner hack hwaits⟩
  case travels =>
    intro s a o ho
    refine ⟨fun hm => ⟨?_, ?_⟩, fun hm => ⟨?_, fun hr => ?_⟩, fun r tr sl v hreq hst hsl => ?_⟩
    · rw [retrieverAccess_eq ho, if_pos hm]
    · rw [remoteScratchpadAccess_eq ho, if_neg (by simp [hm])]
    · rw [retrieverAccess_eq ho, if_neg (by simp [hm])]
    · rw [remoteScratchpadAccess_eq ho]
      simp only [hr, hm, Bool.not_false, Bool.true_and, Ctx.first_iff]
    · have h : s.hasReq a o r := ⟨ho, hreq⟩
      refine ⟨fun hp k => ?_, fun hp k => peerAccessCompletion_host h hst hp k v, fun i k hi => ?_, peerTimeout_request h hst⟩
      · rw [cxlCompletion_eq h hst, if_pos hp]
      · obtain ⟨f, hf, hexec⟩ := State.remoteDone_of h hst hi
        rw [hexec]
        refine ⟨fun hk => ⟨f, hf, by rw [hk, State.remoteDone_fault h hst hsl]⟩, fun hk hr => ?_, fun hk hr hfar => ?_, fun hk hr => ?_⟩
        · obtain ⟨m, hm⟩ := State.remoteDone_read h hst hsl hk hr v f
          exact ⟨m, congrArg _ hm⟩
        · exact congrArg _ (State.remoteDone_atomic h hst hsl hk hr hfar v f)
        · rw [hk]
          exact congrArg _ (State.remoteDone_write h hst hsl hr v f)

end

section
/-! The global forms of a lane: what they are as memory instructions, their operands, and their first checks (10 R320 to R322, R324, R327). -/

namespace Sys2Proof.Machine

/-- The immediate of a byte or halfword address (R320). -/
theorem sext64_eq_signExtend (imm : Nat) : sext64 9 imm = (BitVec.ofNat 9 imm).signExtend 64 := by
  refine congrArg (BitVec.ofInt 64) ?_
  rw [BitVec.toInt_eq_toNat_cond, BitVec.toNat_ofNat, toS, bit]
  have hlt : imm % 2 ^ 9 < 512 := Nat.mod_lt _ (by decide)
  have hsign : (imm % 2 ^ 9 / 2 ^ (9 - 1) % 2 == 1) = decide (¬ 2 * (imm % 2 ^ 9) < 2 ^ 9) := by
    rw [beq_eq_decide, decide_eq_decide]
    omega
  rw [hsign]
  simp only [decide_eq_true_eq, ite_not]
  push_cast
  rfl

theorem vmAddr_eq_indexed (base ix : Nat) : (fun c y => vmAddr c y base ix) = indexed base ix := by
  funext c y
  rw [vmAddr, indexed]
  cases c.rs base <;> cases y.rd ix <;> rfl

theorem viAddr_eq_paired (r imm : Nat) : (fun _ y => viAddr y r imm) = paired r imm := by
  funext c y
  rw [viAddr, paired, alignReg]
  cases y.rd2 (r - r % 2) with
  | bad p => rfl
  | ok w => exact congrArg (fun v => Except.ok (w + v).toNat) (sext64_eq_signExtend imm)

/-- An instruction that is a global access of a lane, with what it is as a memory instruction and its address. -/
structure GlobalForm (i : Instr) (m : MInfo) (ad : Ctx → Lane → Except Payload Nat) : Prop where
  info : Instr.minfo i = some m
  lane : m.uni = false
  space : m.space = none
  ldf : m.kind ≠ .ldf
  size : 0 < m.size
  warned : ∀ c w x, ad (Ctx.warns c w) x = ad c x
  runs : ∃ regs wn, ∀ s, exec i s = s.laneMem i regs wn ad

theorem indexed_warns (base ix : Nat) (c : Ctx) (w : W32) (x : Lane) : indexed base ix (c.warns w) x = indexed base ix c x := rfl

theorem GlobalForm.of_vm {i : Instr} {m : MInfo} {d x base k : Nat} (hi : Instr.minfo i = some m) (hl : m.uni = false) (hs : m.space = none)
    (hk : m.kind ≠ .ldf) (hz : 0 < m.size) (he : ∀ s, exec i s = s.vm i d x base k) : GlobalForm i m (indexed base x) :=
  ⟨hi, hl, hs, hk, hz, indexed_warns base x, [x], alignWarn k d, fun s => by rw [he, State.vm, vmAddr_eq_indexed]⟩

theorem GlobalForm.of_va {i : Instr} {m : MInfo} {d x base k : Nat} (hi : Instr.minfo i = some m) (hl : m.uni = false) (hs : m.space = none)
    (hk : m.kind ≠ .ldf) (hz : 0 < m.size) (he : ∀ s, exec i s = s.va i d x base k) : GlobalForm i m (indexed base x) :=
  ⟨hi, hl, hs, hk, hz, indexed_warns base x, [x], alignWarn k d, fun s => by rw [he, State.va, vmAddr_eq_indexed]⟩

theorem GlobalForm.of_vi {i : Instr} {m : MInfo} {a imm : Nat} (hi : Instr.minfo i = some m) (hl : m.uni = false) (hs : m.space = none)
    (hk : m.kind ≠ .ldf) (hz : 0 < m.size) (he : ∀ s, exec i s = s.vi i a imm) : GlobalForm i m (paired a imm) :=
  ⟨hi, hl, hs, hk, hz, fun _ _ _ => rfl, _, _, fun s => by rw [he, State.vi, viAddr_eq_paired]⟩

/-- What a global load is as a memory instruction. -/
def loadInfo (d n sgn la hint : Nat) : MInfo := { kind := .load, size := n, hint := hint, d := d, sgn := sgn, la := la }

/-- The widths of the global loads, with the sign bits that each may have. -/
def loadSize (n sgn : Nat) : Prop := sgn = 0 ∧ (n = 1 ∨ n = 2 ∨ n = 4 ∨ n = 8 ∨ n = 16) ∨ sgn = 8 ∧ n = 1 ∨ sgn = 16 ∧ n = 2

theorem GlobalForm.of_load {i : Instr} {d n sgn la : Nat} {ad : Ctx → Lane → Except Payload Nat} (h : Instr.load i = some (d, n, sgn, la, ad)) :
    loadSize n sgn ∧ ∃ hint, GlobalForm i (loadInfo d n sgn la hint) ad := by
  unfold Instr.load at h
  split at h <;> cases h
  case h_1 =>
    have hinfo (hint : Nat) : vmInfo .load 4 hint d la = loadInfo d 4 0 la hint := by simp [vmInfo, loadInfo, regsOf, alignReg, Nat.mod_one]
    exact ⟨by unfold loadSize; omega, _, GlobalForm.of_vm (congrArg some (hinfo _)) rfl rfl nofun (Nat.succ_pos _) (fun _ => rfl)⟩
  case h_2 | h_3 => exact ⟨by unfold loadSize; omega, _, GlobalForm.of_vm rfl rfl rfl nofun (Nat.succ_pos _) (fun _ => rfl)⟩
  all_goals exact ⟨by unfold loadSize; omega, 0, GlobalForm.of_vi rfl rfl rfl nofun (Nat.succ_pos _) (fun _ => rfl)⟩

theorem GlobalForm.of_store {i : Instr} {d n hint : Nat} {ad : Ctx → Lane → Except Payload Nat} (h : Instr.store i = some (d, n, hint, ad)) :
    ∃ m, GlobalForm i m ad ∧ m.kind = .store ∧ m.size = n ∧ m.hint = hint := by
  unfold Instr.store at h
  split at h <;> cases h
  case h_1 | h_2 | h_3 => exact ⟨_, GlobalForm.of_vm rfl rfl rfl nofun (Nat.succ_pos _) (fun _ => rfl), rfl, rfl, rfl⟩
  all_goals exact ⟨_, GlobalForm.of_vi rfl rfl rfl nofun (Nat.succ_pos _) (fun _ => rfl), rfl, rfl, rfl⟩

theorem GlobalForm.of_atomic {i : Instr} {d n sc op la : Nat} {ad : Ctx → Lane → Except Payload Nat} (h : Instr.atomic i = some (d, n, sc, op, la, ad)) :
    ∃ m, GlobalForm i m ad ∧ m.kind = .atomic ∧ m.size = n ∧ m.hint = 0 ∧ m.scope = sc := by
  unfold Instr.atomic at h
  split at h <;> cases h
  all_goals exact ⟨_, GlobalForm.of_va rfl rfl rfl nofun (Nat.succ_pos _) (fun _ => rfl), rfl, rfl, rfl, rfl⟩

/-- The first request of a memory instruction (02 R49, R52, R71, R444). -/
def MInfo.Reaches (m : MInfo) (k : ReqKind) : Prop :=
  ((m.kind = .load ∨ m.kind = .pref) ∧ k = .read) ∨ (m.kind = .store ∧ k = if m.hint = 3 then .bypass else .probe)
    ∨ (m.kind = .atomic ∧ m.hint = 0 ∧ k = if m.scope = 0 then .probe else .atomic)

theorem GlobalForm.of_reach {i : Instr} {k : ReqKind} {n : Nat} {ad : Ctx → Lane → Except Payload Nat} (h : Instr.reach i = some (k, n, ad)) :
    ∃ m, GlobalForm i m ad ∧ m.size = n ∧ m.Reaches k := by
  unfold Instr.reach at h
  split at h
  · cases h
    exact ⟨_, ⟨rfl, rfl, rfl, nofun, Nat.succ_pos _, indexed_warns _ _, _, _, fun s => by rw [← vmAddr_eq_indexed]; rfl⟩, rfl, .inl ⟨.inr rfl, rfl⟩⟩
  · split at h <;> cases h
    · next hl =>
      obtain ⟨-, hint, hg⟩ := GlobalForm.of_load hl
      exact ⟨_, hg, rfl, .inl ⟨.inl rfl, rfl⟩⟩
    · next hst =>
      obtain ⟨m, hg, hk, hn, hh⟩ := GlobalForm.of_store hst
      exact ⟨m, hg, hn, .inr (.inl ⟨hk, by rw [hh]⟩)⟩
    · next hat =>
      obtain ⟨m, hg, hk, hn, hh, hsc⟩ := GlobalForm.of_atomic hat
      exact ⟨m, hg, hn, .inr (.inr ⟨hk, hh, by rw [hsc]⟩)⟩

/-! The operands. -/

theorem Lane.rdN_clean {x : Lane} (h : ∀ r, (x.rd r).pl? = none) (r k : Nat) : (x.rdN r k).1 = none :=
  firstBad_of_none (fun _ hy => by obtain ⟨j, -, rfl⟩ := List.mem_map.1 hy; exact h _)

theorem laneData_clean {x : Lane} (h : ∀ r, (x.rd r).pl? = none) (m : MInfo) : (laneData m x).2.2 = none := by
  unfold laneData
  dsimp only
  split
  · exact Lane.rdN_clean h ..
  · split
    · simp only [Lane.rdN_clean h]
      rfl
    · exact Lane.rdN_clean h ..
  · rfl

/-- The access of a lane, with its data. -/
def Lane.globalAcc (x : Lane) (m : MInfo) (l ea : Nat) : Acc :=
  { lane := l, addr := ea, size := m.size, data := (laneData m x).1, aux := (laneData m x).2.1 }

/-- A lane with an aligned address of 55 bits and clean operands makes its access (R321). -/
theorem startLane_global {m : MInfo} (hs : m.space = none) {x : Lane} (hclean : (laneData m x).2.2 = none) {l ea : Nat} (ha : ea % m.size = 0)
    (hb : ea < 2 ^ 55) : startLane m l (.ok ea) (laneData m x) = .acc (x.globalAcc m l ea) := by
  have hdiv : ea / 2 ^ 55 = 0 := Nat.div_eq_of_lt hb
  rw [startLane]
  simp only [hs, hclean, ha, hdiv]
  cases m.kind <;> simp [Lane.globalAcc]

/-- The result of a load of a wrong address (R321). -/
theorem startLane_fault {m : MInfo} (hs : m.space = none) (hk : m.kind = .load) (l : Nat) {ea : Nat} {dt : Nat × Nat × Option Payload}
    (h : ea % m.size ≠ 0 ∨ 2 ^ 55 ≤ ea) :
    startLane m l (.ok ea) dt = .res (gFault (if ea % m.size ≠ 0 then ⟨cMisalign, m.size⟩ else ⟨cBounds, 0⟩) ea) := by
  rw [startLane]
  by_cases ha : ea % m.size = 0
  · have hbound : 2 ^ 55 ≤ ea := h.resolve_left (not_not.2 ha)
    simp [hs, hk, ha]
    omega
  · simp [hs, hk, ha]

theorem startLane_poison {m : MInfo} (hk : m.kind = .load) (l : Nat) (p : Payload) (dt : Nat × Nat × Option Payload) :
    startLane m l (.error p) dt = .res (.bad p) := by
  rw [startLane]
  simp [hk]

end Sys2Proof.Machine
end

section
/-! The issue of a global access of a group: its operation, its held result, and its retirement (02 R49; 09 R283; 10 R321). -/

namespace Sys2Proof.Machine

/-- A memory instruction of a group in flight, with its accesses, its results so far and its probes. -/
def State.memOp (s : State) (i : Instr) (hid : Nat) (probes : List Nat) (todo : List Acc) (res : Tbl Res) : MemOp :=
  { ins := i, pc := s.cur.pc, word := s.cur.word, mask := s.mask, todo := todo, res := res, probes := probes, hid := hid, probed := probes.isEmpty
    sup := s.sp.sup, ord := 1 }

/-- The context and the number of the held result that a memory instruction starts with. -/
def Ctx.opening (c : Ctx) (m : MInfo) (mask : Nat) : Ctx × Nat := if m.dest.isEmpty then (c, 0) else c.hold m.dest false mask m.la

section
variable {s : State} {core g e hid : Nat} {i : Instr} {m : MInfo} {c : Ctx}

/-- The operation of a memory instruction of a context without others. -/
theorem State.setOp_memOp (probes : List Nat) (todo : List Acc) (res : Tbl Res) (hact : s.cur.act = .split core g e) (hops : c.memops = []) :
    (s.setCtx s.cur.act c).setOp s.cur.act (some { s.memOp i hid probes todo res with
        mask := if s.cur.act.isSeq then (s.wgOf s.cur.act).fmask else s.mask
        mesh := s.cur.act.isThread
        ord := c.memops.foldl (fun n e => max n e.2.ord) 0 + 1 })
      = s.setCtx s.cur.act { c with memops := [(e, s.memOp i hid probes todo res)] } := by
  rw [State.setOp, State.updCtx, State.ctx_setCtx, State.setCtx_setCtx, hops, hact]
  rfl

variable (hact : s.cur.act = .split core g e) (hs : m.space = none) (hu : m.uni = false) (hk : m.kind ≠ .ldf)
  (hhold : s.me.opening m s.mask = (c, hid)) (hops : c.memops = [])
include hact hs hu hk hhold hops

/-- The issue of accesses (R321). -/
theorem State.startMem_accs {accs : List Acc} (hne : accs ≠ []) : s.startMem i m (accs.map (fun x => (x.lane, .acc x)))
    = (s.setCtx s.cur.act { c with memops := [(e, s.memOp i hid (probesOf m accs) accs [])] }).memGo memFuel s.cur.act := by
  have hldf : (m.kind == .ldf) = false := by simpa using hk
  have hglobal : ((none : Option Nat) == some 1) = false := rfl
  rw [← State.setOp_memOp (probesOf m accs) accs [] hact hops]
  unfold State.startMem
  generalize memFuel = fuel
  extract_lets a g' own s1 res todo gives pr
  have hs1 : s1 = s := by
    unfold s1
    rw [List.foldl_map]
    exact foldl_keeps (· = s) _ accs (fun t x ht => ht) s rfl
  have hres : res = [] := by
    unfold res
    rw [List.foldl_map]
    exact foldl_keeps (· = []) _ accs (fun t x ht => ht) [] rfl
  have htodo : todo = accs := by
    unfold todo
    rw [List.filterMap_map]
    exact List.filterMap_some
  have hgives : gives = true := by
    obtain ⟨x, r, rfl⟩ := List.exists_cons_of_ne_nil hne
    rfl
  have hpr : pr = probesOf m accs := by
    unfold pr
    rw [hldf, htodo, if_neg Bool.false_ne_true]
  rw [Ctx.opening] at hhold
  rw [hpr, hs1, hres, htodo, hgives]
  simp only [hldf, hu, hs, hglobal, Bool.not_true, Bool.or_false, Bool.false_and, Bool.false_eq_true, if_false, hhold]
  rfl

/-- The issue of a lane whose access has its result at once (R321). -/
theorem State.startMem_res (l : Nat) (r : Res) (hp : probesOf m [] = []) : s.startMem i m [(l, .res r)]
    = (s.setCtx s.cur.act { c with memops := [(e, s.memOp i hid [] [] [(l * 8, r)])] }).memGo memFuel s.cur.act := by
  have hldf : (m.kind == .ldf) = false := by simpa using hk
  have hglobal : ((none : Option Nat) == some 1) = false := rfl
  rw [← State.setOp_memOp [] [] [(l * 8, r)] hact hops]
  unfold State.startMem
  generalize memFuel = fuel
  extract_lets a g' own s1 res todo gives pr
  have hs1 : s1 = s := rfl
  have hres : res = [(l * 8, r)] := by
    unfold res
    rw [List.foldl_cons, List.foldl_nil, hldf]
    rfl
  have htodo : todo = [] := rfl
  have hgives : gives = true := rfl
  have hpr : pr = [] := by
    unfold pr
    rw [hldf, htodo, if_neg Bool.false_ne_true, hp]
  rw [Ctx.opening] at hhold
  rw [hpr, hs1, hres, htodo, hgives]
  simp only [hldf, hu, hs, hglobal, Bool.not_true, Bool.or_false, Bool.false_and, Bool.false_eq_true, if_false, hhold]
  rfl

end

/-! The held result. -/

/-- Held results of which none is available. -/
def Tbl.awaited (P : Tbl Held) : Prop := P = [] ∨ ∃ id h, P = [(id, h)] ∧ h.val = none

/-- The context at the issue of a memory instruction. -/
def Ctx.issuing (c : Ctx) (w : W32) (P : Tbl Held) (hid e : Nat) (o : MemOp) : Ctx := { c.warns w with memops := [(e, o)], pend := P, hid := hid }

/-- The held result of a memory instruction at its issue. -/
def MInfo.result (m : MInfo) (mask : Nat) : Held :=
  { regs := m.dest, uni := false, win := if mask = 0 then [(32, m.la + 1)] else (lanesOf mask).map (fun l => (l, m.la + 1)) }

/-- The held results of a context that had none, after the issue of a memory instruction. -/
def Ctx.opened (c : Ctx) (m : MInfo) (mask : Nat) : Tbl Held := if m.dest.isEmpty then [] else [(c.hid, m.result mask)]

theorem Ctx.opened_awaited (c : Ctx) (m : MInfo) (mask : Nat) : Tbl.awaited (c.opened m mask) := by
  rw [Ctx.opened]
  split
  · exact .inl rfl
  · exact .inr ⟨_, _, rfl, rfl⟩

theorem Ctx.opening_quiet (c : Ctx) (h : c.pend = []) (m : MInfo) (mask : Nat) : c.opening m mask
    = ({ c with pend := c.opened m mask, hid := if m.dest.isEmpty then c.hid else c.hid + 1 }, if m.dest.isEmpty then 0 else c.hid) := by
  rw [Ctx.opening, Ctx.opened]
  split
  · exact congrArg (fun P => (({ c with pend := P } : Ctx), 0)) h
  · have hwaw (rs : List Nat) : rs.foldl (fun c r => (lanesOf mask).foldl (fun c l => c.waw false l r) c) c = c :=
      foldl_keeps (· = c) _ rs (fun d r hd => foldl_keeps (· = c) _ _ (fun d l hd => by rw [hd, Ctx.waw_quiet c h]) d hd) c rfl
    simp only [Ctx.hold, Bool.false_eq_true, if_false, hwaw, h, List.map_nil, Tbl.put_nil]
    rfl

/-- Held results that are not available stay so at a retirement. -/
theorem Tbl.awaited.ticks {P : Tbl Held} (h : Tbl.awaited P) (mask : Nat) :
    ∃ Q, ∀ c : Ctx, c.pend = P → (c.tickWin mask true).settle = c.withHeld c.lanes Q := by
  rcases h with rfl | ⟨id, h, rfl, hv⟩
  · refine ⟨[], fun c hc => ?_⟩
    rw [Ctx.tickWin_quiet c hc, Ctx.settle_quiet c hc, Ctx.withHeld, ← hc]
  · refine ⟨[(id, { h with win := h.win.map (fun w => if (w.1 < 32 && bit mask w.1) || (true && w.1 = 32) then (w.1, w.2 - 1) else w) })], fun c hc => ?_⟩
    rw [Ctx.settle_unripe _ (by rw [Ctx.tickWin, hc]; rfl) (by simp [Ctx.ripe, hv]), Ctx.tickWin, hc]
    rfl

/-- The retirement in a context whose held result is still to come changes its splits and the window. -/
theorem State.retire_awaited {s t : State} {core g e mask : Nat} {c : Ctx} (hact : s.cur.act = .split core g e) (hcur : t.cur = s.cur)
    (hpend : Tbl.awaited c.pend) (hsp : c.splits = s.me.splits) (hpl : c.pool = s.me.pool) :
    ∃ Q sp pl, (t.setCtx s.cur.act c).retire mask = t.setCtx s.cur.act ((c.withHeld c.lanes Q).withSplits sp pl)
      ∧ s.endsAs (t.setCtx s.cur.act ((c.withHeld c.lanes Q).withSplits sp pl)) s.after := by
  have hX : (t.setCtx s.cur.act c).cur = s.cur := (State.setCtx_cur ..).trans hcur
  have hme : (t.setCtx s.cur.act c).me = c := State.me_setCtx_cur hcur c
  obtain ⟨Q, hQ⟩ := hpend.ticks mask
  obtain ⟨sp, pl, hret, hlone⟩ := State.retire_split (s := t.setCtx s.cur.act c) (m := mask) (T := c.lanes) (P := Q) (by rw [hX]; exact hact)
    (fun d hl hp => by rw [hQ d (hp.trans (by rw [hme])), hl, hme])
  rw [hX, hme, State.setCtx_setCtx] at hret
  rw [hme, hX] at hlone
  exact ⟨Q, sp, pl, hret, State.endsAs_after hact hcur hsp hpl hlone⟩

/-! The lanes of an instruction. -/

/-- The context of a group at the issue of the operation `o` of a memory instruction. -/
def State.issueCtx (s : State) (m : MInfo) (w : W32) (e : Nat) (o : MemOp) : Ctx :=
  s.me.issuing w (s.me.opened m s.mask) (if m.dest.isEmpty then s.me.hid else s.me.hid + 1) e o

/-- The number of the held result of a memory instruction. -/
def State.issueHid (s : State) (m : MInfo) : Nat := if m.dest.isEmpty then 0 else s.me.hid

theorem State.opening_warns {s : State} (hseq : s.cur.act.isSeq = false) (hp : s.me.pend = []) (m : MInfo) (w : W32) : (s.warns w).me.opening m (s.warns w).mask
    = ({ s.me.warns w with pend := s.me.opened m s.mask, hid := if m.dest.isEmpty then s.me.hid else s.me.hid + 1 }, s.issueHid m) := by
  rw [State.me_warns s w hseq, State.mask_warns]
  exact Ctx.opening_quiet (s.me.warns w) hp m s.mask

theorem State.setCtx_warns {s : State} (hseq : s.cur.act.isSeq = false) (w : W32) (c : Ctx) : (s.warns w).setCtx s.cur.act c = s.setCtx s.cur.act c := by
  rw [State.warns_upd _ _ hseq, State.upd_eq, State.setCtx_setCtx]

theorem State.memOp_warns (s : State) (w : W32) (i : Instr) (k : Nat) (ps : List Nat) (accs : List Acc) (res : Tbl Res) :
    (s.warns w).memOp i k ps accs res = s.memOp i k ps accs res := by simp [State.memOp]

section
variable {s : State} {core g e : Nat} {i : Instr} {m : MInfo} {ad : Ctx → Lane → Except Payload Nat}
  (hform : GlobalForm i m ad) (hact : s.cur.act = .split core g e)
include hform hact

/-- A global form starts one memory instruction, with what each active lane's first checks give, and retires. -/
theorem GlobalForm.starts : ∃ wn, exec i s = .next (((s.warns wn).startMem i m
    (s.active.map (fun l => (l, startLane m l (ad s.me (s.me.ln l)) (laneData m (s.me.ln l)))))).retire s.mask) := by
  obtain ⟨regs, wn, hexec⟩ := hform.runs
  have hlanes : s.cur.act.lanes = true := by rw [hact]; rfl
  have hseq : s.cur.act.isSeq = false := by rw [hact]; rfl
  refine ⟨wn ||| s.unmapped (regs ++ m.sources), ?_⟩
  rw [hexec, State.laneMem, State.laneSet, if_pos hlanes, hform.info]
  dsimp only [Option.getD_some]
  generalize wn ||| s.unmapped (regs ++ m.sources) = w
  rw [State.active_warns]
  refine congrArg (fun f => Host.Outcome.next (((s.warns w).startMem i m (s.active.map f)).retire s.mask)) (funext fun l => ?_)
  rw [State.ln_warns, State.me_warns s w hseq, hform.warned]

variable (hp : s.me.pend = []) (hops : s.me.memops = [])
include hp hops

theorem GlobalForm.issues (hne : s.active ≠ []) {ea : Nat → Nat} (hclean : ∀ j ∈ s.active, (laneData m (s.me.ln j)).2.2 = none)
    (had : ∀ j ∈ s.active, ad s.me (s.me.ln j) = .ok (ea j) ∧ ea j % m.size = 0 ∧ ea j < 2 ^ 55) :
    let accs := s.active.map (fun j => (s.me.ln j).globalAcc m j (ea j))
    ∃ w, exec i s = .next (((s.setCtx s.cur.act (s.issueCtx m w e (s.memOp i (s.issueHid m) (probesOf m accs) accs []))).memGo memFuel s.cur.act).retire s.mask) := by
  intro accs
  obtain ⟨w, hexec⟩ := hform.starts hact
  have hseq : s.cur.act.isSeq = false := by rw [hact]; rfl
  have hstarts : s.active.map (fun l => (l, startLane m l (ad s.me (s.me.ln l)) (laneData m (s.me.ln l)))) = accs.map (fun x => (x.lane, .acc x)) := by
    rw [List.map_map]
    refine List.map_congr_left (fun j hj => ?_)
    obtain ⟨hok, hmod, hlt⟩ := had j hj
    rw [hok, startLane_global hform.space (hclean j hj) hmod hlt]
    rfl
  have hstart := State.startMem_accs (s := s.warns w) (i := i) (accs := accs) (by rwa [State.warns_cur]) hform.space hform.lane hform.ldf
    (State.opening_warns hseq hp m w) hops (by simpa [accs] using hne)
  refine ⟨w, ?_⟩
  rw [hexec, hstarts, hstart, State.warns_cur, State.setCtx_warns hseq, State.memOp_warns]
  rfl

/-- One lane whose access has its result at once. -/
theorem GlobalForm.issues_res {l : Nat} {r : Res} (hactive : s.active = [l]) (hprobes : probesOf m [] = [])
    (had : startLane m l (ad s.me (s.me.ln l)) (laneData m (s.me.ln l)) = .res r) :
    ∃ w, exec i s = .next (((s.setCtx s.cur.act (s.issueCtx m w e (s.memOp i (s.issueHid m) [] [] [(l * 8, r)]))).memGo memFuel s.cur.act).retire s.mask) := by
  obtain ⟨w, hexec⟩ := hform.starts hact
  have hseq : s.cur.act.isSeq = false := by rw [hact]; rfl
  have hstart := State.startMem_res (s := s.warns w) (i := i) (by rwa [State.warns_cur]) hform.space hform.lane hform.ldf
    (State.opening_warns hseq hp m w) hops l r hprobes
  refine ⟨w, ?_⟩
  rw [hexec, hactive, List.map_singleton, had, hstart, State.warns_cur, State.setCtx_warns hseq, State.memOp_warns]
  rfl

end

end Sys2Proof.Machine
end

section
/-! The first request of a global access that finds nothing in its core (02 R49, R52, R70, R71, R444). -/

namespace Sys2Proof.Machine

/-! Probes. -/

theorem probesOf_none {m : MInfo} (h : m.kind ≠ .store) (hk : m.kind = .atomic → m.scope ≠ 0) (accs : List Acc) : probesOf m accs = [] := by
  rw [probesOf, if_pos]
  have hst : (m.kind == .store) = false := by simpa using h
  by_cases ha : m.kind = .atomic
  · simp [hst, hk ha]
  · simp [hst, ha]

/-- The first access is the first that a store or an atomic of workgroup scope probes for. -/
theorem probesOf_cons {m : MInfo} (hs : m.space = none) (h : m.kind = .store ∨ m.kind = .atomic ∧ m.scope = 0) (x : Acc) (rest : List Acc) :
    ∃ ps, probesOf m (x :: rest) = x.addr :: ps := by
  rw [probesOf, if_neg (by rcases h with h | ⟨h, hsc⟩ <;> simp [*])]
  extract_lets u
  refine foldl_keeps (fun ps : List Nat => ∃ qs, ps = x.addr :: qs) _ rest (fun ps y hps => ?_) _ ⟨[], rfl⟩
  obtain ⟨qs, rfl⟩ := hps
  split
  · exact ⟨qs, rfl⟩
  · exact ⟨qs ++ [y.addr], rfl⟩

section
variable {s : State} {a : Actor} {o : MemOp} (ho : s.opOf a = some o) (hmesh : o.mesh = false) (hr : o.remote = false) (hreq : o.req = none)
  (hfirst : (s.ctx a).first o = true)
include ho hmesh hr hreq hfirst

theorem State.memGo_probe (fuel : Nat) {p : Nat} {ps : List Nat} (hp : o.probes = p :: ps) (hacc : s.bypassAccs a o p = (s, [])) :
    s.memGo (fuel + 1) a = s.sendReq a o .probe p o.info.hint [] := by
  rw [State.memGo, ho]
  simp only [hmesh, hr, hreq, hp, hfirst, hacc, Option.isSome_none, Bool.or_self, Bool.false_eq_true, if_false, Bool.not_true, Bool.and_false,
    List.isEmpty_nil, if_true]

theorem State.memGo_bypass (fuel : Nat) {p : Nat} {ps : List Nat} (hp : o.probes = p :: ps) {accs : List Acc} (hne : accs ≠ []) (hacc : s.bypassAccs a o p = (s, accs)) :
    s.memGo (fuel + 1) a = s.sendReq a o .bypass p 3 accs := by
  rw [State.memGo, ho]
  simp only [hmesh, hr, hreq, hp, hfirst, hacc, Option.isSome_none, Bool.or_self, Bool.false_eq_true, if_false, Bool.not_true, Bool.and_false,
    List.isEmpty_iff, hne]

theorem State.memGo_misses (fuel : Nat) {x : Acc} {rest : List Acc} (hp : o.probes = []) (hpd : o.probed = true) (ht : o.todo = x :: rest) {s1 : State}
    (hacc : s.tryAcc a o x = (s1, .miss)) : s.memGo (fuel + 1) a = s1.request a o x := by
  rw [State.memGo, ho]
  simp only [hmesh, hr, hreq, hp, hpd, ht, hfirst, hacc, Option.isSome_none, Bool.or_self, Bool.false_eq_true, if_false, Bool.not_true]

end

/-! What a core without lines and held stores does with an access. -/

section
variable {s : State} {a : Actor} {o : MemOp} (hlines : s.mem.lines1 (s.coreOf a) = [])
include hlines

theorem State.bypassAccs_store (hk : o.info.kind = .store) (hh : o.info.hint = 3) (p : Nat) (hnow : ∀ x ∈ o.todo, s.storesNow a o x = true) :
    s.bypassAccs a o p = (s, o.todo.filter (fun x => x.addr / 128 == p / 128)) := by
  rw [State.bypassAccs, if_neg (by simp [hk, hh]), Mem.look1_empty hlines]
  refine congrArg (Prod.mk s) (List.filter_congr (fun x hx => ?_))
  rw [hnow x hx, Bool.and_true]

omit hlines in
theorem State.bypassAccs_none (h : o.info.kind = .store → o.info.hint ≠ 3) (p : Nat) : s.bypassAccs a o p = (s, []) := by
  rw [State.bypassAccs, if_pos]
  by_cases hk : o.info.kind = .store
  · simp [h hk]
  · simp [hk]

/-- An access that needs its home slice: a read that the L1 does not serve, or an atomic beyond workgroup scope. -/
theorem State.tryAcc_misses {x : Acc} (hquar : (s.core (s.coreOf a)).quar = []) (hs : o.info.space = none) (hz : 0 < x.size)
    (hk : o.info.kind = .load ∨ o.info.kind = .pref ∨ o.info.kind = .atomic ∧ o.info.scope ≠ 0) : s.tryAcc a o x = (s, .miss) := by
  have hall : (List.replicate x.size (none : Option QByte)).all Option.isSome = false := by
    rw [List.all_replicate, if_neg (by omega)]
    rfl
  unfold State.tryAcc
  rcases hk with hk | hk | ⟨hk, hsc⟩
  · simp [hs, hk, State.held_empty hquar, hall, Mem.look1_empty hlines]
  · simp [hs, hk, State.held_empty hquar, hall, Mem.look1_empty hlines]
  · simp [hs, hk, hsc]

omit hlines in
theorem Mem.dcLook_empty {m : Mem} {die : Nat} (h : Tbl.get [] m.dc die = []) (asid va : Nat) : m.dcLook die asid va = none := by
  have hsealed (t : Tr) : m.sealedLine die asid t = none := by
    rw [Mem.sealedLine, h]
    split
    · split <;> rfl
    · rfl
  rw [Mem.dcLook, Mem.dcFind, h, List.find?_nil]
  dsimp only
  cases m.peek die asid va with
  | none => rfl
  | some t => exact hsealed t

omit hlines in
theorem Mem.reserve1_empty {m : Mem} {core : Nat} (h : m.lines1 core = []) (asid line hint : Nat) :
    ∃ m', m.reserve1 core asid line hint a = (m', .free) ∧ m'.dc = m.dc := by
  rw [Mem.reserve1, Mem.look1_empty h]
  dsimp only
  rw [Mem.room1_empty h]
  exact ⟨_, rfl, rfl⟩

/-- A read takes a way of the empty L1, and goes to its home slice. -/
theorem State.request_read {x : Acc} (hdc : Tbl.get [] s.mem.dc (s.dieOf a) = []) (hk : o.info.kind = .load ∨ o.info.kind = .pref) :
    ∃ m, s.request a o x = ({ s with mem := m } : State).sendReq a o .read x.addr o.info.hint [x] := by
  have hway : ∃ m', (if o.info.hint = 3 then (s.mem, Room.free) else s.mem.reserve1 (s.coreOf a) (s.ctx a).asid (x.addr / 128) o.info.hint a) = (m', .free)
      ∧ m'.dc = s.mem.dc := by
    split
    · exact ⟨_, rfl, rfl⟩
    · exact Mem.reserve1_empty hlines ..
  obtain ⟨m', hway, hkeep⟩ := hway
  have hlook := Mem.dcLook_empty (m := m') (die := s.dieOf a) (by rw [hkeep]; exact hdc) (s.ctx a).asid x.addr
  refine ⟨m', ?_⟩
  rw [State.request]
  dsimp only
  rw [if_neg (by rcases hk with hk | hk <;> simp [hk]), if_neg (by rcases hk with hk | hk <;> simp [hk]), hway]
  simp only [hlook]
  rfl

theorem State.request_atomic {x : Acc} (hk : o.info.kind = .atomic) (hsc : o.info.scope ≠ 0) : s.request a o x
    = s.sendReq a o .atomic x.addr 0 (o.todo.filter (fun y => y.addr / 128 == x.addr / 128)) := by
  rw [State.request]
  simp only [hk]
  rw [if_neg (by decide), if_pos (by simp [hsc]), Mem.look1_empty hlines]

end

end Sys2Proof.Machine
end

section
/-! A global access of a group from its issue to its first request. -/

namespace Sys2Proof.Machine

/-- A memory instruction at its issue: the first of its context to take effect, in a core without lines and held stores, with clean accesses
of lanes outside regions. -/
structure FreshOp (s : State) (a : Actor) (o : MemOp) (m : MInfo) (x : Acc) (rest : List Acc) : Prop where
  op : s.opOf a = some o
  mesh : o.mesh = false
  remote : o.remote = false
  req : o.req = none
  first : (s.ctx a).first o = true
  info : o.info = m
  space : m.space = none
  todo : o.todo = x :: rest
  probes : o.probes = probesOf m (x :: rest)
  probed : o.probed = o.probes.isEmpty
  size : 0 < x.size
  lines : s.mem.lines1 (s.coreOf a) = []
  quar : (s.core (s.coreOf a)).quar = []
  dc : Tbl.get [] s.mem.dc (s.dieOf a) = []
  now : ∀ y ∈ o.todo, s.storesNow a o y = true

/-- The request of an operation, as its first access needs it. -/
structure Req.Leads (r : Req) (k : ReqKind) (x : Acc) (todo : List Acc) : Prop where
  kind : r.kind = k
  addr : r.addr = x.addr
  st : r.st = .sent
  accs : k = .bypass ∨ k = .atomic → r.accs = todo.filter (fun y => y.addr / 128 == x.addr / 128)

section
variable {s : State} {a : Actor} {o : MemOp} {m : MInfo} {x : Acc} {rest : List Acc} (h : FreshOp s a o m x rest)
include h

/-- The first request of a memory instruction (02 R49, R52, R71, R444). -/
theorem FreshOp.sends {k : ReqKind} (hk : m.Reaches k) (fuel : Nat) :
    ∃ m' r, s.memGo (fuel + 1) a = ({ s with mem := m' } : State).setOp a (some { o with req := some r }) ∧ r.Leads k x o.todo := by
  have hread (hp : o.probes = []) (hm : m.kind = .load ∨ m.kind = .pref ∨ m.kind = .atomic ∧ m.scope ≠ 0) : s.memGo (fuel + 1) a = s.request a o x :=
    State.memGo_misses h.op h.mesh h.remote h.req h.first fuel hp (by rw [h.probed, hp]; rfl) h.todo
      (State.tryAcc_misses h.lines h.quar (h.info ▸ h.space) h.size (h.info ▸ hm))
  have hprobe {ps : List Nat} (hp : o.probes = x.addr :: ps) (hm : m.kind = .store → m.hint ≠ 3) : s.memGo (fuel + 1) a = s.sendReq a o .probe x.addr o.info.hint [] :=
    State.memGo_probe h.op h.mesh h.remote h.req h.first fuel hp (State.bypassAccs_none (h.info ▸ hm) x.addr)
  rcases hk with ⟨hm, rfl⟩ | ⟨hm, rfl⟩ | ⟨hm, hh, rfl⟩
  · have hnone : o.probes = [] := h.probes.trans (probesOf_none (by rcases hm with hm | hm <;> simp [hm]) (by rcases hm with hm | hm <;> simp [hm]) _)
    obtain ⟨m', hreq⟩ := State.request_read (x := x) h.lines h.dc (h.info ▸ hm)
    refine ⟨m', _, (hread hnone (by tauto)).trans hreq, rfl, rfl, rfl, nofun⟩
  · obtain ⟨ps, hps⟩ := probesOf_cons h.space (.inl hm) x rest
    by_cases hh : m.hint = 3
    · have hself : o.todo.filter (fun y => y.addr / 128 == x.addr / 128) ≠ [] := by simp [h.todo]
      exact ⟨s.mem, _, State.memGo_bypass h.op h.mesh h.remote h.req h.first fuel (h.probes.trans hps) hself
        (State.bypassAccs_store h.lines (h.info ▸ hm) (h.info ▸ hh) _ h.now), by rw [if_pos hh]; rfl, rfl, rfl, fun _ => rfl⟩
    · exact ⟨s.mem, _, hprobe (h.probes.trans hps) (fun _ => hh), by rw [if_neg hh]; rfl, rfl, rfl, by simp [hh]⟩
  · by_cases hsc : m.scope = 0
    · obtain ⟨ps, hps⟩ := probesOf_cons h.space (.inr ⟨hm, hsc⟩) x rest
      exact ⟨s.mem, _, hprobe (h.probes.trans hps) (by simp [hm]), by rw [if_pos hsc]; rfl, rfl, rfl, by simp [hsc]⟩
    · have hnone : o.probes = [] := h.probes.trans (probesOf_none (by simp [hm]) (fun _ => hsc) _)
      have hreq := State.request_atomic (s := s) (a := a) (x := x) h.lines (h.info ▸ hm) (h.info ▸ hsc)
      exact ⟨s.mem, _, (hread hnone (.inr (.inr ⟨hm, hsc⟩))).trans hreq, by rw [if_neg hsc]; rfl, rfl, rfl, fun _ => rfl⟩

end

/-- A live lane outside regions performs its clean stores (05 R169). -/
theorem State.storesNow_closed {s : State} {a : Actor} {core g e : Nat} {o : MemOp} {x : Acc} (ha : a = .split core g e) (hu : o.info.uni = false) (hbad : x.bad = none)
    (hl : x.lane < 32) (hlive : ((s.ctx a).ln x.lane).life = .live) (hopn : ((s.ctx a).ln x.lane).rgn.opn = false) : s.storesNow a o x = true := by
  have hmarker : s.marker a = a := by rw [ha]; rfl
  simp [State.storesNow, hu, hbad, lanesOf_two_pow _ hl, hmarker, State.rgnAt_live hlive, hopn]

section
variable {s : State} {core g e : Nat} {i : Instr} {m : MInfo} {ad : Ctx → Lane → Except Payload Nat}

theorem Ctx.keepsRegs_of {c d : Ctx} (hs : d.s = c.s) (hq : d.q = c.q) (hl : d.lanes = c.lanes) :
    d.s = c.s ∧ d.q = c.q ∧ ∀ l, (d.ln l).v = (c.ln l).v ∧ (d.ln l).p = (c.ln l).p ∧ (d.ln l).dr = (c.ln l).dr := by
  refine ⟨hs, hq, fun l => ?_⟩
  rw [Ctx.ln, hl]
  exact ⟨rfl, rfl, rfl⟩

/-- The issue and the retirement of a memory instruction change no register. -/
theorem Ctx.issuing_registers (c : Ctx) (w : W32) (P Q : Tbl Held) (n e : Nat) (o : MemOp) (sp : Tbl Split) (pl : List Split) :
    let d := ((c.issuing w P n e o).withHeld (c.issuing w P n e o).lanes Q).withSplits sp pl
    d.s = c.s ∧ d.q = c.q ∧ d.lanes = c.lanes := ⟨rfl, rfl, rfl⟩

/-- The operation in flight changes when nothing else is. -/
theorem State.setOp_issuing (hact : s.cur.act = .split core g e) (c : Ctx) (w : W32) (P : Tbl Held) (n : Nat) (o o' : MemOp) (m' : Mem) :
    ({ s.setCtx s.cur.act (c.issuing w P n e o) with mem := m' } : State).setOp s.cur.act (some o')
      = ({ s with mem := m' } : State).setCtx s.cur.act (c.issuing w P n e o') := by
  have hmem (x : Ctx) : ({ s.setCtx s.cur.act x with mem := m' } : State) = ({ s with mem := m' } : State).setCtx s.cur.act x := by rw [hact]; rfl
  have hslot : s.cur.act.slot = e := by rw [hact]; rfl
  rw [hmem, State.setOp, State.updCtx, State.ctx_setCtx, State.setCtx_setCtx, hslot]
  simp only [Ctx.issuing, Tbl.put_singleton]

/-- The issue of a global form in a core that holds nothing. -/
theorem GlobalForm.fresh (hform : GlobalForm i m ad) (hact : s.cur.act = .split core g e) (hbare : s.bare) {l : Nat} {rest : List Nat} (hactive : s.active = l :: rest)
    (ea : Nat → Nat) (w : W32) (P : Tbl Held) (n k : Nat) :
    let accs := s.active.map (fun j => (s.me.ln j).globalAcc m j (ea j))
    let o := s.memOp i k (probesOf m accs) accs []
    FreshOp (s.setCtx s.cur.act (s.me.issuing w P n e o)) s.cur.act o m ((s.me.ln l).globalAcc m l (ea l)) (rest.map (fun j => (s.me.ln j).globalAcc m j (ea j))) := by
  intro accs o
  obtain ⟨hlines, hquar, hdc, hlanes⟩ := hbare
  have hslot : s.cur.act.slot = e := by rw [hact]; rfl
  have hctx (o : MemOp) : (s.setCtx s.cur.act (s.me.issuing w P n e o)).ctx s.cur.act = s.me.issuing w P n e o := State.ctx_setCtx ..
  have hinfo : o.info = m := by
    show (Instr.minfo i).getD {} = m
    rw [hform.info]
    rfl
  have hcore (o : MemOp) : (s.setCtx s.cur.act (s.me.issuing w P n e o)).coreOf s.cur.act = s.coreOf s.cur.act := by rw [hact]; rfl
  have hhead : accs = (s.me.ln l).globalAcc m l (ea l) :: rest.map (fun j => (s.me.ln j).globalAcc m j (ea j)) := by unfold accs; rw [hactive]; rfl
  exact {
    op := by
      rw [State.opOf, hctx, hslot]
      simp [Ctx.issuing, Tbl.find]
    mesh := rfl
    remote := rfl
    req := rfl
    first := by
      rw [hctx]
      simp [Ctx.issuing, Ctx.first]
    info := hinfo
    space := hform.space
    todo := hhead
    probes := congrArg (probesOf m) hhead
    probed := rfl
    size := hform.size
    lines := by rw [hcore, State.setCtx_mem]; exact hlines
    quar := by rw [hcore, State.core_setCtx]; exact hquar
    dc := by rw [State.setCtx_mem]; exact hdc
    now := by
      intro y hy
      obtain ⟨j, hj, rfl⟩ := List.mem_map.1 hy
      obtain ⟨hlive, hopn⟩ := hlanes j hj
      refine State.storesNow_closed hact (hinfo ▸ hform.lane) rfl (List.mem_range.1 (List.mem_filter.1 hj).1) ?_ ?_ <;> rw [hctx]
      · exact hlive
      · exact hopn }

end

end Sys2Proof.Machine
end

section
open Sys2Proof Sys2Proof.Machine

/-- Settles O36: the issue leaves one operation, whose first access decides its first request; the retirement that follows changes the splits and
the window of the held result. -/
theorem accessesIssue : Obligations.AccessesIssue := by
  unfold Obligations.AccessesIssue
  intro i k n ad hreach _ s core g e l rest ea hact hquiet hops hbare hactive hclean had
  obtain ⟨m, hform, rfl, hk⟩ := GlobalForm.of_reach hreach
  obtain ⟨w, hexec⟩ := hform.issues hact hquiet hops (by simp [hactive]) (fun j hj => laneData_clean (hclean j hj) m) had
  have hP := s.me.opened_awaited m s.mask
  rw [State.issueCtx] at hexec
  generalize s.me.opened m s.mask = P at hexec hP
  generalize (if m.dest.isEmpty then s.me.hid else s.me.hid + 1) = hid at hexec
  obtain ⟨m', r, hgo, hleads⟩ := (hform.fresh hact hbare hactive ea w P hid (s.issueHid m)).sends hk 199
  rw [State.setOp_issuing hact] at hgo
  generalize ho : s.memOp i _ _ _ [] = o at hexec hgo hleads
  obtain ⟨Q, sp, pl, hret, hends⟩ := State.retire_awaited (s := s) (t := { s with mem := m' }) (mask := s.mask)
    (c := s.me.issuing w P hid e { o with req := some r }) hact rfl hP rfl rfl
  rw [show memFuel = 199 + 1 from rfl, hgo, hret] at hexec
  have hslot : s.cur.act.slot = e := by rw [hact]; rfl
  have hme (c : Ctx) : (({ s with mem := m' } : State).setCtx s.cur.act c).me = c := State.me_setCtx_cur rfl c
  refine ⟨_, { o with req := some r }, r, hexec, ?_, hends, ?_,
    by rw [← ho]; rfl, by rw [← ho]; rfl, by rw [← ho]; rfl, ?_, rfl, hleads.kind, hleads.addr, hleads.st, hleads.accs⟩
  · unfold State.keepsRegs
    rw [hme]
    obtain ⟨hs, hq, hl⟩ := s.me.issuing_registers w P Q hid e { o with req := some r } sp pl
    exact Ctx.keepsRegs_of hs hq hl
  · rw [State.opOf, State.ctx_setCtx, hslot]
    simp [Ctx.issuing, Ctx.withHeld, Ctx.withSplits, Tbl.find]
  · rw [← ho]
    exact List.map_map

end

section
/-! The words of a global load (10 R320, R322). -/

namespace Sys2Proof.Machine

theorem regsOf_of_loadSize {n sgn : Nat} (h : loadSize n sgn) : regsOf n = wordsOf n := by
  rcases h with ⟨-, rfl | rfl | rfl | rfl | rfl⟩ | ⟨-, rfl⟩ | ⟨-, rfl⟩ <;> rfl

theorem bytesOf_lt (t : Tbl Byte) (off n : Nat) : bytesOf t off n < 2 ^ (8 * n) := by
  induction n generalizing off with
  | zero => exact Nat.one_pos
  | succ n ih =>
    have hstep : bytesOf t off (n + 1) = (Tbl.get 0 t off).toNat + 256 * bytesOf t (off + 1) n := by
      simp only [bytesOf, List.range_succ_eq_map, List.foldr_cons, List.foldr_map, Nat.add_zero]
      congr 4
      funext i x
      rw [Nat.succ_eq_add_one, Nat.add_comm i 1, Nat.add_assoc]
    have hbyte := (Tbl.get 0 t off).isLt
    have hrest := ih (off + 1)
    rw [hstep, show 8 * (n + 1) = 8 + 8 * n by omega, Nat.pow_add]
    omega

/-- A lane's word as a held result keeps it. -/
def Val.wide : Val W32 → Val W64
  | .ok w => .ok (w.setWidth 64)
  | .bad p => .bad p

theorem Val.low32_wide (v : Val W32) : Val.low32 (Val.wide v) = v := by
  cases v with
  | bad p => rfl
  | ok w => exact congrArg Val.ok (BitVec.setWidth_setWidth_of_le w (by decide))

/-- The sign extension of a byte or a halfword. -/
theorem word_signed {b x : Nat} (hb : b = 8 ∨ b = 16) (hx : x < 2 ^ b) :
    BitVec.ofNat 64 (lowBits 32 (toS b x) / 2 ^ (32 * 0) % 2 ^ 32) = ((BitVec.ofNat b x).signExtend 32).setWidth 64 := by
  have hint : (BitVec.ofNat b x).toInt = toS b x := by
    rw [BitVec.toInt_eq_toNat_cond, BitVec.toNat_ofNat, Nat.mod_eq_of_lt hx, toS, bit]
    rcases hb with rfl | rfl <;> (simp only [beq_iff_eq]; split <;> split <;> omega)
  have hlow : lowBits 32 (toS b x) < 2 ^ 32 := by
    rw [lowBits]
    omega
  refine BitVec.eq_of_toNat_eq ?_
  rw [BitVec.signExtend, BitVec.toNat_setWidth, BitVec.toNat_ofInt, hint, BitVec.toNat_ofNat, Nat.mul_zero, Nat.pow_zero, Nat.div_one, Nat.mod_eq_of_lt hlow]
  rfl

/-- The words that a load gives its held result for a number (R320, R322). -/
theorem words_load {n sgn : Nat} (h : loadSize n sgn) (d la hint x : Nat) (hx : x < 2 ^ (8 * n)) : (loadInfo d n sgn la hint).words x
    = (List.range (wordsOf n)).map (fun k => Val.wide (.ok (loadWord sgn x k))) := by
  rcases h with ⟨rfl, hn⟩ | ⟨rfl, rfl⟩ | ⟨rfl, rfl⟩
  · rw [← regsOf_of_loadSize (.inl ⟨rfl, hn⟩)]
    refine List.map_congr_left (fun k _ => congrArg Val.ok (BitVec.eq_of_toNat_eq ?_))
    simp [loadWord]
  · exact congrArg (fun w : W64 => [Val.ok w]) (word_signed (.inl rfl) hx)
  · exact congrArg (fun w : W64 => [Val.ok w]) (word_signed (.inr rfl) hx)

end Sys2Proof.Machine
end

section
/-! The held result of a load, with any lookahead (09 R283). -/

namespace Sys2Proof.Machine

/-- The context in which a load's result has become available. -/
def Ctx.available (c : Ctx) (id d k l la e : Nat) (v : Nat → Val W32) : Ctx :=
  { (c.withHeld c.lanes [(id, heldLoad d k l (la + 1) (some (fun j => Val.wide (v j))))]).warns 0 with memops := Tbl.del c.memops e }

section
variable {s t : State} {core g e l d k la id m : Nat} {v : Nat → Val W32} (hact : s.cur.act = .split core g e)
  (ht : AccessDone s t e [(id, heldLoad d k l (la + 1) none)]) (hlive : (s.me.ln l).life = .live)
include hact ht hlive

/-- What the completion of a load does, while the window of its result is open. -/
theorem AccessDone.delivers : (((t.updCtx s.cur.act (fun c => (c.deliver id [(l, (List.range k).map (fun j => Val.wide (v j)))]).warns 0)).setOp s.cur.act none).updCtx
      s.cur.act Ctx.settle) = t.setCtx s.cur.act ((t.ctx s.cur.act).available id d k l la e v) := by
  have hslot : s.cur.act.slot = e := by rw [hact]; rfl
  have hlane : ((t.ctx s.cur.act).ln l).life = .live := by rw [Ctx.ln, ht.keeps.1]; exact hlive
  have hsettle : ((t.ctx s.cur.act).available id d k l la e v).settle = (t.ctx s.cur.act).available id d k l la e v :=
    Ctx.settle_unripe _ rfl (Ctx.ripe_open _ d k la _ hlane)
  rw [State.setOp]
  simp only [State.updCtx, State.ctx_setCtx, State.setCtx_setCtx, Ctx.deliver_held _ ht.pend, hslot]
  exact congrArg (State.setCtx t s.cur.act) hsettle

variable (hl : l < 32) (hm : bit m l = true) (hd : d + k ≤ 128)
include hl hm hd

/-- A load that completes at its issue has written its registers when it retires, or holds its words for the rest of its window. -/
theorem AccessDone.retires : ∃ u, (t.setCtx s.cur.act ((t.ctx s.cur.act).available id d k l la e v)).retire m = u ∧ u.me.memops = [] ∧ s.endsAs u s.after
    ∧ u.mem = t.mem ∧ s.loadsTo u l d k la v := by
  obtain ⟨hlanes, -, -, hsp, hpl⟩ := ht.keeps
  generalize hc : (t.ctx s.cur.act).available id d k l la e v = c
  have hcl : c.lanes = s.me.lanes := by rw [← hc]; exact hlanes
  have hcs : c.splits = s.me.splits := by rw [← hc]; exact hsp
  have hcp : c.pool = s.me.pool := by rw [← hc]; exact hpl
  have hco : c.memops = [] := by rw [← hc]; exact ht.memops
  have hpend : c.pend = [(id, heldLoad d k l (la + 1) (some (fun j => Val.wide (v j))))] := by rw [← hc]; rfl
  have hX : (t.setCtx s.cur.act c).cur = s.cur := (State.setCtx_cur ..).trans ht.cur
  have hme (x : Ctx) : (t.setCtx s.cur.act x).me = x := State.me_setCtx_cur ht.cur x
  cases la with
  | zero =>
    obtain ⟨sp, pl, hret, hlone⟩ := State.retire_writes (s := t.setCtx s.cur.act c) (m := m) (by rw [hX]; exact hact) (by rw [hme]; exact hpend) hl hm
    rw [hX, hme, State.setCtx_setCtx] at hret
    rw [hme, hX] at hlone
    refine ⟨_, hret, by rw [hme]; exact hco, State.endsAs_after hact ht.cur hcs hcp hlone, State.setCtx_mem .., fun _ r hr => ?_, fun h => absurd rfl h⟩
    have hln : ((c.withHeld (lanesWritten c.lanes l d k (fun j => Val.wide (v j))) []).ln l) = (s.me.ln l).written d k (fun j => Val.wide (v j)) := by
      rw [Ctx.ln, Ctx.withHeld, get_lanesWritten, hcl]
      rfl
    rw [hme, Ctx.withSplits_ln, hln, Lane.rd_written _ _ hd hr, Val.low32_wide]
  | succ la =>
    obtain ⟨sp, pl, hret, hlone⟩ := State.retire_split (s := t.setCtx s.cur.act c) (m := m) (T := c.lanes)
      (P := [(id, heldLoad d k l (la + 1) (some (fun j => Val.wide (v j))))]) (by rw [hX]; exact hact) (fun x hxl hxp => by
        rw [hme] at hxl hxp
        rw [x.tickWin_held (hxp.trans hpend) hl hm, hxl]
        exact Ctx.settle_unripe _ rfl (Ctx.ripe_open _ d k la _ (by rw [Ctx.ln]; exact (congrArg (fun T => (Tbl.get ({} : Lane) T l).life) hcl).trans hlive)))
    rw [hX, hme, State.setCtx_setCtx] at hret
    rw [hme, hX] at hlone
    refine ⟨_, hret, by rw [hme]; exact hco, State.endsAs_after hact ht.cur hcs hcp hlone, State.setCtx_mem .., nofun, fun _ => ⟨fun r _ => ?_, ?_⟩⟩
    · rw [hme, Ctx.withSplits_ln, Ctx.ln, Ctx.withHeld, hcl]
      rfl
    · rw [hme]
      refine ⟨_, rfl, rfl, rfl, rfl, rfl, congrArg (fun f => some [(l, (List.range k).map f)]) (funext fun j => ?_)⟩
      cases v j <;> rfl

end

/-- The record of one fault of a group: its lane gets a payload of the cause, and of the group's context the last record and the overflow flag
change. -/
theorem AccessDone.records {s t : State} {core g e l : Nat} {P : Tbl Held} (ht : AccessDone s t e P) (hact : s.cur.act = .split core g e) (pc : W64) (f : Flt)
    (va page : Nat) (cln : Bool) : ∃ u q, t.alloc (t.marker s.cur.act) pc [Res.laneFault l f va page cln] = (u, [(l, q)])
      ∧ plCause q = f.cause % 64 ∧ u.mem = t.mem ∧ AccessDone s u e P := by
  have hmarker : t.marker s.cur.act = s.cur.act := by rw [hact]; rfl
  obtain ⟨co, last, full, k, halloc⟩ := State.alloc_one (s := t) hact pc (Res.laneFault l f va page cln)
  rw [hmarker, halloc]
  refine ⟨_, _, rfl, plCause_mkPl _ _, State.updCtx_mem .., (State.updCtx_cur ..).trans ht.cur, ?_, ?_, ?_⟩
  all_goals rw [State.updCtx, State.ctx_setCtx, State.ctx_setCore]
  · exact ht.keeps
  · exact ht.pend
  · exact ht.memops

/-! The completion of a load by its result. -/

section
variable {s : State} {a : Actor} {o : MemOp} {l : Nat} (hk : o.info.kind = .load) (hu : o.info.uni = false) (hl : lanesOf o.mask = [l])
include hk hu hl

theorem State.memFinish_number {v : Nat} (hres : Tbl.find o.res (l * 8) = some (.num v)) : s.memFinish a o
    = ((s.updCtx a (fun c => (c.deliver o.hid [(l, o.info.words v)]).warns 0)).setOp a none).updCtx a Ctx.settle := by
  simp [State.memFinish, hk, hu, hl, hres, faultsOf, MemOp.value]

theorem State.memFinish_poison {p : Payload} (hres : Tbl.find o.res (l * 8) = some (.bad p)) : s.memFinish a o
    = ((s.updCtx a (fun c => (c.deliver o.hid [(l, List.replicate (regsOf o.info.size) (.bad p))]).warns 0)).setOp a none).updCtx a Ctx.settle := by
  simp [State.memFinish, hk, hu, hl, hres, faultsOf, MemOp.value]

theorem State.memFinish_faulted {f : Flt} {va page : Nat} {cln : Bool} (hres : Tbl.find o.res (l * 8) = some (.fault f va page cln)) {t : State} {tb : Tbl Payload}
    (halloc : s.alloc (s.marker a) o.pc [Res.laneFault l f va page cln] = (t, tb)) : s.memFinish a o
    = ((t.updCtx a (fun c => (c.deliver o.hid [(l, List.replicate (regsOf o.info.size) (.bad (Tbl.get 0 tb l)))]).warns 0)).setOp a none).updCtx a Ctx.settle := by
  simp [State.memFinish, hk, hu, hl, hres, faultsOf_one, MemOp.value, halloc]

end

end Sys2Proof.Machine
end

section
/-! A global load of one lane, from its issue to its end. -/

namespace Sys2Proof.Machine

/-- A global load at its issue: one live lane of a group, with nothing outstanding. -/
structure LoadIssue (s : State) (i : Instr) (d n sgn la hint core g e l : Nat) (ad : Ctx → Lane → Except Payload Nat) : Prop where
  form : GlobalForm i (loadInfo d n sgn la hint) ad
  size : loadSize n sgn
  regs : d + wordsOf n ≤ 128
  act : s.cur.act = .split core g e
  pend : s.me.pend = []
  memops : s.me.memops = []
  active : s.active = [l]
  live : (s.me.ln l).life = .live

/-- The held result of a load at its issue. -/
def State.loadHeld (s : State) (d n la l : Nat) : Tbl Held := [(s.me.hid, heldLoad d (wordsOf n) l (la + 1) none)]

/-- The state at the issue of the operation `o` of a load. -/
def State.loadState (s : State) (d n la e l : Nat) (w : W32) (o : MemOp) : State :=
  s.setCtx s.cur.act (s.me.issuing w (s.loadHeld d n la l) (s.me.hid + 1) e o)

/-- The operation of a load. -/
def State.loadOp (s : State) (i : Instr) (todo : List Acc) (res : Tbl Res) : MemOp := s.memOp i s.me.hid [] todo res

section
variable {s : State} {i : Instr} {d n sgn la hint core g e l : Nat} {ad : Ctx → Lane → Except Payload Nat} (h : LoadIssue s i d n sgn la hint core g e l ad)
include h

theorem LoadIssue.slot : s.cur.act.slot = e := by rw [h.act]; rfl

theorem LoadIssue.lane : l < 32 ∧ bit s.mask l = true :=
  let ⟨hlt, hbit, _⟩ := mem_lanesOf_singleton h.active
  ⟨hlt, hbit⟩

theorem LoadIssue.info (todo : List Acc) (res : Tbl Res) : (s.loadOp i todo res).info = loadInfo d n sgn la hint := by
  show (Instr.minfo i).getD {} = _
  rw [h.form.info]
  rfl

theorem LoadIssue.dest : (loadInfo d n sgn la hint).dest = (List.range (wordsOf n)).map (d + ·) ∧ (loadInfo d n sgn la hint).dest.isEmpty = false := by
  have hdest : (loadInfo d n sgn la hint).dest = (List.range (regsOf n)).map (d + ·) := rfl
  rw [hdest, regsOf_of_loadSize h.size]
  refine ⟨rfl, ?_⟩
  rw [wordsOf]
  split
  · rfl
  · split <;> rfl

theorem LoadIssue.hid : s.issueHid (loadInfo d n sgn la hint) = s.me.hid := by
  rw [State.issueHid, h.dest.2]
  rfl

/-- What a load holds at its issue. -/
theorem LoadIssue.issueCtx (w : W32) (o : MemOp) : s.setCtx s.cur.act (s.issueCtx (loadInfo d n sgn la hint) w e o) = s.loadState d n la e l w o := by
  obtain ⟨hregs, hdest⟩ := h.dest
  have hmask := (mem_lanesOf_singleton h.active).2.2
  have hlanes : lanesOf s.mask = [l] := h.active
  have hres : (loadInfo d n sgn la hint).result s.mask = heldLoad d (wordsOf n) l (la + 1) none := by
    rw [MInfo.result, hregs, if_neg hmask, hlanes]
    rfl
  have hopened : s.me.opened (loadInfo d n sgn la hint) s.mask = s.loadHeld d n la l := by
    rw [Ctx.opened, hdest, hres]
    rfl
  rw [State.issueCtx, hopened, hdest]
  rfl

omit h in
/-- What has become of a load whose access has its result: nothing but the memory changes until it is written. -/
theorem State.load_done (s : State) (d n la e l : Nat) (w : W32) (o : MemOp) (m' : Mem) :
    AccessDone s (({ s with mem := m' } : State).setCtx s.cur.act (s.me.issuing w (s.loadHeld d n la l) (s.me.hid + 1) e o)) e (s.loadHeld d n la l) := by
  have hctx (c : Ctx) : (({ s with mem := m' } : State).setCtx s.cur.act c).ctx s.cur.act = c := State.ctx_setCtx ..
  refine ⟨State.setCtx_cur .., ?_, ?_, ?_⟩ <;> rw [hctx]
  · exact ⟨rfl, rfl, rfl, rfl, rfl⟩
  · rfl
  · simp [Ctx.issuing, Tbl.del]

/-- A load whose words have become available ends with them. -/
theorem LoadIssue.ends {t : State} (ht : AccessDone s t e (s.loadHeld d n la l)) (v : Nat → Val W32) :
    ∃ u, (((t.updCtx s.cur.act (fun c => (c.deliver s.me.hid [(l, (List.range (wordsOf n)).map (fun j => Val.wide (v j)))]).warns 0)).setOp s.cur.act none).updCtx
      s.cur.act Ctx.settle).retire s.mask = u ∧ u.me.memops = [] ∧ s.endsAs u s.after ∧ u.mem = t.mem ∧ s.loadsTo u l d (wordsOf n) la v := by
  rw [AccessDone.delivers h.act ht h.live]
  exact AccessDone.retires h.act ht h.live h.lane.1 h.lane.2 h.regs

/-- The poison that a load writes to every register. -/
theorem LoadIssue.poison (p : Payload) : (List.replicate (regsOf (loadInfo d n sgn la hint).size) (.bad p) : List (Val W64))
    = (List.range (wordsOf n)).map (fun _ => Val.wide (.bad p)) := by
  rw [show (loadInfo d n sgn la hint).size = n from rfl, regsOf_of_loadSize h.size, List.map_const', List.length_range]
  rfl

/-! A load whose line the L1 can serve. -/

omit h in
/-- A load whose line is there and has its bytes without poison gets them. -/
theorem State.tryAcc_load {a : Actor} {o : MemOp} {x : Acc} {y : L1Line} (hs : o.info.space = none) (hk : o.info.kind = .load)
    (hquar : (s.core (s.coreOf a)).quar = []) (hz : 0 < x.size) (hlook : s.mem.look1 (s.coreOf a) (s.ctx a).asid (x.addr / 128) = (s.mem, some y))
    (hhas : y.has (x.addr % 128) x.size = true) (hbad : y.bad (x.addr % 128) x.size = false) :
    s.tryAcc a o x = ({ s with mem := s.mem.put1 (s.coreOf a) y }, .done (.num (tblNum y.data (x.addr % 128) x.size))) := by
  have hall : (List.replicate x.size (none : Option QByte)).all Option.isSome = false := by
    rw [List.all_replicate, if_neg (by omega)]
    rfl
  have hline := State.tryLine_load (s := s) (a := a) (o := o) (x := x) (l := y) hk hbad hquar
  unfold State.tryAcc
  simp [hs, hk, State.held_empty hquar, hall, hlook, hhas, hline]

/-- The access of a load. -/
def loadAcc (l ea n : Nat) : Acc := { lane := l, addr := ea, size := n }

theorem LoadIssue.issues {ea : Nat} (had : ad s.me (s.me.ln l) = .ok ea) (hmod : ea % n = 0) (hlt : ea < 2 ^ 55) :
    ∃ w, exec i s = .next (((s.loadState d n la e l w (s.loadOp i [loadAcc l ea n] [])).memGo memFuel s.cur.act).retire s.mask) := by
  obtain ⟨w, hexec⟩ := h.form.issues h.act h.pend h.memops (by simp [h.active]) (ea := fun _ => ea) (fun _ _ => rfl)
    (fun j hj => by
      rw [h.active, List.mem_singleton] at hj
      subst hj
      exact ⟨had, hmod, hlt⟩)
  refine ⟨w, ?_⟩
  rw [hexec, h.issueCtx, h.hid, h.active, probesOf_none (by simp [loadInfo]) (by simp [loadInfo])]
  rfl

/-- A load whose access has its result at once (R321). -/
theorem LoadIssue.issues_res {r : Res} (had : startLane (loadInfo d n sgn la hint) l (ad s.me (s.me.ln l)) (laneData (loadInfo d n sgn la hint) (s.me.ln l)) = .res r) :
    ∃ w, exec i s = .next (((s.loadState d n la e l w (s.loadOp i [] [(l * 8, r)])).memGo memFuel s.cur.act).retire s.mask) := by
  obtain ⟨w, hexec⟩ := h.form.issues_res h.act h.pend h.memops h.active (probesOf_none (by simp [loadInfo]) (by simp [loadInfo]) []) had
  refine ⟨w, ?_⟩
  rw [hexec, h.issueCtx, h.hid]
  rfl

theorem LoadIssue.opOf (w : W32) (o : MemOp) : (s.loadState d n la e l w o).opOf s.cur.act = some o := by
  rw [State.opOf, State.loadState, State.ctx_setCtx, h.slot]
  simp [Ctx.issuing, Tbl.find]

/-- A load completes with the words of a number. -/
theorem LoadIssue.finishes {t : State} {todo : List Acc} {res : Tbl Res} {x : Nat} (hres : Tbl.find res (l * 8) = some (.num x)) (hx : x < 2 ^ (8 * n)) :
    t.memFinish s.cur.act (s.loadOp i todo res) = ((t.updCtx s.cur.act (fun c => (c.deliver s.me.hid
      [(l, (List.range (wordsOf n)).map (fun k => Val.wide (.ok (loadWord sgn x k))))]).warns 0)).setOp s.cur.act none).updCtx s.cur.act Ctx.settle := by
  rw [State.memFinish_number (o := s.loadOp i todo res) (by rw [h.info]; rfl) (by rw [h.info]; rfl) h.active hres, h.info, words_load h.size d la hint x hx]
  rfl

/-- A load completes with poison. -/
theorem LoadIssue.finishes_poison {t : State} {todo : List Acc} {res : Tbl Res} {p : Payload} (hres : Tbl.find res (l * 8) = some (.bad p)) :
    t.memFinish s.cur.act (s.loadOp i todo res) = ((t.updCtx s.cur.act (fun c => (c.deliver s.me.hid
      [(l, (List.range (wordsOf n)).map (fun _ => Val.wide (.bad p)))]).warns 0)).setOp s.cur.act none).updCtx s.cur.act Ctx.settle := by
  rw [State.memFinish_poison (o := s.loadOp i todo res) (by rw [h.info]; rfl) (by rw [h.info]; rfl) h.active hres, h.info, h.poison]
  rfl

/-- A load completes with the poison of its fault. -/
theorem LoadIssue.finishes_fault {t u : State} {todo : List Acc} {res : Tbl Res} {f : Flt} {va page : Nat} {cln : Bool} {p : Payload}
    (hres : Tbl.find res (l * 8) = some (.fault f va page cln)) (halloc : t.alloc (t.marker s.cur.act) s.cur.pc [Res.laneFault l f va page cln] = (u, [(l, p)])) :
    t.memFinish s.cur.act (s.loadOp i todo res) = ((u.updCtx s.cur.act (fun c => (c.deliver s.me.hid
      [(l, (List.range (wordsOf n)).map (fun _ => Val.wide (.bad p)))]).warns 0)).setOp s.cur.act none).updCtx s.cur.act Ctx.settle := by
  rw [State.memFinish_faulted (o := s.loadOp i todo res) (by rw [h.info]; rfl) (by rw [h.info]; rfl) h.active hres halloc, h.info, h.poison]
  simp only [Tbl.get, if_true]
  rfl

theorem LoadIssue.completes_res (w : W32) (r : Res) : (s.loadState d n la e l w (s.loadOp i [] [(l * 8, r)])).memGo memFuel s.cur.act
    = (s.loadState d n la e l w (s.loadOp i [] [(l * 8, r)])).memFinish s.cur.act (s.loadOp i [] [(l * 8, r)]) := by
  rw [show memFuel = 199 + 1 from rfl, State.memGo, h.opOf]
  rfl

/-- A load of a poisoned address writes the payload. -/
theorem LoadIssue.poisoned {p : Payload} (had : ad s.me (s.me.ln l) = .error p) :
    ∃ t, exec i s = .next t ∧ t.me.memops = [] ∧ t.mem = s.mem ∧ s.endsAs t s.after ∧ s.loadsTo t l d (wordsOf n) la (fun _ => .bad p) := by
  obtain ⟨w, hexec⟩ := h.issues_res (by rw [had]; exact startLane_poison rfl l p _)
  obtain ⟨t, hret, hops, hends, hmem, hloads⟩ := h.ends (s.load_done d n la e l w (s.loadOp i [] [(l * 8, .bad p)]) s.mem) (fun _ => .bad p)
  refine ⟨t, ?_, hops, hmem.trans (State.setCtx_mem ..), hends, hloads⟩
  rw [hexec, h.completes_res, h.finishes_poison (p := p) (by simp [Tbl.find])]
  exact congrArg _ hret

/-- A load of a wrong address writes the poison of its fault. -/
theorem LoadIssue.faulted {ea : Nat} (had : ad s.me (s.me.ln l) = .ok ea) (hea : ea % n ≠ 0 ∨ 2 ^ 55 ≤ ea) :
    ∃ t p, exec i s = .next t ∧ t.me.memops = [] ∧ t.mem = s.mem ∧ s.endsAs t s.after
      ∧ plCause p = (if ea % n ≠ 0 then cMisalign else cBounds) ∧ s.loadsTo t l d (wordsOf n) la (fun _ => .bad p) := by
  obtain ⟨w, hexec⟩ := h.issues_res (by rw [had]; exact startLane_fault rfl rfl l hea)
  generalize hf : (if ea % (loadInfo d n sgn la hint).size ≠ 0 then (⟨cMisalign, (loadInfo d n sgn la hint).size⟩ : Flt) else ⟨cBounds, 0⟩) = f at hexec
  have hdone : AccessDone s (s.loadState d n la e l w (s.loadOp i [] [(l * 8, gFault f ea)])) e _ := s.load_done d n la e l w _ s.mem
  obtain ⟨u, p, halloc, hp, humem, hu⟩ := hdone.records h.act s.cur.pc f ea (ea % 2 ^ 55 / 65536) false
  obtain ⟨t, hret, hops, hends, hmem, hloads⟩ := h.ends hu (fun _ => .bad p)
  refine ⟨t, p, ?_, hops, hmem.trans (humem.trans (State.setCtx_mem ..)), hends, hp.trans ?_, hloads⟩
  · rw [hexec, h.completes_res, h.finishes_fault (by simp [Tbl.find, gFault]) halloc]
    exact congrArg _ hret
  · rw [← hf]
    show (if ea % n ≠ 0 then (⟨cMisalign, n⟩ : Flt) else ⟨cBounds, 0⟩).cause % 64 = _
    split <;> rfl

/-- A load that the L1 can serve gets the bytes at its address. -/
theorem LoadIssue.serves {ea : Nat} (had : ad s.me (s.me.ln l) = .ok ea) (hmod : ea % n = 0) (hlt : ea < 2 ^ 55) (hquar : (s.core core).quar = []) {y : L1Line}
    (hlook : s.mem.look1 core s.me.asid (ea / 128) = (s.mem, some y)) (hhas : y.has (ea % 128) n = true) (hbad : y.bad (ea % 128) n = false) :
    ∃ t, exec i s = .next t ∧ t.me.memops = [] ∧ s.endsAs t s.after
      ∧ s.loadsTo t l d (wordsOf n) la (fun k => .ok (loadWord sgn (bytesOf y.data (ea % 128) n) k)) := by
  obtain ⟨w, hexec⟩ := h.issues had hmod hlt
  obtain ⟨o, ho⟩ : ∃ o, o = s.loadOp i [loadAcc l ea n] [] := ⟨_, rfl⟩
  rw [← ho] at hexec
  have hctx : (s.loadState d n la e l w o).ctx s.cur.act = s.me.issuing w (s.loadHeld d n la l) (s.me.hid + 1) e o := State.ctx_setCtx ..
  have hcore : (s.loadState d n la e l w o).coreOf s.cur.act = core := by rw [h.act]; rfl
  have hn : 0 < n := h.form.size
  have htry := State.tryAcc_load (s := s.loadState d n la e l w o) (a := s.cur.act) (o := o) (x := loadAcc l ea n) (y := y) (by rw [ho, h.info]; rfl) (by rw [ho, h.info]; rfl)
    (by rw [hcore, State.loadState, State.core_setCtx]; exact hquar) hn (by rw [hcore, hctx, State.loadState, State.setCtx_mem]; exact hlook) hhas hbad
  have hgo := State.memGo_one 198 (h.opOf w o) (by rw [ho]; rfl) (by rw [ho]; rfl) (by rw [ho]; rfl) (by rw [ho]; rfl) (by rw [ho]; rfl) (by rw [ho]; rfl)
    (by rw [hctx]; simp [Ctx.issuing, Ctx.first]) htry
  rw [hcore, State.loadState, State.setOp_issuing h.act] at hgo
  have hdone : o.done (loadAcc l ea n) (.num (tblNum y.data (ea % 128) n)) = s.loadOp i [] [(l * 8, .num (tblNum y.data (ea % 128) n))] := by
    rw [ho]
    simp [MemOp.done, State.loadOp, State.memOp, Tbl.put_nil, loadAcc]
  have hv := bytesOf_lt y.data (ea % 128) n
  rw [← tblNum_eq_bytesOf] at hv ⊢
  rw [show tblNum y.data ((loadAcc l ea n).addr % 128) (loadAcc l ea n).size = tblNum y.data (ea % 128) n from rfl, hdone] at hgo
  generalize tblNum y.data (ea % 128) n = v at hgo hv ⊢
  obtain ⟨t, hret, hops, hends, -, hloads⟩ := h.ends (s.load_done d n la e l w (s.loadOp i [] [(l * 8, .num v)]) _) (fun k => .ok (loadWord sgn v k))
  refine ⟨t, ?_, hops, hends, hloads⟩
  rw [hexec, show memFuel = 198 + 2 from rfl, State.loadState, hgo, h.finishes (x := v) (by simp [Tbl.find]) hv]
  exact congrArg _ hret

end

end Sys2Proof.Machine
end

section
open Sys2Proof Sys2Proof.Machine

/-- Settles O37: the first checks of the lane decide; what they or the L1 give becomes available in the held result, whose window the retirement
counts down. -/
theorem loadResults : Obligations.LoadResults := by
  unfold Obligations.LoadResults
  intro i d n sgn la ad hload _ hregs s core g e l hact hquiet hops hactive _ hquar hlive
  obtain ⟨hsize, hint, hform⟩ := GlobalForm.of_load hload
  have h : LoadIssue s i d n sgn la hint core g e l ad := ⟨hform, hsize, hregs, hact, hquiet, hops, hactive, hlive⟩
  exact ⟨fun ea y had hmod hlt hlook hhas hbad => h.serves had hmod hlt hquar hlook hhas hbad, fun ea had hea => h.faulted had hea,
    fun p had => h.poisoned had⟩

end

section
/-! Arrivals of a group at a barrier: which of its lanes are still missing (06 R188, R189, R206). -/

namespace Sys2Proof.Machine

theorem add_two_pow_of_testBit {m l : Nat} (h : m.testBit l = false) : m + 2 ^ l = m ||| 2 ^ l := by
  have hand : (m ||| 2 ^ l) &&& m = m := Nat.eq_of_testBit_eq fun i => by
    rw [Nat.testBit_and, Nat.testBit_or]
    cases m.testBit i <;> simp
  have hdiff : Nat.ldiff (m ||| 2 ^ l) m = 2 ^ l := Nat.eq_of_testBit_eq fun i => by
    rw [Nat.testBit_ldiff, Nat.testBit_or, Nat.testBit_two_pow]
    by_cases hi : l = i
    · subst hi; simp [h]
    · simp [hi]
  have hsum := land_add_ldiff (m ||| 2 ^ l) m
  rwa [hand, hdiff] at hsum

/-- The mask of a list of lanes has their bits. -/
theorem testBit_maskOf (ls : List Nat) (i : Nat) : (maskOf ls).testBit i = decide (i ∈ ls) := by
  have hfold (m : Nat) : (ls.foldl (fun m l => if bit m l then m else m + 2 ^ l) m).testBit i = (m.testBit i || decide (i ∈ ls)) := by
    induction ls generalizing m with
    | nil => simp
    | cons l ls ih =>
      rw [List.foldl_cons, ih]
      by_cases hl : m.testBit l
      · rw [bit_eq_testBit, if_pos hl]
        by_cases hi : i = l
        · subst hi; simp [hl]
        · simp [hi]
      · rw [bit_eq_testBit, if_neg hl, add_two_pow_of_testBit (by simpa using hl), Nat.testBit_or, Nat.testBit_two_pow]
        by_cases hi : i = l
        · subst hi; simp
        · simp [hi, Ne.symm hi]
  rw [maskOf, hfold, Nat.zero_testBit, Bool.false_or]

theorem Ctx.testBit_alive (c : Ctx) (i : Nat) : c.alive.testBit i = decide (i < 32 ∧ (c.ln i).life ≠ .exited) := by
  rw [Ctx.alive, testBit_maskOf]
  simp

/-- A group of no halted split has arrived when each of its lanes that has not exited has. -/
theorem Ctx.arrived_iff {c : Ctx} {key : Nat} (h : c.haltedLanes = 0) :
    c.arrived key = true ↔ ∀ l < 32, (c.ln l).life ≠ .exited → bit (Tbl.get 0 c.arr key) l = true := by
  have hzero : without c.alive (without (Tbl.get 0 c.arr key) c.haltedLanes) = 0
      ↔ ∀ i, (without c.alive (without (Tbl.get 0 c.arr key) c.haltedLanes)).testBit i = false :=
    ⟨fun h i => by rw [h, Nat.zero_testBit], fun h => Nat.eq_of_testBit_eq fun i => by rw [h, Nat.zero_testBit]⟩
  rw [Ctx.arrived, beq_iff_eq, hzero]
  simp only [testBit_without, h, Nat.zero_testBit, Ctx.testBit_alive, bit_eq_testBit]
  refine forall_congr' fun i => ?_
  by_cases hi : i < 32 <;> by_cases hl : (c.ln i).life = .exited <;> simp [hi, hl]

/-- A context with one split has no lane of a halted one, unless it is that. -/
theorem Ctx.haltedLanes_lone {c : Ctx} {e : Nat} {x : Split} (hs : c.splits = [(e, x)]) (hp : c.pool = []) (hx : x.halted = false) : c.haltedLanes = 0 := by
  simp [Ctx.haltedLanes, hs, hp, hx]

end Sys2Proof.Machine
end

section
/-! Episodes of a barrier: whether one is complete, and what its end leaves of the one group of a lone workgroup (03 R101; 06 R188). -/

namespace Sys2Proof.Machine

/-- Completion depends on the workgroups, the grids, and which groups are on and have arrived. -/
theorem State.barDone_congr {s t : State} {key : Nat} (hcores : t.cores = s.cores) (hgrids : t.grids = s.grids)
    (hgroups : ∀ c g, (t.ctx (.split c g 0)).on = (s.ctx (.split c g 0)).on ∧ (t.ctx (.split c g 0)).arrived key = (s.ctx (.split c g 0)).arrived key)
    (core : Nat) (w : Wg) : t.barDone core w key = s.barDone core w key := by
  have hwg (c : Nat) (w : Wg) (k : Nat) (hk : k = key) : t.wgArrived c w k = s.wgArrived c w k := by
    subst hk
    simp only [State.wgArrived, State.groupsOf, List.all_filter, List.all_map, Function.comp_def, hgroups]
  unfold State.barDone
  simp only [State.residents, State.gridAt, hcores, hgrids]
  split
  next h => exact hwg core w 0 h.symm
  split
  next h => simp only [hwg _ _ 1 h.symm]
  · simp only [hwg _ _ key rfl]
    rfl

theorem Tbl.mem_get {α : Type} (d : α) (t : Tbl α) (k : Nat) (h : Tbl.get d t k ≠ d) : (k, Tbl.get d t k) ∈ t := by
  induction t with
  | nil => exact absurd rfl h
  | cons y r ih =>
    obtain ⟨j, v⟩ := y
    rw [Tbl.get] at h ⊢
    split
    · next hj => rw [hj]; exact List.mem_cons_self
    · next hj => rw [if_neg hj] at h; exact List.mem_cons_of_mem _ (ih h)

section
variable {s : State} {core g e key : Nat} (hact : s.cur.act = .split core g e)
include hact

/-- The workgroup of a group is resident on its core. -/
theorem State.wgOf_resident (hg : g ∈ (s.wgOf s.cur.act).slots) : (core, s.me.wslot, s.wgOf s.cur.act) ∈ s.residents := by
  have hwg : s.wgOf s.cur.act = Tbl.get {} (s.core core).wgs s.me.wslot := by rw [State.wgOf, State.me, hact]; rfl
  have hslots (w : Wg) (h : g ∈ w.slots) : w ≠ {} := by rintro rfl; exact absurd h List.not_mem_nil
  have hw := Tbl.mem_get {} (s.core core).wgs s.me.wslot (hwg ▸ hslots _ hg)
  have hcore : s.core core ≠ {} := by
    intro h
    rw [h] at hw
    exact absurd hw List.not_mem_nil
  refine List.mem_flatMap.2 ⟨(core, s.core core), Tbl.mem_get ({} : Core) s.cores core hcore, ?_⟩
  rw [hwg]
  exact List.mem_map.2 ⟨_, hw, rfl⟩

/-- A group that has not arrived keeps its workgroup's episode open, and that of its pack. -/
theorem State.barDone_missing (hg : g ∈ (s.wgOf s.cur.act).slots) (hon : s.me.on = true) (hdone : key = 1 → (s.wgOf s.cur.act).done = false)
    (harr : s.me.arrived key = false) (hkey : key < 2) : s.barDone core (s.wgOf s.cur.act) key = false := by
  have hctx : s.ctx (.split core g 0) = s.me := by rw [State.me, hact]; rfl
  have hwg (k : Nat) (hk : k = key) : s.wgArrived core (s.wgOf s.cur.act) k = false := by
    subst hk
    rw [State.wgArrived, Bool.and_eq_false_iff, State.groupsOf, List.all_eq_false]
    right
    exact ⟨(g, s.me), List.mem_filter.2 ⟨List.mem_map.2 ⟨g, hg, by rw [hctx]⟩, hon⟩, by rw [harr]; exact Bool.false_ne_true⟩
  unfold State.barDone
  split
  · next h => exact hwg 0 h.symm
  · have h1 : key = 1 := by omega
    subst h1
    rw [if_pos rfl, List.all_eq_false]
    refine ⟨_, List.mem_filter.2 ⟨s.wgOf_resident hact hg, ?_⟩, ?_⟩
    · simp [Wg.peer]
    · simp [hdone rfl, hwg 1 rfl]

end

/-- A group that is alone on the module with its workgroup. -/
structure State.Sole (s : State) (core g : Nat) : Prop where
  slots : (s.wgOf s.cur.act).slots = [g]
  running : (s.wgOf s.cur.act).done = false
  cores : s.cores.map Prod.fst = [core]
  wgs : (s.core core).wgs.map Prod.fst = [s.me.wslot]

/-- Arrivals that the open episode of a die or team barrier of a workgroup still needs. -/
def State.barDue (s : State) (core : Nat) (w : Wg) (key : Nat) : Nat :=
  match s.gridAt w.grid with
  | none => 0
  | some g => if key = 2 then g.dieTotal (core / 64) - Tbl.get 0 g.goneDie (core / 64) else Tbl.get 0 g.teamCnt (key - 16) - Tbl.get 0 g.goneTeam (key - 16)

section
variable {s : State} {core g e key : Nat} (hact : s.cur.act = .split core g e) (h : s.Sole core g)
include hact h

theorem State.Sole.residents : s.residents = [(core, s.me.wslot, s.wgOf s.cur.act)] := by
  obtain ⟨-, -, hcores, hwgs⟩ := h
  have hwg : s.wgOf s.cur.act = Tbl.get {} (s.core core).wgs s.me.wslot := by rw [State.wgOf, State.me, hact]; rfl
  rw [hwg]
  obtain ⟨⟨c, co⟩, hc, rfl⟩ := List.map_eq_singleton_iff.1 hcores
  have hco : s.core c = co := by simp [State.core, hc, Tbl.get]
  dsimp only at hwgs ⊢
  rw [hco] at hwgs ⊢
  obtain ⟨⟨k, w⟩, hw, hk⟩ := List.map_eq_singleton_iff.1 hwgs
  rw [← hk, State.residents, hc]
  simp [hw, Tbl.get]

theorem State.Sole.groupsOf (hon : s.me.on = true) : s.groupsOf core (s.wgOf s.cur.act) = [(g, s.me)] := by
  have hctx : s.ctx (.split core g 0) = s.me := by rw [State.me, hact]; rfl
  simp [State.groupsOf, h.slots, hctx, hon]

/-- The last arrival of a group that is alone ends the episode of every barrier that its workgroup takes part in, if at most one arrival is due. -/
theorem State.Sole.barDone (hon : s.me.on = true) (harr : s.me.arrived key = true)
    (hpeer : 3 ≤ key → (teamsOf (s.wgOf s.cur.act).teams).contains (key - 16) = true)
    (hdue : 2 ≤ key → (s.gridAt (s.wgOf s.cur.act).grid).isSome = true ∧ s.barDue core (s.wgOf s.cur.act) key ≤ 1) :
    s.barDone core (s.wgOf s.cur.act) key = true ∧ s.residents.filter (fun r => (s.wgOf s.cur.act).peer key core r.2.2 r.1) = s.residents := by
  have hwg : ∀ k, k = key → s.wgArrived core (s.wgOf s.cur.act) k = true := by
    rintro k rfl
    simp [State.wgArrived, h.running, h.groupsOf hact hon, harr]
  have hpeers : (s.wgOf s.cur.act).peer key core (s.wgOf s.cur.act) core = true := by
    unfold Wg.peer
    split
    · simp
    · simp
    · simp
    · next h0 h1 h2 =>
      have hne : key ≠ 0 ∧ key ≠ 1 ∧ key ≠ 2 := ⟨h0, h1, h2⟩
      simpa using hpeer (by omega)
  have hfilter : s.residents.filter (fun r => (s.wgOf s.cur.act).peer key core r.2.2 r.1) = s.residents := by
    rw [h.residents hact, List.filter_singleton, hpeers]
    rfl
  refine ⟨?_, hfilter⟩
  unfold State.barDone
  dsimp only
  rw [hfilter, h.residents hact]
  split
  · next h0 => exact hwg 0 h0.symm
  split
  · next h1 => simp [hwg 1 h1.symm]
  · obtain ⟨hsome, hle⟩ := hdue (by omega)
    obtain ⟨gr, hgr⟩ := Option.isSome_iff_exists.1 hsome
    rw [State.barDue, hgr] at hle
    rw [hgr]
    simp only [List.filter_singleton, hwg key rfl, decide_eq_true_eq]
    exact hle.trans (Nat.le_add_right ..)

end

end Sys2Proof.Machine
end

section
/-! BAR of a group with one split, stage by stage (11 R352): what it leaves before its barrier is looked at, and what the end of the episode
leaves. -/

namespace Sys2Proof.Machine

/-- The state with another memory system and another context of the executing group. -/
def State.barState (s : State) (m : Mem) (c : Ctx) : State := ({ s with mem := m } : State).setCtx s.cur.act c

section
variable {s : State} {m : Mem} {c : Ctx} {core g e key : Nat}

@[simp] theorem State.barState_cur : (s.barState m c).cur = s.cur := State.setCtx_cur ..
@[simp] theorem State.barState_mem : (s.barState m c).mem = m := State.setCtx_mem ..
@[simp] theorem State.barState_cores : (s.barState m c).cores = s.cores := State.setCtx_cores ..
@[simp] theorem State.barState_grids : (s.barState m c).grids = s.grids := State.setCtx_grids ..
@[simp] theorem State.barState_me : (s.barState m c).me = c := State.me_setCtx_cur rfl c
@[simp] theorem State.barState_upd (f : Ctx → Ctx) : (s.barState m c).upd f = s.barState m (f c) := by
  rw [State.upd_eq, State.barState_me, State.barState_cur]
  exact State.setCtx_setCtx ..

theorem State.barState_core (k : Nat) : (s.barState m c).core k = s.core k := by rw [State.core, State.barState_cores, State.core]

variable (hact : s.cur.act = .split core g e)
include hact

theorem State.barState_setMem (n : Mem) : ({ s.barState m c with mem := n } : State) = s.barState n c := by
  rw [State.barState, State.barState, hact]
  rfl

theorem State.barState_updCtx (f : Ctx → Ctx) : (s.barState m c).updCtx (.split core g 0) f = s.barState m (f c) := by
  have hsame : (s.barState m c).updCtx (.split core g 0) f = (s.barState m c).upd f := by rw [State.upd, State.barState_cur, hact]; rfl
  rw [hsame, State.barState_upd]

theorem State.barState_wgOf (hw : c.wslot = s.me.wslot) : (s.barState m c).wgOf s.cur.act = s.wgOf s.cur.act :=
  State.wgOf_setCtx (s := { s with mem := m }) hact (hw.trans (congrArg Ctx.wslot (State.ctx_withMem s m s.cur.act).symm))

theorem State.barState_coreOf : (s.barState m c).coreOf (s.barState m c).cur.act = core := by
  rw [State.barState_cur, hact]
  rfl

theorem State.barState_isCtl : (s.barState m c).cur.act.isCtl = false := by
  rw [State.barState_cur, hact]
  rfl

theorem State.barState_doRelease (scope : Nat) (h : (m.release core scope).2 = []) :
    (s.barState m c).doRelease scope = s.barState (m.release core scope).1 c := by
  rw [State.doRelease, State.barState_isCtl hact, if_neg Bool.false_ne_true, State.barState_coreOf hact, State.barState_mem]
  dsimp only
  rw [h]
  exact State.barState_setMem hact _

theorem State.barState_doAcquire (scope : Nat) : (s.barState m c).doAcquire scope = s.barState (m.acquire core scope) c := by
  rw [State.doAcquire_eq _ (State.barState_isCtl hact), State.barState_coreOf hact, State.barState_mem]
  exact State.barState_setMem hact _

/-- The end of an instruction of a context with one split leaves it as it is. -/
theorem State.barState_finish (n : Nat) {x : Split} (hs : c.splits = [(e, x)]) (hp : c.pool = []) (hq : c.pend = []) : (s.barState m c).finish n = s.barState m c := by
  have hfinish := State.finish_split (s := s.barState m c) (m := n) (T := c.lanes) (P := []) (by rw [State.barState_cur]; exact hact)
    (by rw [State.barState_me, c.tickWin_quiet hq, c.settle_quiet hq, ← hq]; rfl)
  have hdrop : (c.withHeld c.lanes []).dropYield e = c := by
    rw [← hq, Ctx.dropYield]
    have hmap : (c.withHeld c.lanes c.pend).splits.map (fun y => if y.1 = e then y else (y.1, { y.2 with yld := y.2.yld.filter (· != e) })) = c.splits := by
      show c.splits.map _ = c.splits
      rw [hs]
      simp
    rw [hmap]
    rfl
  rw [hfinish, State.barState_me, State.barState_cur, hdrop, Ctx.tidy_lone c hs hp]
  exact State.setCtx_setCtx ..

end

/-- The context of a group with one split after warnings, with these arrivals and this split. -/
def Ctx.barring (c : Ctx) (w : W32) (arr : Tbl Nat) (e : Nat) (x : Split) : Ctx :=
  { c with warn := c.warn ||| w, arr := arr, splits := [(e, x)], pool := [] }

section
variable {s : State} {m : Mem} {c : Ctx} {w : W32} {arr : Tbl Nat} {x : Split} {core g e : Nat}

theorem Ctx.split_barring : (c.barring w arr e x).split e = x := if_pos rfl

theorem Ctx.setSplit_barring (y : Split) : (c.barring w arr e x).setSplit e y = c.barring w arr e y := by
  rw [Ctx.setSplit, Ctx.barring, Tbl.put_singleton]
  rfl

variable (hact : s.cur.act = .split core g e)
include hact

theorem State.updSp_barring (f : Split → Split) : (s.barState m (c.barring w arr e x)).updSp f = s.barState m (c.barring w arr e (f x)) := by
  have hslot : s.cur.act.slot = e := by rw [hact]; rfl
  rw [State.updSp, State.barState_upd, State.barState_cur, hslot, Ctx.split_barring, Ctx.setSplit_barring]

theorem State.advance_barring : (s.barState m (c.barring w arr e x)).advance = s.barState m (c.barring w arr e { x with pc := s.cur.npc }) := by
  rw [State.advance, State.updSp_barring hact, State.barState_cur]

end

theorem State.wgOf_advance {u : State} {core g e : Nat} (hact : u.cur.act = .split core g e) : u.advance.wgOf u.cur.act = u.wgOf u.cur.act := by
  rw [State.advance, State.updSp, State.upd_eq]
  exact State.wgOf_setCtx hact rfl

/-- The key of the barrier that BAR names (11 R352). -/
def State.keyOfBar (s : State) (kind slot : Nat) : Nat := if kind = 3 then 16 + fld (s.wgOf s.cur.act).teams.toNat (8 * slot) 8 else kind

/-- The warnings of BAR. -/
def barWarn (kind act slot z : Nat) : W32 := ignW (z != 0 || (kind != 3 && slot != 0)) ||| flagIf (act == 0) wModRsvd

/-- The arrival of BAR: a release, and the lanes are recorded (03 R101). -/
def State.barArrive (s : State) (act key mask : Nat) : State :=
  if act != 2 then (s.doRelease (barScope key)).upd (fun c => { c with arr := Tbl.upd 0 c.arr key (· ||| mask) }) else s

/-- The wait of BAR: for the episode where an arrival is pending, else an acquire (03 R101). -/
def State.barWait (s : State) (act key mask : Nat) : State :=
  if act != 1 then
    (if Tbl.get 0 s.me.arr key &&& mask != 0 then s.updSp (fun x => { x with wait := .bar key }) else s.doAcquire (barScope key))
  else s

/-- The arrival and the wait of BAR, in their order. -/
def State.barStages (s : State) (act key mask : Nat) : State := (s.barArrive act key mask).barWait act key mask

/-- What BAR leaves of memory, of the arrivals and of its split before the barrier is looked at (03 R101; 11 R352): an arrival is a release, a
wait holds the split where an arrival is pending and is else an acquire. -/
inductive State.BarStep (s : State) (core key : Nat) : Nat → Mem → Tbl Nat → Split → Prop where
  | arrives : s.BarStep core key 1 (s.mem.release core (barScope key)).1 (Tbl.upd 0 s.me.arr key (· ||| s.mask)) s.after
  | arrivesAndWaits {act : Nat} (h1 : act ≠ 1) (h2 : act ≠ 2) :
    s.BarStep core key act (s.mem.release core (barScope key)).1 (Tbl.upd 0 s.me.arr key (· ||| s.mask)) { s.after with wait := .bar key }
  | waits (h : Tbl.get 0 s.me.arr key &&& s.mask ≠ 0) : s.BarStep core key 2 s.mem s.me.arr { s.after with wait := .bar key }
  | acquires (h : Tbl.get 0 s.me.arr key &&& s.mask = 0) : s.BarStep core key 2 (s.mem.acquire core (barScope key)) s.me.arr s.after

/-- A group in user mode with one split, whose instruction is BAR. -/
structure State.BarIssue (s : State) (core g e : Nat) : Prop where
  act : s.cur.act = .split core g e
  user : s.sp.sup = false
  quiet : s.me.pend = []
  splits : s.me.splits = [(e, s.sp)]
  pool : s.me.pool = []
  lanes : s.sp.mask ≠ 0

section
variable {s : State} {core g e : Nat} (h : s.BarIssue core g e)
include h

theorem State.BarIssue.warned (w : W32) :
    (s.warns w).upd (fun c => (c.endWin s.mask).settle) = s.barState s.mem (s.me.barring w s.me.arr e s.sp) := by
  have hseq : s.cur.act.isSeq = false := by rw [h.act]; rfl
  have hp : (s.me.warns w).pend = [] := h.quiet
  have hbar : s.me.warns w = s.me.barring w s.me.arr e s.sp := by rw [Ctx.barring, ← h.splits, ← h.pool]; rfl
  rw [State.warns_upd s w hseq, State.upd_upd, State.upd_eq, Ctx.endWin_quiet _ hp, Ctx.settle_quiet _ hp, hbar]
  rfl

/-- BAR of a team that the workgroup does not have (06 R181). -/
theorem State.BarIssue.noTeam {act slot z : Nat} (hteam : bit (s.wgOf s.cur.act).teams.toNat (32 + slot) = false) :
    exec (.bar 3 act slot z) s = .next (((s.barState s.mem (s.me.barring (barWarn 3 act slot z) s.me.arr e s.sp)).warns (flag wTeamNone)).retire s.mask) := by
  show execBar 3 act slot z s = _
  rw [execBar, State.uni_allowed s _ _ _ (by simp [State.allows, h.act, h.user, Actor.isCtl, Actor.isSeq, Actor.isThread])]
  dsimp only
  rw [h.warned]
  simp only [hteam]
  rfl

/-- The arrival and the wait. -/
theorem State.BarIssue.arrivesWaits {act key : Nat} {m : Mem} {arr : Tbl Nat} {x : Split} (w : W32) (hstep : s.BarStep core key act m arr x)
    (hrel : act ≠ 2 → (s.mem.release core (barScope key)).2 = []) :
    ((s.barState s.mem (s.me.barring w s.me.arr e s.sp)).barStages act key s.mask).advance = s.barState m (s.me.barring w arr e x) := by
  have harrive (hact : act ≠ 2) : (s.barState s.mem (s.me.barring w s.me.arr e s.sp)).barArrive act key s.mask
      = s.barState (s.mem.release core (barScope key)).1 (s.me.barring w (Tbl.upd 0 s.me.arr key (· ||| s.mask)) e s.sp) := by
    rw [State.barArrive, if_pos (by simpa using hact), State.barState_doRelease h.act _ (hrel hact), State.barState_upd]
    rfl
  have hpending : Tbl.get 0 (Tbl.upd 0 s.me.arr key (· ||| s.mask)) key &&& s.mask ≠ 0 := by
    rw [Tbl.upd, Tbl.get_put_same, Nat.and_comm, Nat.and_or_distrib_left, Nat.and_self]
    intro h0
    exact h.lanes (Nat.or_eq_zero_iff.1 h0).2
  have hme (m : Mem) (arr : Tbl Nat) (x : Split) : (s.barState m (s.me.barring w arr e x)).me.arr = arr := by rw [State.barState_me]; rfl
  rw [State.barStages]
  cases hstep with
  | arrives =>
    rw [harrive (by decide), State.barWait, if_neg (by decide), State.advance_barring h.act]
    rfl
  | arrivesAndWaits h1 h2 =>
    rw [harrive h2, State.barWait, if_pos (by simpa using h1), hme, if_pos (by simpa using hpending), State.updSp_barring h.act, State.advance_barring h.act]
    rfl
  | waits hpend =>
    rw [State.barArrive, if_neg (by decide), State.barWait, if_pos (by decide), hme, if_pos (by simpa using hpend), State.updSp_barring h.act,
      State.advance_barring h.act]
    rfl
  | acquires hpend =>
    rw [State.barArrive, if_neg (by decide), State.barWait, if_pos (by decide), hme, if_neg (by simpa using hpend), State.barState_doAcquire h.act,
      State.advance_barring h.act]
    rfl

/-- BAR up to the look at its barrier. -/
theorem State.BarIssue.steps {kind act slot z : Nat} {m : Mem} {arr : Tbl Nat} {x : Split}
    (hteam : kind = 3 → bit (s.wgOf s.cur.act).teams.toNat (32 + slot) = true) (hstep : s.BarStep core (s.keyOfBar kind slot) act m arr x)
    (hrel : act ≠ 2 → (s.mem.release core (barScope (s.keyOfBar kind slot))).2 = []) :
    exec (.bar kind act slot z) s
      = .next ((((s.barState m (s.me.barring (barWarn kind act slot z) arr e x)).barCheck core (s.wgOf s.cur.act) (s.keyOfBar kind slot)).finish s.mask).upd
          (fun c => if (c.split e).wait == .none then c else c.yieldSlot e)) := by
  have hslot : s.cur.act.slot = e := by rw [h.act]; rfl
  have hcoreOf : s.coreOf s.cur.act = core := by rw [h.act]; rfl
  have hnone : (decide (kind = 3) && !bit (s.wgOf s.cur.act).teams.toNat (32 + slot)) = false := by
    by_cases hk : kind = 3
    · simp [hteam hk]
    · simp [hk]
  have hexec : ∃ u : State, u = (s.barState s.mem (s.me.barring (barWarn kind act slot z) s.me.arr e s.sp)).barStages act (s.keyOfBar kind slot) s.mask
      ∧ exec (.bar kind act slot z) s = .next (((u.advance.barCheck core (u.wgOf s.cur.act) (s.keyOfBar kind slot)).finish s.mask).upd
        (fun c => if (c.split e).wait == .none then c else c.yieldSlot e)) := by
    refine ⟨_, rfl, ?_⟩
    show execBar kind act slot z s = _
    rw [execBar, State.uni_allowed s _ _ _ (by simp [State.allows, h.act, h.user, Actor.isCtl, Actor.isSeq, Actor.isThread])]
    dsimp only
    rw [h.warned, hnone, hcoreOf, hslot]
    rfl
  obtain ⟨u, hu, hexec⟩ := hexec
  have hsteps := h.arrivesWaits (barWarn kind act slot z) hstep hrel
  rw [← hu] at hsteps
  have hcur : u.cur = s.cur := by rw [← u.advance_cur, hsteps, State.barState_cur]
  have hwg := State.wgOf_advance (u := u) (hcur ▸ h.act)
  rw [hcur, hsteps] at hwg
  rw [hexec, hsteps, ← hwg, State.barState_wgOf h.act (c := s.me.barring (barWarn kind act slot z) arr e x) rfl]

end

/-! The end of BAR. -/

section
variable {s : State} {m : Mem} {w : W32} {arr : Tbl Nat} {x : Split} {core g e key : Nat}

/-- The split of a BAR when the episode of its barrier has ended. -/
def Split.past (x : Split) (key : Nat) : Split := if x.wait == .bar key then { x with wait := .none } else x

/-- The memory system when the episode has ended: a wait is then an acquire (03 R101). -/
def Mem.passed (m : Mem) (core key : Nat) (x : Split) : Mem := if x.wait == .bar key then m.acquire core (barScope key) else m

theorem Ctx.waitsBar_barring (c : Ctx) : (c.barring w arr e x).waitsBar key = (x.wait == .bar key) := by
  simp [Ctx.waitsBar, Ctx.barring]

/-- A context with one split has nothing to retire, to merge or to give its slot to. -/
theorem State.BarIssue.settled (h : s.BarIssue core g e) (n : Nat) : (((s.barState m (s.me.barring w arr e x)).finish n).upd
    (fun c => if (c.split e).wait == .none then c else c.yieldSlot e)) = s.barState m (s.me.barring w arr e x) := by
  rw [State.barState_finish (c := s.me.barring w arr e x) h.act n rfl rfl h.quiet, State.barState_upd]
  exact congrArg (State.barState s m) (ite_self _)

theorem State.barState_updGrid (k : Nat) (f : Grid → Grid) (hact : s.cur.act = .split core g e) (c : Ctx) :
    (s.barState m c).updGrid k f = ({ s with grids := (s.updGrid k f).grids } : State).barState m c := by
  rw [State.barState, State.barState, hact]
  rfl

/-- The end of the episode of a group that is alone. -/
theorem State.BarIssue.released (h : s.BarIssue core g e) (hsole : (s.barState m (s.me.barring w arr e x)).Sole core g) (hon : s.me.on = true)
    (hpeers : (s.barState m (s.me.barring w arr e x)).residents.filter (fun r => (s.wgOf s.cur.act).peer key core r.2.2 r.1)
      = (s.barState m (s.me.barring w arr e x)).residents) :
    ∃ gs, (s.barState m (s.me.barring w arr e x)).barRelease core (s.wgOf s.cur.act) key
        = ({ s with grids := gs } : State).barState (m.passed core key x) (s.me.barring w (Tbl.del arr key) e (x.past key))
      ∧ (key < 2 → gs = s.grids) := by
  have hact : (s.barState m (s.me.barring w arr e x)).cur.act = .split core g e := by rw [State.barState_cur]; exact h.act
  have hwg : (s.barState m (s.me.barring w arr e x)).wgOf (s.barState m (s.me.barring w arr e x)).cur.act = s.wgOf s.cur.act := by
    rw [State.barState_cur]; exact State.barState_wgOf h.act rfl
  have hgroups := hsole.groupsOf hact (by rw [State.barState_me]; exact hon)
  have hres := hsole.residents hact
  rw [hwg] at hgroups hres
  rw [State.barState_me] at hgroups
  unfold State.barRelease
  dsimp only
  rw [hpeers, hres]
  simp only [List.foldl_cons, List.foldl_nil, hgroups, List.any_cons, List.any_nil, Bool.or_false, Ctx.waitsBar_barring, State.barState_mem]
  rw [← Mem.passed, State.barState_setMem h.act, State.barState_updCtx h.act]
  split
  · exact ⟨s.grids, rfl, fun _ => rfl⟩
  · next hk => exact ⟨_, State.barState_updGrid _ _ h.act _, fun hlt => absurd hlt hk⟩

end

end Sys2Proof.Machine
end

section
/-! BAR of a group with one split as a whole: while a lane of the group is missing, and when its last lane arrives (03 R101; 06 R188, R189). -/

namespace Sys2Proof.Machine

/-- A lane of the group that has not exited is neither in the arrivals nor in the mask. -/
def Ctx.lacks (c : Ctx) (arr : Nat) : Prop := ∃ l < 32, (c.ln l).life ≠ .exited ∧ bit arr l = false

theorem Ctx.lacks_of_or {c : Ctx} {a b : Nat} (h : c.lacks (a ||| b)) : c.lacks a := by
  obtain ⟨l, hl, hlife, hbit⟩ := h
  rw [bit_eq_testBit, Nat.testBit_or, Bool.or_eq_false_iff] at hbit
  exact ⟨l, hl, hlife, by rw [bit_eq_testBit]; exact hbit.1⟩

theorem Ctx.arrived_of_lacks {c : Ctx} {key : Nat} (hh : c.haltedLanes = 0) (h : c.lacks (Tbl.get 0 c.arr key)) : c.arrived key = false := by
  obtain ⟨l, hl, hlife, hbit⟩ := h
  rw [← Bool.not_eq_true, Ctx.arrived_iff hh]
  intro hall
  rw [hall l hl hlife] at hbit
  cases hbit

theorem Ctx.arrived_of_not_lacks {c : Ctx} {key : Nat} (hh : c.haltedLanes = 0) (h : ¬ c.lacks (Tbl.get 0 c.arr key)) : c.arrived key = true := by
  rw [Ctx.arrived_iff hh]
  intro l hl hlife
  by_contra hbit
  exact h ⟨l, hl, hlife, by simpa using hbit⟩

/-- The scope of a barrier is that of its kind (03 R101). -/
theorem State.barScope_keyOfBar (s : State) {kind : Nat} (h : kind < 4) (slot : Nat) : barScope (s.keyOfBar kind slot) = if kind = 3 then 4 else kind := by
  unfold barScope State.keyOfBar
  split
  · rw [if_neg (by omega)]
  · rw [if_pos (by omega)]

section
variable {s : State} {core g e kind act slot z : Nat} {m : Mem} {arr : Tbl Nat} {x : Split} (h : s.BarIssue core g e)
include h

theorem State.BarIssue.atBar_of {i : Instr} {w : W32} {gs : List Grid} {key : Nat}
    (hexec : exec i s = .next (({ s with grids := gs } : State).barState m (s.me.barring w arr e x))) : s.atBar i m (Tbl.get 0 arr key) key x := by
  have hslot : s.cur.act.slot = e := by rw [h.act]; rfl
  refine ⟨_, hexec, State.barState_mem, ?_, ?_, fun _ => ?_⟩
  · rw [State.barState_me]; rfl
  · rw [State.keepsRegs, State.barState_me]
    exact Ctx.keepsRegs_of rfl rfl rfl
  · rw [State.barState_me, hslot]
    exact ⟨rfl, rfl⟩

theorem State.BarIssue.becomes_of {i : Instr} {w : W32} (hexec : exec i s = .next (s.barState s.mem (s.me.barring w arr e x))) :
    s.becomes i { s.me.warned w with arr := arr } x := by
  have hslot : s.cur.act.slot = e := by rw [h.act]; rfl
  exact ⟨[(e, x)], [], hexec, fun _ => ⟨by rw [hslot], rfl⟩⟩

variable (hstep : s.BarStep core (s.keyOfBar kind slot) act m arr x) (hrel : act ≠ 2 → (s.mem.release core (barScope (s.keyOfBar kind slot))).2 = [])
  (hteam : kind = 3 → bit (s.wgOf s.cur.act).teams.toNat (32 + slot) = true) (hhalt : s.sp.halted = false) (hon : s.me.on = true)

omit h in
include hstep in
theorem State.BarStep.halted : x.halted = s.sp.halted := by cases hstep <;> rfl

omit h in
include hstep in
theorem State.BarStep.arrivals : Tbl.get 0 arr (s.keyOfBar kind slot)
    = if act = 2 then Tbl.get 0 s.me.arr (s.keyOfBar kind slot) else Tbl.get 0 s.me.arr (s.keyOfBar kind slot) ||| s.mask := by
  cases hstep with
  | arrives => exact Tbl.get_put_same ..
  | arrivesAndWaits h1 h2 => rw [if_neg h2]; exact Tbl.get_put_same ..
  | waits hp => rfl
  | acquires hp => rfl

include hstep hrel hteam hhalt

/-- While a lane of the group is missing, its barrier stays as it is. -/
theorem State.BarIssue.stays (hlacks : s.me.lacks (Tbl.get 0 s.me.arr (s.keyOfBar kind slot) ||| s.mask)) (hon : s.me.on = true)
    (hg : g ∈ (s.wgOf s.cur.act).slots) (hopen : s.keyOfBar kind slot = 0 ∨ (s.wgOf s.cur.act).done = false ∧
      (2 ≤ s.keyOfBar kind slot → s.barDone core (s.wgOf s.cur.act) (s.keyOfBar kind slot) = false)) :
    exec (.bar kind act slot z) s = .next (s.barState m (s.me.barring (barWarn kind act slot z) arr e x)) := by
  have hexec := h.steps (z := z) hteam hstep hrel
  have harrivals := hstep.arrivals
  have hx := hstep.halted.trans hhalt
  generalize s.keyOfBar kind slot = key at *
  have hme : s.me.arrived key = false := Ctx.arrived_of_lacks (Ctx.haltedLanes_lone h.splits h.pool hhalt) (Ctx.lacks_of_or hlacks)
  have hbar : (s.me.barring (barWarn kind act slot z) arr e x).arrived key = false := by
    refine Ctx.arrived_of_lacks (Ctx.haltedLanes_lone rfl rfl hx) ?_
    show s.me.lacks (Tbl.get 0 arr key)
    rw [harrivals]
    split
    · exact Ctx.lacks_of_or hlacks
    · exact hlacks
  have hsame : (s.barState m (s.me.barring (barWarn kind act slot z) arr e x)).barDone core (s.wgOf s.cur.act) key = s.barDone core (s.wgOf s.cur.act) key := by
    refine State.barDone_congr State.barState_cores State.barState_grids (fun c j => ?_) core _
    rw [State.barState]
    rcases State.ctx_setCtx_or { s with mem := m } (.split c j 0) s.cur.act (s.me.barring (barWarn kind act slot z) arr e x) with hc | ⟨hc, hctx⟩
    · rw [hc]; exact ⟨rfl, rfl⟩
    · have hsme : s.ctx (.split c j 0) = s.me := hctx.trans (State.ctx_withMem s m _)
      rw [hc, hsme, hme, hbar]
      exact ⟨rfl, rfl⟩
  have hnot : s.barDone core (s.wgOf s.cur.act) key = false := by
    by_cases hk : key < 2
    · exact s.barDone_missing h.act hg hon (fun h1 => (hopen.resolve_left (by omega)).1) hme hk
    · exact (hopen.resolve_left (by omega)).2 (by omega)
  rw [hexec, State.barCheck, hsame, hnot, if_neg Bool.false_ne_true, h.settled]

/-- The last arrival of a group that is alone with its workgroup ends the episode. -/
theorem State.BarIssue.ends (hact2 : act ≠ 2) (hkind : kind < 4) (hon : s.me.on = true) (hdone : (s.wgOf s.cur.act).done = false) (hall : ¬ s.me.lacks (Tbl.get 0 s.me.arr (s.keyOfBar kind slot) ||| s.mask))
    (hslots : (s.wgOf s.cur.act).slots = [g]) (hcores : s.cores.map Prod.fst = [core]) (hwgs : (s.core core).wgs.map Prod.fst = [s.me.wslot])
    (hdue : 2 ≤ kind → (s.gridAt (s.wgOf s.cur.act).grid).isSome = true ∧ s.barDue core (s.wgOf s.cur.act) (s.keyOfBar kind slot) ≤ 1)
    (hslot : kind = 3 → slot < 4) :
    ∃ gs, exec (.bar kind act slot z) s = .next (({ s with grids := gs } : State).barState (m.passed core (s.keyOfBar kind slot) x)
        (s.me.barring (barWarn kind act slot z) (Tbl.del arr (s.keyOfBar kind slot)) e (x.past (s.keyOfBar kind slot))))
      ∧ (s.keyOfBar kind slot < 2 → gs = s.grids) := by
  have hexec := h.steps (z := z) hteam hstep hrel
  have harrivals := hstep.arrivals
  rw [if_neg hact2] at harrivals
  have hx := hstep.halted.trans hhalt
  have hpeer : 3 ≤ s.keyOfBar kind slot → (teamsOf (s.wgOf s.cur.act).teams).contains (s.keyOfBar kind slot - 16) = true := by
    unfold State.keyOfBar
    split
    · next h3 =>
      intro _
      rw [Nat.add_sub_cancel_left, teamsOf, List.contains_iff_mem]
      exact List.mem_map.2 ⟨slot, List.mem_filter.2 ⟨List.mem_range.2 (hslot h3), hteam h3⟩, rfl⟩
    · omega
  have hkey : 2 ≤ s.keyOfBar kind slot → 2 ≤ kind := by unfold State.keyOfBar; split <;> omega
  generalize s.keyOfBar kind slot = key at *
  generalize hu : s.barState m (s.me.barring (barWarn kind act slot z) arr e x) = u at *
  have hcur : u.cur = s.cur := by rw [← hu, State.barState_cur]
  have hme : u.me = s.me.barring (barWarn kind act slot z) arr e x := by rw [← hu, State.barState_me]
  have hwg : u.wgOf u.cur.act = s.wgOf s.cur.act := by rw [hcur, ← hu]; exact State.barState_wgOf h.act rfl
  have hsole : u.Sole core g := {
    slots := by rw [hwg]; exact hslots
    running := by rw [hwg]; exact hdone
    cores := by rw [← hu, State.barState_cores]; exact hcores
    wgs := by rw [hme, ← hu, State.barState_core]; exact hwgs }
  have harrived : u.me.arrived key = true := by
    rw [hme]
    refine Ctx.arrived_of_not_lacks (Ctx.haltedLanes_lone rfl rfl hx) ?_
    show ¬ s.me.lacks (Tbl.get 0 arr key)
    rw [harrivals]
    exact hall
  have hgrid : ∀ k, u.gridAt k = s.gridAt k := fun k => by rw [State.gridAt, ← hu, State.barState_grids, State.gridAt]
  obtain ⟨hcomplete, hpeers⟩ := hsole.barDone (key := key) (by rw [hcur]; exact h.act) (by rw [hme]; exact hon) harrived (by rw [hwg]; exact hpeer)
    (fun hk => by rw [hwg, State.barDue, hgrid]; exact hdue (hkey hk))
  rw [hwg] at hcomplete hpeers
  subst hu
  obtain ⟨gs, hrelease, hgs⟩ := h.released hsole hon hpeers
  refine ⟨gs, ?_, hgs⟩
  have h' : ({ s with grids := gs } : State).BarIssue core g e := ⟨h.act, h.user, h.quiet, h.splits, h.pool, h.lanes⟩
  rw [hexec, State.barCheck, hcomplete, if_pos rfl, hrelease]
  exact congrArg Host.Outcome.next (h'.settled s.mask)

end

end Sys2Proof.Machine
end

section
/-! The cases of BAR as they are stated. -/

namespace Sys2Proof.Machine

/-- A release of no class is none (03 R83). -/
theorem Mem.release_zero (m : Mem) (core : Nat) : m.release core 0 = (m, []) := rfl

theorem State.BarIssue.of {s : State} {core g e : Nat} (hact : s.cur.act = .split core g e) (hsup : s.sp.sup = false) (hq : s.quiet) (hlone : s.lone) :
    s.BarIssue core g e := by
  obtain ⟨hsplits, hpool, -, hlanes⟩ := hlone
  have hslot : s.cur.act.slot = e := by rw [hact]; rfl
  exact ⟨hact, hsup, hq, by rw [← hslot]; exact hsplits, hpool, hlanes (by rw [hact]; rfl)⟩

section
variable {s : State} {core g e : Nat} (h : s.BarIssue core g e)
include h

/-- BAR of a team that the workgroup does not have goes on with a warning. -/
theorem State.BarIssue.becomes_noTeam {act slot z : Nat} (hteam : bit (s.wgOf s.cur.act).teams.toNat (32 + slot) = false) :
    s.becomes (.bar 3 act slot z) (s.me.warned (barWarn 3 act slot z ||| flag wTeamNone)) s.after := by
  have hseq : (s.barState s.mem (s.me.barring (barWarn 3 act slot z) s.me.arr e s.sp)).cur.act.isSeq = false := by rw [State.barState_cur, h.act]; rfl
  refine h.becomes_of (arr := s.me.arr) (w := barWarn 3 act slot z ||| flag wTeamNone) ?_
  have hwarn : (s.me.barring (barWarn 3 act slot z) s.me.arr e s.sp).warns (flag wTeamNone)
      = s.me.barring (barWarn 3 act slot z ||| flag wTeamNone) s.me.arr e s.sp := by
    rw [Ctx.barring, Ctx.barring, Ctx.warns, ← BitVec.or_assoc]
  rw [h.noTeam hteam, State.warns_upd _ _ hseq, State.barState_upd, hwarn, State.retire, State.advance_barring h.act,
    State.barState_finish (c := s.me.barring (barWarn 3 act slot z ||| flag wTeamNone) s.me.arr e _) h.act _ rfl rfl h.quiet]
  rfl

end

/-- What an arriving BAR leaves before the look at its barrier, in one form. -/
theorem State.barStep_arrives (s : State) (core key : Nat) {act : Nat} (h2 : act ≠ 2) (hwait : act = 1 → s.sp.wait = .none) :
    s.BarStep core key act (s.mem.release core (barScope key)).1 (Tbl.upd 0 s.me.arr key (· ||| s.mask))
      { s.after with wait := if act = 1 then .none else .bar key } := by
  by_cases h1 : act = 1
  · subst h1
    have hafter : { s.after with wait := if 1 = 1 then .none else .bar key } = s.after := by
      rw [if_pos rfl, ← hwait rfl]
      rfl
    rw [hafter]
    exact .arrives
  · rw [if_neg h1]
    exact .arrivesAndWaits h1 h2

/-- When its episode has ended, the split of an arriving BAR goes on. -/
theorem State.past_after (s : State) (act key : Nat) (hwait : s.sp.wait = .none) :
    Split.past { s.after with wait := if act = 1 then .none else .bar key } key = s.after := by
  have hafter : { s.after with wait := .none } = s.after := by rw [← hwait]; rfl
  by_cases h1 : act = 1
  · rw [if_pos h1, hafter, Split.past, if_neg]
    show ¬ (s.sp.wait == .bar key) = true
    rw [hwait]
    exact Bool.false_ne_true
  · rw [if_neg h1, Split.past, if_pos (by simp)]
    exact hafter

theorem State.passed_after (s : State) (m : Mem) (core act key : Nat) :
    m.passed core key { s.after with wait := if act = 1 then .none else .bar key } = if act = 1 then m else m.acquire core (barScope key) := by
  by_cases h1 : act = 1
  · rw [if_pos h1, if_pos h1]
    rfl
  · rw [if_neg h1, if_neg h1, Mem.passed, if_pos (by simp)]

section
variable {s : State} {core g e kind act slot z : Nat} (h : s.BarIssue core g e)
  (hrel : (s.mem.release core (barScope (s.keyOfBar kind slot))).2 = [])
  (hteam : kind = 3 → bit (s.wgOf s.cur.act).teams.toNat (32 + slot) = true) (hhalt : s.sp.halted = false) (hon : s.me.on = true)
include h hrel hteam hhalt hon

/-- BAR while a lane of the group is missing. -/
theorem State.BarIssue.atBar_missing (hwait : act = 1 → s.sp.wait = .none) (hlacks : s.me.lacks (Tbl.get 0 s.me.arr (s.keyOfBar kind slot) ||| s.mask))
    (hg : g ∈ (s.wgOf s.cur.act).slots) (hdone : (s.wgOf s.cur.act).done = false)
    (hopen : 2 ≤ s.keyOfBar kind slot → s.barDone core (s.wgOf s.cur.act) (s.keyOfBar kind slot) = false) :
    (act ≠ 2 → s.atBar (.bar kind act slot z) (s.mem.release core (barScope (s.keyOfBar kind slot))).1 (Tbl.get 0 s.me.arr (s.keyOfBar kind slot) ||| s.mask)
        (s.keyOfBar kind slot) { s.after with wait := if act = 1 then .none else .bar (s.keyOfBar kind slot) })
      ∧ (act = 2 → Tbl.get 0 s.me.arr (s.keyOfBar kind slot) &&& s.mask ≠ 0 → s.atBar (.bar kind act slot z) s.mem
        (Tbl.get 0 s.me.arr (s.keyOfBar kind slot)) (s.keyOfBar kind slot) { s.after with wait := .bar (s.keyOfBar kind slot) })
      ∧ (act = 2 → Tbl.get 0 s.me.arr (s.keyOfBar kind slot) &&& s.mask = 0 → s.atBar (.bar kind act slot z)
        (s.mem.acquire core (barScope (s.keyOfBar kind slot))) (Tbl.get 0 s.me.arr (s.keyOfBar kind slot)) (s.keyOfBar kind slot) s.after) := by
  have hstays {m : Mem} {arr : Tbl Nat} {x : Split} (hstep : s.BarStep core (s.keyOfBar kind slot) act m arr x) :=
    h.atBar_of (gs := s.grids) (key := s.keyOfBar kind slot) (h.stays (z := z) hstep (fun _ => hrel) hteam hhalt hlacks hon hg (.inr ⟨hdone, hopen⟩))
  refine ⟨fun h2 => ?_, fun h2 hpend => ?_, fun h2 hpend => ?_⟩
  · have harrives := hstays (s.barStep_arrives core _ h2 hwait)
    rwa [Tbl.upd, Tbl.get_put_same] at harrives
  · subst h2
    exact hstays (.waits hpend)
  · subst h2
    exact hstays (.acquires hpend)

/-- BAR whose arrival ends the episode. -/
theorem State.BarIssue.atBar_last (hact2 : act ≠ 2) (hkind : kind < 4) (hwait : s.sp.wait = .none) (hdone : (s.wgOf s.cur.act).done = false)
    (hall : ¬ s.me.lacks (Tbl.get 0 s.me.arr (s.keyOfBar kind slot) ||| s.mask)) (hslots : (s.wgOf s.cur.act).slots = [g])
    (hcores : s.cores.map Prod.fst = [core]) (hwgs : (s.core core).wgs.map Prod.fst = [s.me.wslot])
    (hdue : 2 ≤ kind → (s.gridAt (s.wgOf s.cur.act).grid).isSome = true ∧ s.barDue core (s.wgOf s.cur.act) (s.keyOfBar kind slot) ≤ 1)
    (hslot : kind = 3 → slot < 4) :
    s.atBar (.bar kind act slot z) (if act = 1 then (s.mem.release core (barScope (s.keyOfBar kind slot))).1
      else (s.mem.release core (barScope (s.keyOfBar kind slot))).1.acquire core (barScope (s.keyOfBar kind slot))) 0 (s.keyOfBar kind slot) s.after := by
  obtain ⟨gs, hexec, -⟩ := h.ends (z := z) (s.barStep_arrives core _ hact2 (fun _ => hwait)) (fun _ => hrel) hteam hhalt hact2 hkind hon hdone hall hslots
    hcores hwgs hdue hslot
  have hbar := h.atBar_of (key := s.keyOfBar kind slot) hexec
  rwa [s.past_after act _ hwait, s.passed_after, Tbl.get_del_same] at hbar

end

/-- The arrivals due at a barrier of BAR, by its kind. -/
theorem State.barDue_keyOfBar (s : State) (core kind slot : Nat) (w : Wg) : s.barDue core w (s.keyOfBar kind slot)
    = match s.gridAt w.grid with
      | none => 0
      | some gr => if kind = 2 then gr.dieTotal (core / 64) - Tbl.get 0 gr.goneDie (core / 64)
        else Tbl.get 0 gr.teamCnt (s.keyOfBar kind slot - 16) - Tbl.get 0 gr.goneTeam (s.keyOfBar kind slot - 16) := by
  have hkey : s.keyOfBar kind slot = 2 ↔ kind = 2 := by unfold State.keyOfBar; split <;> omega
  rw [State.barDue]
  simp only [hkey] <;> rfl

/-- The warnings of BAR, by its kind. -/
theorem barWarn_eq (kind act slot z : Nat) :
    barWarn kind act slot z = ignored (z != 0 || (kind != 3 && slot != 0)) ||| (if act = 0 then flag wModRsvd else 0) := by
  have hflag : flagIf (act == 0) wModRsvd = if act = 0 then flag wModRsvd else 0 := by simp [flagIf]
  rw [barWarn, hflag]
  rfl

section
variable {s : State} {core g e act slot z : Nat} (h : s.BarIssue core g e) (hact03 : act = 0 ∨ act = 3) (hhalt : s.sp.halted = false)
  (hon : s.me.on = true)
include h hact03 hhalt hon

/-- A workgroup barrier at which a lane of the group is missing. -/
theorem State.BarIssue.becomes_missing (hlacks : s.me.lacks (Tbl.get 0 s.me.arr 0 ||| s.mask)) (hg : g ∈ (s.wgOf s.cur.act).slots) :
    s.becomes (.bar 0 act slot z) { s.me.warned (barWarn 0 act slot z) with arr := Tbl.upd 0 s.me.arr 0 (· ||| s.mask) } { s.after with wait := .bar 0 } :=
  h.becomes_of (h.stays (kind := 0) (slot := slot) (.arrivesAndWaits (by omega) (by omega)) (fun _ => s.mem.release_zero core ▸ rfl) (by omega) hhalt
    hlacks hon hg (.inl rfl))

/-- A workgroup barrier of one group whose last lane arrives. -/
theorem State.BarIssue.becomes_last (hall : ¬ s.me.lacks (Tbl.get 0 s.me.arr 0 ||| s.mask)) (hslots : (s.wgOf s.cur.act).slots = [g])
    (hdone : (s.wgOf s.cur.act).done = false) (hwait : s.sp.wait = .none) (hcores : s.cores.map Prod.fst = [core])
    (hwgs : (s.core core).wgs.map Prod.fst = [s.me.wslot]) :
    s.becomes (.bar 0 act slot z) { s.me.warned (barWarn 0 act slot z) with arr := Tbl.del (Tbl.upd 0 s.me.arr 0 (· ||| s.mask)) 0 } s.after := by
  have hstep : s.BarStep core (s.keyOfBar 0 slot) act s.mem (Tbl.upd 0 s.me.arr 0 (· ||| s.mask)) { s.after with wait := .bar 0 } :=
    .arrivesAndWaits (by omega) (by omega)
  obtain ⟨gs, hexec, hgs⟩ := h.ends (z := z) hstep (fun _ => s.mem.release_zero core ▸ rfl) (by omega) hhalt (by omega) (by omega) hon hdone hall hslots
    hcores hwgs (by omega) (by omega)
  have hpast : Split.past { s.after with wait := .bar 0 } 0 = s.after := by
    rw [Split.past, if_pos (by simp), ← hwait]
    rfl
  obtain rfl := hgs (show (0 : Nat) < 2 by omega)
  refine h.becomes_of (w := barWarn 0 act slot z) ?_
  rw [← hpast]
  exact hexec

end

end Sys2Proof.Machine
end

section
open Sys2Proof Sys2Proof.Machine

/-- Settles O33: by what BAR leaves of memory, arrivals and split before the look at its barrier, and whether that look finds the episode
complete. -/
theorem barriers : Obligations.Barriers := by
  unfold Obligations.Barriers
  refine ⟨fun s core g e kind act slot z hact hsup hq hlone hhalt hwait hon hkind _ => ?_, fun s core g e act slot z hact hsup hq hlone hhalt hon hact03 => ?_⟩
  · intro w key scope
    have hscope : scope = barScope (s.keyOfBar kind slot) := (s.barScope_keyOfBar hkind slot).symm
    clear_value scope
    subst hscope
    intro rel arr missing due hteam hrel
    have h := State.BarIssue.of hact hsup hq hlone
    have hkey : 2 ≤ s.keyOfBar kind slot → 2 ≤ kind := by unfold State.keyOfBar; split <;> omega
    refine ⟨fun hmiss hg hdone hopen => h.atBar_missing hrel hteam hhalt hon (fun _ => hwait) hmiss hg hdone (fun hk => hopen (hkey hk)),
      fun hall h2 hslots hdone hcores hwgs hdue hslot =>
        h.atBar_last hrel hteam hhalt hon h2 hkind hwait hdone hall hslots hcores hwgs (fun hk => ⟨(hdue hk).1, ?_⟩) hslot⟩
    rw [State.barDue_keyOfBar]
    exact (hdue hk).2
  · intro w warned
    have h := State.BarIssue.of hact hsup hq hlone
    have hwarn0 := barWarn_eq 0 act slot z
    have hwarn3 := barWarn_eq 3 act slot z
    simp only [show ((0 : Nat) != 3) = true from rfl, Bool.true_and] at hwarn0
    simp only [show ((3 : Nat) != 3) = false from rfl, Bool.false_and, Bool.or_false] at hwarn3
    refine ⟨fun hlacks hg => ?_, fun hall hslots hdone hwait hcores hwgs => ?_, fun hteam => ?_⟩
    · have hbar := h.becomes_missing (slot := slot) (z := z) hact03 hhalt hon hlacks hg
      rwa [hwarn0] at hbar
    · have hbar := h.becomes_last (slot := slot) (z := z) hact03 hhalt hon
        (fun ⟨l, hl, hlife, hbit⟩ => by rw [hall l hl hlife] at hbit; cases hbit) hslots hdone hwait hcores hwgs
      rwa [hwarn0] at hbar
    · rw [← hwarn3]
      exact h.becomes_noTeam hteam

end

section
/-! Arrival at a copy, peer copy or dispatch of the workgroup (12 R377, R384, R385; 07 R240). -/

namespace Sys2Proof.Machine

/-- The held result of a uniform instruction at its issue. -/
def heldUniform (r mask la : Nat) : Held :=
  { regs := [r], uni := true, win := if mask = 0 then [(32, la + 1)] else (lanesOf mask).map (fun l => (l, la + 1)) }

/-- A uniform result in a context that holds none. -/
theorem Ctx.hold_uniform (c : Ctx) (h : c.pend = []) (r mask la : Nat) :
    c.hold [r] true mask la = ({ c with pend := [(c.hid, heldUniform r mask la)], hid := c.hid + 1 }, c.hid) := by
  have hwaw : (if r % 64 = 0 then c else c.wawU r) = c := by
    split
    · rfl
    · rw [Ctx.wawU, h]; rfl
  simp only [Ctx.hold, List.foldl_cons, List.foldl_nil, if_true, hwaw, h, List.map_nil, Tbl.put_nil]
  rfl

theorem State.updWg_setCtx (s : State) (a : Actor) (c : Ctx) (k w : Nat) (f : Wg → Wg) :
    (s.setCtx a c).updWg k w f = (s.updWg k w f).setCtx a c := by cases a <;> rfl

theorem State.ctx_updWg (s : State) (a : Actor) (k w : Nat) (f : Wg → Wg) : (s.updWg k w f).ctx a = s.ctx a := s.ctx_setCore a _ _

/-- The workgroup of a group after a change of it. -/
theorem State.wgOf_updWg (s : State) (core g e : Nat) (f : Wg → Wg) :
    (s.updWg core (s.ctx (.split core g e)).wslot f).wgOf (.split core g e) = f (s.wgOf (.split core g e)) := by
  rw [State.wgOf, State.ctx_updWg]
  show Tbl.get {} ((s.updWg core (s.ctx (.split core g e)).wslot f).core core).wgs _ = _
  rw [State.updWg, State.setWg, State.core_setCore]
  exact Tbl.get_put_same ..

/-- An operation of a kind and episode of the groups, which further arrivals join. -/
def CopyOp.joins (o : CopyOp) (kind n : Nat) : Bool := !o.seqr && o.kind == kind && o.epi == n

/-- The operations of a workgroup after an arrival: it joins the one of its kind and episode, or opens one. -/
def joinOps (o : CopyOp) (v : Arrival) (ops : List CopyOp) : List CopyOp :=
  if ops.any (·.joins o.kind o.epi) then ops.map (fun x => if x.joins o.kind o.epi then { x with arr := x.arr ++ [v] } else x) else ops ++ [o]

/-- The operation that an arrival of the executing group opens. -/
def State.newOp (s : State) (ins : Instr) (kind : Nat) (v : Arrival) : CopyOp :=
  { ins := ins, kind := kind, epi := Tbl.get 0 s.me.counts kind + 1, pc := s.cur.pc, word := s.cur.word, arr := [v],
    reserved := s.sharedFull (s.coreOf s.cur.act), seqr := false }

/-- An arrival of the executing group, with clean operands. -/
def State.opArrival (s : State) (a b b1 : W64) : Arrival :=
  { act := s.cur.act, a := .ok a, b := b, b1 := b1, mask := s.mask, hid := s.me.hid, sup := s.sp.sup }

/-- The context of a group that has arrived. -/
def Ctx.arriving (c : Ctx) (w : W32) (kind r mask la : Nat) : Ctx :=
  { c.warns w with pend := [(c.hid, heldUniform r mask la)], hid := c.hid + 1, counts := Tbl.put c.counts kind (Tbl.get 0 c.counts kind + 1) }

section
variable {s : State} {core g e : Nat} (hact : s.cur.act = .split core g e)
include hact

theorem State.arriveOp_split (hq : s.me.pend = []) {ops : List (Option Payload)} (hb : firstBad ops = none) (w : W32) (ins : Instr) (kind d la : Nat)
    (a b b1 : W64) :
    (s.warns w).arriveOp ins kind d la ops a b b1
      = ((s.updWg core s.me.wslot (fun x => { x with ops := joinOps (s.newOp ins kind (s.opArrival a b b1)) (s.opArrival a b b1) x.ops })).setCtx s.cur.act
          (s.me.arriving w kind (d % 64) s.mask la)).retire s.mask := by
  have hseq : s.cur.act.isSeq = false := by rw [hact]; rfl
  have hmarker (t : State) : t.marker s.cur.act = s.cur.act := by rw [hact]; rfl
  have hcore (t : State) : t.coreOf s.cur.act = core := by rw [hact]; rfl
  have hhold := (s.me.warns w).hold_uniform hq (d % 64) s.mask la
  have hfull : (s.warns w).sharedFull core = s.sharedFull core := by rw [State.sharedFull, State.core, State.warns_cores, State.sharedFull, State.core]
  have hfm : (s.warns w).faultMask = s.mask := by rw [State.faultMask, State.warns_cur, hseq, if_neg Bool.false_ne_true, State.mask_warns]
  unfold State.arriveOp
  simp only [hb, State.warns_cur, hseq, hmarker, hcore, hfm, hfull, State.me_warns s w hseq, State.mask_warns, State.sp_warns, hhold, if_false,
    Bool.false_eq_true, Bool.not_false, Bool.true_and, State.setCtx_warns hseq, State.updWg_setCtx]
  rw [State.newOp, hcore]
  rfl

/-- What a group's arrival leaves: its count, and the operations of its workgroup. -/
theorem State.arriveOp_spec (hq : s.me.pend = []) {ops : List (Option Payload)} (hb : firstBad ops = none) (w : W32) (ins : Instr) (kind d la : Nat)
    (a b b1 : W64) :
    ∃ t, (s.warns w).arriveOp ins kind d la ops a b b1 = t ∧ t.me.s = s.me.s ∧ s.endsAs t s.after
      ∧ Tbl.get 0 t.me.counts kind = Tbl.get 0 s.me.counts kind + 1
      ∧ t.opsOf = joinOps (s.newOp ins kind (s.opArrival a b b1)) (s.opArrival a b b1) s.opsOf := by
  rw [State.arriveOp_split hact hq hb]
  generalize hu : s.updWg core s.me.wslot _ = u
  have hcur : u.cur = s.cur := by rw [← hu]; rfl
  obtain ⟨Q, sp, pl, hret, hends⟩ := State.retire_awaited (t := u) (mask := s.mask) (c := s.me.arriving w kind (d % 64) s.mask la) hact hcur
    (.inr ⟨_, _, rfl, rfl⟩) rfl rfl
  refine ⟨_, hret, ?_, hends, ?_, ?_⟩
  · rw [State.me_of_setCtx hcur]
    rfl
  · rw [State.me_of_setCtx hcur]
    exact Tbl.get_put_same ..
  · rw [State.opsOf, State.setCtx_cur, hcur, hact, State.wgOf_setCtx rfl, ← hu]
    · rw [State.me, hact, State.wgOf_updWg, State.opsOf, hact]
    · rw [← hu, State.ctx_updWg, State.me, hact]
      rfl

end

end Sys2Proof.Machine
end

section
/-! Castling: the views it exchanges, and the split it lets go on (12 R390; 03 R104). -/

namespace Sys2Proof.Machine

/-- Updates under different keys, each where its condition holds. -/
theorem Tbl.get_foldl_upd {α : Type} (d : α) (p : Nat → Bool) (f : α → α) (b : Nat) {L : List Nat} (hL : L.Nodup) (t : Tbl α) (j : Nat) :
    Tbl.get d (L.foldl (fun t i => if p i then Tbl.upd d t (b + i) f else t) t) (b + j)
      = if j ∈ L ∧ p j = true then f (Tbl.get d t (b + j)) else Tbl.get d t (b + j) := by
  induction L generalizing t with
  | nil => simp
  | cons i L ih =>
    obtain ⟨hi, hL⟩ := List.nodup_cons.1 hL
    rw [List.foldl_cons, ih hL]
    by_cases hij : j = i
    · subst hij
      by_cases hp : p j = true
      · simp [hi, hp, Tbl.upd, Tbl.get_put_same]
      · simp [hp]
    · have hne : Tbl.get d (if p i then Tbl.upd d t (b + i) f else t) (b + j) = Tbl.get d t (b + j) := by
        split
        · exact Tbl.get_put_ne _ _ _ (by omega)
        · rfl
      rw [hne]
      simp [hij]

/-- A CSTL names this view, and it is enabled and shadowed (12 R390). -/
def castles (sp mask : Nat) (views : Tbl View) (i : Nat) : Bool :=
  bit mask i && ((Tbl.get ({} : View) views (sp * 16 + i)).en && (Tbl.get ({} : View) views (sp * 16 + i)).shd)

/-- The views of a workgroup after those that a CSTL names among `named` have castled (12 R390). -/
def castled (sp mask : Nat) (named views : Tbl View) : Tbl View :=
  (List.range 16).foldl (fun t i => if castles sp mask named i then Tbl.upd {} t (sp * 16 + i) View.castle else t) views

theorem get_castled (sp mask : Nat) (named views : Tbl View) {i : Nat} (hi : i < 16) :
    Tbl.get ({} : View) (castled sp mask named views) (sp * 16 + i)
      = if castles sp mask named i then (Tbl.get ({} : View) views (sp * 16 + i)).castle else Tbl.get ({} : View) views (sp * 16 + i) := by
  rw [castled, Tbl.get_foldl_upd ({} : View) _ View.castle (sp * 16) List.nodup_range]
  simp [hi]

/-- A split held by one instruction, freed of it. -/
theorem Ctx.blk_freed {c : Ctx} {k : Nat} {b : Blk} (h : (c.split k).blks = [b]) : ((c.freed k b).split k).blk = none := by
  rw [Ctx.freed, h, List.erase_cons_head, Ctx.split_setSplit]
  rfl

/-- The castling cycle of a group whose workgroup has no engine operation (03 R104). -/
theorem State.castling_spec {s : State} {core g k sp mask : Nat} (hon : (s.ctx (.split core g k)).on = true)
    (hwaits : s.waitsAt (.split core g k) (.cstl sp mask)) (hops : (s.wgOf (.split core g k)).ops = []) :
    ∃ t, exec (.castling (.split core g k)) s = .next t ∧ ((t.ctx (.split core g k)).split k).blk = none
      ∧ (t.wgOf (.split core g k)).views = castled sp mask (s.wgOf (.split core g k)).views (s.wgOf (.split core g k)).views := by
  have hblk : ((s.ctx (.split core g k)).split k).blk = some (.cstl sp mask) := by
    have h := hwaits.1
    rwa [State.blkOf, if_pos hon] at h
  generalize ha : Actor.split core g k = a at *
  have hslot : a.slot = k := by rw [← ha]; rfl
  have hmarker (u : State) : u.marker a = a := by rw [← ha]; rfl
  have hcore : s.coreOf a = core := by rw [← ha]; rfl
  obtain ⟨skip, hexec⟩ : ∃ skip, exec (.castling a) s = .next (((s.updWg core (s.ctx a).wslot (fun w => { w with views := castled sp mask (s.wgOf a).views w.views })).warnOf a
      (ignW skip)).updCtx a (fun c => c.freed a.slot (.cstl sp mask))) := by
    show ∃ skip, execCastling a s = _
    unfold execCastling
    rw [hslot, hon, hblk]
    dsimp only
    rw [hops, hcore]
    exact ⟨_, rfl⟩
  generalize hu : s.updWg core (s.ctx a).wslot (fun w => { w with views := castled sp mask (s.wgOf a).views w.views }) = u at hexec
  have hctx : u.ctx a = s.ctx a := by rw [← hu, State.ctx_updWg]
  have hv : u.warnOf a (ignW skip) = u.setCtx a ((s.ctx a).warns (ignW skip)) := by rw [State.warnOf, hmarker, State.updCtx, hctx]
  rw [hv, State.updCtx, State.ctx_setCtx, State.setCtx_setCtx] at hexec
  refine ⟨_, hexec, ?_, ?_⟩
  · rw [State.ctx_setCtx, ← hslot]
    exact Ctx.blk_freed hwaits.blks
  · rw [State.wgOf_setCtx (x := ((s.ctx a).warns (ignW skip)).freed a.slot (.cstl sp mask)) ha.symm (congrArg Ctx.wslot hctx).symm, ← hu, ← ha, State.wgOf_updWg]

/-- CSTL holds its split (12 R390). -/
theorem State.cstl_holds {s : State} (hq : s.quiet) (hallow : s.allows Legal.copy [] = true) (y mask sp z : Nat) :
    s.becomesW (.cstl y mask sp z) (ignored (y != 0 || z != 0)) id { s.after with blk := some (.cstl sp mask) } := by
  have hmarked := s.marked_warns (ignored (y != 0 || z != 0))
  generalize hu : s.warns (ignored (y != 0 || z != 0)) = u at *
  have hcur : u.cur = s.cur := by rw [← hu]; exact State.warns_cur ..
  have hctx : s.me.Marked u.me := by rw [State.me, State.me, hcur]; exact hmarked.ctx _
  obtain ⟨spl, pl, hret, hlone⟩ := State.retire_setCtx (m := s.mask) (c := u.me.setSplit s.cur.act.slot { u.sp with blk := some (.cstl sp mask) }) hcur
    (hctx.pend.trans hq)
  have hexec : exec (.cstl y mask sp z) s = .next ((u.setCtx s.cur.act (u.me.setSplit s.cur.act.slot { u.sp with blk := some (.cstl sp mask) })).retire s.mask) := by
    show execCstl y mask sp z s = _
    rw [execCstl, State.uni_allowed s _ _ _ hallow, ← hcur, ← hu]
    rfl
  refine ⟨spl, pl, ?_, fun ⟨hsplits, hpool, _⟩ => ?_⟩
  · rw [hexec, hret, hu]
    rfl
  · have hlast : u.sp = s.sp := by rw [State.sp, State.sp, hcur, Ctx.split, Ctx.split, hctx.splits]
    refine hlone { s.sp with blk := some (.cstl sp mask) } ?_ (hctx.pool.trans hpool)
    rw [Ctx.setSplit, hctx.splits, hsplits, Tbl.put_singleton, hlast]

/-- A value without poison. -/
theorem Val.ok_getD {α : Type} {v : Val α} (h : v.pl? = none) (d : α) : .ok (v.getD d) = v := by
  cases v with
  | ok x => rfl
  | bad p => cases h

/-- A copy, peer copy or dispatch with clean operands arrives at its group's next episode of that kind. -/
theorem Instr.collective_arrives {i : Instr} {kind d la : Nat} {rs : List Nat} (hi : Instr.collective i = some (kind, d, la, rs)) {s : State}
    {core g e : Nat} (hact : s.cur.act = .split core g e) (hclean : ∀ r ∈ rs, (s.me.rs r).pl? = none) :
    ∃ w ops a b b1, exec i s = .next ((s.warns w).arriveOp i kind d la ops a b b1) ∧ firstBad ops = none ∧ .ok a = s.me.rs (rs.headD 0) := by
  have hcopy (regs : List Nat) (k : State → State) : s.copyInstr regs k = .next (k s) := by
    rw [State.copyInstr, hact]
    exact State.uni_allowed s _ _ _ (by simp [State.allows, hact, Actor.isCtl, Actor.isSeq, Actor.isThread, Legal.copy])
  have hops : firstBad (rs.map (fun r => (s.me.rs r).pl?)) = none :=
    firstBad_of_none (fun x hx => by obtain ⟨r, hr, rfl⟩ := List.mem_map.1 hx; exact hclean r hr)
  cases i with
  | cpy y d a z la | dispSend y d a z m la | dispOpen y d a z m la | dispClose y d a z m la =>
    cases hi
    exact ⟨_, _, _, _, _, hcopy _ _, hops, Val.ok_getD (hclean a List.mem_cons_self) 0⟩
  | cpyr y d a b la =>
    cases hi
    exact ⟨_, _, _, _, _, hcopy _ _, hops, Val.ok_getD (hclean a List.mem_cons_self) 0⟩
  | _ => cases hi

end Sys2Proof.Machine
end

section
open Sys2Proof Sys2Proof.Machine

/-- Settles O44: an arrival by `joinOps`, a CSTL by the block of its split, and castling by the views that it exchanges. -/
theorem enginesIssue : Obligations.EnginesIssue := by
  unfold Obligations.EnginesIssue
  refine ⟨fun i kind d la rs hi _ s core g e hact hq hclean => ?_, fun s y mask sp z hq hallow => s.cstl_holds hq hallow y mask sp z,
    fun s core g e sp mask hon hwaits hops => ?_⟩
  · intro n open?
    obtain ⟨w, ops, a, b, b1, hexec, hbad, ha⟩ := Instr.collective_arrives hi hact hclean
    obtain ⟨t, ht, hs, hends, hcount, hops⟩ := State.arriveOp_spec hact hq hbad w i kind d la a b b1
    refine ⟨t, s.opArrival a b b1, hexec.trans (congrArg _ ht), hs, hends, hcount, rfl, ha, rfl, fun hnone => ?_, fun hopen => ?_⟩
    · have hclosed : ¬ s.opsOf.any (fun o => o.joins kind n) = true := fun h => Bool.false_ne_true (hnone.symm.trans h)
      exact ⟨_, hops.trans (if_neg hclosed), rfl, rfl, rfl, rfl, rfl⟩
    · exact hops.trans (if_pos hopen)
  · obtain ⟨t, hexec, hblk, hviews⟩ := State.castling_spec hon hwaits hops
    refine ⟨t, hexec, hblk, fun i hi v hv => ?_⟩
    subst hv
    rw [hviews, get_castled sp mask _ _ hi, castles, Bool.and_assoc]
    rfl

end

section
/-! The held result of a uniform instruction, and the retirement that may write it (09 R283). -/

namespace Sys2Proof.Machine

/-- A context with other uniform registers and held results. -/
def Ctx.withScalars (c : Ctx) (S : Tbl (Val W64)) (P : Tbl Held) : Ctx := { c with s := S, pend := P }

/-- The held result of a uniform instruction that has its value. -/
def heldScalar (r mask la : Nat) (v : Val W64) : Held := { heldUniform r mask la with val := some [(32, [v])] }

theorem Ctx.deliver_scalar (c : Ctx) {id r mask la : Nat} (h : c.pend = [(id, heldUniform r mask la)]) (v : Val W64) :
    c.deliver id [(32, [v])] = { c with pend := [(id, heldScalar r mask la v)] } := by
  simp [Ctx.deliver, Ctx.ldfSure, h, heldUniform, heldScalar, flagIf, Ctx.warns]

/-- A lone uniform result that is ripe is written. -/
theorem Ctx.settle_scalar (c : Ctx) {id r : Nat} {h : Held} {v : Val W64} (hp : c.pend = [(id, h)]) (hripe : c.ripe h = true) (hregs : h.regs = [r])
    (huni : h.uni = true) (hval : h.val = some [(32, [v])]) (hgone : h.gone = []) (hr : r % 64 ≠ 0) :
    c.settle = c.withScalars (Tbl.put c.s (r % 64) v) [] := by
  have hwrite : c.writeHeld h = c.withScalars (Tbl.put c.s (r % 64) v) c.pend := by
    rw [Ctx.writeHeld, hval]
    simp only [List.foldl_cons, List.foldl_nil, hregs, List.zip_cons_cons, List.zip_nil_right, hgone, huni, if_neg hr]
    rfl
  rw [Ctx.settle, hp, List.foldl_cons, List.foldl_nil, if_pos hripe, hwrite]
  simp [Ctx.withScalars, Tbl.del, hp]

/-- Retirement of all but an engine sequencer: with its windows and the results that are then written the context has the uniform registers `S`
and the held results `P`; besides, its splits change, a lone one to the next instruction. -/
theorem State.retire_scalar {s : State} {m : Nat} {S : Tbl (Val W64)} {P : Tbl Held} (hseq : s.cur.act.isSeq = false)
    (hsettle : ∀ c : Ctx, c.lanes = s.me.lanes → c.s = s.me.s → c.pend = s.me.pend → (c.tickWin m true).settle = c.withScalars S P) :
    ∃ sp pl, s.retire m = s.setCtx s.cur.act ((s.me.withScalars S P).withSplits sp pl)
      ∧ ∀ x, s.me.splits = [(s.cur.act.slot, x)] → s.me.pool = [] → sp = [(s.cur.act.slot, { x with pc := s.cur.npc })] ∧ pl = [] := by
  generalize hc : (s.advance.me.withScalars S P).dropYield s.cur.act.slot = c
  have hctx (sp : Tbl Split) (pl : List Split) : c.withSplits sp pl = (s.me.withScalars S P).withSplits sp pl := by rw [← hc, State.advance_me]; rfl
  have hfinish : s.retire m = s.setCtx s.cur.act (match s.cur.act with
      | .split _ _ _ => c.tidy
      | _ => c) := by
    rw [State.retire, State.finish, State.advance_cur, hseq, Bool.false_and, if_neg Bool.false_ne_true, State.upd_eq, State.advance_cur, State.advance_setCtx]
    dsimp only
    rw [hsettle s.advance.me (by simp) (by simp) (by simp), ← hc]
    rfl
  have hlone {x : Split} (hx : s.me.splits = [(s.cur.act.slot, x)]) (hpool : s.me.pool = []) :
      c.splits = [(s.cur.act.slot, { x with pc := s.cur.npc })] ∧ c.pool = [] := by
    rw [← hc, State.advance_me]
    exact ⟨by simp [Ctx.dropYield, Ctx.withScalars, Ctx.setSplit, Ctx.split, hx, Tbl.get, Tbl.put_singleton], hpool⟩
  rw [hfinish]
  split
  · refine ⟨c.tidy.splits, c.tidy.pool, congrArg (State.setCtx s s.cur.act) ((c.splitsOnly_tidy).trans (hctx _ _)), fun x hx hpool => ?_⟩
    obtain ⟨hsplits, hpl⟩ := hlone hx hpool
    rw [Ctx.tidy_lone c hsplits hpl]
    exact ⟨hsplits, hpl⟩
  · exact ⟨c.splits, c.pool, congrArg (State.setCtx s s.cur.act) (hctx _ _), fun x => hlone⟩

end Sys2Proof.Machine
end

section
/-! The scalar memory forms: what each is as a memory instruction, and the access it makes (11 R342). -/

namespace Sys2Proof.Machine

/-- The sign extension of a field of n + 1 bits. -/
theorem sext64_eq_of_succ (n x : Nat) : sext64 (n + 1) x = (BitVec.ofNat (n + 1) x).signExtend 64 := by
  refine congrArg (BitVec.ofInt 64) ?_
  rw [BitVec.toInt_eq_toNat_cond, BitVec.toNat_ofNat, toS, bit_eq_testBit, Nat.add_sub_cancel]
  have hlt : x % 2 ^ (n + 1) < 2 ^ (n + 1) := Nat.mod_lt _ (Nat.two_pow_pos _)
  have hpow : 2 ^ (n + 1) = 2 * 2 ^ n := Nat.pow_succ'
  have hsign : (x % 2 ^ (n + 1)).testBit n = decide (¬ 2 * (x % 2 ^ (n + 1)) < 2 ^ (n + 1)) := by
    generalize x % 2 ^ (n + 1) = y at *
    by_cases hy : y < 2 ^ n
    · rw [Nat.testBit_lt_two_pow hy, decide_eq_false (by omega)]
    · have hdiv : y / 2 ^ n = 1 := Nat.div_eq_of_lt_le (by omega) (by omega)
      rw [Nat.testBit_eq_decide_div_mod_eq, hdiv, decide_eq_true (show 1 % 2 = 1 from rfl), decide_eq_true (by omega)]
  rw [hsign]
  simp only [decide_eq_true_eq, ite_not]
  push_cast
  rfl

/-- The address of a scalar form (R342). -/
def scalarAddr (b : W64) (off : Nat) : Nat := (b + (BitVec.ofNat 7 off).signExtend 64 * 8).toNat

/-- An instruction that is a scalar access, with what it is as a memory instruction. -/
structure ScalarForm (i : Instr) (m : MInfo) (base off : Nat) : Prop where
  info : Instr.minfo i = some m
  uni : m.uni = true
  kind : m.kind = .load ∨ m.kind = .store ∨ m.kind = .atomic
  runs : ∃ regs wn, ∀ s, exec i s = s.gm i regs wn base off

theorem ScalarForm.ldf {i : Instr} {m : MInfo} {base off : Nat} (h : ScalarForm i m base off) : m.kind ≠ .ldf := by
  rcases h.kind with h | h | h <;> simp [h]

/-- The access of a scalar form. -/
def State.scalarAcc (s : State) (m : MInfo) (ea : Nat) : Acc :=
  { lane := 32, addr := ea, size := m.size, data := (gmData s.me m).1, aux := (gmData s.me m).2.1, bad := (gmData s.me m).2.2 }

section
variable {s : State} {i : Instr} {m : MInfo} {base off : Nat} {b : W64}

theorem gmAddr_clean (hb : s.me.rs base = .ok b) :
    gmAddr s.me base off m = .ok (if m.space.isSome then scalarAddr b off % 2 ^ 32 else scalarAddr b off) := by
  rw [gmAddr, hb, scalarAddr, ← sext64_eq_of_succ]

/-- A scalar form of an aligned address in bounds with clean operands makes its access (R342). -/
theorem startLane_scalar (hs : m.space = none) (hclean : (gmData s.me m).2.2 = none) {ea : Nat} (ha : ea % m.size = 0) (hlt : ea < 2 ^ 55) :
    startLane m 32 (.ok ea) (gmData s.me m) = .acc (s.scalarAcc m ea) := by
  have hdiv : ea / 2 ^ 55 = 0 := Nat.div_eq_of_lt hlt
  rw [startLane]
  simp only [hs, hclean, ha, hdiv]
  cases m.kind <;> simp [State.scalarAcc, hclean]

/-- A local scalar load or store makes its access, whose address is checked where it takes effect (R342). -/
theorem startLane_scalarLocal (hs : m.space.isSome = true) (hk : m.kind ≠ .atomic) (ea : Nat) :
    startLane m 32 (.ok ea) (gmData s.me m) = .acc (s.scalarAcc m ea) := by
  rw [startLane]
  cases hkind : m.kind with
  | atomic => exact absurd hkind hk
  | _ => simp [State.scalarAcc, Option.isNone_iff_eq_none, Option.isSome_iff_ne_none.1 hs]

/-- What a scalar form does with its access. -/
theorem ScalarForm.starts (hform : ScalarForm i m base off) (hseq : s.cur.act.isSeq = false) (hb : s.me.rs base = .ok b) {ea : Nat}
    (hea : (if m.space.isSome then scalarAddr b off % 2 ^ 32 else scalarAddr b off) = ea)
    (hstart : startLane m 32 (.ok ea) (gmData s.me m) = .acc (s.scalarAcc m ea)) :
    ∃ w, exec i s = .next ((if s.cur.act.isCtl then ((s.warns w).ctlMem m (.acc (s.scalarAcc m ea))).noteShc s.cur.act
      else (s.warns w).startMem i m [(32, .acc (s.scalarAcc m ea))]).retire s.mask) := by
  obtain ⟨regs, wn, hruns⟩ := hform.runs
  have hallow : s.allows Legal.all regs = true := by
    rw [State.allows, hseq]
    simp [Legal.all]
  refine ⟨wn, ?_⟩
  rw [hruns, State.gm, State.uni1, State.uni_allowed s _ _ _ hallow, hform.info]
  dsimp only [Option.getD_some]
  rw [State.me_warns s wn hseq, State.warns_cur]
  have haddr : gmAddr (s.me.warns wn) base off m = .ok ea := by
    rw [← hea]
    exact gmAddr_clean hb
  rw [haddr, show startLane m 32 (.ok ea) (gmData (s.me.warns wn) m) = .acc (s.scalarAcc m ea) from hstart]

end

end Sys2Proof.Machine
end

section
/-! The issue of a scalar access of a group (11 R342; 02 R49; 09 R283). -/

namespace Sys2Proof.Machine

theorem ScalarForm.dest {i : Instr} {m : MInfo} {base off : Nat} (h : ScalarForm i m base off) : m.dest = if m.kind = .store then [] else [m.d] := by
  rw [MInfo.dest, h.uni]
  rcases h.kind with hk | hk | hk <;> rw [hk] <;> rfl

/-- The held results of a context that had none, after the issue of a scalar memory instruction. -/
def Ctx.openedScalar (c : Ctx) (m : MInfo) (mask : Nat) : Tbl Held := if m.kind = .store then [] else [(c.hid, heldUniform m.d mask m.la)]

theorem Ctx.openedScalar_awaited (c : Ctx) (m : MInfo) (mask : Nat) : Tbl.awaited (c.openedScalar m mask) := by
  rw [Ctx.openedScalar]
  split
  · exact .inl rfl
  · exact .inr ⟨_, _, rfl, rfl⟩

/-- The context of a group at the issue of the operation `o` of a scalar access. -/
def State.scalarCtx (s : State) (m : MInfo) (w : W32) (e : Nat) (o : MemOp) : Ctx :=
  s.me.issuing w (s.me.openedScalar m s.mask) (if m.kind = .store then s.me.hid else s.me.hid + 1) e o

/-- The operation of a scalar access at its issue. -/
def State.scalarOp (s : State) (i : Instr) (m : MInfo) (x : Acc) : MemOp :=
  s.memOp i (if m.kind = .store then 0 else s.me.hid) (probesOf m [x]) [x] []

/-- The context and the number of the held result that a scalar memory instruction starts with. -/
def Ctx.openingScalar (c : Ctx) (m : MInfo) (mask : Nat) : Ctx × Nat := if m.dest.isEmpty then (c, 0) else c.hold m.dest true mask m.la

section
variable {s : State} {core g e hid : Nat} {i : Instr} {m : MInfo} {base off : Nat} (hform : ScalarForm i m base off)
include hform

/-- The issue of a scalar access (R342). -/
theorem ScalarForm.startMem_acc {c : Ctx} (hact : s.cur.act = .split core g e) (hsp : m.space ≠ some 1) (hhold : s.me.openingScalar m s.mask = (c, hid))
    (hops : c.memops = []) (x : Acc) : s.startMem i m [(32, .acc x)]
      = (s.setCtx s.cur.act { c with memops := [(e, s.memOp i hid (probesOf m [x]) [x] [])] }).memGo memFuel s.cur.act := by
  have hldf : (m.kind == .ldf) = false := by simpa using hform.ldf
  have hspace : (m.space == some 1) = false := by simpa using hsp
  have hlanes : s.cur.act.lanes = true := by rw [hact]; rfl
  rw [← State.setOp_memOp (probesOf m [x]) [x] [] hact hops]
  unfold State.startMem
  generalize memFuel = fuel
  extract_lets a g' own s1 res todo gives pr
  have hpr : pr = probesOf m [x] := by
    unfold pr
    rw [hldf, if_neg Bool.false_ne_true]
    rfl
  have hgives : gives = true := rfl
  rw [Ctx.openingScalar] at hhold
  rw [hpr, show s1 = s from rfl, show res = [] from rfl, show todo = [x] from rfl, hgives]
  simp only [hldf, hform.uni, hspace, hlanes, a, Bool.not_true, Bool.or_false, Bool.and_false, Bool.false_and, Bool.false_eq_true, if_false, hhold]
  rfl

theorem ScalarForm.opening (c : Ctx) (hp : c.pend = []) (mask : Nat) : c.openingScalar m mask
    = ({ c with pend := c.openedScalar m mask, hid := if m.kind = .store then c.hid else c.hid + 1 }, if m.kind = .store then 0 else c.hid) := by
  rw [Ctx.openingScalar, hform.dest, Ctx.openedScalar]
  by_cases hk : m.kind = .store
  · simp only [if_pos hk, List.isEmpty_nil, if_true]
    rw [← hp]
  · simp only [if_neg hk, List.isEmpty_cons, Bool.false_eq_true, if_false]
    exact c.hold_uniform hp _ _ _

theorem ScalarForm.startMem (hact : s.cur.act = .split core g e) (hsp : m.space ≠ some 1) (hp : s.me.pend = []) (hops : s.me.memops = []) (w : W32) (x : Acc) :
    (s.warns w).startMem i m [(32, .acc x)] = (s.setCtx s.cur.act (s.scalarCtx m w e (s.scalarOp i m x))).memGo memFuel s.cur.act := by
  have hseq : s.cur.act.isSeq = false := by rw [hact]; rfl
  have hopening : (s.warns w).me.openingScalar m (s.warns w).mask = _ := hform.opening _ (by rw [State.me_warns s w hseq]; exact hp) _
  rw [hform.startMem_acc (s := s.warns w) (by rw [State.warns_cur]; exact hact) hsp hopening (by rw [State.me_warns s w hseq]; exact hops), State.warns_cur,
    State.setCtx_warns hseq, State.memOp_warns, State.me_warns s w hseq, State.mask_warns]
  rfl

end

end Sys2Proof.Machine
end

section
/-! A scalar global access of a group from its issue to its first request (02 R49, R52, R71, R444). -/

namespace Sys2Proof.Machine

/-- The live lanes of a group outside regions own a uniform access without holding any of its stores (05 R169). -/
theorem State.owners_closed {s : State} {core g e : Nat} {o : MemOp} (hact : s.cur.act = .split core g e) (hmask : o.mask = s.mask)
    (hlanes : ∀ l ∈ s.active, (s.me.ln l).life = .live ∧ (s.me.ln l).rgn.opn = false) {t : State} (hctx : ∀ l, (t.ctx s.cur.act).ln l = s.me.ln l) :
    ∀ l ∈ lanesOf (t.owners s.cur.act o), (t.rgnAt (t.marker s.cur.act) l).opn = false := by
  intro l hl
  have hseq : s.cur.act.isSeq = false := by rw [hact]; rfl
  have hmarker : t.marker s.cur.act = s.cur.act := by rw [hact]; rfl
  rw [State.owners, hseq, if_neg Bool.false_ne_true, hmask] at hl
  obtain ⟨hlive, hopn⟩ := hlanes l hl
  rw [hmarker, State.rgnAt_live (by rw [hctx]; exact hlive), hctx, hopn]

section
variable {s : State} {core g e : Nat} {i : Instr} {m : MInfo} {base off : Nat} (hform : ScalarForm i m base off) (hact : s.cur.act = .split core g e)
include hform hact

/-- The issue of a scalar form in a core that holds nothing. -/
theorem ScalarForm.fresh (hs : m.space = none) (hbare : s.bare) {x : Acc} (hz : 0 < x.size) (hbad : x.bad = none) (w : W32) :
    FreshOp (s.setCtx s.cur.act (s.scalarCtx m w e (s.scalarOp i m x))) s.cur.act (s.scalarOp i m x) m x [] := by
  obtain ⟨hlines, hquar, hdc, hlanes⟩ := hbare
  have hslot : s.cur.act.slot = e := by rw [hact]; rfl
  have hctx (o : MemOp) : (s.setCtx s.cur.act (s.scalarCtx m w e o)).ctx s.cur.act = s.scalarCtx m w e o := State.ctx_setCtx ..
  have hinfo : (s.scalarOp i m x).info = m := by
    show (Instr.minfo i).getD {} = m
    rw [hform.info]
    rfl
  have hcore (o : MemOp) : (s.setCtx s.cur.act (s.scalarCtx m w e o)).coreOf s.cur.act = s.coreOf s.cur.act := by rw [hact]; rfl
  exact {
    op := by
      rw [State.opOf, hctx, hslot]
      simp [State.scalarCtx, Ctx.issuing, Tbl.find]
    mesh := rfl
    remote := rfl
    req := rfl
    first := by
      rw [hctx]
      simp [State.scalarCtx, Ctx.issuing, Ctx.first]
    info := hinfo
    space := hs
    todo := rfl
    probes := rfl
    probed := rfl
    size := hz
    lines := by rw [hcore, State.setCtx_mem]; exact hlines
    quar := by rw [hcore, State.core_setCtx]; exact hquar
    dc := by rw [State.setCtx_mem]; exact hdc
    now := by
      intro y hy
      obtain rfl := List.mem_singleton.1 hy
      have hclosed := State.owners_closed hact (o := s.scalarOp i m y) rfl hlanes (t := s.setCtx s.cur.act (s.scalarCtx m w e (s.scalarOp i m y)))
        (fun l => by rw [hctx]; rfl)
      rw [State.storesNow, hbad, hinfo, hform.uni]
      refine Bool.and_eq_true_iff.2 ⟨rfl, List.all_eq_true.2 (fun l hl => ?_)⟩
      dsimp only
      rw [hclosed l hl]
      rfl }

/-- A scalar access of a group is in flight after its issue (R342; 02 R49). -/
theorem ScalarForm.inFlight (hs : m.space = none) (hz : 0 < m.size) (hbare : s.bare) (hq : s.me.pend = []) (hops : s.me.memops = []) {b : W64}
    (hb : s.me.rs base = .ok b) (hclean : (gmData s.me m).2.2 = none) (ha : scalarAddr b off % m.size = 0) (hlt : scalarAddr b off < 2 ^ 55) {k : ReqKind}
    (hk : m.Reaches k) :
    ∃ t o r, exec i s = .next t ∧ s.keepsRegs t ∧ s.endsAs t s.after ∧ t.opOf s.cur.act = some o ∧ o.ins = i
      ∧ o.todo.map (fun x => (x.lane, x.addr, x.size)) = [(32, scalarAddr b off, m.size)] ∧ o.req = some r ∧ r.kind = k ∧ r.addr = scalarAddr b off
      ∧ r.st = .sent := by
  have hseq : s.cur.act.isSeq = false := by rw [hact]; rfl
  have hctl : ¬ s.cur.act.isCtl = true := by rw [hact]; exact Bool.false_ne_true
  have hslot : s.cur.act.slot = e := by rw [hact]; rfl
  obtain ⟨w, hexec⟩ := hform.starts hseq hb (if_neg (by simp [hs])) (startLane_scalar hs hclean ha hlt)
  rw [if_neg hctl, hform.startMem hact (by rw [hs]; nofun) hq hops] at hexec
  obtain ⟨m', r, hgo, hleads⟩ := (hform.fresh hact hs hbare (x := s.scalarAcc m (scalarAddr b off)) hz hclean w).sends hk 199
  generalize ho : s.scalarOp i m _ = o at hexec hgo hleads
  have hP := s.me.openedScalar_awaited m s.mask
  rw [State.scalarCtx] at hexec hgo
  generalize s.me.openedScalar m s.mask = P at hexec hgo hP
  generalize (if m.kind = .store then s.me.hid else s.me.hid + 1) = hid at hexec hgo
  rw [State.setOp_issuing hact] at hgo
  obtain ⟨Q, sp, pl, hret, hends⟩ := State.retire_awaited (s := s) (t := { s with mem := m' }) (mask := s.mask)
    (c := s.me.issuing w P hid e { o with req := some r }) hact rfl hP rfl rfl
  rw [show memFuel = 199 + 1 from rfl, hgo, hret] at hexec
  have hme (c : Ctx) : (({ s with mem := m' } : State).setCtx s.cur.act c).me = c := State.me_setCtx_cur rfl c
  refine ⟨_, { o with req := some r }, r, hexec, ?_, hends, ?_, by rw [← ho]; rfl, by rw [← ho]; rfl, rfl, hleads.kind, hleads.addr, hleads.st⟩
  · unfold State.keepsRegs
    rw [hme]
    obtain ⟨hs, hq, hl⟩ := s.me.issuing_registers w P Q hid e { o with req := some r } sp pl
    exact Ctx.keepsRegs_of hs hq hl
  · rw [State.opOf, State.ctx_setCtx, hslot]
    simp [Ctx.issuing, Ctx.withHeld, Ctx.withSplits, Tbl.find]

end

/-- The scalar forms of a group, with the first request and the width of each (11 R342, R343). -/
theorem ScalarForm.of_mem {s : State} {hint d base off la : Nat} (hd : (s.me.rs d).pl? = none) (hd0 : (s.me.rs (d - d % 2)).pl? = none)
    (hd1 : (s.me.rs (d - d % 2 + 1)).pl? = none) {i : Instr} {k : ReqKind} {n : Nat}
    (h : (i, k, n) ∈ [(Instr.sldW hint d base off la, ReqKind.read, 4), (.sldD hint d base off la, .read, 8),
      (.sstW hint d base off la, if hint = 3 then .bypass else .probe, 4), (.sstD hint d base off la, if hint = 3 then .bypass else .probe, 8),
      (.satomAdd64 hint d base off la, .atomic, 8), (.scas64 hint d base off la, .atomic, 8)]) :
    ∃ m, ScalarForm i m base off ∧ m.space = none ∧ m.size = n ∧ (n = 4 ∨ n = 8) ∧ m.Reaches k ∧ (gmData s.me m).2.2 = none := by
  simp only [List.mem_cons, List.not_mem_nil, or_false, Prod.mk.injEq] at h
  have hboth : firstBad [(s.me.rs (d - d % 2)).pl?, (s.me.rs (d - d % 2 + 1)).pl?] = none := by rw [hd0, hd1]; rfl
  rcases h with ⟨rfl, rfl, rfl⟩ | ⟨rfl, rfl, rfl⟩ | ⟨rfl, rfl, rfl⟩ | ⟨rfl, rfl, rfl⟩ | ⟨rfl, rfl, rfl⟩ | ⟨rfl, rfl, rfl⟩
  · exact ⟨_, ⟨rfl, rfl, .inl rfl, _, _, fun _ => rfl⟩, rfl, rfl, .inl rfl, .inl ⟨.inl rfl, rfl⟩, rfl⟩
  · exact ⟨_, ⟨rfl, rfl, .inl rfl, _, _, fun _ => rfl⟩, rfl, rfl, .inr rfl, .inl ⟨.inl rfl, rfl⟩, rfl⟩
  · exact ⟨_, ⟨rfl, rfl, .inr (.inl rfl), _, _, fun _ => rfl⟩, rfl, rfl, .inl rfl, .inr (.inl ⟨rfl, rfl⟩), hd⟩
  · exact ⟨_, ⟨rfl, rfl, .inr (.inl rfl), _, _, fun _ => rfl⟩, rfl, rfl, .inr rfl, .inr (.inl ⟨rfl, rfl⟩), hd⟩
  · exact ⟨_, ⟨rfl, rfl, .inr (.inr rfl), _, _, fun _ => rfl⟩, rfl, rfl, .inr rfl, .inr (.inr ⟨rfl, rfl, rfl⟩), hd⟩
  · exact ⟨_, ⟨rfl, rfl, .inr (.inr rfl), _, _, fun _ => rfl⟩, rfl, rfl, .inr rfl, .inr (.inr ⟨rfl, rfl, rfl⟩), hboth⟩

end Sys2Proof.Machine
end

section
/-! The window of a uniform result at a retirement (09 R283). -/

namespace Sys2Proof.Machine

/-- A uniform result whose windows, of a mask of lanes or of a context without lanes, are `n` instructions long. -/
def heldWindow (r mask n : Nat) (v : Val W64) : Held :=
  { heldScalar r mask 0 v with win := if mask = 0 then [(32, n)] else (lanesOf mask).map (fun l => (l, n)) }

theorem heldScalar_eq (r mask la : Nat) (v : Val W64) : heldScalar r mask la v = heldWindow r mask (la + 1) v := rfl

section
variable {c : Ctx} {id r mask n : Nat} {v : Val W64}

/-- An instruction of the lanes shortens the windows. -/
theorem Ctx.tickWin_window (h : c.pend = [(id, heldWindow r mask (n + 1) v)]) {m : Nat} (hm : mask = 0 ∨ mask = m) :
    c.tickWin m true = { c with pend := [(id, heldWindow r mask n v)] } := by
  rw [Ctx.tickWin, h]
  refine congrArg (fun w => ({ c with pend := [(id, { heldScalar r mask 0 v with win := w })] } : Ctx)) ?_
  show List.map _ (if mask = 0 then [(32, n + 1)] else (lanesOf mask).map (fun l => (l, n + 1))) = _
  by_cases h0 : mask = 0
  · rw [if_pos h0, if_pos h0]
    rfl
  · obtain rfl := hm.resolve_left h0
    rw [if_neg h0, if_neg h0, List.map_map]
    refine List.map_congr_left (fun l hl => ?_)
    have hin := List.mem_filter.1 hl
    simp [List.mem_range.1 hin.1, hin.2]

theorem Ctx.ripe_window : c.ripe (heldWindow r mask 0 v) = true := by
  have hwin : (heldWindow r mask 0 v).win.all (fun w => w.2 = 0 || (w.1 < 32 && decide ((c.ln w.1).life = .exited))) = true := by
    refine List.all_eq_true.2 (fun w hw => ?_)
    have hzero : w.2 = 0 := by
      by_cases h0 : mask = 0
      · rw [heldWindow, if_pos h0] at hw
        exact (List.mem_singleton.1 hw) ▸ rfl
      · rw [heldWindow, if_neg h0] at hw
        obtain ⟨l, -, rfl⟩ := List.mem_map.1 hw
        rfl
    simp [hzero]
  exact hwin

/-- A window of a lane that has not exited keeps its result. -/
theorem Ctx.unripe_window (hl : ∃ l ∈ lanesOf mask, (c.ln l).life ≠ .exited) : c.ripe (heldWindow r mask (n + 1) v) = false := by
  obtain ⟨l, hl, hlife⟩ := hl
  have h0 : mask ≠ 0 := by rintro rfl; simp [lanesOf, bit_eq_testBit] at hl
  have hwin : (heldWindow r mask (n + 1) v).win.all (fun w => w.2 = 0 || (w.1 < 32 && decide ((c.ln w.1).life = .exited))) = false := by
    rw [List.all_eq_false]
    refine ⟨(l, n + 1), ?_, by simp [hlife]⟩
    rw [heldWindow, if_neg h0]
    exact List.mem_map.2 ⟨l, hl, rfl⟩
  exact hwin

/-- The result is written with the instruction that ends its windows. -/
theorem Ctx.settle_tick_last (h : c.pend = [(id, heldWindow r mask 1 v)]) {m : Nat} (hm : mask = 0 ∨ mask = m) (hr : r % 64 ≠ 0) :
    (c.tickWin m true).settle = c.withScalars (Tbl.put c.s (r % 64) v) [] := by
  rw [Ctx.tickWin_window h hm, Ctx.settle_scalar _ rfl Ctx.ripe_window rfl rfl rfl rfl hr]
  rfl

/-- The result of a context without lanes stays held while its window is open. -/
theorem Ctx.settle_tick_open (h : c.pend = [(id, heldWindow r 0 (n + 2) v)]) (m : Nat) :
    (c.tickWin m true).settle = c.withScalars c.s [(id, heldWindow r 0 (n + 1) v)] := by
  rw [Ctx.tickWin_window h (.inl rfl), Ctx.settle_unripe _ rfl rfl]
  rfl

end

/-- What the completion of a uniform load does, while the windows of its result are open. -/
theorem State.deliver_scalar {t : State} {a : Actor} {id r mask : Nat} {v : Val W64} (hpend : (t.ctx a).pend = [(id, heldUniform r mask 0)])
    (hopen : ∃ l ∈ lanesOf mask, ((t.ctx a).ln l).life ≠ .exited) :
    ((t.updCtx a (fun c => (c.deliver id [(32, [v])]).warns 0)).setOp a none).updCtx a Ctx.settle
      = t.setCtx a { (t.ctx a).warns 0 with pend := [(id, heldWindow r mask 1 v)], memops := Tbl.del (t.ctx a).memops a.slot } := by
  rw [State.setOp]
  simp only [State.updCtx, State.ctx_setCtx, State.setCtx_setCtx, Ctx.deliver_scalar _ hpend]
  exact congrArg (State.setCtx t a) (Ctx.settle_unripe _ rfl (Ctx.unripe_window hopen))

/-- A lone split at the end of an instruction whose retirement left it at the next one. -/
theorem State.endsAs_lone {s t : State} {c d : Ctx} {sp : Tbl Split} {pl : List Split} (hcur : t.cur = s.cur) (hsp : c.splits = s.me.splits)
    (hpl : c.pool = s.me.pool)
    (hlone : ∀ x, c.splits = [(s.cur.act.slot, x)] → c.pool = [] → sp = [(s.cur.act.slot, { x with pc := s.cur.npc })] ∧ pl = []) :
    s.endsAs (t.setCtx s.cur.act (d.withSplits sp pl)) s.after := by
  rintro ⟨hsplits, hpool, -, -⟩
  obtain ⟨rfl, rfl⟩ := hlone s.sp (hsp.trans hsplits) (hpl.trans hpool)
  rw [State.me_setCtx_cur hcur]
  exact ⟨rfl, rfl⟩

/-- The retirement in a context whose one uniform result has its value. -/
theorem State.retire_window {s t : State} {c : Ctx} {m : Nat} {S : Tbl (Val W64)} {P : Tbl Held} (hseq : s.cur.act.isSeq = false) (hcur : t.cur = s.cur)
    (hsettle : ∀ d : Ctx, d.s = c.s → d.pend = c.pend → (d.tickWin m true).settle = d.withScalars S P) (hsp : c.splits = s.me.splits) (hpl : c.pool = s.me.pool) :
    ∃ sp pl, (t.setCtx s.cur.act c).retire m = t.setCtx s.cur.act ((c.withScalars S P).withSplits sp pl)
      ∧ s.endsAs (t.setCtx s.cur.act ((c.withScalars S P).withSplits sp pl)) s.after := by
  have hX : (t.setCtx s.cur.act c).cur = s.cur := (State.setCtx_cur ..).trans hcur
  have hme : (t.setCtx s.cur.act c).me = c := State.me_setCtx_cur hcur c
  obtain ⟨sp, pl, hret, hlone⟩ := State.retire_scalar (s := t.setCtx s.cur.act c) (m := m) (by rw [hX]; exact hseq)
    (fun d _ hs hp => hsettle d (hs.trans (by rw [hme])) (hp.trans (by rw [hme])))
  rw [hX, hme, State.setCtx_setCtx] at hret
  rw [hme, hX] at hlone
  exact ⟨sp, pl, hret, State.endsAs_lone hcur hsp hpl hlone⟩

end Sys2Proof.Machine
end

section
/-! A local scalar access of a group, at its issue (11 R342; 10 R326). -/

namespace Sys2Proof.Machine

/-- What a local scalar access is as a memory instruction. -/
def scalarLocal (k : MKind) (hint d la : Nat) : MInfo := { gmInfo k 8 0 d la with space := some hint }

theorem ScalarForm.sldl (hint d base off la : Nat) : ScalarForm (.sldl hint d base off la) (scalarLocal .load hint d la) base off :=
  ⟨rfl, rfl, .inl rfl, _, _, fun _ => rfl⟩

theorem ScalarForm.sstl (hint d base off la : Nat) : ScalarForm (.sstl hint d base off la) (scalarLocal .store hint d 0) base off :=
  ⟨rfl, rfl, .inr (.inl rfl), _, _, fun _ => rfl⟩

section
variable {s : State} {a : Actor} {o : MemOp} {x : Acc} {sc : Nat} {p : LPos} {core g e : Nat}

/-- A uniform load that got its number delivers it. -/
theorem State.memFinish_scalar (hk : o.info.kind = .load) (hu : o.info.uni = true) {v : Nat} (hres : Tbl.find o.res 256 = some (.num v)) : s.memFinish a o
    = ((s.updCtx a (fun c => (c.deliver o.hid [(32, [.ok (BitVec.ofNat 64 v)])]).warns 0)).setOp a none).updCtx a Ctx.settle := by
  simp [State.memFinish, hk, hu, hres, faultsOf, MemOp.value, MInfo.words]

/-- A clean uniform store whose owners are outside regions, to bytes of its own space that are its owner's, writes these bytes and no other. -/
theorem State.tryLocal_storeScalar (ha : a = .split core g e) (hk : o.info.kind = .store) (hu : o.info.uni = true) (hsc : sc ≠ 1)
    (hp : s.laddr a sc x.addr x.size = .ok p) (hquar : (s.core (s.coreOf a)).quar = []) (hclean : x.bad = none)
    (hclosed : ∀ l ∈ lanesOf (s.owners a o), (s.rgnAt (s.marker a) l).opn = false) (htag : (s.mem.osecAt p.core (ocKey p.sp p.byte / 32)).tag = s.owner a) :
    ∃ t, s.tryLocal a o x sc = (t, .num 0) ∧ t.cur = s.cur ∧ t.ctx a = s.ctx a ∧ ∀ b, Tbl.get 0 (Tbl.get [] t.mem.oc p.core) b =
      if ocKey p.sp p.byte ≤ b ∧ b < ocKey p.sp p.byte + x.size then BitVec.ofNat 8 (x.data / 2 ^ (8 * (b - ocKey p.sp p.byte)))
      else Tbl.get 0 (Tbl.get [] s.mem.oc p.core) b := by
  have hmarker : s.marker a = a := by rw [ha]; rfl
  rw [hmarker] at hclosed
  have hkept : maskOf ((lanesOf (s.owners a o)).filter (fun l => (s.rgnAt a l).opn && (s.rgnAt a l).kind)) = 0 := by
    rw [List.filter_eq_nil_iff.2 (fun l hl => by rw [hclosed l hl]; exact Bool.false_ne_true)]
    rfl
  generalize hs : s.setCore (s.coreOf a) (s.core (s.coreOf a)) = s'
  obtain ⟨hladdr, hwg⟩ := State.laddr_setCore_self (s := s) (a := a) sc x.addr x.size
  rw [hs] at hladdr hwg
  have hctx : s'.ctx a = s.ctx a := by rw [← hs]; exact State.ctx_setCore ..
  have hmem : s'.mem = s.mem := by rw [← hs]; rfl
  have howner : s'.owner a = s.owner a := by rw [State.owner, State.owner, hmem, hctx]
  refine ⟨s'.ocPut p.core p.wslot p.sp p.byte x.size x.data (s.owner a) false false, ?_, by rw [← hs]; rfl,
    (State.ctx_ocPut ..).trans hctx, fun b => ?_⟩
  · rw [State.tryLocal, hp]
    simp only [hk, beq_self_eq_true, if_true, if_neg hsc, State.doStore, hclean, hmarker, hu, Bool.false_eq_true, if_false, hkept, bne_self_eq_false,
      State.perform_unheld hquar, hs]
    rw [← hwg, State.place_own hsc (hladdr.trans hp), howner]
  · refine Eq.trans ?_ (Mem.get_oc_ocWrite s.mem x.data false htag b)
    rw [← hmem]
    rfl

end

/-- A local scalar access of a group at its issue, with nothing outstanding and nothing held. -/
structure ScalarLocal (s : State) (i : Instr) (k : MKind) (hint d base off la core g e : Nat) (b : W64) : Prop where
  form : ScalarForm i (scalarLocal k hint d la) base off
  act : s.cur.act = .split core g e
  pend : s.me.pend = []
  memops : s.me.memops = []
  bare : s.bare
  base : s.me.rs base = .ok b
  hint : hint ≠ 1
  kind : k ≠ .atomic

section
variable {s : State} {i : Instr} {k : MKind} {hint d base off la core g e : Nat} {b : W64} (h : ScalarLocal s i k hint d base off la core g e b)
include h

/-- The access of a local form. -/
theorem ScalarLocal.issues : ∃ w, ∃ x o, x = s.scalarAcc (scalarLocal k hint d la) (scalarAddr b off % 2 ^ 32) ∧ o = s.scalarOp i (scalarLocal k hint d la) x
    ∧ exec i s = .next (((s.setCtx s.cur.act (s.scalarCtx (scalarLocal k hint d la) w e o)).memGo memFuel s.cur.act).retire s.mask)
    ∧ ∀ r u, (s.setCtx s.cur.act (s.scalarCtx (scalarLocal k hint d la) w e o)).tryLocal s.cur.act o x hint = (u, r) →
      (s.setCtx s.cur.act (s.scalarCtx (scalarLocal k hint d la) w e o)).memGo memFuel s.cur.act
        = (u.setOp s.cur.act (some (o.done x r))).memFinish s.cur.act (o.done x r) := by
  have hseq : s.cur.act.isSeq = false := by rw [h.act]; rfl
  have hctl : ¬ s.cur.act.isCtl = true := by rw [h.act]; exact Bool.false_ne_true
  have hslot : s.cur.act.slot = e := by rw [h.act]; rfl
  have hspace : (scalarLocal k hint d la).space ≠ some 1 := fun heq => h.hint (Option.some.inj heq)
  obtain ⟨w, hexec⟩ := h.form.starts hseq h.base (if_pos rfl) (startLane_scalarLocal rfl h.kind _)
  rw [if_neg hctl, h.form.startMem h.act hspace h.pend h.memops] at hexec
  refine ⟨w, _, _, rfl, rfl, hexec, fun r u htry => ?_⟩
  generalize hx : s.scalarAcc _ _ = x at htry ⊢
  generalize ho : s.scalarOp i _ x = o at htry ⊢
  have hinfo : o.info = scalarLocal k hint d la := by
    rw [← ho]
    show (Instr.minfo i).getD {} = _
    rw [h.form.info]
    rfl
  have hop : (s.setCtx s.cur.act (s.scalarCtx (scalarLocal k hint d la) w e o)).opOf s.cur.act = some o := by
    rw [State.opOf, State.ctx_setCtx, hslot]
    simp [State.scalarCtx, Ctx.issuing, Tbl.find]
  have hfirst : ((s.setCtx s.cur.act (s.scalarCtx (scalarLocal k hint d la) w e o)).ctx s.cur.act).first o = true := by
    rw [State.ctx_setCtx]
    simp [State.scalarCtx, Ctx.issuing, Ctx.first]
  have hgo := State.memGo_local (x := x) (sc := hint) 198 hop (by rw [← ho]; rfl) (by rw [← ho]; rfl) (by rw [← ho]; rfl) (by rw [← ho]; rfl)
    (by rw [← ho]; rfl) (by rw [← ho]; rfl) hfirst (by rw [hinfo]; rfl)
  rw [htry] at hgo
  rw [show memFuel = 198 + 2 from rfl, hgo]

/-- The issue leaves local addresses, owners and memory as they are. -/
theorem ScalarLocal.laddr (m : MInfo) (w : W32) (o : MemOp) (sc x n : Nat) : (s.setCtx s.cur.act (s.scalarCtx m w e o)).laddr s.cur.act sc x n
    = s.laddr s.cur.act sc x n := State.laddr_setCtx (x := s.scalarCtx m w e o) h.act rfl sc x n

theorem ScalarLocal.unheld (m : MInfo) (w : W32) (o : MemOp) :
    ((s.setCtx s.cur.act (s.scalarCtx m w e o)).core ((s.setCtx s.cur.act (s.scalarCtx m w e o)).coreOf s.cur.act)).quar = [] := by
  obtain ⟨-, hquar, -⟩ := h.bare
  have hcore : (s.setCtx s.cur.act (s.scalarCtx m w e o)).coreOf s.cur.act = s.coreOf s.cur.act := by rw [h.act]; rfl
  rw [hcore, State.core_setCtx]
  exact hquar

omit h in
theorem State.owner_scalarCtx (m : MInfo) (w : W32) (o : MemOp) : (s.setCtx s.cur.act (s.scalarCtx m w e o)).owner s.cur.act = s.owner s.cur.act := by
  rw [State.owner, State.setCtx_mem, State.ctx_setCtx]
  rfl

theorem ScalarLocal.info {x : Acc} : (s.scalarOp i (scalarLocal k hint d la) x).info = scalarLocal k hint d la := by
  show (Instr.minfo i).getD {} = _
  rw [h.form.info]
  rfl

end

section
variable {s : State} {i : Instr} {hint d base off core g e : Nat} {b : W64} {p : LPos}

/-- A local scalar load gets the bytes at its address. -/
theorem ScalarLocal.loads (h : ScalarLocal s i .load hint d base off 0 core g e b) (hd : d % 64 ≠ 0) (hne : s.active ≠ [])
    (hp : s.laddr s.cur.act hint (scalarAddr b off % 2 ^ 32) 8 = .ok p) (htag : (s.mem.osecAt p.core (ocKey p.sp p.byte / 32)).tag = s.owner s.cur.act)
    (hecc : (s.mem.osecAt p.core (ocKey p.sp p.byte / 32)).ecc = none)
    (hbad : (s.mem.osecAt p.core (ocKey p.sp p.byte / 32)).bad p.sp (ocKey p.sp p.byte) 8 = false) :
    ∃ t, exec i s = .next t ∧ s.endsAs t s.after ∧ t.mem = s.mem
      ∧ t.me.rs d = .ok (BitVec.ofNat 64 (bytesOf (Tbl.get [] s.mem.oc p.core) (ocKey p.sp p.byte) 8)) := by
  have hseq : s.cur.act.isSeq = false := by rw [h.act]; rfl
  obtain ⟨w, x, o, hx, ho, hexec, hgo⟩ := h.issues
  have hinfo : o.info = scalarLocal .load hint d 0 := by rw [ho]; exact h.info
  have haddr : x.addr = scalarAddr b off % 2 ^ 32 := by rw [hx]; rfl
  have hsize : x.size = 8 := by rw [hx]; rfl
  have hlane : x.lane * 8 + x.piece = 256 := by rw [hx]; rfl
  have hmem := (s.setCtx_mem s.cur.act (s.scalarCtx (scalarLocal .load hint d 0) w e o))
  have htry := State.tryLocal_load (x := x) (o := o) (sc := hint) (p := p) h.act (by rw [hinfo]; rfl)
    ((h.laddr _ w o _ _ _).trans (by rw [haddr, hsize]; exact hp)) (h.unheld _ w o) (by omega) (by rw [hmem, State.owner_scalarCtx]; exact htag) (by rw [hmem]; exact hecc)
    (by rw [hmem, hsize]; exact hbad)
  rw [hmem, hsize] at htry
  generalize hv : BitVec.ofNat 64 (bytesOf (Tbl.get [] s.mem.oc p.core) (ocKey p.sp p.byte) 8) = v
  have hres : Tbl.find (o.done x (.num (bytesOf (Tbl.get [] s.mem.oc p.core) (ocKey p.sp p.byte) 8))).res 256
      = some (.num (bytesOf (Tbl.get [] s.mem.oc p.core) (ocKey p.sp p.byte) 8)) := by
    rw [MemOp.done, hlane, ho]
    rfl
  rw [hgo _ _ htry, State.memFinish_scalar (by show o.info.kind = _; rw [hinfo]; rfl) (by show o.info.uni = _; rw [hinfo]; rfl) hres, hv] at hexec
  generalize hT : (s.setCtx s.cur.act (s.scalarCtx (scalarLocal .load hint d 0) w e o)).setOp s.cur.act _ = T at hexec
  have hctx : ∃ c, T = s.setCtx s.cur.act c ∧ c.pend = [(o.hid, heldUniform d s.mask 0)] ∧ c.lanes = s.me.lanes ∧ c.s = s.me.s
      ∧ c.splits = s.me.splits ∧ c.pool = s.me.pool := by
    rw [← hT, State.setOp, State.updCtx, State.ctx_setCtx, State.setCtx_setCtx]
    exact ⟨_, rfl, by rw [ho]; rfl, rfl, rfl, rfl, rfl⟩
  obtain ⟨c, rfl, hpend, hlanes, hs, hsp, hpl⟩ := hctx
  obtain ⟨l, hl⟩ := List.exists_mem_of_ne_nil _ hne
  have hlive : (c.ln l).life ≠ .exited := by
    obtain ⟨-, -, -, hbare⟩ := h.bare
    have hlife := (hbare l hl).1
    rw [Ctx.ln, hlanes]
    exact fun hx => Life.noConfusion (hlife.symm.trans hx)
  have hdel := State.deliver_scalar (t := s.setCtx s.cur.act c) (a := s.cur.act) (v := .ok v) (by rw [State.ctx_setCtx]; exact hpend)
    ⟨l, hl, by rw [State.ctx_setCtx]; exact hlive⟩
  rw [State.ctx_setCtx, State.setCtx_setCtx] at hdel
  rw [show (o.done x (.num (bytesOf (Tbl.get [] s.mem.oc p.core) (ocKey p.sp p.byte) 8))).hid = o.hid from rfl, hdel] at hexec
  obtain ⟨sp, pl, hret, hends⟩ := State.retire_window (s := s) (t := s) (m := s.mask) (S := Tbl.put s.me.s (d % 64) (.ok v)) (P := [])
    (c := { c.warns 0 with pend := [(o.hid, heldWindow d s.mask 1 (.ok v))], memops := Tbl.del c.memops s.cur.act.slot }) hseq rfl
    (fun y hy hyp => by rw [Ctx.settle_tick_last hyp (.inr rfl) hd, hy, ← hs]; rfl) hsp hpl
  refine ⟨_, hexec.trans (congrArg _ hret), hends, State.setCtx_mem .., ?_⟩
  rw [State.me_setCtx_cur rfl]
  exact (if_neg hd).trans (Tbl.get_put_same ..)

/-- A local scalar store writes the bytes at its address, and no other. -/
theorem ScalarLocal.stores (h : ScalarLocal s i .store hint d base off 0 core g e b) {v : W64} (hv : s.me.rs d = .ok v)
    (hp : s.laddr s.cur.act hint (scalarAddr b off % 2 ^ 32) 8 = .ok p) (htag : (s.mem.osecAt p.core (ocKey p.sp p.byte / 32)).tag = s.owner s.cur.act) :
    ∃ t, exec i s = .next t ∧ s.endsAs t s.after ∧ s.keepsRegs t ∧ ∀ x, Tbl.get 0 (Tbl.get [] t.mem.oc p.core) x
      = if ocKey p.sp p.byte ≤ x ∧ x < ocKey p.sp p.byte + 8 then BitVec.ofNat 8 (v.toNat / 2 ^ (8 * (x - ocKey p.sp p.byte)))
        else Tbl.get 0 (Tbl.get [] s.mem.oc p.core) x := by
  obtain ⟨w, x, o, hx, ho, hexec, hgo⟩ := h.issues
  have hinfo : o.info = scalarLocal .store hint d 0 := by rw [ho]; exact h.info
  have haddr : x.addr = scalarAddr b off % 2 ^ 32 := by rw [hx]; rfl
  have hsize : x.size = 8 := by rw [hx]; rfl
  have hbad : x.bad = none := by rw [hx]; show (s.me.rs d).pl? = none; rw [hv]; rfl
  have hdata : x.data = v.toNat := by
    rw [hx]
    show ((s.me.rs d).getD 0).toNat % 2 ^ 64 = v.toNat
    rw [hv]
    exact Nat.mod_eq_of_lt v.isLt
  obtain ⟨-, -, -, hlanes⟩ := h.bare
  have hmem := (s.setCtx_mem s.cur.act (s.scalarCtx (scalarLocal .store hint d 0) w e o))
  obtain ⟨u, htry, hcur, hctx, hget⟩ := State.tryLocal_storeScalar (x := x) (o := o) (sc := hint) (p := p) h.act (by rw [hinfo]; rfl) (by rw [hinfo]; rfl) h.hint
    ((h.laddr _ w o _ _ _).trans (by rw [haddr, hsize]; exact hp)) (h.unheld _ w o) hbad
    (State.owners_closed h.act (by rw [ho]; rfl) hlanes (fun l => by rw [State.ctx_setCtx]; rfl)) (by rw [hmem, State.owner_scalarCtx]; exact htag)
  rw [State.setCtx_cur] at hcur
  rw [State.ctx_setCtx] at hctx
  rw [hmem, hsize, hdata] at hget
  have hres : ∀ k r, Tbl.find (o.done x (.num 0)).res k = some r → ∃ v, r = .num v := by
    intro k r hr
    have hone : (o.done x (.num 0)).res = [(x.lane * 8 + x.piece, .num 0)] := by
      rw [MemOp.done, ho]
      rfl
    rw [hone, Tbl.find, Tbl.find] at hr
    split at hr
    · exact ⟨0, (Option.some.inj hr).symm⟩
    · cases hr
  have hT : ∃ c, (u.setOp s.cur.act (some (o.done x (.num 0)))) = u.setCtx s.cur.act c ∧ c.pend = [] ∧ s.me.s = c.s ∧ s.me.q = c.q ∧ c.lanes = s.me.lanes
      ∧ c.splits = s.me.splits ∧ c.pool = s.me.pool := by
    rw [State.setOp, State.updCtx, hctx]
    exact ⟨_, rfl, rfl, rfl, rfl, rfl, rfl, rfl⟩
  obtain ⟨c, hT, hpend, hs, hq, hl, hsp, hpl⟩ := hT
  rw [hgo _ _ htry, State.memFinish_clean (by show o.info.kind = _; rw [hinfo]; rfl) hres, hT, State.setOp_settle _ (by rw [State.ctx_setCtx]; exact hpend),
    State.ctx_setCtx, State.setCtx_setCtx] at hexec
  obtain ⟨sp, pl, hret, hends⟩ := State.retire_ctx (s := s) (t := u) (m := s.mask) (c := { c with memops := Tbl.del c.memops s.cur.act.slot }) h.act hcur hpend
    hsp hpl
  refine ⟨_, hexec.trans (congrArg _ hret), hends, ?_, fun y => ?_⟩
  · rw [State.keepsRegs, State.me_setCtx_cur hcur]
    exact Ctx.keepsRegs_of hs.symm hq.symm hl
  · rw [State.setCtx_mem]
    exact hget y

end

end Sys2Proof.Machine
end

section
/-! A scalar access of a control core: one step at the home slice (11 R343; 03 R82, R86; 09 R283). -/

namespace Sys2Proof.Machine

theorem State.setCtx_withMem (s : State) (a : Actor) (c : Ctx) (m : Mem) : ({ s.setCtx a c with mem := m } : State) = ({ s with mem := m } : State).setCtx a c := by
  cases a <;> rfl

/-- The state in which no access to a reserved coherence field is to be noted. -/
def State.clearShc (s : State) : State := { s with mem := { s.mem with shc := false } }

/-- An access to a reserved coherence field is noted, with a warning at most. -/
theorem State.noteShc_setCtx {s : State} {a : Actor} (hseq : a.isSeq = false) (c : Ctx) :
    ∃ w, (s.setCtx a c).noteShc a = s.clearShc.setCtx a (c.warns w) := by
  have hmarker (t : State) : t.marker a = a := by
    cases a with
    | mseq | cseq => cases hseq
    | _ => rfl
  rw [State.noteShc, State.setCtx_mem, State.setCtx_withMem]
  split
  · exact ⟨flag wShcRsvd, by rw [State.warnOf, hmarker, State.updCtx, State.ctx_setCtx, State.setCtx_setCtx]; rfl⟩
  · next h =>
    have hshc : s.mem.shc = false := by simpa using h
    have hwarn : c.warns 0 = c := congrArg (fun w => ({ c with warn := w } : Ctx)) (BitVec.or_zero : c.warn ||| 0#32 = c.warn)
    exact ⟨0, by rw [hwarn, State.clearShc, ← hshc]⟩

/-- A result of a control core, held for its window. -/
theorem State.lateS_quiet {s : State} (hp : s.me.pend = []) (d la : Nat) (v : Val W64) :
    s.lateS d la v = s.setCtx s.cur.act { s.me with pend := [(s.me.hid, heldScalar (d % 64) 0 la v)], hid := s.me.hid + 1 } := by
  rw [State.lateS, Ctx.hold_uniform _ hp]
  exact congrArg (State.setCtx s s.cur.act) (Ctx.deliver_scalar _ rfl v)

/-- A control core keeps no side table (R332). -/
theorem State.fault1_ctl {s : State} (hctl : s.cur.act.isCtl = true) (f : Flt) (va : Nat) : (s.fault1 f va).1 = s := by
  rw [State.fault1, State.alloc1, State.alloc, if_pos hctl]

section
variable {s t : State} {c : Ctx} {m : Nat} (hseq : s.cur.act.isSeq = false) (hcur : t.cur = s.cur) (hsp : c.splits = s.me.splits) (hpl : c.pool = s.me.pool)
include hseq hcur hsp hpl

/-- The end of an access of a control core without a result. -/
theorem State.note_retires (hpend : c.pend = []) :
    ∃ u, ((t.setCtx s.cur.act c).noteShc s.cur.act).retire m = u ∧ u.mem = { t.mem with shc := false } ∧ u.me.s = c.s ∧ s.endsAs u s.after := by
  have hcur' : t.clearShc.cur = s.cur := hcur
  have hquiet (d : Ctx) (hs : d.s = c.s) (hp : d.pend = []) : (d.tickWin m true).settle = d.withScalars c.s [] := by
    rw [d.tickWin_quiet hp, d.settle_quiet hp, ← hs, ← hp]
    rfl
  obtain ⟨w, hnote⟩ := State.noteShc_setCtx (s := t) hseq c
  obtain ⟨sp, pl, hret, hends⟩ := State.retire_window (s := s) (t := t.clearShc) (c := c.warns w) (m := m) (S := c.s) (P := [])
    hseq hcur (fun d hs hp => hquiet d hs (hp.trans hpend)) hsp hpl
  refine ⟨_, by rw [hnote, hret], State.setCtx_mem .., ?_, hends⟩
  rw [State.me_setCtx_cur hcur']
  rfl

/-- The end of an access of a control core with a result, which is written after its window (09 R283). -/
theorem State.late_retires {d la id : Nat} {v : Val W64} (hd : d < 64) (h0 : d ≠ 0) (hs : c.s = s.me.s) (hpend : c.pend = [(id, heldScalar d 0 la v)]) :
    ∃ u, ((t.setCtx s.cur.act c).noteShc s.cur.act).retire m = u ∧ u.mem = { t.mem with shc := false } ∧ s.endsAs u s.after
      ∧ u.me.rs d = (if la = 0 then v else s.me.rs d)
      ∧ (la ≠ 0 → ∃ h, u.me.pend.map Prod.snd = [h] ∧ h.regs = [d] ∧ h.uni = true ∧ h.win = [(32, la)] ∧ h.val = some [(32, [v])]) := by
  have hmod : d % 64 = d := Nat.mod_eq_of_lt hd
  rw [heldScalar_eq] at hpend
  have hcur' : t.clearShc.cur = s.cur := hcur
  obtain ⟨w, hnote⟩ := State.noteShc_setCtx (s := t) hseq c
  have hretire {S : Tbl (Val W64)} {P : Tbl Held} := State.retire_window (s := s) (t := t.clearShc) (c := c.warns w) (m := m)
    (S := S) (P := P) hseq hcur
  rw [hnote]
  cases la with
  | zero =>
    obtain ⟨sp, pl, hret, hends⟩ := hretire (S := Tbl.put c.s d v) (P := [])
      (fun y hy hyp => by rw [Ctx.settle_tick_last (hyp.trans (show (c.warns w).pend = _ from hpend)) (.inl rfl) (by omega), hy, hmod]; rfl) hsp hpl
    refine ⟨_, hret, State.setCtx_mem .., hends, ?_, fun h => absurd rfl h⟩
    rw [State.me_setCtx_cur hcur', if_pos rfl, Ctx.rs, hmod, if_neg h0]
    exact Tbl.get_put_same ..
  | succ n =>
    obtain ⟨sp, pl, hret, hends⟩ := hretire (S := c.s) (P := [(id, heldWindow d 0 (n + 1) v)])
      (fun y hy hyp => by rw [Ctx.settle_tick_open (hyp.trans (show (c.warns w).pend = _ from hpend)), hy]; rfl) hsp hpl
    refine ⟨_, hret, State.setCtx_mem .., hends, ?_, fun _ => ⟨heldWindow d 0 (n + 1) v, ?_, rfl, rfl, rfl, rfl⟩⟩
    · rw [State.me_setCtx_cur hcur', if_neg (Nat.succ_ne_zero n), Ctx.rs, Ctx.rs, ← hs]
      rfl
    · rw [State.me_setCtx_cur hcur']
      rfl

end

end Sys2Proof.Machine
end

section
/-! The scalar forms of a control core (11 R342, R343). -/

namespace Sys2Proof.Machine

section
variable {s : State} {i : MInfo} {x : Acc} {m : Mem}

theorem State.ctlMem_load (hs : i.space = none) (hk : i.kind = .load) {n : Nat}
    (hr : s.mem.readG (s.who s.cur.act) s.me.asid x.addr x.size i.hint = (m, .ok n)) :
    s.ctlMem i (.acc x) = ({ s with mem := m } : State).lateS i.d i.la (.ok (BitVec.ofNat 64 n)) := by
  simp [State.ctlMem, hs, hk, hr]

theorem State.ctlMem_store (hs : i.space = none) (hk : i.kind = .store) (hbad : x.bad = none)
    (hr : s.mem.writeG (s.who s.cur.act) s.me.asid x.addr x.size x.data 0 i.hint = (m, none)) : s.ctlMem i (.acc x) = { s with mem := m } := by
  simp [State.ctlMem, hs, hk, hbad, hr]

/-- A control core has no local memory (R343). -/
theorem State.ctlMem_local (hctl : s.cur.act.isCtl = true) (hs : i.space.isSome = true) :
    ∃ q, plCause q = (if x.addr % i.size ≠ 0 then cMisalign else cBounds)
      ∧ s.ctlMem i (.acc x) = if i.kind = .store then s.upd (fun c => c.ws 61 (.bad q)) else s.lateS i.d i.la (.bad q) := by
  generalize hf : (if x.addr % i.size != 0 then (⟨cMisalign, i.size⟩ : Flt) else ⟨cBounds, x.addr⟩) = f
  have hcause : f.cause % 64 = if x.addr % i.size ≠ 0 then cMisalign else cBounds := by
    rw [← hf]
    by_cases h : x.addr % i.size = 0 <;> simp [h, cBounds, cMisalign]
  refine ⟨(s.fault1 f 0).2, (s.fault1_spec f 0).2.trans hcause, ?_⟩
  rw [State.ctlMem]
  dsimp only
  rw [if_pos hs, hf, State.fault1_ctl hctl]
  simp only [beq_iff_eq]

end

section
variable {s : State} {die th : Nat} (hact : s.cur.act = .ctl die th) (hq : s.me.pend = [])
include hact

theorem State.who_warns (w : W32) : (s.warns w).who s.cur.act = s.who s.cur.act := by
  have hme := State.me_warns s w (by rw [hact]; rfl)
  rw [State.me, State.warns_cur, State.me, hact] at hme
  rw [hact, State.who, State.who, hme]
  rfl

include hq

/-- A result that a control core holds, from its access on. -/
theorem State.lateS_retires {d la : Nat} (hd : d < 64) (h0 : d ≠ 0) (w : W32) (m : Mem) (v : Val W64) (n : Nat) :
    ∃ t, ((({ s.warns w with mem := m } : State).lateS d la v).noteShc s.cur.act).retire n = t ∧ t.mem = { m with shc := false } ∧ s.endsAs t s.after
      ∧ t.me.rs d = (if la = 0 then v else s.me.rs d)
      ∧ (la ≠ 0 → ∃ h, t.me.pend.map Prod.snd = [h] ∧ h.regs = [d] ∧ h.uni = true ∧ h.win = [(32, la)] ∧ h.val = some [(32, [v])]) := by
  have hseq : s.cur.act.isSeq = false := by rw [hact]; rfl
  have hcur : (s.warns w).cur = s.cur := State.warns_cur ..
  have hme : ({ s.warns w with mem := m } : State).me = s.me.warns w := (State.ctx_withMem ..).trans (State.me_warns s w hseq)
  rw [State.lateS_quiet (by rw [hme]; exact hq), hme, show ({ s.warns w with mem := m } : State).cur.act = s.cur.act from congrArg Cur.act hcur,
    Nat.mod_eq_of_lt hd]
  exact State.late_retires (t := { s.warns w with mem := m })
    (c := { s.me.warns w with pend := [(s.me.hid, heldScalar d 0 la v)], hid := s.me.hid + 1 }) hseq hcur rfl rfl hd h0 rfl rfl

variable {i : Instr} {base off hint d la : Nat} {b : W64} (hb : s.me.rs base = .ok b)
include hb

/-- A scalar load of a control core. -/
theorem ScalarForm.ctlLoads {n : Nat} (hform : ScalarForm i (gmInfo .load n hint d la) base off) (hd : d < 64) (h0 : d ≠ 0)
    (hmod : scalarAddr b off % n = 0) (hlt : scalarAddr b off < 2 ^ 55) {x : Nat}
    (hr : (s.mem.readG (s.who s.cur.act) s.me.asid (scalarAddr b off) n hint).2 = .ok x) :
    ∃ t, exec i s = .next t ∧ t.mem = { (s.mem.readG (s.who s.cur.act) s.me.asid (scalarAddr b off) n hint).1 with shc := false } ∧ s.endsAs t s.after
      ∧ t.me.rs d = (if la = 0 then .ok (BitVec.ofNat 64 x) else s.me.rs d)
      ∧ (la ≠ 0 → ∃ h, t.me.pend.map Prod.snd = [h] ∧ h.regs = [d] ∧ h.uni = true ∧ h.win = [(32, la)]
        ∧ h.val = some [(32, [.ok (BitVec.ofNat 64 x)])]) := by
  have hseq : s.cur.act.isSeq = false := by rw [hact]; rfl
  obtain ⟨w, hexec⟩ := hform.starts hseq hb (ea := scalarAddr b off) rfl (startLane_scalar rfl rfl hmod hlt)
  obtain ⟨m, hm⟩ : ∃ m, s.mem.readG (s.who s.cur.act) s.me.asid (scalarAddr b off) n hint = (m, .ok x) := ⟨_, Prod.ext rfl hr⟩
  have hread := State.ctlMem_load (s := s.warns w) (i := gmInfo .load n hint d la) (x := s.scalarAcc (gmInfo .load n hint d la) (scalarAddr b off)) (m := m)
    (n := x) rfl rfl (by rw [State.warns_mem, State.warns_cur, State.who_warns hact, State.me_warns s w hseq]; exact hm)
  rw [if_pos (by rw [hact]; rfl), hread] at hexec
  obtain ⟨t, ht, hrest⟩ := State.lateS_retires hact hq (la := la) hd h0 w m (.ok (BitVec.ofNat 64 x)) s.mask
  rw [hm]
  exact ⟨t, hexec.trans (congrArg _ ht), hrest⟩

/-- A scalar store of a control core. -/
theorem ScalarForm.ctlStores {n : Nat} (hform : ScalarForm i (gmInfo .store n hint d 0) base off) {v : W64} (hv : s.me.rs d = .ok v)
    (hmod : scalarAddr b off % n = 0) (hlt : scalarAddr b off < 2 ^ 55)
    (hr : (s.mem.writeG (s.who s.cur.act) s.me.asid (scalarAddr b off) n (v.toNat % 2 ^ (8 * n)) 0 hint).2 = none) :
    ∃ t, exec i s = .next t
      ∧ t.mem = { (s.mem.writeG (s.who s.cur.act) s.me.asid (scalarAddr b off) n (v.toNat % 2 ^ (8 * n)) 0 hint).1 with shc := false }
      ∧ t.me.s = s.me.s ∧ s.endsAs t s.after := by
  have hseq : s.cur.act.isSeq = false := by rw [hact]; rfl
  have hclean : (gmData s.me (gmInfo .store n hint d 0)).2.2 = none := by
    show (s.me.rs d).pl? = none
    rw [hv]
    rfl
  have hdata : (gmData s.me (gmInfo .store n hint d 0)).1 = v.toNat % 2 ^ (8 * n) := by
    show ((s.me.rs d).getD 0).toNat % _ = _
    rw [hv]
    rfl
  obtain ⟨w, hexec⟩ := hform.starts hseq hb (ea := scalarAddr b off) rfl (startLane_scalar rfl hclean hmod hlt)
  obtain ⟨m, hm⟩ : ∃ m, s.mem.writeG (s.who s.cur.act) s.me.asid (scalarAddr b off) n (v.toNat % 2 ^ (8 * n)) 0 hint = (m, none) := ⟨_, Prod.ext rfl hr⟩
  have hwrite := State.ctlMem_store (s := s.warns w) (i := gmInfo .store n hint d 0) (x := s.scalarAcc (gmInfo .store n hint d 0) (scalarAddr b off)) (m := m)
    rfl rfl hclean (by rw [State.warns_mem, State.warns_cur, State.who_warns hact, State.me_warns s w hseq, State.scalarAcc, hdata]; exact hm)
  rw [if_pos (by rw [hact]; rfl), hwrite, State.warns_upd s w hseq, State.upd_eq, State.setCtx_withMem] at hexec
  obtain ⟨t, ht, hmem, hs, hends⟩ := State.note_retires (s := s) (t := { s with mem := m }) (c := s.me.warns w) (m := s.mask) hseq rfl rfl rfl hq
  rw [hm]
  exact ⟨t, hexec.trans (congrArg _ ht), hmem, hs, hends⟩

/-- A local scalar load of a control core gives the fault of its address. -/
theorem State.ctl_sldl (hd : d < 64) (h0 : d ≠ 0) :
    ∃ t q, exec (.sldl hint d base off la) s = .next t ∧ t.mem = { s.mem with shc := false } ∧ t.me.rs d = (if la = 0 then .bad q else s.me.rs d)
      ∧ plCause q = (if scalarAddr b off % 2 ^ 32 % 8 ≠ 0 then cMisalign else cBounds) ∧ s.endsAs t s.after := by
  have hseq : s.cur.act.isSeq = false := by rw [hact]; rfl
  have hctl : s.cur.act.isCtl = true := by rw [hact]; rfl
  obtain ⟨w, hexec⟩ := (ScalarForm.sldl hint d base off la).starts hseq hb (if_pos rfl) (startLane_scalarLocal rfl (show MKind.load ≠ .atomic by decide) _)
  obtain ⟨q, hcause, hlocal⟩ := State.ctlMem_local (s := s.warns w) (i := scalarLocal .load hint d la)
    (x := s.scalarAcc (scalarLocal .load hint d la) (scalarAddr b off % 2 ^ 32)) (by rw [State.warns_cur]; exact hctl) rfl
  have hkind : (scalarLocal .load hint d la).kind ≠ .store := show MKind.load ≠ .store by decide
  rw [if_pos hctl, hlocal, if_neg hkind] at hexec
  obtain ⟨t, ht, hmem, hends, hrs, -⟩ := State.lateS_retires hact hq (la := la) hd h0 w (s.warns w).mem (.bad q) s.mask
  exact ⟨t, q, hexec.trans (congrArg _ ht), by rw [hmem, State.warns_mem], hrs, hcause, hends⟩

/-- A local scalar store of a control core writes the fault of its address to s61. -/
theorem State.ctl_sstl :
    ∃ t q, exec (.sstl hint d base off la) s = .next t ∧ t.mem = { s.mem with shc := false } ∧ t.me.rs 61 = .bad q
      ∧ plCause q = (if scalarAddr b off % 2 ^ 32 % 8 ≠ 0 then cMisalign else cBounds) ∧ s.endsAs t s.after := by
  have hseq : s.cur.act.isSeq = false := by rw [hact]; rfl
  have hctl : s.cur.act.isCtl = true := by rw [hact]; rfl
  obtain ⟨w, hexec⟩ := (ScalarForm.sstl hint d base off la).starts hseq hb (if_pos rfl) (startLane_scalarLocal rfl (show MKind.store ≠ .atomic by decide) _)
  obtain ⟨q, hcause, hlocal⟩ := State.ctlMem_local (s := s.warns w) (i := scalarLocal .store hint d 0)
    (x := s.scalarAcc (scalarLocal .store hint d 0) (scalarAddr b off % 2 ^ 32)) (by rw [State.warns_cur]; exact hctl) rfl
  have hkind : (scalarLocal .store hint d 0).kind = .store := rfl
  rw [if_pos hctl, hlocal, if_pos hkind, State.warns_upd s w hseq, State.upd_upd, State.upd_eq] at hexec
  have hws : (s.me.warns w).ws 61 (.bad q) = { s.me.warns w with s := Tbl.put s.me.s 61 (.bad q) } :=
    (s.me.warns w).ws_quiet hq 61 _
  obtain ⟨t, ht, hmem, hs, hends⟩ := State.note_retires (s := s) (t := s) (c := (s.me.warns w).ws 61 (.bad q)) (m := s.mask) hseq rfl (by rw [hws]; rfl)
    (by rw [hws]; rfl) (by rw [hws]; exact hq)
  refine ⟨t, q, hexec.trans (congrArg _ ht), hmem, ?_, hcause, hends⟩
  rw [Ctx.rs, hs, hws]
  exact Tbl.get_put_same ..

end

end Sys2Proof.Machine
end

section
open Sys2Proof Sys2Proof.Machine

/-- Settles O40: a group's global form by its first request, a local one by its completion at issue; a control core's access by what its one step
leaves. -/
theorem scalarAccesses : Obligations.ScalarAccesses := by
  unfold Obligations.ScalarAccesses
  intro s hint d base off la b hq hops hb hd _ ea
  have hmod (h0 : d ≠ 0) : d % 64 ≠ 0 := by rwa [Nat.mod_eq_of_lt hd]
  refine ⟨fun core g e hact hbare _ hclean hclean1 hclean0 hea hlt _ i k n hi => ?_, fun core g e hact hbare _ hne hhint h0 p hp htag hecc => ⟨fun hbad hla => ?_, fun v hv => ?_⟩,
    fun die th hact h0 => ⟨fun i n hi hal hlt => ?_, fun i n v hi hal hlt hv => ?_, State.ctl_sldl hact hq hb hd h0, fun _ _ => State.ctl_sstl hact hq hb⟩⟩
  · obtain ⟨m, hform, hs, rfl, hsize, hk, hdata⟩ := ScalarForm.of_mem hclean hclean0 hclean1 hi
    have hal : scalarAddr b off % 8 = 0 := hea
    exact hform.inFlight hact hs (by omega) hbare hq hops hb hdata (by rcases hsize with h | h <;> rw [h] <;> omega) hlt hk
  · subst hla
    exact ScalarLocal.loads ⟨.sldl .., hact, hq, hops, hbare, hb, hhint, nofun⟩ (hmod h0) hne hp htag hecc hbad
  · exact ScalarLocal.stores ⟨.sstl .., hact, hq, hops, hbare, hb, hhint, nofun⟩ hv hp htag
  · intro r x hr
    have hform : ScalarForm i (gmInfo .load n hint d la) base off := by
      simp only [List.mem_cons, List.not_mem_nil, or_false, Prod.mk.injEq] at hi
      rcases hi with ⟨rfl, rfl⟩ | ⟨rfl, rfl⟩ <;> exact ⟨rfl, rfl, .inl rfl, _, _, fun _ => rfl⟩
    exact hform.ctlLoads hact hq hb hd h0 hal hlt hr
  · intro r hr
    have hform : ScalarForm i (gmInfo .store n hint d 0) base off := by
      simp only [List.mem_cons, List.not_mem_nil, or_false, Prod.mk.injEq] at hi
      rcases hi with ⟨rfl, rfl⟩ | ⟨rfl, rfl⟩ <;> exact ⟨rfl, rfl, .inr (.inl rfl), _, _, fun _ => rfl⟩
    exact hform.ctlStores hact hq hb hv hal hlt hr

end

section
/-! The marks of a fault: what the sink of each active lane sets, and what the sinks of the other lanes leave of it (05 R151, R158, R167). -/

namespace Sys2Proof.Machine

/-- A lane after sinks: it lives where it did, its region is open or closed as it was, and no mark of it is gone. -/
structure Lane.KeepsMarks (x y : Lane) : Prop where
  life : y.life = x.life
  opn : y.rgn.opn = x.rgn.opn
  p : x.rgn.p = true → y.rgn.p = true
  orph : x.rgn.orph = true → y.rgn.orph = true

theorem Lane.keepsMarks_refl (x : Lane) : x.KeepsMarks x := ⟨rfl, rfl, id, id⟩

theorem Lane.KeepsMarks.trans {x y z : Lane} (h : x.KeepsMarks y) (k : y.KeepsMarks z) : x.KeepsMarks z :=
  ⟨k.life.trans h.life, k.opn.trans h.opn, k.p ∘ h.p, k.orph ∘ h.orph⟩

/-- A lane is marked: P in an open region, else ORPH (05 R158, R167). -/
def Lane.IsMarked (x : Lane) : Prop := if x.rgn.opn then x.rgn.p = true else x.rgn.orph = true

theorem Lane.IsMarked.keeps {x y : Lane} (h : x.IsMarked) (k : x.KeepsMarks y) : y.IsMarked := by
  unfold Lane.IsMarked at h ⊢
  rw [k.opn]
  split at h
  · next ho => rw [if_pos ho]; exact k.p h
  · next ho => rw [if_neg ho]; exact k.orph h

/-- A sink first notes a record at most, and then marks the region of its lane, in the context that holds the lane. -/
theorem State.sink_eq (s : State) (a : Actor) (pc : W64) (l : Nat) (pl : Payload) : ∃ (u : State) (hit : Ctx → Tbl Payload) (rgn : Rgn → Rgn), s.Noted u
    ∧ s.sink a pc l pl = u.updCtx (s.laneActor a l) (fun c => { c with hit := hit c }.setLn l { c.ln l with rgn := rgn (c.ln l).rgn })
    ∧ ∀ r : Rgn, (rgn r).opn = r.opn ∧ (rgn r).p = (r.p || ((s.ctx (s.laneActor a l)).ln l).rgn.opn)
      ∧ (rgn r).orph = (r.orph || !((s.ctx (s.laneActor a l)).ln l).rgn.opn) := by
  unfold State.sink
  extract_lets b cx rg
  have hrg : ((s.ctx b).ln l).rgn = rg := rfl
  rw [hrg]
  split
  · next ho => exact ⟨s, _, fun r => { r with orph := true }, s.noted_refl, rfl, fun r => by simp_all⟩
  · next ho =>
    split
    next s1 pl1 ok hs1 =>
    refine ⟨s1, _, fun r => { r with recp := if r.p then r.recp else pl1, p := true, nsv := r.nsv || !ok }, ?_, rfl, fun r => by simp_all⟩
    rw [show s1 = _ from (congrArg Prod.fst hs1).symm]
    split
    · exact s.noted_refl
    · split
      · exact s.noted_refl
      · exact (State.noted_alloc ..).trans (State.noted_setCore ..)

theorem Ctx.Noted.ln {c d : Ctx} (h : c.Noted d) (l : Nat) : d.ln l = c.ln l := by rw [h]; rfl

/-- No sink takes a mark from a lane of any context. -/
theorem State.sink_keepsMarks (s : State) (a b : Actor) (pc : W64) (j : Nat) (pl : Payload) (l : Nat) :
    ((s.ctx b).ln l).KeepsMarks (((s.sink a pc j pl).ctx b).ln l) := by
  obtain ⟨u, hit, rgn, hnoted, hsink, hrgn⟩ := s.sink_eq a pc j pl
  rw [hsink, ← (hnoted.ctx b).ln l]
  rcases u.ctx_setCtx_or b (s.laneActor a j) _ with h | ⟨h, hsame⟩
  · rw [State.updCtx, h]
    exact Lane.keepsMarks_refl _
  · rw [State.updCtx, h, hsame]
    by_cases hl : l = j
    · subst hl
      rw [Ctx.ln_setLn]
      obtain ⟨hopn, hp, horph⟩ := hrgn ((u.ctx (s.laneActor a l)).ln l).rgn
      exact ⟨rfl, hopn, fun h => by rw [hp, h]; rfl, fun h => by rw [horph, h]; rfl⟩
    · rw [Ctx.ln_setLn_ne _ _ hl]
      exact Lane.keepsMarks_refl _

theorem State.sinks_keepsMarks (a b : Actor) (pc : W64) (l : Nat) (ls : List (Nat × Payload)) (s : State) :
    ((s.ctx b).ln l).KeepsMarks (((s.sinks a pc ls).ctx b).ln l) :=
  foldl_keeps (fun t : State => ((s.ctx b).ln l).KeepsMarks ((t.ctx b).ln l)) _ ls
    (fun t e ht => ht.trans (t.sink_keepsMarks a b pc e.1 e.2 l)) s (Lane.keepsMarks_refl _)

/-- The sink of a live lane of a group marks it. -/
theorem State.sink_marks (s : State) (a : Actor) (pc : W64) (l : Nat) (pl : Payload) (hlive : ((s.ctx a).ln l).life = .live) :
    (((s.sink a pc l pl).ctx a).ln l).IsMarked := by
  obtain ⟨u, hit, rgn, hnoted, hsink, hrgn⟩ := s.sink_eq a pc l pl
  have hlane : s.laneActor a l = a := by rw [State.laneActor, hlive]
  rw [hlane] at hsink hrgn
  obtain ⟨hopn, hp, horph⟩ := hrgn ((u.ctx a).ln l).rgn
  rw [← (hnoted.ctx a).ln l] at hp horph
  rw [hsink, State.updCtx, State.ctx_setCtx, Ctx.ln_setLn, Lane.IsMarked]
  dsimp only
  rw [hopn, hp, horph]
  cases ((u.ctx a).ln l).rgn.opn <;> simp

/-- The sinks of several lanes mark each that lives in the group. -/
theorem State.sinks_marks (a : Actor) (pc : W64) {l : Nat} (ls : List (Nat × Payload)) (s : State) (hl : l ∈ ls.map Prod.fst)
    (hlive : ((s.ctx a).ln l).life = .live) : (((s.sinks a pc ls).ctx a).ln l).IsMarked := by
  induction ls generalizing s with
  | nil => cases hl
  | cons e ls ih =>
    by_cases he : l = e.1
    · subst he
      exact (s.sink_marks a pc e.1 e.2 hlive).keeps (State.sinks_keepsMarks a a pc e.1 ls (s.sink a pc e.1 e.2))
    · refine ih (s.sink a pc e.1 e.2) (by simpa [he] using hl) ?_
      rw [(s.sink_keepsMarks a a pc e.1 e.2 l).life]
      exact hlive

theorem Ctx.Noted.marked {c d : Ctx} (h : c.Noted d) : c.Marked d := by
  rw [h]
  exact ⟨rfl, rfl, rfl, rfl, rfl, rfl, fun _ => ⟨rfl, rfl, rfl⟩⟩

theorem State.Noted.marked {s t : State} (h : s.Noted t) : s.Marked t := ⟨h.cur, h.mem, fun a => (h.ctx a).marked⟩

theorem State.Noted.active {s t : State} (h : s.Noted t) : t.active = s.active := by
  rw [State.active, State.mask, State.sp, State.me, h.cur, Ctx.split, h.me]
  rfl

/-- A fault of every active lane of a group notes a record and marks the lanes with it. -/
theorem State.faultAll_split {s : State} {c g k : Nat} (hact : s.cur.act = .split c g k) (f : Flt) :
    ∃ u pl, s.Noted u ∧ s.faultAll f = u.sinks s.cur.act s.cur.pc (s.active.map (fun l => (l, pl))) := by
  have hnoted := (s.fault1_spec f 0).1
  refine ⟨(s.fault1 f 0).1, (s.fault1 f 0).2, hnoted, ?_⟩
  rw [State.faultAll]
  dsimp only
  rw [hact, if_neg (show ¬ (Actor.split c g k).isCtl = true from Bool.false_ne_true), State.sinkAll, hnoted.active, hnoted.cur, hact]
  rfl

/-- The retirement after a fault of every active lane of a group, whose instruction has at most noted something before: each live active lane is
marked. -/
theorem State.faultAll_retire {s u : State} {c g k : Nat} (hact : s.cur.act = .split c g k) (hq : s.quiet) (hu : s.Noted u) (f : Flt) (m : Nat) :
    s.keepsRegs ((u.faultAll f).retire m) ∧ s.marks ((u.faultAll f).retire m) ∧ s.endsAs ((u.faultAll f).retire m) s.after := by
  obtain ⟨v, pl, hv, hfault⟩ := State.faultAll_split (s := u) (by rw [hu.cur]; exact hact) f
  have hmarked : s.Marked (u.faultAll f) := by
    rw [hfault]
    exact (hu.trans hv).marked.trans (State.marked_sinks ..)
  have hme : (u.faultAll f).me = (u.faultAll f).ctx s.cur.act := by rw [State.me, hmarked.cur]
  obtain ⟨-, hkeepsRegs, hends⟩ := State.retire_marked m hmarked.cur (hmarked.ctx _) hq
  obtain ⟨sp, pool, hretire, -⟩ := State.retire_free (u.faultAll f) m (by rw [hme]; exact (hmarked.ctx _).pend.trans hq)
  refine ⟨hkeepsRegs, fun l hl hlive => ?_, hends⟩
  have hln : (s.ctx s.cur.act).ln l = (v.ctx s.cur.act).ln l := (((hu.trans hv).ctx _).ln l).symm
  have hsunk : (((u.faultAll f).ctx s.cur.act).ln l).IsMarked := by
    rw [hfault, hu.cur, hu.active]
    exact State.sinks_marks _ _ _ v (by simpa using hl) (by rw [← hln]; exact hlive)
  have hkeeps := State.sinks_keepsMarks u.cur.act s.cur.act u.cur.pc l (u.active.map (fun l => (l, pl))) v
  rw [← hfault, ← hln] at hkeeps
  have hdone : ((u.faultAll f).retire m).me.ln l = ((u.faultAll f).ctx s.cur.act).ln l := by
    rw [hretire, State.me_setCtx, Ctx.withSplits_ln, hme]
  rw [hdone, State.me, ← hkeeps.opn]
  exact hsunk

end Sys2Proof.Machine
end

section
/-! The end of an instruction that has set its own split: what `finish` leaves of a context of any kind without held results (06 R192; 09 R283). -/

namespace Sys2Proof.Machine

/-- Merges and promotions, where the context is a group's. -/
def Ctx.tidied (c : Ctx) (a : Actor) : Ctx :=
  match a with
  | .split _ _ _ => c.tidy
  | _ => c

theorem Ctx.splitsOnly_tidied (c : Ctx) (a : Actor) : c.splitsOnly (c.tidied a) := by
  cases a with
  | split => exact c.splitsOnly_tidy
  | _ => exact c.splitsOnly_refl

theorem Ctx.tidied_lone {c : Ctx} {k : Nat} {x : Split} (h : c.splits = [(k, x)]) (hp : c.pool = []) (a : Actor) : c.tidied a = c := by
  cases a with
  | split => exact c.tidy_lone h hp
  | _ => rfl

theorem Ctx.dropYield_lone {c : Ctx} {k : Nat} {x : Split} (h : c.splits = [(k, x)]) : c.dropYield k = c := by
  have hmap : c.splits.map (fun y => if y.1 = k then y else (y.1, { y.2 with yld := y.2.yld.filter (· != k) })) = c.splits := by simp [h]
  rw [Ctx.dropYield, hmap]

theorem State.finish_unheld (s : State) (m : Nat) (hp : s.me.pend = []) :
    s.finish m = s.setCtx s.cur.act ((s.me.dropYield s.cur.act.slot).tidied s.cur.act) := by
  rw [State.finish, hp, if_neg (by simp), State.upd_eq]
  dsimp only
  rw [Ctx.tickWin_quiet _ hp, Ctx.settle_quiet _ hp]
  rfl

/-- The end of an instruction after its context has become `c`: only the splits change, and a lone one stays as it is. -/
theorem State.finish_setCtx {s u : State} {c : Ctx} {m : Nat} (hcur : u.cur = s.cur) (hp : c.pend = []) :
    ∃ sp pl, (u.setCtx s.cur.act c).finish m = u.setCtx s.cur.act (c.withSplits sp pl)
      ∧ ∀ x, c.splits = [(s.cur.act.slot, x)] → c.pool = [] → sp = [(s.cur.act.slot, x)] ∧ pl = [] := by
  have hcur' : (u.setCtx s.cur.act c).cur = s.cur := (State.setCtx_cur ..).trans hcur
  have hme : (u.setCtx s.cur.act c).me = c := State.me_of_setCtx hcur
  have hfinish := State.finish_unheld (u.setCtx s.cur.act c) m (by rw [hme]; exact hp)
  rw [hme, hcur', State.setCtx_setCtx] at hfinish
  have hsplits : c.splitsOnly ((c.dropYield s.cur.act.slot).tidied s.cur.act) :=
    Ctx.splitsOnly_trans (b := c.dropYield s.cur.act.slot) rfl (Ctx.splitsOnly_tidied _ _)
  refine ⟨_, _, hfinish.trans (congrArg _ hsplits), fun x hx hpool => ?_⟩
  rw [Ctx.dropYield_lone hx, Ctx.tidied_lone hx hpool]
  exact ⟨hx, hpool⟩

/-- The end of an instruction that has put `x` in the place of its split: a lone split ends as `x`. -/
theorem State.finish_setSplit {s u : State} {c : Ctx} {m : Nat} (hcur : u.cur = s.cur) (hp : c.pend = []) (hsplits : c.splits = s.me.splits)
    (hpool : c.pool = s.me.pool) (x : Split) :
    ∃ t sp pl, (u.setCtx s.cur.act (c.setSplit s.cur.act.slot x)).finish m = t ∧ t = u.setCtx s.cur.act (c.withSplits sp pl)
      ∧ t.me = c.withSplits sp pl ∧ (s.lone → sp = [(s.cur.act.slot, x)] ∧ pl = []) := by
  obtain ⟨sp, pl, hfinish, hsp⟩ := State.finish_setCtx (m := m) (c := c.setSplit s.cur.act.slot x) hcur hp
  refine ⟨_, sp, pl, rfl, hfinish, (congrArg State.me hfinish).trans (State.me_of_setCtx hcur), fun ⟨hlone, hnone, _⟩ => hsp x ?_ (hpool.trans hnone)⟩
  rw [Ctx.setSplit, hsplits, hlone]
  exact Tbl.put_singleton ..

end Sys2Proof.Machine
end

section
/-! SVC, SRET and BRK: the split of an instruction that enters or leaves supervisor mode, ends its part of a handler, or halts (04 R141; 06 R206 to
R208; 11 R355, R356). -/

namespace Sys2Proof.Machine

/-- An address without its bit 0. -/
theorem evenPc_eq_and (w : W64) : evenPc w = w &&& ~~~1 := by
  have hones : (BitVec.allOnes 64 <<< 1 : W64) = ~~~1 := by decide
  rw [evenPc, ← hones, ← BitVec.shiftLeft_ushiftRight]
  apply BitVec.eq_of_toNat_eq
  have htwo : (2 : W64).toNat = 2 := rfl
  simp only [BitVec.toNat_sub, BitVec.toNat_umod, BitVec.toNat_shiftLeft, BitVec.toNat_ushiftRight, Nat.shiftLeft_eq, Nat.shiftRight_eq_div_pow, htwo]
  omega

/-- A class without control cores, sequencers and Retriever threads executes in a group. -/
theorem State.split_of_allows {s : State} {lg : Legal} (h : s.allows lg [] = true) (hctl : lg.ctl = false) (hseq : lg.seq = false)
    (hthread : lg.thread = false) : ∃ c g k, s.cur.act = .split c g k := by
  unfold State.allows at h
  cases hact : s.cur.act <;> simp_all [Actor.isCtl, Actor.isSeq, Actor.isThread]

/-- In a group every class executes whose mode is the split's. -/
theorem State.allows_split {s : State} {c g k : Nat} (hact : s.cur.act = .split c g k) {lg : Legal} (hsup : lg.sup = true ∨ s.sp.sup = false) :
    s.allows lg [] = true := by
  rw [State.allows, hact]
  rcases hsup with h | h <;> simp [h, Actor.isCtl, Actor.isSeq, Actor.isThread]

theorem Actor.isSeq_split {a : Actor} {c g k : Nat} (h : a = .split c g k) : a.isSeq = false := by rw [h]; rfl

theorem State.setDie_setCtx (s : State) (a : Actor) (c : Ctx) (d : Nat) (x : Die) : (s.setCtx a c).setDie d x = (s.setDie d x).setCtx a c := by
  cases a <;> rfl

/-- A context in which the lanes of a mask have ended their part of the handler (04 R141). -/
def Ctx.endPart (c : Ctx) (m : Nat) : Ctx := { c with svc := c.svc.map (fun v => { v with handler := without v.handler m }) }

/-- While a part of the handler runs, its in-lane stage goes on. -/
theorem State.handlerLeft_runs {s : State} {a : Actor} {v : Svc} (hsvc : (s.ctx a).svc = some v) (hleft : v.handler ≠ 0) : s.handlerLeft a = s := by
  rw [State.handlerLeft, hsvc]
  simp [hleft]

section
variable {s : State} (hq : s.quiet)
include hq

/-- Before an instruction of the lanes gives up its split, the windows of its lanes end; without held results that leaves a warning. -/
theorem State.warns_endWin (hseq : s.cur.act.isSeq = false) (w : W32) (m : Nat) :
    (s.warns w).upd (fun c => (c.endWin m).settle) = s.setCtx s.cur.act (s.me.warned w) := by
  have hpend : (s.me.warns w).pend = [] := hq
  rw [State.warns_upd s w hseq, State.upd_upd, State.upd_eq, Ctx.endWin_quiet _ hpend, Ctx.settle_quiet _ hpend]
  rfl

/-- SVC enters at SVEC + 0x40. -/
theorem State.becomes_svc (z : Nat) (ha : s.allows Legal.homeUser [] = true) : s.becomes (.svc z) (s.me.warned (ignored (z != 0)))
    { s.sp with pc := (s.mem.svec s.me.asid + 0x40) &&& ~~~1, sup := true, ret := some s.cur.npc } := by
  obtain ⟨_, _, _, hact⟩ := State.split_of_allows ha rfl rfl rfl
  have hseq := Actor.isSeq_split hact
  have hexec : exec (.svc z) s = .next ((((s.warns (ignW (z != 0))).upd (fun c => (c.endWin s.mask).settle)).enterSup s.cur.act.slot s.cur.act
    (s.mem.svec s.me.asid + 0x40) (some s.cur.npc)).finish s.mask) := by
    show execSvc z s = _
    rw [execSvc, State.uni_allowed s _ _ _ ha]
  rw [State.warns_endWin hq hseq, State.enterSup, State.updCtx, State.ctx_setCtx, State.setCtx_setCtx, evenPc_eq_and] at hexec
  obtain ⟨t, sp, pl, hfinish, ht, -, hlone⟩ := State.finish_setSplit (s := s) (u := s) (c := s.me.warned (ignored (z != 0))) (m := s.mask) rfl hq rfl rfl
    { s.sp with pc := (s.mem.svec s.me.asid + 0x40) &&& ~~~1, sup := true, ret := some s.cur.npc }
  exact ⟨sp, pl, hexec.trans (congrArg _ (hfinish.trans ht)), hlone⟩

/-- SRET goes back to the address that the entry recorded. -/
theorem State.becomes_sret (z : Nat) (ha : s.allows Legal.lane [] = true) (hsup : s.sp.sup = true) {r : W64} (hret : s.sp.ret = some r) :
    s.becomes (.sret z) (s.me.warned (ignored (z != 0))) { s.sp with pc := r, sup := false, ret := none } := by
  have hseq : s.cur.act.isSeq = false := by
    unfold State.allows at ha
    cases hact : s.cur.act <;> simp_all [Actor.isCtl, Actor.isSeq, Legal.lane]
  have hexec : exec (.sret z) s = .next (((s.warns (ignW (z != 0))).leaveSup s.cur.act.slot s.cur.act r).finish s.mask) := by
    show execSret z s = _
    rw [execSret, State.uni_allowed s _ _ _ ha]
    simp only [hsup, hret, Bool.not_true, Bool.false_eq_true, if_false]
  rw [State.warns_upd s _ hseq, State.upd_eq, State.leaveSup, State.updCtx, State.ctx_setCtx, State.setCtx_setCtx] at hexec
  obtain ⟨t, sp, pl, hfinish, ht, -, hlone⟩ := State.finish_setSplit (s := s) (u := s) (c := s.me.warned (ignored (z != 0))) (m := s.mask) rfl hq rfl rfl
    { s.sp with pc := r, sup := false, ret := none }
  exact ⟨sp, pl, hexec.trans (congrArg _ (hfinish.trans ht)), hlone⟩

section
variable {c g k : Nat} (hact : s.cur.act = .split c g k)
include hact

/-- The SRET that ends a part of a handler, while other parts of it run. -/
theorem State.sret_endsPart (z : Nat) (hsup : s.sp.sup = true) (hret : s.sp.ret = none) {v : Svc} (hsvc : s.me.svc = some v)
    (hleft : without v.handler s.mask ≠ 0) (hlone : s.lone) :
    ∃ t, exec (.sret z) s = .next t ∧ s.keepsRegs t ∧ (t.me.split k).mask = 0
      ∧ t.me.svc = some { v with handler := without v.handler s.mask } := by
  have hslot : s.cur.act.slot = k := by rw [hact]; rfl
  have ha : s.allows Legal.lane [] = true := State.allows_split hact (.inl rfl)
  have hd : ((s.me.warned (ignored (z != 0))).endPart s.mask).svc = some { v with handler := without v.handler s.mask } := by
    simp [Ctx.endPart, Ctx.warned, hsvc]
  have hruns := State.handlerLeft_runs (s := s.setCtx s.cur.act (((s.me.warned (ignored (z != 0))).endPart s.mask).setSplit s.cur.act.slot {}))
    ((congrArg Ctx.svc (State.ctx_setCtx ..)).trans hd) hleft
  have hexec : exec (.sret z) s = .next
      (((s.setCtx s.cur.act (((s.me.warned (ignored (z != 0))).endPart s.mask).setSplit s.cur.act.slot {})).handlerLeft s.cur.act).finish s.mask) := by
    show execSret z s = _
    rw [execSret, State.uni_allowed s _ _ _ ha]
    simp only [hsup, hret, hsvc, Bool.not_true, Bool.false_eq_true, if_false]
    rw [State.warns_upd s _ (Actor.isSeq_split hact), State.upd_upd, State.upd_eq]
    rfl
  rw [hruns] at hexec
  obtain ⟨t, sp, pl, hfinish, -, hme, hends⟩ := State.finish_setSplit (s := s) (u := s) (c := (s.me.warned (ignored (z != 0))).endPart s.mask) (m := s.mask)
    rfl hq rfl rfl {}
  obtain ⟨rfl, rfl⟩ := hends hlone
  refine ⟨t, hexec.trans (congrArg _ hfinish), Ctx.keepsRegs_of (by rw [hme]; rfl) (by rw [hme]; rfl) (by rw [hme]; rfl), ?_, by rw [hme]; exact hd⟩
  rw [hme, ← hslot]
  simp [Ctx.split, Ctx.withSplits, Tbl.get]

/-- SRET outside supervisor mode marks the lanes and goes on. -/
theorem State.sret_marks (z : Nat) (hsup : s.sp.sup = false) :
    ∃ t, exec (.sret z) s = .next t ∧ s.keepsRegs t ∧ s.marks t ∧ s.endsAs t s.after := by
  have ha : s.allows Legal.lane [] = true := State.allows_split hact (.inl rfl)
  have hexec : exec (.sret z) s = .next (((s.warns (ignW (z != 0))).faultAll ⟨cInvalidOp, s.cur.word⟩).retire s.mask) := by
    show execSret z s = _
    rw [execSret, State.uni_allowed s _ _ _ ha]
    simp only [hsup, Bool.not_false, if_true]
  exact ⟨_, hexec, State.faultAll_retire hact hq (s.noted_warns _) _ _⟩

/-- BRK while debug is on and packs do not halt: its split halts at its own address. -/
theorem State.brk_halts (z : Nat) (hon : (s.die (s.dieOf s.cur.act)).dbgEn = true) (hpack : (s.die (s.dieOf s.cur.act)).haltPack = false) :
    ∃ t, exec (.brk z) s = .next t ∧ s.keepsRegs t ∧ (t.die (s.dieOf s.cur.act)).halted = true
      ∧ s.endsAs t { s.sp with halted := true, brk := some s.cur.npc } := by
  have hseq := Actor.isSeq_split hact
  have ha : s.allows Legal.home [] = true := State.allows_split hact (.inl rfl)
  have hexec : exec (.brk z) s = .next ((((s.warns (ignW (z != 0))).updSp (fun x => { x with halted := true, brk := some s.cur.npc })).setDie
      (s.dieOf s.cur.act) { s.die (s.dieOf s.cur.act) with halted := true }).finish s.mask) := by
    show execBrk z s = _
    rw [execBrk, State.uni_allowed s _ _ _ ha]
    simp only [hon, hpack, Bool.not_true, Bool.false_eq_true, if_false]
  rw [State.updSp, State.warns_cur, State.warns_upd s _ hseq, State.upd_upd, State.upd_eq, State.setDie_setCtx] at hexec
  obtain ⟨t, sp, pl, hfinish, ht, hme, hends⟩ := State.finish_setSplit (s := s) (u := s.setDie (s.dieOf s.cur.act) { s.die (s.dieOf s.cur.act) with halted := true })
    (c := s.me.warned (ignored (z != 0))) (m := s.mask) rfl hq rfl rfl { s.sp with halted := true, brk := some s.cur.npc }
  refine ⟨t, hexec.trans (congrArg _ hfinish), Ctx.keepsRegs_of (by rw [hme]; rfl) (by rw [hme]; rfl) (by rw [hme]; rfl), ?_, ?_⟩
  · rw [ht, State.die_setCtx, State.die_setDie]
  · rw [State.endsAs, hme]
    exact hends

end

/-- BRK while debug is off acts as NOP. -/
theorem State.becomes_brk (z : Nat) (ha : s.allows Legal.home [] = true) (hoff : (s.die (s.dieOf s.cur.act)).dbgEn = false) :
    s.becomes (.brk z) (s.me.warned (ignored (z != 0))) s.after := by
  obtain ⟨_, _, _, hact⟩ := State.split_of_allows ha rfl rfl rfl
  have hexec : exec (.brk z) s = .next ((s.warns (ignW (z != 0))).retire s.mask) := by
    show execBrk z s = _
    rw [execBrk, State.uni_allowed s _ _ _ ha]
    simp only [hoff, Bool.not_false, if_true]
  rw [State.warns_upd s _ (Actor.isSeq_split hact), State.upd_eq] at hexec
  obtain ⟨sp, pl, hretire, hlone⟩ := State.retire_setCtx (s := s) (u := s) (c := s.me.warned (ignored (z != 0))) (m := s.mask) rfl hq
  exact ⟨sp, pl, hexec.trans (congrArg _ hretire), fun ⟨hsplits, hpool, _⟩ => hlone s.sp hsplits hpool⟩

end

end Sys2Proof.Machine
end

section
open Sys2Proof Sys2Proof.Machine

/-- Settles O29: each form by the split that it leaves, the fault of a stray SRET by the marks of its lanes. -/
theorem supervisorAndBreakpoint : Obligations.SupervisorAndBreakpoint := by
  unfold Obligations.SupervisorAndBreakpoint
  refine ⟨fun s z hq => ⟨State.becomes_svc hq z, fun ha hsup r hret => State.becomes_sret hq z ha hsup hret,
    fun c g k hact hsup => State.sret_marks hq hact z hsup,
    fun c g k v hact hsup hret hsvc hleft hlone => State.sret_endsPart hq hact z hsup hret hsvc hleft hlone⟩,
    fun s z ha hq => ⟨State.becomes_brk hq z ha, fun hon hpack => ?_⟩⟩
  obtain ⟨c, g, k, hact⟩ := State.split_of_allows ha rfl rfl rfl
  exact State.brk_halts hq hact z hon hpack

end

section
/-! A commit whose lane waits for a page's first touch: what it services, and what it leaves (04 R140, R141; 05 R171 to R173). -/

namespace Sys2Proof.Machine

theorem maskOf_singleton (l : Nat) : maskOf [l] = 2 ^ l := by simp [maskOf, bit]

theorem bit_two_pow (l : Nat) : bit (2 ^ l) l = true := by rw [bit_eq_testBit, Nat.testBit_two_pow_self]

theorem State.setCore_setCtx (s : State) (a : Actor) (c : Ctx) (n : Nat) (x : Core) : (s.setCtx a c).setCore n x = (s.setCore n x).setCtx a c := by
  cases a <;> rfl

theorem State.setCore_setCore (s : State) (n : Nat) (x y : Core) : (s.setCore n x).setCore n y = s.setCore n y := by
  simp [State.setCore]

/-- A byte that no lane releases is dropped or kept (05 R171). -/
theorem QByte.fate_unreleased (b : QByte) (dis : Nat) : b.fate 0 dis ≠ .release := by
  rw [QByte.fate]
  split
  · exact nofun
  · rw [if_pos (by simp)]
    exact nofun

/-- A commit that releases no lane's bytes performs no store: the held bytes of a core alone may change. -/
theorem State.resolveHeld_unreleased (s : State) (a : Actor) (slot dis : Nat) (which : Bool → Bool) :
    ∃ q, s.resolveHeld a slot 0 dis which = s.setCore (s.coreOf a) { s.core (s.coreOf a) with quar := q } := by
  have hgoes (b : QByte) : (decide (b.fate 0 dis = .release) && b.poi.isNone) = false := by simp [b.fate_unreleased]
  have hruns : runsOf [] = [] := by decide
  have hnone (es : List QEnt) : es.flatMap (fun _ => ([] : List (Dst × Nat × Nat))) = [] := by simp
  rw [State.resolveHeld]
  simp only [hgoes, List.filter_false, List.map_nil, hruns, hnone]
  exact ⟨_, rfl⟩

/-- A lone lane whose REC names a FIRST_TOUCH record of its open region, the only record of its core (05 R165, R172): the record `e`, with index `i`. -/
structure State.Touched (s : State) (core g k l i : Nat) (e : Rec) : Prop where
  act : s.cur.act = .split core g k
  active : s.active = [l]
  opn : (s.me.ln l).rgn.opn = true
  p : (s.me.ln l).rgn.p = true
  nsv : (s.me.ln l).rgn.nsv = false
  rpl : (s.me.ln l).rgn.rpl < 15
  idx : plIdx (s.me.ln l).rgn.recp = i
  lt : i < 1023
  entry : (s.core core).entry i = e
  side : (s.core core).side = [(i, e)]
  live : e.live = true
  serv : e.serv = true
  stale : e.stale = false
  cause : e.cause = cFirstTouch
  seq : e.seq = (s.me.ln l).rgn.seq
  wgs : e.wgs = s.me.wslot
  group : e.group = s.me.gid
  lane : e.lane = l

section
variable {s : State} {core g k l i : Nat} {e : Rec} (h : s.Touched core g k l i e)
include h

theorem State.Touched.lanes : lanesOf s.mask = [l] := h.active

theorem State.Touched.coreOf : s.coreOf s.cur.act = core := by rw [h.act]; rfl

theorem State.Touched.serviceable : s.serviceable s.cur.act l = true := by
  have hserviceable : s.serviceable s.cur.act l = ((s.me.ln l).rgn.opn && (s.me.ln l).rgn.p && !(s.me.ln l).rgn.nsv
      && plIdx (s.me.ln l).rgn.recp != 1023 && decide ((s.me.ln l).rgn.rpl < 15)
      && ((s.core (s.coreOf s.cur.act)).entry (plIdx (s.me.ln l).rgn.recp)).live
      && ((s.core (s.coreOf s.cur.act)).entry (plIdx (s.me.ln l).rgn.recp)).serv) := rfl
  rw [hserviceable, h.coreOf, h.idx, h.entry, h.opn, h.p, h.nsv, h.live, h.serv]
  simp [h.rpl, Nat.ne_of_lt h.lt]

theorem State.Touched.lanesServed : maskOf ((lanesOf s.mask).filter (fun l => s.serviceable s.cur.act l)) = 2 ^ l := by
  rw [h.lanes, List.filter_cons_of_pos (by exact h.serviceable), List.filter_nil, maskOf_singleton]

/-- Four permits in use: the commit changes the back-off alone. -/
theorem State.Touched.commit_backsOff (pc : W64) (hp : 4 ≤ (s.core core).permits) :
    s.commit s.cur.act 1 pc s.mask = s.setCtx s.cur.act { s.me with backoff := true, kexp := min 6 (s.me.kexp + 1) } := by
  rw [State.commit]
  simp only [if_true, h.lanesServed, h.coreOf, hp]
  rw [if_pos (by simp)]
  rfl

/-- The record that the lane names is all that the commit services. -/
theorem State.Touched.toService : s.toService s.cur.act s.mask (2 ^ l) = [i] := by
  have hl : l < 32 ∧ bit s.mask l = true := by
    have hmem : l ∈ lanesOf s.mask := by rw [h.lanes]; exact List.mem_singleton_self l
    simpa [lanesOf] using hmem
  have hof : e.of s.me.wslot s.me.gid = true := by simp [Rec.of, h.live, h.wgs, h.group]
  rw [State.toService, h.coreOf, h.side, lanesOf_two_pow l hl.1, ← State.me]
  simp [seqsOf, hof, h.stale, h.serv, h.seq, h.idx]

/-- Nothing of the lane's region closes, no byte is released. -/
theorem State.Touched.resolve : ∃ q, s.resolve s.cur.act s.mask 1 (2 ^ l)
    = (s.setCore core { s.core core with quar := q }).setCtx s.cur.act s.me := by
  have hopen : (lanesOf s.mask).filter (fun l => ((s.ctx s.cur.act).ln l).rgn.opn) = [l] := by
    rw [h.lanes, List.filter_cons_of_pos (by exact h.opn), List.filter_nil]
  have hclean : [l].filter (fun l => !((s.ctx s.cur.act).ln l).rgn.p) = [] := by
    rw [List.filter_cons_of_neg (by rw [← State.me, h.p]; exact Bool.false_ne_true), List.filter_nil]
  have hshut : [l].filter (fun j => !bit (2 ^ l) j) = [] := by
    rw [List.filter_cons_of_neg (by rw [bit_two_pow]; exact Bool.false_ne_true), List.filter_nil]
  rw [State.resolve]
  simp only [hopen, hclean, hshut]
  obtain ⟨q, hq⟩ := s.resolveHeld_unreleased s.cur.act (s.homeSlot s.cur.act) (maskOf ([l].filter (fun l => ((s.ctx s.cur.act).ln l).rgn.p))) (fun r => !r)
  refine ⟨q, ?_⟩
  rw [show maskOf [] = 0 from rfl, hq, h.coreOf, State.updCtx, State.ctx_setCore]
  rfl

/-- The cause of the record is no uncorrectable error: no view is refilled. -/
theorem State.Touched.refills {u : State} (hu : (u.core core).entry i = e) : u.refills (.split core g k) [i] = (u, []) := by
  have hecc : (e.cause == cEccUe) = false := by rw [h.cause]; rfl
  rw [State.refills]
  simp [State.coreOf, hu, hecc]

/-- A permit is free: the commit holds it, and its split becomes that of the handler. -/
theorem State.Touched.commit_enters (pc : W64) (hp : (s.core core).permits < 4) :
    ∃ q v, s.commit s.cur.act 1 pc s.mask = (s.setCore core { s.core core with quar := q, permits := (s.core core).permits + 1 }).setCtx s.cur.act
      (({ s.me with kexp := 0, svc := some v, hit := [] } : Ctx).setSplit s.cur.act.slot
        { s.sp with pc := evenPc (s.mem.svec s.me.asid), mask := 2 ^ l, sup := true, ret := none, due := false }) := by
  obtain ⟨q, hresolve⟩ := h.resolve
  rw [State.commit]
  simp only [if_true, h.lanesServed, h.coreOf]
  rw [if_pos (by simp), if_neg (Nat.not_le.mpr hp)]
  generalize hstart : s.startService s.cur.act pc s.mask (2 ^ l) = t
  unfold State.startService at hstart
  extract_lets cn rg recs poor s1 co s2 at hstart
  have hserved : recs = [i] := h.toService
  have hs2 : s2 = (s.setCore core { s.core core with quar := q, permits := (s.core core).permits + 1 }).setCtx s.cur.act { s.me with kexp := 0 } := by
    unfold s2 co s1 cn
    rw [hresolve, h.coreOf, State.core_setCtx, State.core_setCore, State.setCore_setCtx, State.setCore_setCore, State.updCtx, State.ctx_setCtx,
      State.setCtx_setCtx]
  have hentry : (s2.core core).entry i = e := by
    rw [hs2, State.core_setCtx, State.core_setCore, ← h.entry]
    rfl
  split at hstart
  next s3 failed hrefills =>
  have hs3 : s3 = s2 := by
    rw [hserved, h.act, h.refills hentry] at hrefills
    exact (congrArg Prod.fst hrefills).symm
  extract_lets hrecs c enter sp v x s4 at hstart
  have henter : enter = 2 ^ l := by
    have hcn : (s3.core cn).entry i = e := by
      rw [hs3, show cn = core from h.coreOf]
      exact hentry
    have hhandled : hrecs = [i] := by
      unfold hrecs
      rw [hserved, List.filter_cons_of_pos (by simp [hcn, h.cause]), List.filter_nil]
    unfold enter
    rw [hhandled, h.lanes, List.filter_cons_of_pos (by simp [hcn, h.lane]), List.filter_nil, maskOf_singleton]
  rw [if_neg (by rw [henter]; positivity)] at hstart
  refine ⟨q, v, ?_⟩
  have hc : c = { s.me with kexp := 0 } := by
    unfold c
    rw [hs3, hs2, State.ctx_setCtx]
  have hx : x = { s.sp with pc := evenPc (s.mem.svec s.me.asid), mask := 2 ^ l, sup := true, ret := none, due := false } := by
    unfold x
    rw [if_neg (by rw [henter]; positivity), henter]
    unfold sp
    rw [hc, hs3, hs2, State.setCtx_mem]
    rfl
  rw [← hstart]
  unfold s4
  rw [hx, hs3, hs2, State.updCtx, State.ctx_setCtx, State.setCtx_setCtx]
  rfl

omit h in
theorem State.mask_warned (w : W32) : (s.setCtx s.cur.act (s.me.warned w)).mask = s.mask := by
  rw [State.mask, State.sp, State.me_setCtx, State.setCtx_cur]
  rfl

/-- A warning leaves the lane and its record as they are. -/
theorem State.Touched.warned (w : W32) : (s.setCtx s.cur.act (s.me.warned w)).Touched core g k l i e := by
  have hme : (s.setCtx s.cur.act (s.me.warned w)).me = s.me.warned w := State.me_setCtx ..
  have hln : (s.me.warned w).ln l = s.me.ln l := rfl
  exact {
    act := by rw [State.setCtx_cur]; exact h.act
    active := by rw [State.active, State.mask_warned]; exact h.active
    opn := by rw [hme, hln]; exact h.opn
    p := by rw [hme, hln]; exact h.p
    nsv := by rw [hme, hln]; exact h.nsv
    rpl := by rw [hme, hln]; exact h.rpl
    idx := by rw [hme, hln]; exact h.idx
    lt := h.lt
    entry := by rw [State.core_setCtx]; exact h.entry
    side := by rw [State.core_setCtx]; exact h.side
    live := h.live
    serv := h.serv
    stale := h.stale
    cause := h.cause
    seq := by rw [hme, hln]; exact h.seq
    wgs := by rw [hme]; exact h.wgs
    group := by rw [hme]; exact h.group
    lane := h.lane }

/-- CMT.SV commits its lanes after a warning at most, and then ends. -/
theorem State.Touched.cmtSv (hq : s.quiet) (hsup : s.sp.sup = false) (z : Nat) : ∃ w,
    exec (.cmtSv z) s = .next (((s.setCtx s.cur.act (s.me.warned w)).commit s.cur.act 1 s.cur.npc s.mask).finish s.mask) := by
  have ha : s.allows Legal.homeUser [] = true := State.allows_split h.act (.inr hsup)
  have hexec : exec (.cmtSv z) s = .next ((((s.warns (ignW (z != 0) ||| flagIf (s.active.any (fun l => !((s.ctx s.cur.act).ln l).rgn.opn)) wCmtNoRegion)).upd
      (fun c => (c.endWin s.mask).settle)).commit s.cur.act 1 s.cur.npc s.mask).finish s.mask) := by
    show execCmtSv z s = _
    rw [execCmtSv, State.cmt, State.uni_allowed s _ _ _ ha]
  rw [State.warns_endWin hq (Actor.isSeq_split h.act)] at hexec
  exact ⟨_, hexec⟩

variable (hq : s.quiet) (hsup : s.sp.sup = false) (z : Nat)
include hq hsup

/-- CMT.SV while four permits are in use (05 R173). -/
theorem State.Touched.cmtSv_backsOff (hp : 4 ≤ (s.core core).permits) :
    ∃ t, exec (.cmtSv z) s = .next t ∧ t.me.backoff = true ∧ t.me.kexp = min 6 (s.me.kexp + 1) ∧ (t.me.ln l).rgn = (s.me.ln l).rgn
      ∧ t.core core = s.core core ∧ s.endsAs t s.sp := by
  obtain ⟨w, hexec⟩ := h.cmtSv hq hsup z
  have hcommit := (h.warned w).commit_backsOff s.cur.npc (by rw [State.core_setCtx]; exact hp)
  rw [State.setCtx_cur, State.mask_warned, State.me_setCtx, State.setCtx_setCtx] at hcommit
  obtain ⟨sp, pl, hfinish, hends⟩ := State.finish_setCtx (s := s) (u := s)
    (c := { s.me.warned w with backoff := true, kexp := min 6 (s.me.kexp + 1) }) (m := s.mask) rfl hq
  refine ⟨_, hexec.trans (congrArg _ ((congrArg (State.finish · s.mask) hcommit).trans hfinish)), ?_⟩
  rw [State.endsAs, State.me_setCtx, State.core_setCtx]
  exact ⟨rfl, rfl, rfl, rfl, fun ⟨hsplits, hpool, _⟩ => hends s.sp hsplits hpool⟩

/-- CMT.SV while a permit is free: the lane enters the handler (04 R140, R141). -/
theorem State.Touched.cmtSv_enters (hlone : s.lone) (hp : (s.core core).permits < 4) :
    ∃ t, exec (.cmtSv z) s = .next t ∧ (t.core core).permits = (s.core core).permits + 1 ∧ (t.me.ln l).rgn.opn = true ∧ t.me.svc ≠ none
      ∧ t.me.kexp = 0 ∧ t.me.splits = [(k, { s.sp with pc := evenPc (s.mem.svec s.me.asid), mask := 2 ^ l, sup := true, ret := none, due := false })] := by
  have hslot : s.cur.act.slot = k := by rw [h.act]; rfl
  obtain ⟨w, hexec⟩ := h.cmtSv hq hsup z
  obtain ⟨q, v, hcommit⟩ := (h.warned w).commit_enters s.cur.npc (by rw [State.core_setCtx]; exact hp)
  rw [State.setCtx_cur, State.mask_warned, State.me_setCtx, State.core_setCtx, State.setCore_setCtx, State.setCtx_setCtx] at hcommit
  obtain ⟨t, sp, pl, hfinish, ht, hme, hends⟩ := State.finish_setSplit (s := s)
    (u := s.setCore core { s.core core with quar := q, permits := (s.core core).permits + 1 })
    (c := { s.me.warned w with kexp := 0, svc := some v, hit := [] }) (m := s.mask) rfl hq rfl rfl
    { s.sp with pc := evenPc (s.mem.svec s.me.asid), mask := 2 ^ l, sup := true, ret := none, due := false }
  obtain ⟨rfl, rfl⟩ := hends hlone
  have hsp : (s.setCtx s.cur.act (s.me.warned w)).sp = s.sp := by
    rw [State.sp, State.me_setCtx, State.setCtx_cur]
    rfl
  rw [hsp, State.setCtx_mem] at hcommit
  refine ⟨t, hexec.trans (congrArg _ ((congrArg (State.finish · s.mask) hcommit).trans hfinish)), ?_⟩
  rw [ht, State.core_setCtx, State.core_setCore, ← ht, hme, ← hslot]
  exact ⟨rfl, h.opn, nofun, rfl, rfl⟩

end

end Sys2Proof.Machine
end

section
open Sys2Proof Sys2Proof.Machine

/-- Settles O26: the commit services the one record of the lane; without a permit it backs off, else the lane enters the handler. -/
theorem commitService : Obligations.CommitService := by
  unfold Obligations.CommitService
  intro s core g k z l hact hsup hq hlone hactive hlive hsvc ⟨hopn, hp, hnsv, hrpl, hidx, hkept, hserv, hstale, hcause, hseq, hwgs, hgroup, hlane, hside⟩
  have h : s.Touched core g k l (plIdx (s.me.ln l).rgn.recp) ((s.core core).entry (plIdx (s.me.ln l).rgn.recp)) :=
    ⟨hact, hactive, hopn, hp, hnsv, hrpl, rfl, hidx, rfl, hside, hkept, hserv, hstale, hcause, hseq, hwgs, hgroup, hlane⟩
  refine ⟨h.cmtSv_backsOff hq hsup z, fun hfree => ?_⟩
  obtain ⟨t, hexec, hpermits, hopen, hservice, hkexp, hsplits⟩ := h.cmtSv_enters hq hsup z hlone hfree
  refine ⟨t, hexec, hpermits, hopen, hservice, hkexp, ?_⟩
  simp [Ctx.split, hsplits, Tbl.get, evenPc_eq_and, bit_two_pow]

end

section
/-! A flush whose thread lists its FLUSHST in a second split, behind another FLUSHST of the same page (11 R361; 13 R416). -/

namespace Sys2Proof.Machine

/-- The page being written for the FLUSHST of thread 0. -/
def threadFlush : Flush := ⟨.thread 0 0, 0, 0, 0, false, { nsid := 1, pair := 0, todo := 0, sent := 1 }⟩

/-- A thread with two splits. Slot 0, which has no lanes, is held by the FLUSHST of s1 alone; slot 1 is held by a FLUSHST of s2 first and by that of s1
behind it. Both are listed as held under the one name of the thread. -/
def doublyHeld : State :=
  { threads := [(0, { on := true
                      lanes := [(0, { life := .live })]
                      splits := [(0, { blk := some (.flush 1 0 0 0) }),
                        (1, { mask := 1, blk := some (.flush 2 0 0 0), also := [.flush 1 0 0 0] })] })]
    ports := [(0, { flushes := [threadFlush] })] }

theorem doublyHeld_heldAt : doublyHeld.heldAt threadFlush.act (.flush 1 0 0 0) := ⟨by decide, by decide, by decide⟩

/-- The end of the flush completes the first FLUSHST listed under the thread's name, that of s2: slot 0 stays held. -/
theorem doublyHeld_staysHeld : ∃ t, exec (.storageLinkDown 0) doublyHeld = .next t ∧ t.blkOf threadFlush.act ≠ none := ⟨_, rfl, by decide⟩

end Sys2Proof.Machine

open Sys2Proof Sys2Proof.Machine

/-- Refutes O53: its clause on a flush asks only that the FLUSHST is held and listed, and so admits a thread with a second split, which 06 R196 does not
give it. There the end of the flush completes the FLUSHST of the page that is listed first under the thread, and the one that the clause names
is still held. -/
theorem not_storageEvents : ¬ Obligations.StorageEvents := by
  unfold Obligations.StorageEvents
  intro h
  obtain ⟨-, -, -, hevents, -⟩ := h
  obtain ⟨-, -, -, -, -, hflush, -⟩ := hevents doublyHeld 0 0 0 0 0 ⟨0, 0, 0, 0, 0, threadFlush.cmds⟩ threadFlush 1 (.flush 1 0 0 0)
  obtain ⟨-, t, hdown, -, hfreed, -⟩ := hflush rfl rfl doublyHeld_heldAt rfl
  obtain ⟨u, hexec, hheld⟩ := doublyHeld_staysHeld
  have hsame : u = t := Host.Outcome.next.inj (hexec.symm.trans hdown)
  exact hheld (hsame ▸ hfreed)
end

section
/-! A scalar instruction whose guard is poisoned (11 R330; 05 R158). -/

namespace Sys2Proof.Machine

/-- The scalar instructions that write s[d] are guarded changes of the context. -/
theorem exec_uniInt {i : Instr} {d g : Nat} {rs : List Nat} {ign : Bool} {f : List W64 → W64} (h : Instr.uniInt i = some (d, rs, g, ign, f)) (s : State) :
    ∃ regs wn k, exec i s = s.gr regs g wn k := by
  cases i <;> simp only [Instr.uniInt, reduceCtorEq, Option.some.injEq, Prod.mk.injEq] at h
  all_goals
    obtain ⟨-, -, rfl, -, -⟩ := h
    exact ⟨_, _, _, rfl⟩

theorem State.guarded_poisoned {s : State} {g : Nat} (h : s.takes g = none) (k : State → State) : ∃ p, s.guarded g k = s.sinkAll p := by
  unfold State.takes at h
  unfold State.guarded
  split at h
  · cases h
  · next hg =>
    rw [if_neg hg]
    split at h
    · next p _ => exact ⟨p, rfl⟩
    · cases h

/-- The retirement after a sink of every active lane of a group: each live active lane is marked. -/
theorem State.sinkAll_retire {s : State} {c g k : Nat} (hact : s.cur.act = .split c g k) (hq : s.quiet) (p : Payload) (m : Nat) :
    s.keepsRegs ((s.sinkAll p).retire m) ∧ s.marks ((s.sinkAll p).retire m) := by
  have hsink : s.sinkAll p = s.sinks s.cur.act s.cur.pc (s.active.map (fun l => (l, p))) := by
    rw [State.sinkAll, hact]
    rfl
  have hmarked : s.Marked (s.sinkAll p) := hsink ▸ State.marked_sinks ..
  have hme : (s.sinkAll p).me = (s.sinkAll p).ctx s.cur.act := by rw [State.me, hmarked.cur]
  obtain ⟨sp, pl, hretire, -⟩ := State.retire_free (s.sinkAll p) m (by rw [hme]; exact (hmarked.ctx _).pend.trans hq)
  have hln (l : Nat) : ((s.sinkAll p).retire m).me.ln l = ((s.sinkAll p).ctx s.cur.act).ln l := by
    rw [hretire, State.me_setCtx, Ctx.withSplits_ln, hme]
  refine ⟨(State.retire_marked m hmarked.cur (hmarked.ctx _) hq).2.1, fun l hl hlive => ?_⟩
  have hsunk : (((s.sinkAll p).ctx s.cur.act).ln l).IsMarked := by
    rw [hsink]
    exact State.sinks_marks _ _ _ s (by simpa using hl) hlive
  have hkeeps := State.sinks_keepsMarks s.cur.act s.cur.act s.cur.pc l (s.active.map (fun l => (l, p))) s
  rw [← hsink] at hkeeps
  rw [hln, State.me, ← hkeeps.opn]
  exact hsunk

end Sys2Proof.Machine
end

section
open Sys2Proof Sys2Proof.Machine

/-- Settles O18: the poison of the guard sinks into every active lane, and nothing else happens before the instruction retires. -/
theorem poisonedGuardMarks : Obligations.PoisonedGuardMarks := by
  unfold Obligations.PoisonedGuardMarks
  intro i d rs g ign f hi _ s c k e hact hq hg hlive
  obtain ⟨regs, wn, change, hexec⟩ := exec_uniInt hi s
  obtain ⟨p, hsink⟩ := State.guarded_poisoned hg (fun s => (s.warns wn).upd change)
  have hallows : s.allows Legal.all regs = true := by simp [State.allows, hact, Actor.isCtl, Actor.isSeq, Actor.isThread, Legal.all]
  rw [State.gr, State.uni1, State.uni_allowed s _ _ _ hallows] at hexec
  rw [hsink] at hexec
  obtain ⟨⟨hs, hqs, hregs⟩, hmarks⟩ := State.sinkAll_retire hact hq p s.mask
  exact ⟨_, hexec, hs, hqs, fun l hl => ⟨(hregs l).1, hmarks l hl (hlive l hl)⟩⟩

end

section
/-! The region state of lanes, and the parts of a region instruction that leave its context alone (05 R164, R165, R171). -/

namespace Sys2Proof.Machine

/-! Lanes whose region state changes. -/

theorem Ctx.updRgn_eq (c : Ctx) (ls : List Nat) (f : Rgn → Rgn) : c.updRgn ls f = { c with lanes := (c.updRgn ls f).lanes } :=
  foldl_keeps (fun d : Ctx => d = { c with lanes := d.lanes }) _ ls (fun d _ hd => by rw [hd]; rfl) c rfl

@[simp] theorem Ctx.updRgn_s (c : Ctx) (ls : List Nat) (f : Rgn → Rgn) : (c.updRgn ls f).s = c.s := by rw [Ctx.updRgn_eq]
@[simp] theorem Ctx.updRgn_q (c : Ctx) (ls : List Nat) (f : Rgn → Rgn) : (c.updRgn ls f).q = c.q := by rw [Ctx.updRgn_eq]
@[simp] theorem Ctx.updRgn_pend (c : Ctx) (ls : List Nat) (f : Rgn → Rgn) : (c.updRgn ls f).pend = c.pend := by rw [Ctx.updRgn_eq]
@[simp] theorem Ctx.updRgn_splits (c : Ctx) (ls : List Nat) (f : Rgn → Rgn) : (c.updRgn ls f).splits = c.splits := by rw [Ctx.updRgn_eq]
@[simp] theorem Ctx.updRgn_pool (c : Ctx) (ls : List Nat) (f : Rgn → Rgn) : (c.updRgn ls f).pool = c.pool := by rw [Ctx.updRgn_eq]
@[simp] theorem Ctx.updRgn_seq (c : Ctx) (ls : List Nat) (f : Rgn → Rgn) : (c.updRgn ls f).seq = c.seq := by rw [Ctx.updRgn_eq]
@[simp] theorem Ctx.updRgn_warn (c : Ctx) (ls : List Nat) (f : Rgn → Rgn) : (c.updRgn ls f).warn = c.warn := by rw [Ctx.updRgn_eq]

theorem Ctx.ln_setLn_ite (c : Ctx) (j l : Nat) (x : Lane) : (c.setLn j x).ln l = if l = j then x else c.ln l := Tbl.get_put _ _ _ _ _

/-- The lanes of a list get the new region state, each once. -/
theorem Ctx.ln_updRgn (c : Ctx) {ls : List Nat} (hnodup : ls.Nodup) (f : Rgn → Rgn) (l : Nat) :
    (c.updRgn ls f).ln l = if l ∈ ls then { c.ln l with rgn := f (c.ln l).rgn } else c.ln l := by
  induction ls generalizing c with
  | nil => rfl
  | cons j ls ih =>
    obtain ⟨hj, hls⟩ := List.nodup_cons.mp hnodup
    show ((c.setLn j { c.ln j with rgn := f (c.ln j).rgn }).updRgn ls f).ln l = _
    rw [ih _ hls]
    simp only [Ctx.ln_setLn_ite]
    by_cases hl : l = j
    · subst hl
      simp [hj]
    · simp [hl]

/-- The region state is no register. -/
theorem Ctx.keepsRegs_updRgn (c : Ctx) {ls : List Nat} (hnodup : ls.Nodup) (f : Rgn → Rgn) (l : Nat) :
    ((c.updRgn ls f).ln l).v = (c.ln l).v ∧ ((c.updRgn ls f).ln l).p = (c.ln l).p ∧ ((c.updRgn ls f).ln l).dr = (c.ln l).dr := by
  rw [c.ln_updRgn hnodup]
  split <;> exact ⟨rfl, rfl, rfl⟩

/-! What an instruction has reached in its own context. -/

/-- `u` is the state of the same instruction as `s`, with `c` as its context. -/
structure State.At (s u : State) (c : Ctx) : Prop where
  cur : u.cur = s.cur
  ctx : u.ctx s.cur.act = c

theorem State.at_refl (s : State) : s.At s s.me := ⟨rfl, rfl⟩

theorem State.at_setCtx {s u : State} (hcur : u.cur = s.cur) (c : Ctx) : s.At (u.setCtx s.cur.act c) c := ⟨(State.setCtx_cur ..).trans hcur, State.ctx_setCtx ..⟩

section
variable {s u : State} {c : Ctx} (h : s.At u c)
include h

theorem State.At.trans {v : State} {d : Ctx} (k : u.At v d) : s.At v d := ⟨k.cur.trans h.cur, h.cur ▸ k.ctx⟩

theorem State.At.me : u.me = c := by rw [State.me, h.cur, h.ctx]

theorem State.At.setCore (n : Nat) (x : Core) : s.At (u.setCore n x) c := ⟨h.cur, (State.ctx_setCore ..).trans h.ctx⟩

theorem State.At.updCtx (f : Ctx → Ctx) : s.At (u.updCtx s.cur.act f) (f c) := by
  rw [State.updCtx, h.ctx]
  exact State.at_setCtx h.cur _

theorem State.At.freeRecs (n : Nat) (f : Nat → Rec → Bool) : s.At (u.freeRecs n f) c := h.setCore _ _

/-- The instruction retires with the context it has reached, but for the splits; a lone split goes on to the next instruction. -/
theorem State.At.retire (hp : c.pend = []) (m : Nat) : ∃ sp pl, (u.retire m).me = c.withSplits sp pl
    ∧ ∀ x, c.splits = [(s.cur.act.slot, x)] → c.pool = [] → sp = [(s.cur.act.slot, { x with pc := s.cur.npc })] ∧ pl = [] := by
  obtain ⟨sp, pl, hret, hends⟩ := State.retire_free u m (by rw [h.me]; exact hp)
  rw [h.cur, h.me] at hret hends
  exact ⟨sp, pl, by rw [hret, State.me_of_setCtx h.cur], hends⟩

/-- The same where the context has the splits and the pool that the instruction found. -/
theorem State.At.retire_endsAs (hp : c.pend = []) (hsplits : c.splits = s.me.splits) (hpool : c.pool = s.me.pool) (m : Nat) :
    ∃ sp pl, (u.retire m).me = c.withSplits sp pl ∧ s.endsAs (u.retire m) s.after := by
  obtain ⟨sp, pl, hme, hends⟩ := h.retire hp m
  refine ⟨sp, pl, hme, fun ⟨hlone, hnone, _⟩ => ?_⟩
  obtain ⟨rfl, rfl⟩ := hends s.sp (hsplits.trans hlone) (hpool.trans hnone)
  rw [hme]
  exact ⟨rfl, rfl⟩

end

end Sys2Proof.Machine
end

section
/-! RGN.I and RGN.H (05 R165; 11 R348). -/

namespace Sys2Proof.Machine

/-- The region state of a lane that opens a region (05 R165). -/
def Rgn.openAt (kind : Bool) (seq : Nat) (start recov : W64) (r : Rgn) : Rgn :=
  { r with opn := true, kind := kind, p := false, nsv := false, rpl := 0, recp := 0, seq := seq, start := start, recov := recov }

theorem State.target_eq_goal (s : State) (off : Nat) : s.target off = s.goal off := by
  rw [State.target, State.goal, sext64_eq_of_succ]

/-- With no lane to resolve, the held bytes of the core alone may change. -/
theorem State.resolve_none (s : State) (mode : Nat) : s.At (s.resolve s.cur.act 0 mode 0) s.me := by
  have hnone : (lanesOf 0).filter (fun l => ((s.ctx s.cur.act).ln l).rgn.opn) = [] := by
    rw [show lanesOf 0 = [] by decide, List.filter_nil]
  rw [State.resolve]
  simp only [hnone, List.filter_nil]
  obtain ⟨q, hq⟩ := s.resolveHeld_unreleased s.cur.act (s.homeSlot s.cur.act) (maskOf []) (fun r => !r)
  rw [show maskOf [] = 0 from rfl] at hq ⊢
  rw [hq]
  exact (s.at_refl.setCore _ _).updCtx _

/-- The group's next sequence number, whether or not the counter wraps. -/
theorem State.At.nextSeq {s u : State} {c : Ctx} (h : s.At u c) :
    (u.nextSeq s.cur.act).2 = (c.seq + 1) % 65536 ∧ s.At (u.nextSeq s.cur.act).1 { c with seq := (c.seq + 1) % 65536 } := by
  rw [State.nextSeq, h.ctx]
  refine ⟨rfl, ?_⟩
  dsimp only
  split
  · exact (h.updCtx _).setCore _ _
  · exact h.updCtx _

variable {s : State} {core g k : Nat} (hact : s.cur.act = .split core g k)
include hact

/-- No active lane has a region: each gets one, of the next sequence number. -/
theorem State.openRegion_none (hopn : ∀ l ∈ s.active, (s.me.ln l).rgn.opn = false) (kind : Bool) (off : Nat) :
    s.At (s.openRegion kind off) (({ s.me with seq := (s.me.seq + 1) % 65536 } : Ctx).updRgn s.active
      (Rgn.openAt kind ((s.me.seq + 1) % 65536) s.cur.npc (s.goal off))) := by
  have hnested : s.active.filter (fun l => ((s.ctx s.cur.act).ln l).rgn.opn) = [] := by
    rw [List.filter_eq_nil_iff]
    exact fun l hl => by rw [← State.me, hopn l hl]; exact Bool.false_ne_true
  have hhome : ∀ u : State, u.homeActor s.cur.act = s.cur.act := fun u => by rw [hact]; rfl
  have hmarker : ∀ u : State, u.marker s.cur.act = s.cur.act := fun u => by rw [hact]; rfl
  rw [State.openRegion]
  simp only [hnested, show maskOf [] = 0 from rfl, hhome]
  have hresolved := s.resolve_none 2
  have hwarned : s.At ((s.resolve s.cur.act 0 2 0).warns (flagIf (0 != 0) wRgnNest)) s.me := by
    have hnone : s.me.warns (flagIf (0 != 0) wRgnNest) = s.me := by simp [flagIf, Ctx.warns]
    rw [State.warns_upd _ _ (by rw [hresolved.cur, hact]; rfl), State.upd, hresolved.cur, ← hnone]
    exact hresolved.updCtx _
  obtain ⟨hseq, hnext⟩ := hwarned.nextSeq
  rw [hseq, State.target_eq_goal]
  exact hnext.updCtx _

end Sys2Proof.Machine
end

section
open Sys2Proof Sys2Proof.Machine

/-- Settles O24: no lane is resolved, and the lanes open their regions with the next sequence number before the instruction retires. -/
theorem regionOpens : Obligations.RegionOpens := by
  unfold Obligations.RegionOpens
  intro s core g k c off hact hq hopn i kind hi
  have hseq := Actor.isSeq_split hact
  have hexec : exec i s = .next (((s.warns (ignW (c != 0))).openRegion kind off).retire s.mask) := by
    rcases hi with ⟨rfl, rfl⟩ | ⟨rfl, rfl⟩
    · show execRgnI c off s = _
      rw [execRgnI, State.uni1, State.uni_allowed s _ _ _ (State.allows_split hact (.inl rfl))]
    · show execRgnH c off s = _
      rw [execRgnH, State.uni1, State.uni_allowed s _ _ _ (State.allows_split hact (.inl rfl))]
  have hwarned : s.warns (ignW (c != 0)) = s.setCtx s.cur.act (s.me.warned (ignored (c != 0))) := s.warns_upd _ hseq
  rw [hwarned] at hexec
  have hopened := State.openRegion_none (s := s.setCtx s.cur.act (s.me.warned (ignored (c != 0)))) (by rw [State.setCtx_cur]; exact hact)
    (by rw [State.active, State.mask_warned, State.me_setCtx]; exact hopn) kind off
  rw [State.active, State.mask_warned, State.me_setCtx, State.goal, State.setCtx_cur, ← State.goal] at hopened
  have hat := (State.at_setCtx (s := s) rfl _).trans hopened
  obtain ⟨sp, pl, hme, hends⟩ := hat.retire_endsAs ((Ctx.updRgn_pend ..).trans hq) (Ctx.updRgn_splits ..) (Ctx.updRgn_pool ..) s.mask
  refine ⟨_, hexec, ?_, hends, ?_⟩
  · rw [State.keepsRegs, hme]
    exact ⟨Ctx.updRgn_s .., Ctx.updRgn_q .., Ctx.keepsRegs_updRgn _ (lanesOf_nodup _) _⟩
  · rw [hme]
    refine ⟨Ctx.updRgn_seq .., Ctx.updRgn_warn .., fun l => ?_⟩
    rw [Ctx.withSplits_ln, Ctx.ln_updRgn _ (lanesOf_nodup _), apply_ite Lane.rgn]
    rfl

end

section
/-! What a commit leaves of the held bytes of its lanes, and of their context (05 R168, R171). -/

namespace Sys2Proof.Machine

/-- What is kept of a byte has no releasing and no discarding owner. -/
theorem QByte.fate_keep {b : QByte} {rel dis o l : Nat} (h : b.fate rel dis = .keep o) (hl : rel.testBit l = true ∨ dis.testBit l = true) :
    o.testBit l = false := by
  have hzero {x y : Nat} (hxy : x &&& y = 0) (hy : y.testBit l = true) : x.testBit l = false := by
    have := congrArg (Nat.testBit · l) hxy
    simpa [hy] using this
  rw [QByte.fate] at h
  split at h
  · cases h
  · next hdis =>
    have hdis : b.own &&& dis = 0 := by simpa using hdis
    split at h
    · next hrel =>
      cases h
      exact hl.elim (hzero hrel) (hzero hdis)
    · split at h
      · cases h
      · cases h
        rw [testBit_without]
        rcases hl with hl | hl
        · simp [hl]
        · simp [hzero hdis hl]

/-- No entry of a group, of the kinds that `which` selects, holds a byte for a lane of the masks. -/
def QEnt.freeOf (q : List QEnt) (slot rel dis : Nat) (which : Bool → Bool) : Prop :=
  ∀ e ∈ q, e.slot = slot → which e.reserve = true → ∀ b ∈ e.bytes, ∀ l, rel.testBit l = true ∨ dis.testBit l = true → b.2.own.testBit l = false

/-- `u` has reached the context `c` by `s`'s instruction, and core `n` there holds the entries `q`. -/
structure State.Holds (s u : State) (c : Ctx) (n : Nat) (q : List QEnt) : Prop extends s.At u c where
  quar : (u.core n).quar = q

section
variable {s u : State} {c : Ctx} {n : Nat} {q : List QEnt} (h : s.Holds u c n q)
include h

theorem State.Holds.updCtx (f : Ctx → Ctx) : s.Holds (u.updCtx s.cur.act f) (f c) n q :=
  ⟨h.toAt.updCtx f, by rw [State.updCtx, State.core_setCtx]; exact h.quar⟩

/-- A change of a core that leaves its entries. -/
theorem State.Holds.setCore {k : Nat} {x : Core} (hx : x.quar = (u.core k).quar) : s.Holds (u.setCore k x) c n q := by
  refine ⟨h.toAt.setCore _ _, ?_⟩
  by_cases hk : n = k
  · subst hk
    rw [State.core_setCore, hx]
    exact h.quar
  · rw [State.core_setCore_ne _ _ hk]
    exact h.quar

theorem State.Holds.withMem (m : Mem) : s.Holds { u with mem := m } c n q := ⟨⟨h.cur, (State.ctx_withMem ..).trans h.ctx⟩, h.quar⟩

theorem State.Holds.updWg (k w : Nat) (f : Wg → Wg) : s.Holds (u.updWg k w f) c n q := h.setCore rfl

theorem State.Holds.freeRecs (k : Nat) (f : Nat → Rec → Bool) : s.Holds (u.freeRecs k f) c n q := h.setCore rfl

theorem State.Holds.ocPut (k w sp byte m x slot : Nat) (poi keep : Bool) : s.Holds (u.ocPut k w sp byte m x slot poi keep) c n q := by
  rw [State.ocPut]
  split
  · exact h.withMem _
  · exact State.Holds.updWg (h.withMem _) _ _ _

/-- A store that takes effect changes memory and the marks of a workgroup's views. -/
theorem State.Holds.place (a : Actor) (d : Dst) (m x hint : Nat) : s.Holds (u.place a d m x hint) c n q := by
  rw [State.place]
  dsimp only
  split
  · exact h.withMem _
  · split
    · exact h.ocPut ..
    · exact h

theorem State.Holds.closeSeq (a : Actor) (k : Nat) : s.Holds (u.closeSeq a k) c n q := by
  rw [State.closeSeq]
  split
  · exact h
  · exact h.freeRecs _ _

theorem State.Holds.foldl {β : Type} (ls : List β) (f : State → β → State) (hf : ∀ u b, s.Holds u c n q → s.Holds (f u b) c n q) : s.Holds (ls.foldl f u) c n q :=
  foldl_keeps (fun u => s.Holds u c n q) f ls hf u h

end

/-- The entries that remain of a resolved group hold nothing for its lanes. -/
theorem State.holds_resolveHeld (s : State) (slot rel dis : Nat) (which : Bool → Bool) :
    ∃ q, s.Holds (s.resolveHeld s.cur.act slot rel dis which) s.me (s.coreOf s.cur.act) q ∧ QEnt.freeOf q slot rel dis which := by
  generalize hheld : s.resolveHeld s.cur.act slot rel dis which = t
  unfold State.resolveHeld at hheld
  extract_lets cn es mine goes outs hides left at hheld
  have hset : s.Holds (s.setCore cn { s.core cn with quar := left }) s.me (s.coreOf s.cur.act) left :=
    ⟨s.at_refl.setCore _ _, by rw [State.core_setCore]⟩
  rw [← hheld]
  refine ⟨left, hset.foldl _ _ fun u o hu => hu.place _ _ _ _ _, fun e he hslot hwhich b hb l hl => ?_⟩
  obtain ⟨⟨k, e0⟩, -, hleft⟩ := List.mem_filterMap.mp he
  dsimp only at hleft
  split at hleft
  · split at hleft
    · cases hleft
    · cases hleft
      obtain ⟨b0, -, hkept⟩ := List.mem_filterMap.mp hb
      split at hkept
      · next o ho =>
        cases hkept
        exact QByte.fate_keep ho hl
      · cases hkept
  · next hmine =>
    cases hleft
    exact absurd (by simp [mine, hslot, hwhich]) hmine

/-- The lanes of a mask that have an open region. -/
def Ctx.openLanes (c : Ctx) (m : Nat) : List Nat := (lanesOf m).filter (fun l => (c.ln l).rgn.opn)

/-- The resolution of a group's lanes where none is serviced: the open regions close, and nothing outside the reserve is held for them. -/
theorem State.holds_resolve {s : State} {core g k : Nat} (hact : s.cur.act = .split core g k) (m mode : Nat) :
    ∃ q, s.Holds (s.resolve s.cur.act m mode 0) (s.me.updRgn (s.me.openLanes m) (fun r => r.close mode)) core q
      ∧ ∀ e ∈ q, e.slot = g → e.reserve = false → ∀ b ∈ e.bytes, ∀ l ∈ s.me.openLanes m, bit b.2.own l = false := by
  have hcore : s.coreOf s.cur.act = core := by rw [hact]; rfl
  have hslot : s.homeSlot s.cur.act = g := by rw [hact]; rfl
  generalize hresolve : s.resolve s.cur.act m mode 0 = t
  unfold State.resolve at hresolve
  extract_lets rg ls s1 shut s2 at hresolve
  obtain ⟨q, hs1, hfree⟩ := s.holds_resolveHeld (s.homeSlot s.cur.act) (maskOf (ls.filter (fun l => !(rg l).p))) (maskOf (ls.filter (fun l => (rg l).p))) (fun r => !r)
  rw [hcore] at hs1
  have hshut : shut = s.me.openLanes m := List.filter_eq_self.mpr fun l _ => by simp [bit]
  have hs2 : s.Holds s2 (s.me.updRgn shut (fun r => r.close mode)) core q := hs1.updCtx _
  rw [← hresolve, ← hshut]
  refine ⟨q, hs2.foldl _ _ fun u _ hu => hu.closeSeq _ _, fun e he heslot hreserve b hb l hl => ?_⟩
  rw [bit_eq_testBit]
  refine hfree e he (heslot.trans hslot.symm) (by simp [hreserve]) b hb l ?_
  have hls : l ∈ ls := List.mem_of_mem_filter hl
  rw [testBit_maskOf, testBit_maskOf]
  cases hp : (rg l).p <;> simp [hls, hp]

end Sys2Proof.Machine
end

section
/-! Where the lanes of a group stand: no merge, no promotion and no further outcome moves one (06 R190 to R192). -/

namespace Sys2Proof.Machine

/-- A split holds a lane at an address. -/
def Split.holds (x : Split) (l : Nat) (pc : W64) : Prop := bit x.mask l = true ∧ x.pc = pc

/-- A slot or an entry of the pool holds a lane at an address. -/
def Ctx.runs (c : Ctx) (l : Nat) (pc : W64) : Prop := (∃ k, (c.split k).holds l pc) ∨ ∃ x ∈ c.pool, x.holds l pc

theorem Split.holds_empty {x : Split} {l : Nat} {pc : W64} (h : x.mask = 0) : ¬ x.holds l pc := fun ⟨hl, _⟩ => by
  rw [h] at hl
  simp [bit] at hl

theorem Ctx.goesOn_of_runs {c : Ctx} {l : Nat} {pc : W64} (h : c.runs l pc) : c.goesOn l pc := by
  rcases h with ⟨k, hk⟩ | ⟨x, hx, hl, hpc⟩
  · have hmem : (k, c.split k) ∈ c.splits := Tbl.mem_get _ _ _ fun hempty => Split.holds_empty (x := c.split k) (by rw [Ctx.split, hempty]) hk
    exact ⟨c.split k, .inl (List.mem_map_of_mem hmem), hk⟩
  · exact ⟨x, .inr hx, hl, hpc⟩

theorem Ctx.split_setSplit_ite (c : Ctx) (k j : Nat) (x : Split) : (c.setSplit k x).split j = if j = k then x else c.split j := Tbl.get_put ..

/-- The lanes of two splits of equal PC, in one. -/
theorem Split.take_holds {x y : Split} {l : Nat} {pc : W64} (h : x.holds l pc ∨ y.holds l pc) (hpc : x.pc = y.pc) : (x.take y).holds l pc := by
  have hmask : (x.take y).mask = x.mask ||| y.mask := rfl
  rw [Split.holds, hmask, bit_eq_testBit, Nat.testBit_or, ← bit_eq_testBit, ← bit_eq_testBit]
  rcases h with ⟨hl, rfl⟩ | ⟨hl, rfl⟩
  · exact ⟨by simp [hl], rfl⟩
  · exact ⟨by simp [hl], hpc⟩

theorem Split.joins_pc {x y : Split} (h : x.joins y = true) : x.pc = y.pc := by
  simp only [Split.joins, Bool.and_eq_true, beq_iff_eq] at h
  tauto

/-- The lanes of a split and of all that it absorbs. -/
theorem Split.foldl_take_holds {l : Nat} {pc : W64} (ys : List Split) (x : Split) (hpc : ∀ y ∈ ys, x.pc = y.pc)
    (h : x.holds l pc ∨ ∃ y ∈ ys, y.holds l pc) : (ys.foldl Split.take x).holds l pc := by
  induction ys generalizing x with
  | nil => simpa using h
  | cons y ys ih =>
    obtain ⟨hy, hys⟩ := List.forall_mem_cons.mp hpc
    refine ih (x.take y) hys ?_
    rcases h with h | ⟨z, hz, hholds⟩
    · exact .inl (Split.take_holds (.inl h) hy)
    · rcases List.mem_cons.mp hz with rfl | hz
      · exact .inl (Split.take_holds (.inr hholds) hy)
      · exact .inr ⟨z, hz, hholds⟩

section
variable {c : Ctx} {l : Nat} {pc : W64} (h : c.runs l pc)
include h

/-- A slot that keeps its lanes where they are. -/
theorem Ctx.runs_setSplit {k : Nat} {x : Split} (hx : (c.split k).holds l pc → x.holds l pc) : (c.setSplit k x).runs l pc := by
  rcases h with ⟨j, hj⟩ | hpool
  · refine .inl ⟨j, ?_⟩
    rw [Ctx.split_setSplit_ite]
    split
    · next hjk => exact hx (hjk ▸ hj)
    · exact hj
  · exact .inr hpool

theorem Ctx.runs_setSplit_empty {k : Nat} {x : Split} (hk : (c.split k).mask = 0) : (c.setSplit k x).runs l pc :=
  Ctx.runs_setSplit h fun hholds => absurd hholds (Split.holds_empty hk)

theorem Ctx.runs_mergeOne {i j : Nat} (hij : i ≠ j) : (c.mergeOne i j).runs l pc := by
  rw [Ctx.mergeOne]
  split
  · next hjoins =>
    have hpc := Split.joins_pc hjoins
    have hi : (((c.setSplit i ((c.split i).take (c.split j))).setSplit j {}).split i) = (c.split i).take (c.split j) := by
      rw [Ctx.split_setSplit_ite, if_neg hij, Ctx.split_setSplit]
    rcases h with ⟨k, hk⟩ | hpool
    · by_cases hki : k = i
      · subst hki
        exact .inl ⟨k, hi.symm ▸ Split.take_holds (.inl hk) hpc⟩
      · by_cases hkj : k = j
        · subst hkj
          exact .inl ⟨i, hi.symm ▸ Split.take_holds (.inr hk) hpc⟩
        · refine .inl ⟨k, ?_⟩
          rw [Ctx.split_setSplit_ite, if_neg hkj, Ctx.split_setSplit_ite, if_neg hki]
          exact hk
    · exact .inr hpool
  · exact h

theorem Ctx.runs_absorb (k : Nat) : (c.absorb k).runs l pc := by
  have hk : (c.absorb k).split k = (c.pool.filter (c.split k).joins).foldl Split.take (c.split k) := Ctx.split_setSplit ..
  have hpc : ∀ y ∈ c.pool.filter (c.split k).joins, (c.split k).pc = y.pc := fun y hy => Split.joins_pc (List.mem_filter.mp hy).2
  rcases h with ⟨j, hj⟩ | ⟨x, hx, hholds⟩
  · refine .inl ⟨j, ?_⟩
    by_cases hjk : j = k
    · subst hjk
      exact hk ▸ Split.foldl_take_holds _ _ hpc (.inl hj)
    · rw [show (c.absorb k).split j = c.split j from Ctx.split_setSplit_ne _ _ hjk]
      exact hj
  · by_cases hjoins : (c.split k).joins x = true
    · exact .inl ⟨k, hk ▸ Split.foldl_take_holds _ _ hpc (.inr ⟨x, List.mem_filter.mpr ⟨hx, hjoins⟩, hholds⟩)⟩
    · exact .inr ⟨x, List.mem_filter.mpr ⟨hx, by simpa using hjoins⟩, hholds⟩

theorem Ctx.runs_fetchPool {d : Ctx} {k : Nat} {ok : Split → Bool} (hk : (c.split k).mask = 0) (hd : c.fetchPool k ok = some d) : d.runs l pc := by
  rw [Ctx.fetchPool, Option.map_eq_some_iff] at hd
  obtain ⟨e, he, rfl⟩ := hd
  refine Ctx.runs_absorb ?_ k
  rcases Ctx.runs_setSplit_empty h (x := e) hk with hslot | ⟨x, hx, hholds⟩
  · exact .inl hslot
  · by_cases hxe : x = e
    · subst hxe
      exact .inl ⟨k, (congrArg (Split.holds · l pc) (Ctx.split_setSplit c k x)).mpr hholds⟩
    · have hrest : x ∈ (c.pool.reverse.erase e).reverse := by
        rw [List.mem_reverse, List.mem_erase_of_ne hxe, List.mem_reverse]
        exact hx
      exact .inr ⟨x, hrest, hholds⟩

theorem Ctx.runs_merge : c.merge.runs l pc := by
  rw [Ctx.merge]
  simp only [List.foldl_cons, List.foldl_nil]
  have h01 := Ctx.runs_mergeOne h (i := 0) (j := 1) (by decide)
  have h02 := Ctx.runs_mergeOne h01 (i := 0) (j := 2) (by decide)
  have h03 := Ctx.runs_mergeOne h02 (i := 0) (j := 3) (by decide)
  have h12 := Ctx.runs_mergeOne h03 (i := 1) (j := 2) (by decide)
  have h13 := Ctx.runs_mergeOne h12 (i := 1) (j := 3) (by decide)
  exact Ctx.runs_mergeOne h13 (by decide)

theorem Ctx.runs_promote : c.promote.runs l pc := by
  rw [Ctx.promote]
  refine foldl_keeps (fun c : Ctx => c.runs l pc) _ _ (fun d k hd => ?_) _ (foldl_keeps (fun c : Ctx => c.runs l pc) _ _ (fun d k hd => ?_) _ h)
  · split
    · exact hd
    · next hmask =>
      cases hfetch : d.fetchPool k (fun _ => true) with
      | none => exact hd
      | some e => exact Ctx.runs_fetchPool hd (by simpa using hmask) hfetch
  · split
    · exact Ctx.runs_absorb hd k
    · exact hd

theorem Ctx.runs_tidied (a : Actor) : (c.tidied a).runs l pc := by
  cases a with
  | split =>
    show c.tidy.runs l pc
    rw [Ctx.tidy]
    exact Ctx.runs_promote (Ctx.runs_merge h)
  | _ => exact h

theorem Ctx.runs_dropYield (k : Nat) : (c.dropYield k).runs l pc := by
  have hsplit (j : Nat) : ((c.dropYield k).split j).mask = (c.split j).mask ∧ ((c.dropYield k).split j).pc = (c.split j).pc := by
    rw [Ctx.split, Ctx.split, Ctx.dropYield]
    induction c.splits with
    | nil => exact ⟨rfl, rfl⟩
    | cons e t ih => by_cases hk : e.1 = k <;> by_cases hj : e.1 = j <;> simp_all [Tbl.get]
  rcases h with ⟨j, hj⟩ | hpool
  · refine .inl ⟨j, ?_⟩
    rw [Split.holds, (hsplit j).1, (hsplit j).2]
    exact hj
  · exact .inr hpool

theorem Ctx.runs_placeSplit (x : Split) : (c.placeSplit x).runs l pc := by
  rw [Ctx.placeSplit]
  split
  · next k hfind => exact Ctx.runs_setSplit_empty h (by simpa using List.find?_some hfind)
  · rcases h with hslot | ⟨y, hy, hholds⟩
    · exact .inl hslot
    · exact .inr ⟨y, List.mem_append_left _ hy, hholds⟩

end

/-- The split that is placed runs. -/
theorem Ctx.placeSplit_runs {x : Split} {l : Nat} {pc : W64} (hx : x.holds l pc) (c : Ctx) : (c.placeSplit x).runs l pc := by
  rw [Ctx.placeSplit]
  split
  · next k _ =>
    refine .inl ⟨k, ?_⟩
    rw [Ctx.split_setSplit]
    exact hx
  · exact .inr ⟨x, by simp, hx⟩

theorem Ctx.splitsOnly_placeSplit (c : Ctx) (x : Split) : c.splitsOnly (c.placeSplit x) := by
  rw [Ctx.placeSplit]
  split <;> rfl

theorem Ctx.splitsOnly_outcomes (c : Ctx) (k : Nat) (os : List (W64 × Nat)) : c.splitsOnly (c.outcomes k os) := by
  rw [Ctx.outcomes]
  split
  · rfl
  · exact Ctx.splitsOnly_trans (Ctx.splitsOnly_setSplit ..) (Ctx.splitsOnly_foldl _ _ (fun _ _ => Ctx.splitsOnly_placeSplit _ _) _)

/-- Each lane of an outcome continues at the address of the outcome (06 R190). -/
theorem Ctx.outcomes_runs (c : Ctx) (k : Nat) {os : List (W64 × Nat)} {o : W64 × Nat} {l : Nat} (ho : o ∈ os) (hl : bit o.2 l = true) :
    (c.outcomes k os).runs l o.1 := by
  have hmem : o ∈ os.filter (fun o => o.2 != 0) := by
    refine List.mem_filter.mpr ⟨ho, ?_⟩
    rw [bne_iff_ne]
    intro hzero
    rw [hzero] at hl
    simp [bit] at hl
  rw [Ctx.outcomes]
  split
  · next hnil => rw [hnil] at hmem; cases hmem
  · next o1 r hcons =>
    rw [hcons] at hmem
    have hrest (c : Ctx) (r : List (W64 × Nat)) (f : W64 × Nat → Split) (hc : c.runs l o.1 ∨ o ∈ r ∧ (f o).holds l o.1) :
        (r.foldl (fun c o => c.placeSplit (f o)) c).runs l o.1 := by
      induction r generalizing c with
      | nil => exact hc.elim id fun ⟨hno, _⟩ => nomatch hno
      | cons p r ih =>
        refine ih _ ?_
        rcases hc with hc | ⟨hor, hf⟩
        · exact .inl (Ctx.runs_placeSplit hc _)
        · rcases List.mem_cons.mp hor with rfl | hor
          · exact .inl (Ctx.placeSplit_runs hf c)
          · exact .inr ⟨hor, hf⟩
    refine hrest _ r _ ?_
    rcases List.mem_cons.mp hmem with rfl | hr
    · refine .inl (.inl ⟨k, ?_⟩)
      rw [Ctx.split_setSplit]
      exact ⟨hl, rfl⟩
    · exact .inr ⟨hr, hl, rfl⟩

end Sys2Proof.Machine
end

section
/-! A commit that services no lane: where its lanes go on, and what their regions become (05 R171; 06 R190; 11 R348). -/

namespace Sys2Proof.Machine

theorem bit_add_two_pow {m l : Nat} (h : bit m l = false) (j : Nat) : bit (m + 2 ^ l) j = (bit m j || decide (j = l)) := by
  rw [bit_eq_testBit] at h
  rw [bit_eq_testBit, add_two_pow_of_testBit h, Nat.testBit_or, Nat.testBit_two_pow, bit_eq_testBit]
  simp [eq_comm]

/-- One lane more among outcomes: with those of its address, else an outcome of its own (06 R190). -/
def addOutcome (os : List (W64 × Nat)) (pc : W64) (l : Nat) : List (W64 × Nat) :=
  if os.any (fun o => o.1 == pc) then os.map (fun o => if o.1 == pc then (o.1, o.2 + 2 ^ l) else o) else os ++ [(pc, 2 ^ l)]

theorem Ctx.commitOuts.byStart_append (ls : List Nat) (j : Nat) (f : Nat → W64) :
    Ctx.commitOuts.byStart (ls ++ [j]) f = addOutcome (Ctx.commitOuts.byStart ls f) (f j) j := by
  rw [Ctx.commitOuts.byStart, List.foldl_append]
  rfl

section
variable {os : List (W64 × Nat)} {l : Nat} (hclear : ∀ o ∈ os, bit o.2 l = false) (pc : W64)
include hclear

theorem addOutcome_old {o : W64 × Nat} (ho : o ∈ os) {j : Nat} (hj : bit o.2 j = true) :
    ∃ p ∈ addOutcome os pc l, p.1 = o.1 ∧ bit p.2 j = true := by
  rw [addOutcome]
  split
  · refine ⟨_, List.mem_map_of_mem ho, ?_⟩
    split
    · exact ⟨rfl, by rw [bit_add_two_pow (hclear o ho), hj]; rfl⟩
    · exact ⟨rfl, hj⟩
  · exact ⟨o, List.mem_append_left _ ho, rfl, hj⟩

theorem addOutcome_new : ∃ p ∈ addOutcome os pc l, p.1 = pc ∧ bit p.2 l = true := by
  rw [addOutcome]
  split
  · next hany =>
    obtain ⟨p, hp, heq⟩ := List.any_eq_true.mp hany
    refine ⟨_, List.mem_map_of_mem hp, ?_⟩
    rw [if_pos heq, bit_add_two_pow (hclear p hp)]
    exact ⟨beq_iff_eq.mp heq, by simp⟩
  · exact ⟨_, List.mem_append_right _ (List.mem_singleton_self _), rfl, bit_two_pow _⟩

theorem addOutcome_only {p : W64 × Nat} (hp : p ∈ addOutcome os pc l) {j : Nat} (hj : bit p.2 j = true) :
    j = l ∨ ∃ o ∈ os, bit o.2 j = true := by
  rw [addOutcome] at hp
  split at hp
  · obtain ⟨o, ho, hpo⟩ := List.mem_map.mp hp
    rw [← hpo] at hj
    split at hj
    · rw [bit_add_two_pow (hclear o ho), Bool.or_eq_true, decide_eq_true_iff] at hj
      exact hj.symm.imp id fun hj => ⟨o, ho, hj⟩
    · exact .inr ⟨o, ho, hj⟩
  · rcases List.mem_append.mp hp with ho | hnew
    · exact .inr ⟨p, ho, hj⟩
    · rw [List.mem_singleton.mp hnew, bit_eq_testBit, Nat.testBit_two_pow, decide_eq_true_iff] at hj
      exact .inl hj.symm

end

/-- Lanes grouped by their addresses: each lane stands with those of its own address, and no other lane does. -/
theorem Ctx.commitOuts.mem_byStart {ls : List Nat} (hnodup : ls.Nodup) (f : Nat → W64) :
    (∀ l ∈ ls, ∃ o ∈ Ctx.commitOuts.byStart ls f, o.1 = f l ∧ bit o.2 l = true)
      ∧ ∀ o ∈ Ctx.commitOuts.byStart ls f, ∀ l, bit o.2 l = true → l ∈ ls := by
  induction ls using List.reverseRecOn with
  | nil => exact ⟨nofun, nofun⟩
  | append_singleton ls j ih =>
    have hj : j ∉ ls := fun hj => (List.nodup_append.mp hnodup).2.2 j hj j (List.mem_singleton_self j) rfl
    obtain ⟨hin, honly⟩ := ih (List.nodup_append.mp hnodup).1
    have hclear : ∀ o ∈ Ctx.commitOuts.byStart ls f, bit o.2 j = false := fun o ho => Bool.eq_false_iff.mpr fun hset => hj (honly o ho j hset)
    rw [Ctx.commitOuts.byStart_append]
    refine ⟨fun l hl => ?_, fun p hp l hl => ?_⟩
    · rcases List.mem_append.mp hl with hl | hl
      · obtain ⟨o, ho, hol, hbit⟩ := hin l hl
        rw [← hol]
        exact addOutcome_old hclear _ ho hbit
      · obtain rfl := List.mem_singleton.mp hl
        exact addOutcome_new hclear _
    · rw [List.mem_append, List.mem_singleton]
      exact (addOutcome_only hclear _ hp hl).symm.imp (fun ⟨o, ho, hbit⟩ => honly o ho l hbit) id

/-- The lanes that a commit sends to recovery (05 R171). -/
def Ctx.recovering (c : Ctx) (mode m : Nat) : Nat :=
  if mode = 2 then 0 else maskOf ((lanesOf m).filter (fun l => (c.ln l).rgn.opn && (c.ln l).rgn.p))

/-- The context that a commit of mode `mode` leaves where it services no lane. -/
def Ctx.committed (c : Ctx) (slot mode : Nat) (pc : W64) (m : Nat) : Ctx :=
  let d := c.updRgn (c.openLanes m) (fun r => r.close mode)
  d.outcomes slot (d.commitOuts pc (without m (c.recovering mode m)) 0 (c.recovering mode m))

theorem Ctx.testBit_recovering (c : Ctx) (mode m l : Nat) :
    bit (c.recovering mode m) l = decide (mode ≠ 2 ∧ l ∈ lanesOf m ∧ (c.ln l).rgn.opn = true ∧ (c.ln l).rgn.p = true) := by
  rw [Ctx.recovering, bit_eq_testBit]
  by_cases hmode : mode = 2
  · simp [hmode]
  · rw [if_neg hmode, testBit_maskOf]
    simp [hmode]

/-- A lane that does not recover goes on after the commit. -/
theorem Ctx.committed_runs_on {c : Ctx} {mode m l : Nat} (slot : Nat) (pc : W64) (hl : l ∈ lanesOf m) (hrec : bit (c.recovering mode m) l = false) :
    (c.committed slot mode pc m).runs l pc := by
  refine Ctx.outcomes_runs _ slot (o := (pc, without m (c.recovering mode m))) (by simp [Ctx.commitOuts]) ?_
  rw [bit_eq_testBit] at hrec
  rw [bit_eq_testBit, testBit_without, hrec, ← bit_eq_testBit, (List.mem_filter.mp hl).2]
  rfl

/-- A lane that recovers goes on at its recovery target. -/
theorem Ctx.committed_recovers {c : Ctx} {mode m l : Nat} (slot : Nat) (pc : W64) (hl : l ∈ lanesOf m) (hrec : bit (c.recovering mode m) l = true) :
    (c.committed slot mode pc m).runs l (c.ln l).rgn.recov := by
  have hlane : l ∈ lanesOf (c.recovering mode m) := List.mem_filter.mpr ⟨(List.mem_filter.mp hl).1, hrec⟩
  obtain ⟨o, ho, hol, hbit⟩ := (Ctx.commitOuts.mem_byStart (lanesOf_nodup (c.recovering mode m))
    (fun l => ((c.updRgn (c.openLanes m) (fun r => r.close mode)).ln l).rgn.recov)).1 l hlane
  have hrecov : ((c.updRgn (c.openLanes m) (fun r => r.close mode)).ln l).rgn.recov = (c.ln l).rgn.recov := by
    rw [Ctx.ln_updRgn _ (show (c.openLanes m).Nodup from (lanesOf_nodup m).filter _)]
    split
    · dsimp only [Rgn.close]
      split <;> [skip; split] <;> rfl
    · rfl
  rw [← hrecov, ← hol]
  exact Ctx.outcomes_runs _ slot (by rw [Ctx.commitOuts]; exact List.mem_append_right _ ho) hbit

/-- A commit that services no lane. -/
theorem State.commit_holds {s : State} {core g k mode : Nat} (hact : s.cur.act = .split core g k)
    (hserv : mode = 1 → ∀ l ∈ s.active, s.serviceable s.cur.act l = false) :
    ∃ q, s.Holds (s.commit s.cur.act mode s.cur.npc s.mask) (s.me.committed s.cur.act.slot mode s.cur.npc s.mask) core q
      ∧ ∀ e ∈ q, e.slot = g → e.reserve = false → ∀ b ∈ e.bytes, ∀ l ∈ s.me.openLanes s.mask, bit b.2.own l = false := by
  have hnone : (if mode = 1 then maskOf ((lanesOf s.mask).filter (fun l => s.serviceable s.cur.act l)) else 0) = 0 := by
    split
    · next hmode =>
      have hempty : (lanesOf s.mask).filter (fun l => s.serviceable s.cur.act l) = [] :=
        List.filter_eq_nil_iff.mpr fun l hl => by rw [hserv hmode l hl]; exact Bool.false_ne_true
      rw [hempty]
      rfl
    · rfl
  obtain ⟨q, hresolve, hfree⟩ := State.holds_resolve hact s.mask mode
  refine ⟨q, ?_, hfree⟩
  rw [State.commit]
  simp only [hnone, bne_self_eq_false, Bool.false_eq_true, if_false]
  exact hresolve.updCtx _

/-- After a commit the group's splits merge and are promoted; regions and registers are those of the commit. -/
theorem Ctx.splitsOnly_committed (c : Ctx) (slot mode : Nat) (pc : W64) (m : Nat) (a : Actor) :
    (c.updRgn (c.openLanes m) (fun r => r.close mode)).splitsOnly (((c.committed slot mode pc m).dropYield slot).tidied a) :=
  Ctx.splitsOnly_trans (Ctx.splitsOnly_outcomes ..) (Ctx.splitsOnly_trans (b := (c.committed slot mode pc m).dropYield slot) rfl (Ctx.splitsOnly_tidied ..))

/-- The end of an instruction of a group without held results. -/
theorem State.Holds.finish {s u : State} {c : Ctx} {n m : Nat} {q : List QEnt} (h : s.Holds u c n q) (hp : c.pend = []) :
    (u.finish m).me = (c.dropYield s.cur.act.slot).tidied s.cur.act ∧ ((u.finish m).core n).quar = q := by
  rw [State.finish_unheld u m (by rw [h.toAt.me]; exact hp), State.me_setCtx, h.toAt.me, h.cur, State.core_setCtx]
  exact ⟨rfl, h.quar⟩

theorem State.serviceable_of_nsv {s : State} {l : Nat} (h : (s.me.ln l).rgn.opn = true → (s.me.ln l).rgn.p = true → (s.me.ln l).rgn.nsv = true) :
    s.serviceable s.cur.act l = false := by
  rw [State.me] at h
  rw [State.serviceable]
  cases hopn : ((s.ctx s.cur.act).ln l).rgn.opn <;> cases hp : ((s.ctx s.cur.act).ln l).rgn.p <;> simp_all

/-- A lane without a region sets the warning. -/
theorem noRegion_warned (x y : W32) : (x ||| (y ||| flag wCmtNoRegion)) &&& flag wCmtNoRegion ≠ 0 := by
  have hflag : flag wCmtNoRegion ≠ 0 := by decide
  have hand : (x ||| (y ||| flag wCmtNoRegion)) &&& flag wCmtNoRegion = flag wCmtNoRegion := by
    ext i hi
    simp only [BitVec.getElem_and, BitVec.getElem_or]
    cases (flag wCmtNoRegion)[i] <;> simp
  rw [hand]
  exact hflag

section
variable {i : Instr} {mode : Nat} (hi : Instr.commitMode i = some mode) {s : State} {core g k : Nat} (hact : s.cur.act = .split core g k)
  (hsup : s.sp.sup = false) (hq : s.quiet)
include hi hact hsup hq

/-- A commit instruction commits its lanes after its warnings. -/
theorem State.exec_commit : ∃ w, exec i s = .next (((s.setCtx s.cur.act (s.me.warned w)).commit s.cur.act mode s.cur.npc s.mask).finish s.mask)
    ∧ ((∃ l ∈ s.active, (s.me.ln l).rgn.opn = false) → (s.me.warned w).warn &&& flag wCmtNoRegion ≠ 0) := by
  have hcmt (z : Nat) : s.cmt mode z = .next ((((s.warns (ignW (z != 0) ||| flagIf (s.active.any (fun l => !((s.ctx s.cur.act).ln l).rgn.opn)) wCmtNoRegion)).upd
      (fun c => (c.endWin s.mask).settle)).commit s.cur.act mode s.cur.npc s.mask).finish s.mask) := by
    rw [State.cmt, State.uni_allowed s _ _ _ (State.allows_split hact (.inr hsup))]
  obtain ⟨z, hexec⟩ : ∃ z, exec i s = s.cmt mode z := by
    cases i with
    | cmtBr z => cases hi; exact ⟨z, rfl⟩
    | cmtSv z => cases hi; exact ⟨z, rfl⟩
    | cmtRl z => cases hi; exact ⟨z, rfl⟩
    | _ => cases hi
  rw [hcmt, State.warns_endWin hq (Actor.isSeq_split hact)] at hexec
  refine ⟨_, hexec, fun ⟨l, hl, hopn⟩ => ?_⟩
  have hnone : s.active.any (fun l => !((s.ctx s.cur.act).ln l).rgn.opn) = true :=
    List.any_eq_true.mpr ⟨l, hl, by rw [← State.me, hopn]; rfl⟩
  rw [hnone]
  exact noRegion_warned _ _

/-- A commit instruction that services no lane: its context, and what its core still holds. -/
theorem State.exec_commits (hnsv : mode = 1 → ∀ l ∈ s.active, (s.me.ln l).rgn.opn = true → (s.me.ln l).rgn.p = true → (s.me.ln l).rgn.nsv = true) :
    ∃ t w, exec i s = .next t
      ∧ t.me = (((s.me.warned w).committed s.cur.act.slot mode s.cur.npc s.mask).dropYield s.cur.act.slot).tidied s.cur.act
      ∧ (∀ e ∈ (t.core core).quar, e.slot = g → e.reserve = false → ∀ b ∈ e.bytes, ∀ l ∈ s.me.openLanes s.mask, bit b.2.own l = false)
      ∧ ((∃ l ∈ s.active, (s.me.ln l).rgn.opn = false) → (s.me.warned w).warn &&& flag wCmtNoRegion ≠ 0) := by
  obtain ⟨w, hexec, hwarn⟩ := State.exec_commit hi hact hsup hq
  have hserv : mode = 1 → ∀ l ∈ (s.setCtx s.cur.act (s.me.warned w)).active,
      (s.setCtx s.cur.act (s.me.warned w)).serviceable (s.setCtx s.cur.act (s.me.warned w)).cur.act l = false := by
    intro hmode l hl
    rw [State.active, State.mask_warned] at hl
    exact State.serviceable_of_nsv (by rw [State.me_setCtx]; exact hnsv hmode l hl)
  obtain ⟨q, hholds, hfree⟩ := State.commit_holds (by rw [State.setCtx_cur]; exact hact) hserv
  have hpend : ((s.me.warned w).committed s.cur.act.slot mode s.cur.npc s.mask).pend = [] := by
    have hsplits := Ctx.splitsOnly_outcomes
      ((s.me.warned w).updRgn ((s.me.warned w).openLanes s.mask) (fun r => r.close mode)) s.cur.act.slot
    rw [Ctx.committed, hsplits]
    exact (Ctx.updRgn_pend ..).trans hq
  rw [State.setCtx_cur, State.me_setCtx, State.mask_warned] at hholds
  rw [State.me_setCtx, State.mask_warned] at hfree
  obtain ⟨hme, hquar⟩ := hholds.finish (m := s.mask) hpend
  rw [State.setCtx_cur] at hme
  exact ⟨_, w, hexec, hme, by rw [hquar]; exact hfree, hwarn⟩

end

/-- The region state of a lane whose region a commit closes (05 R171). -/
theorem Rgn.close_clean {r : Rgn} (h : r.p = false) (mode : Nat) : r.close mode = { r with opn := false, recv := false, rpl := 0 } := by
  rw [Rgn.close, h]
  rfl

theorem Rgn.close_recovers {r : Rgn} {mode : Nat} (h : r.p = true) (hmode : mode ≠ 2) :
    r.close mode = { r with opn := false, p := false, nsv := false, recv := true, rpl := 0 } := by
  rw [Rgn.close, h, if_neg hmode]
  rfl

theorem Rgn.close_released {r : Rgn} (h : r.p = true) : r.close 2 = { r with opn := false, p := false, nsv := false, orph := true, recv := false, rpl := 0 } := by
  rw [Rgn.close, h]
  rfl

/-- With no open region among its lanes, a commit has the one outcome that the split goes on. -/
theorem Ctx.committed_none {c : Ctx} {m : Nat} (hnone : ∀ l ∈ lanesOf m, (c.ln l).rgn.opn = false) (hm : m ≠ 0) (slot mode : Nat) (pc : W64) :
    c.committed slot mode pc m = c.setSplit slot { c.split slot with pc := pc, mask := m } := by
  have hopen : c.openLanes m = [] := List.filter_eq_nil_iff.mpr fun l hl => by rw [hnone l hl]; exact Bool.false_ne_true
  have hpoisoned : (lanesOf m).filter (fun l => (c.ln l).rgn.opn && (c.ln l).rgn.p) = [] :=
    List.filter_eq_nil_iff.mpr fun l hl => by simp [hnone l hl]
  have hrec : c.recovering mode m = 0 := by
    rw [Ctx.recovering, hpoisoned]
    exact ite_self 0
  have hwithout : without m 0 = m := by simp [without]
  have houts (d : Ctx) : d.commitOuts pc m 0 0 = [(pc, m)] := by
    rw [Ctx.commitOuts, show lanesOf 0 = [] by decide]
    rfl
  rw [Ctx.committed, hopen, hrec, hwithout, houts, Ctx.outcomes, List.filter_cons_of_pos (by simpa using hm)]
  rfl

section
variable {i : Instr} {mode : Nat} (hi : Instr.commitMode i = some mode) {s : State} {core g k : Nat} (hact : s.cur.act = .split core g k)
  (hsup : s.sp.sup = false) (hq : s.quiet)
include hi hact hsup hq

/-- Every active lane has a region, and none is serviceable: each goes on at the address of its outcome, whatever slots merge. -/
theorem State.commits_open (hopn : ∀ l ∈ s.active, (s.me.ln l).rgn.opn = true)
    (hnsv : mode = 1 → ∀ l ∈ s.active, (s.me.ln l).rgn.p = true → (s.me.ln l).rgn.nsv = true) :
    ∃ t, exec i s = .next t ∧ s.keepsRegs t
      ∧ (∀ l ∈ s.active, (t.me.ln l).rgn = (s.me.ln l).rgn.close mode
        ∧ t.me.goesOn l (if (s.me.ln l).rgn.p = true ∧ mode ≠ 2 then (s.me.ln l).rgn.recov else s.cur.npc))
      ∧ (∀ e ∈ (t.core core).quar, e.slot = g → e.reserve = false → ∀ b ∈ e.bytes, ∀ l ∈ s.active, bit b.2.own l = false) := by
  obtain ⟨t, w, hexec, hme, hfree, -⟩ := State.exec_commits hi hact hsup hq fun hmode l hl _ => hnsv hmode l hl
  have hopen : (s.me.warned w).openLanes s.mask = s.active := List.filter_eq_self.mpr hopn
  have hsplits := Ctx.splitsOnly_committed (s.me.warned w) s.cur.act.slot mode s.cur.npc s.mask s.cur.act
  rw [← hme, hopen] at hsplits
  have hgoes {l : Nat} {pc : W64} (h : ((s.me.warned w).committed s.cur.act.slot mode s.cur.npc s.mask).runs l pc) : t.me.goesOn l pc := by
    rw [hme]
    exact Ctx.goesOn_of_runs (Ctx.runs_tidied (Ctx.runs_dropYield h _) _)
  refine ⟨t, hexec, ?_, fun l hl => ?_, fun e he hslot hres b hb l hl => hfree e he hslot hres b hb l (List.mem_filter.mpr ⟨hl, hopn l hl⟩)⟩
  · rw [State.keepsRegs, hsplits]
    exact ⟨Ctx.updRgn_s .., Ctx.updRgn_q .., Ctx.keepsRegs_updRgn _ (lanesOf_nodup _) _⟩
  · have hrgn : (t.me.ln l).rgn = (s.me.ln l).rgn.close mode := by
      rw [hsplits, Ctx.withSplits_ln, Ctx.ln_updRgn _ (show s.active.Nodup from lanesOf_nodup _), if_pos hl]
      rfl
    have hrecovers := Ctx.testBit_recovering (s.me.warned w) mode s.mask l
    refine ⟨hrgn, ?_⟩
    split
    · next h => exact hgoes (Ctx.committed_recovers _ _ hl (hrecovers.trans (decide_eq_true ⟨h.2, hl, hopn l hl, h.1⟩)))
    · next h => exact hgoes (Ctx.committed_runs_on _ _ hl (hrecovers.trans (decide_eq_false fun ⟨hmode, _, _, hp⟩ => h ⟨hp, hmode⟩)))

/-- No active lane has a region: the split goes on with the warning. -/
theorem State.commits_none (hopn : ∀ l ∈ s.active, (s.me.ln l).rgn.opn = false) (hactive : s.active ≠ []) :
    ∃ t, exec i s = .next t ∧ s.keepsRegs t ∧ s.endsAs t s.after ∧ t.me.warn &&& flag wCmtNoRegion ≠ 0 ∧ ∀ l, (t.me.ln l).rgn = (s.me.ln l).rgn := by
  obtain ⟨t, w, hexec, hme, -, hwarn⟩ := State.exec_commits hi hact hsup hq fun _ l hl hopen => absurd hopen (by rw [hopn l hl]; exact Bool.false_ne_true)
  obtain ⟨l, hl⟩ := List.exists_mem_of_ne_nil _ hactive
  have hmask : s.mask ≠ 0 := fun hzero => by
    rw [State.active, hzero, show lanesOf 0 = [] by decide] at hl
    cases hl
  rw [Ctx.committed_none (c := s.me.warned w) hopn hmask] at hme
  have hsplits : (s.me.warned w).splitsOnly t.me := by
    rw [hme]
    exact Ctx.splitsOnly_trans (b := ((s.me.warned w).setSplit s.cur.act.slot s.after).dropYield s.cur.act.slot) rfl (Ctx.splitsOnly_tidied ..)
  refine ⟨t, hexec, ?_, fun ⟨hlone, hnone, _⟩ => ?_, ?_, fun l => ?_⟩
  · rw [State.keepsRegs, hsplits]
    exact ⟨rfl, rfl, fun _ => ⟨rfl, rfl, rfl⟩⟩
  · have hput : ((s.me.warned w).setSplit s.cur.act.slot s.after).splits = [(s.cur.act.slot, s.after)] := by
      rw [Ctx.setSplit, show (s.me.warned w).splits = _ from hlone]
      exact Tbl.put_singleton ..
    have hme : t.me = (((s.me.warned w).setSplit s.cur.act.slot s.after).dropYield s.cur.act.slot).tidied s.cur.act := hme
    rw [hme, Ctx.dropYield_lone hput, Ctx.tidied_lone hput hnone]
    exact ⟨hput, hnone⟩
  · rw [hsplits]
    exact hwarn ⟨l, hl, hopn l hl⟩
  · rw [hsplits]
    rfl

end

end Sys2Proof.Machine
end

section
open Sys2Proof Sys2Proof.Machine

/-- Settles O25: where every active lane has a region, each goes on at the address of its outcome; where none has one, the commit has the
single outcome that its split goes on. -/
theorem commits : Obligations.Commits := by
  unfold Obligations.Commits
  intro i mode hi s core g k hact hsup hq _ _
  refine ⟨fun hopn hnsv => ?_, State.commits_none hi hact hsup hq⟩
  obtain ⟨t, hexec, hregs, hlanes, hfree⟩ := State.commits_open hi hact hsup hq hopn hnsv
  refine ⟨t, hexec, hregs, fun l hl => ?_, hfree⟩
  obtain ⟨hrgn, hgoes⟩ := hlanes l hl
  dsimp only
  rw [hrgn]
  cases hp : (s.me.ln l).rgn.p with
  | false =>
    rw [if_neg fun ⟨h, _⟩ => Bool.false_ne_true (hp.symm.trans h)] at hgoes
    rw [Rgn.close_clean hp]
    exact ⟨rfl, rfl, rfl, fun _ => ⟨rfl, rfl, hgoes⟩, nofun, nofun⟩
  | true =>
    by_cases hmode : mode = 2
    · subst hmode
      rw [if_neg fun ⟨_, h⟩ => h rfl] at hgoes
      rw [Rgn.close_released hp]
      exact ⟨rfl, rfl, rfl, nofun, fun _ h => absurd rfl h, fun _ _ => ⟨rfl, rfl, hgoes⟩⟩
    · rw [if_pos ⟨hp, hmode⟩] at hgoes
      rw [Rgn.close_recovers hp hmode]
      exact ⟨rfl, rfl, rfl, nofun, fun _ _ => ⟨rfl, rfl, rfl, hgoes⟩, fun _ h => absurd h hmode⟩

end

section
/-! PCLR: the state and the values that lose their poison (05 R168; 11 R350). -/

namespace Sys2Proof.Machine

/-- A value without its poison. -/
def cleaned {α : Type} (v : Val α) (z : α) : Val α := match v with | .ok w => .ok w | .bad _ => .ok z

theorem cleaned_cleaned {α : Type} (v : Val α) (z : α) : cleaned (cleaned v z) z = cleaned v z := by cases v <;> rfl

theorem cleaned_of_ok {α : Type} {v : Val α} (z : α) (h : ¬ v.pl?.isSome = true) : cleaned v z = v := by
  cases v with
  | ok w => rfl
  | bad p => exact absurd rfl h

theorem cleaned_of_bad {α : Type} {v : Val α} (z : α) (h : v.pl?.isSome = true) : cleaned v z = .ok z := by
  cases v with
  | ok w => cases h
  | bad p => rfl

/-- The clearing of the poisoned registers of a list, of a file whose numbers count modulo `n`. -/
theorem foldl_cleaned {σ α : Type} {get : σ → Nat → Val α} {put : σ → Nat → σ} {n : Nat} {z : α} {P : σ → Prop}
    (hmod : ∀ x r j, j % n = r % n → get x j = get x r) (hP : ∀ x r, P x → P (put x r))
    (hput : ∀ x r j, P x → (get x r).pl?.isSome = true → get (put x r) j = if j % n = r % n then .ok z else get x j) (rs : List Nat) (j : Nat) (x : σ) (hx : P x) :
    get (rs.foldl (fun x r => if (get x r).pl?.isSome then put x r else x) x) j = if ∃ r ∈ rs, j % n = r % n then cleaned (get x j) z else get x j := by
  induction rs generalizing x with
  | nil => simp
  | cons r rs ih =>
    have hstep : P (if (get x r).pl?.isSome then put x r else x)
        ∧ get (if (get x r).pl?.isSome then put x r else x) j = if j % n = r % n then cleaned (get x j) z else get x j := by
      split
      · next hbad =>
        refine ⟨hP x r hx, (hput x r j hx hbad).trans ?_⟩
        split
        · next hjr => rw [hmod x r j hjr, cleaned_of_bad z hbad]
        · rfl
      · next hok =>
        refine ⟨hx, ?_⟩
        split
        · next hjr => rw [hmod x r j hjr, cleaned_of_ok z hok]
        · rfl
    rw [List.foldl_cons, ih _ hstep.1, hstep.2]
    by_cases hjr : j % n = r % n
    · simp [hjr, cleaned_cleaned]
    · simp [hjr]

theorem range_covers {n j : Nat} (hn : 0 < n) : ∃ r ∈ List.range n, j % n = r % n :=
  ⟨j % n, List.mem_range.mpr (Nat.mod_lt _ hn), (Nat.mod_mod _ _).symm⟩

/-! A lane. -/

/-- A lane whose registers of a list are clean. -/
def Lane.clearV (x : Lane) (rs : List Nat) : Lane := rs.foldl (fun x r => if (x.rd r).pl?.isSome then x.setV r (.ok 0) else x) x

/-- A lane whose predicates are clean. -/
def Lane.clearP (x : Lane) : Lane := (List.range 8).foldl (fun x r => if (x.pr r).pl?.isSome then x.setP r (.ok false) else x) x

theorem Lane.rd_clearV (x : Lane) (rs : List Nat) (j : Nat) : (x.clearV rs).rd j = if ∃ r ∈ rs, j % 128 = r % 128 then cleaned (x.rd j) 0 else x.rd j :=
  foldl_cleaned (P := fun _ => True) (fun x r j h => by rw [Lane.rd, Lane.rd, h]) (fun _ _ _ => trivial) (fun _ _ _ _ _ => Tbl.get_put ..) rs j x trivial

theorem Lane.pr_setP {x : Lane} {r : Nat} (v : Val Bool) (h : (x.pr r).pl?.isSome = true) (j : Nat) :
    (x.setP r v).pr j = if j % 8 = r % 8 then v else x.pr j := by
  have hr : r % 8 ≠ 0 := fun hr => by rw [Lane.pr, if_pos hr] at h; cases h
  rw [Lane.setP, if_neg hr, Lane.pr, Lane.pr, Tbl.get_put]
  split
  · rw [if_neg (by omega)]
  · rfl

theorem Lane.pr_clearP (x : Lane) (j : Nat) : x.clearP.pr j = cleaned (x.pr j) false :=
  (foldl_cleaned (get := Lane.pr) (put := fun x r => x.setP r (.ok false)) (n := 8) (P := fun _ => True) (fun x r j h => by rw [Lane.pr, Lane.pr, h]) (fun _ _ _ => trivial) (fun _ _ j _ h => Lane.pr_setP _ h j)
    (List.range 8) j x trivial).trans (if_pos (range_covers (n := 8) (by decide)))

theorem Lane.clearV_frame (x : Lane) (rs : List Nat) : x.clearV rs = { x with v := (x.clearV rs).v } :=
  foldl_keeps (fun y : Lane => y = { x with v := y.v }) _ rs (fun y r hy => by
    split
    · rw [hy]; rfl
    · exact hy) x rfl

theorem Lane.clearP_frame (x : Lane) : x.clearP = { x with p := x.clearP.p } :=
  foldl_keeps (fun y : Lane => y = { x with p := y.p }) _ _ (fun y r hy => by
    split
    · rw [hy, Lane.setP]
      split <;> rfl
    · exact hy) x rfl

/-! The lanes of a context. -/

/-- Of the context `c` only lane `l` has changed, to `x`. -/
structure Ctx.OnLane (c d : Ctx) (l : Nat) (x : Lane) : Prop where
  frame : d = { c with lanes := d.lanes }
  ln : ∀ j, d.ln j = if j = l then x else c.ln j

theorem Ctx.onLane_refl (c : Ctx) (l : Nat) : c.OnLane c l (c.ln l) := ⟨rfl, fun j => by
  split
  · next h => rw [h]
  · rfl⟩

theorem Ctx.OnLane.setLn {c d : Ctx} {l : Nat} {x : Lane} (h : c.OnLane d l x) (y : Lane) : c.OnLane (d.setLn l y) l y := by
  refine ⟨by rw [h.frame]; rfl, fun j => ?_⟩
  rw [Ctx.ln_setLn_ite, h.ln]
  split <;> rfl

theorem Ctx.OnLane.same {c d : Ctx} {l : Nat} {x : Lane} (h : c.OnLane d l x) : d.ln l = x := (h.ln l).trans (if_pos rfl)

theorem Ctx.OnLane.clearV {c : Ctx} (hp : c.pend = []) {l : Nat} (rs : List Nat) {d : Ctx} {x : Lane} (h : c.OnLane d l x) :
    c.OnLane (d.clearV l rs) l (x.clearV rs) := by
  induction rs generalizing d x with
  | nil => exact h
  | cons r rs ih =>
    have hd : d.pend = [] := by rw [h.frame]; exact hp
    rw [Ctx.clearV, Lane.clearV, List.foldl_cons, List.foldl_cons, h.same]
    refine ih ?_
    split
    · rw [Ctx.wv_quiet d hd, h.same]
      exact h.setLn _
    · exact h

theorem Ctx.OnLane.clearP {c d : Ctx} {l : Nat} {x : Lane} (h : c.OnLane d l x) : c.OnLane (d.clearP l) l x.clearP := by
  rw [Ctx.clearP, Lane.clearP]
  generalize List.range 8 = rs
  induction rs generalizing d x with
  | nil => exact h
  | cons r rs ih =>
    rw [List.foldl_cons, List.foldl_cons, h.same]
    refine ih ?_
    split
    · rw [Ctx.wp, Lane.setP]
      split
      · exact h
      · rw [h.same]
        exact h.setLn _
    · exact h

/-- Lanes changed one after another, each once. -/
theorem Ctx.foldl_lanes {f : Ctx → Nat → Ctx} {h : Lane → Lane} (hf : ∀ (c : Ctx) (l : Nat), c.pend = [] → c.OnLane (f c l) l (h (c.ln l))) {ls : List Nat}
    (hnodup : ls.Nodup) (c : Ctx) (hp : c.pend = []) :
    ls.foldl f c = { c with lanes := (ls.foldl f c).lanes } ∧ ∀ j, (ls.foldl f c).ln j = if j ∈ ls then h (c.ln j) else c.ln j := by
  induction ls generalizing c with
  | nil => exact ⟨rfl, fun j => rfl⟩
  | cons l ls ih =>
    obtain ⟨hl, hls⟩ := List.nodup_cons.mp hnodup
    have hfirst := hf c l hp
    obtain ⟨hframe, hln⟩ := ih hls (f c l) (by rw [hfirst.frame]; exact hp)
    refine ⟨?_, fun j => ?_⟩
    · rw [List.foldl_cons, hframe, hfirst.frame]
    · rw [List.foldl_cons, hln, hfirst.ln]
      by_cases hj : j = l
      · subst hj
        simp [hl]
      · simp [hj]

/-! The uniform registers and predicates. -/

theorem Ctx.clearQ_frame (c : Ctx) : c.clearQ = { c with q := c.clearQ.q } :=
  foldl_keeps (fun d : Ctx => d = { c with q := d.q }) _ _ (fun d r hd => by
    split
    · rw [hd, Ctx.wq]
      split <;> rfl
    · exact hd) c rfl

theorem Ctx.rq_wq {c : Ctx} {r : Nat} (v : Val Bool) (h : (c.rq r).pl?.isSome = true) (j : Nat) :
    (c.wq r v).rq j = if j % 8 = r % 8 then v else c.rq j := by
  have hr : r % 8 ≠ 0 := fun hr => by rw [Ctx.rq, if_pos hr] at h; cases h
  rw [Ctx.wq, if_neg hr, Ctx.rq, Ctx.rq, Tbl.get_put]
  split
  · rw [if_neg (by omega)]
  · rfl

theorem Ctx.rq_clearQ (c : Ctx) (j : Nat) : c.clearQ.rq j = cleaned (c.rq j) false :=
  (foldl_cleaned (get := Ctx.rq) (put := fun c r => c.wq r (.ok false)) (n := 8) (P := fun _ => True) (fun c r j h => by rw [Ctx.rq, Ctx.rq, h]) (fun _ _ _ => trivial) (fun _ _ j _ h => Ctx.rq_wq _ h j)
    (List.range 8) j c trivial).trans (if_pos (range_covers (n := 8) (by decide)))

theorem Ctx.clearS_frame {c : Ctx} (hp : c.pend = []) : c.clearS = { c with s := c.clearS.s } :=
  foldl_keeps (fun d : Ctx => d = { c with s := d.s }) _ _ (fun d r hd => by
    have hd' : d.pend = [] := by rw [hd]; exact hp
    split
    · rw [Ctx.ws_quiet d hd', hd]
      split <;> rfl
    · exact hd) c rfl

theorem Ctx.rs_clearS {c : Ctx} (hp : c.pend = []) (j : Nat) : c.clearS.rs j = cleaned (c.rs j) 0 := by
  refine (foldl_cleaned (get := Ctx.rs) (put := fun c r => c.ws r (.ok 0)) (n := 64) (P := fun c : Ctx => c.pend = []) (fun c r j h => by rw [Ctx.rs, Ctx.rs, h]) (fun d r hd => ?_) (fun d r j hd hbad => ?_)
    (List.range 64) j c hp).trans (if_pos (range_covers (n := 64) (by decide)))
  · rw [Ctx.ws_quiet d hd]
    split <;> exact hd
  · have hr : r % 64 ≠ 0 := fun hr => by rw [Ctx.rs, if_pos hr] at hbad; cases hbad
    rw [Ctx.rs_ws_quiet d hd]
    simp [hr]

/-! The instruction. -/

/-- The region state of a lane after PCLR (05 R168). -/
def Rgn.unmarked (r : Rgn) : Rgn := { r with orph := false, recv := false, recp := if r.opn then r.recp else 0 }

theorem State.At.upd {s u : State} {c : Ctx} (h : s.At u c) (f : Ctx → Ctx) : s.At (u.upd f) (f c) := by
  rw [State.upd, h.cur]
  exact h.updCtx f

theorem State.At.clearState {s : State} {core g k : Nat} (hact : s.cur.act = .split core g k) :
    s.At (s.clearState s.mask) { s.me.updRgn s.active Rgn.unmarked with ovf := false } := by
  have hhome : s.homeActor s.cur.act = s.cur.act := by rw [hact]; rfl
  obtain ⟨q, hheld, -⟩ := s.holds_resolveHeld (s.homeSlot s.cur.act) 0 s.mask (fun r => r)
  rw [State.clearState]
  simp only [hhome]
  exact ((hheld.toAt.freeRecs _ _).updCtx (fun c => c.updRgn s.active Rgn.unmarked)).updCtx (fun c => { c with ovf := false })

/-- A lane whose values PCLR has cleared. -/
def Lane.clean (x : Lane) (rs : List Nat) (q : Nat) : Lane := if q = 0 then x.clearV rs else (x.clearV rs).clearP

theorem Lane.clean_rgn (x : Lane) (rs : List Nat) (q : Nat) : (x.clean rs q).rgn = x.rgn := by
  rw [Lane.clean]
  split
  · rw [Lane.clearV_frame]
  · rw [Lane.clearP_frame, Lane.clearV_frame]

theorem Lane.rd_clean (x : Lane) (rs : List Nat) (q j : Nat) : (x.clean rs q).rd j = if ∃ r ∈ rs, j % 128 = r % 128 then cleaned (x.rd j) 0 else x.rd j := by
  rw [Lane.clean, ← Lane.rd_clearV]
  have hkeeps (y : Lane) (t : Tbl (Val Bool)) : ({ y with p := t } : Lane).rd j = y.rd j := rfl
  split
  · rfl
  · rw [Lane.clearP_frame, hkeeps]

theorem Lane.pr_clean (x : Lane) (rs : List Nat) (q j : Nat) : (x.clean rs q).pr j = if q = 0 then x.pr j else cleaned (x.pr j) false := by
  have hpr : (x.clearV rs).pr j = x.pr j := by
    rw [Lane.clearV_frame]
    rfl
  rw [Lane.clean]
  split
  · exact hpr
  · rw [Lane.pr_clearP, hpr]

/-- A context one of whose lanes PCLR has cleared. -/
def Ctx.cleanLane (c : Ctx) (rs : List Nat) (q l : Nat) : Ctx := if q = 0 then c.clearV l rs else (c.clearV l rs).clearP l

theorem Ctx.onLane_clean {c : Ctx} (hp : c.pend = []) (rs : List Nat) (q l : Nat) : c.OnLane (c.cleanLane rs q l) l ((c.ln l).clean rs q) := by
  have hclear := (c.onLane_refl l).clearV hp rs
  rw [Lane.clean, Ctx.cleanLane]
  split
  · exact hclear
  · exact hclear.clearP

/-- The uniform values that PCLR clears (11 R350). -/
def Ctx.cleanUni (c : Ctx) (q sx : Nat) : Ctx :=
  let d := if q = 0 then c else c.clearQ
  if sx = 0 then d else d.clearS

/-- What is left of a context whose uniform values PCLR has cleared. -/
theorem Ctx.cleanUni_spec {c : Ctx} (hp : c.pend = []) (q sx : Nat) : c.cleanUni q sx = { c with s := (c.cleanUni q sx).s, q := (c.cleanUni q sx).q }
    ∧ (∀ r, (c.cleanUni q sx).rs r = if sx = 0 then c.rs r else cleaned (c.rs r) 0)
    ∧ (∀ r, (c.cleanUni q sx).rq r = if q = 0 then c.rq r else cleaned (c.rq r) false) := by
  obtain ⟨d, hd⟩ : ∃ d, d = if q = 0 then c else c.clearQ := ⟨_, rfl⟩
  have hquniform : d = { c with q := d.q } ∧ ∀ r, d.rq r = if q = 0 then c.rq r else cleaned (c.rq r) false := by
    rw [hd]
    split
    · exact ⟨rfl, fun _ => rfl⟩
    · exact ⟨c.clearQ_frame, c.rq_clearQ⟩
  obtain ⟨hframe, hrq⟩ := hquniform
  have hrs (r : Nat) : d.rs r = c.rs r := by rw [hframe]; rfl
  have hpd : d.pend = [] := by rw [hframe]; exact hp
  rw [Ctx.cleanUni, ← hd]
  split
  · exact ⟨by rw [hframe], hrs, hrq⟩
  · refine ⟨by rw [Ctx.clearS_frame hpd, hframe], fun r => by rw [Ctx.rs_clearS hpd, hrs], fun r => ?_⟩
    have hkeeps (t : Tbl (Val W64)) : ({ d with s := t } : Ctx).rq r = d.rq r := rfl
    rw [← hrq, Ctx.clearS_frame hpd, hkeeps]

/-- The values that PCLR clears in a context (11 R350). -/
def Ctx.clean (c : Ctx) (ls rs : List Nat) (q sx : Nat) : Ctx := (ls.foldl (fun c l => c.cleanLane rs q l) c).cleanUni q sx

/-- What is left of a context whose values PCLR has cleared. -/
theorem Ctx.clean_spec {c : Ctx} (hp : c.pend = []) {ls : List Nat} (hnodup : ls.Nodup) (rs : List Nat) (q sx : Nat) :
    c.clean ls rs q sx = { c with lanes := (c.clean ls rs q sx).lanes, s := (c.clean ls rs q sx).s, q := (c.clean ls rs q sx).q }
      ∧ (∀ l, (c.clean ls rs q sx).ln l = if l ∈ ls then (c.ln l).clean rs q else c.ln l)
      ∧ (∀ r, (c.clean ls rs q sx).rs r = if sx = 0 then c.rs r else cleaned (c.rs r) 0)
      ∧ (∀ r, (c.clean ls rs q sx).rq r = if q = 0 then c.rq r else cleaned (c.rq r) false) := by
  obtain ⟨d, hd⟩ : ∃ d, d = ls.foldl (fun c l => c.cleanLane rs q l) c := ⟨_, rfl⟩
  obtain ⟨hframe, hln⟩ := Ctx.foldl_lanes (f := fun c l => c.cleanLane rs q l) (h := fun x => x.clean rs q) (fun _ l hp => Ctx.onLane_clean hp rs q l) hnodup c hp
  rw [← hd] at hframe hln
  obtain ⟨hufrm, hrs, hrq⟩ := Ctx.cleanUni_spec (c := d) (by rw [hframe]; exact hp) q sx
  have huni : (∀ r, d.rs r = c.rs r) ∧ ∀ r, d.rq r = c.rq r := by
    rw [hframe]
    exact ⟨fun _ => rfl, fun _ => rfl⟩
  rw [Ctx.clean, ← hd]
  refine ⟨by rw [hufrm, hframe], fun l => ?_, fun r => by rw [hrs, huni.1], fun r => by rw [hrq, huni.2]⟩
  rw [← hln, hufrm]
  rfl

/-- The registers that PCLR names, n of them from f on, the numbers going round (11 R350). -/
theorem mem_cleared_iff {f n r : Nat} (hn : n ≤ 128) (hr : r < 128) :
    (∃ j ∈ (List.range n).map (fun i => (f + i) % 128), r % 128 = j % 128) ↔ (r + 128 - f % 128) % 128 < n := by
  constructor
  · rintro ⟨j, hj, hrj⟩
    obtain ⟨i, hi, rfl⟩ := List.mem_map.mp hj
    have := List.mem_range.mp hi
    omega
  · intro hlt
    exact ⟨_, List.mem_map_of_mem (List.mem_range.mpr hlt), by omega⟩

end Sys2Proof.Machine
end

section
open Sys2Proof Sys2Proof.Machine

/-- Settles O28: each register file is cleared by its own fold, and the marks by one change of the lanes' regions. -/
theorem poisonCleared : Obligations.PoisonCleared := by
  unfold Obligations.PoisonCleared
  intro s core g k f n q sx z hact hq hn
  obtain ⟨rs, hrs⟩ : ∃ rs, rs = (List.range n).map (fun i => (f + i) % 128) := ⟨_, rfl⟩
  have hexec : exec (.pclr f n q sx z) s = .next ((((s.warns (ignW (z != 0))).clearState s.mask).upd (fun c => c.clean s.active rs q sx)).retire s.mask) := by
    show execPclr f n q sx z s = _
    rw [execPclr, State.uni1, State.uni_allowed s _ _ _ (State.allows_split hact (.inl rfl)), hrs]
    simp only [Ctx.clean, Ctx.cleanLane, Ctx.cleanUni]
  rw [show s.warns (ignW (z != 0)) = s.setCtx s.cur.act (s.me.warned (ignored (z != 0))) from s.warns_upd _ (Actor.isSeq_split hact)] at hexec
  have hstate := State.At.clearState (s := s.setCtx s.cur.act (s.me.warned (ignored (z != 0)))) (by rw [State.setCtx_cur]; exact hact)
  rw [State.active, State.mask_warned, State.me_setCtx] at hstate
  obtain ⟨c, hc⟩ : ∃ c : Ctx, c = { (s.me.warned (ignored (z != 0))).updRgn s.active Rgn.unmarked with ovf := false } := ⟨_, rfl⟩
  have hat : s.At ((s.setCtx s.cur.act (s.me.warned (ignored (z != 0)))).clearState s.mask) c := hc ▸ (State.at_setCtx (s := s) rfl _).trans hstate
  have hframe : c = { s.me with warn := c.warn, lanes := c.lanes, ovf := false } := by rw [hc, Ctx.updRgn_eq]; rfl
  have hln (l : Nat) : c.ln l = if l ∈ s.active then { s.me.ln l with rgn := (s.me.ln l).rgn.unmarked } else s.me.ln l := by
    rw [hc]
    exact Ctx.ln_updRgn _ (lanesOf_nodup _) _ l
  have hpend : c.pend = [] := by rw [hframe]; exact hq
  obtain ⟨hclean, hlanes, hregs, hpreds⟩ := Ctx.clean_spec hpend (show s.active.Nodup from lanesOf_nodup s.mask) rs q sx
  obtain ⟨sp, pl, hme, hends⟩ := (hat.upd (fun c => c.clean s.active rs q sx)).retire_endsAs (by rw [hclean]; exact hpend)
    (by rw [hclean, hframe]) (by rw [hclean, hframe]) s.mask
  refine ⟨_, hexec, hends, ?_⟩
  rw [hme]
  refine ⟨?_, fun l hl => ?_, fun r _ => ?_, fun r _ => ?_⟩
  · rw [hclean, hframe]
    rfl
  · rw [Ctx.withSplits_ln, hlanes, if_pos hl, hln, if_pos hl]
    refine ⟨fun r hr => ?_, fun r _ => ?_, ?_⟩
    · have hnamed := mem_cleared_iff (f := f) hn hr
      rw [Lane.rd_clean, hrs, show ({ s.me.ln l with rgn := (s.me.ln l).rgn.unmarked } : Lane).rd r = (s.me.ln l).rd r from rfl]
      by_cases hlt : (r + 128 - f % 128) % 128 < n
      · simp only [if_pos hlt, if_pos (hnamed.mpr hlt)]
        cases (s.me.ln l).rd r <;> rfl
      · simp only [if_neg hlt, if_neg (mt hnamed.mp hlt)]
        cases (s.me.ln l).rd r <;> rfl
    · rw [Lane.pr_clean, show ({ s.me.ln l with rgn := (s.me.ln l).rgn.unmarked } : Lane).pr r = (s.me.ln l).pr r from rfl]
      cases (s.me.ln l).pr r with
      | ok b => exact ite_self _
      | bad p => rfl
    · rw [Lane.clean_rgn]
      exact ⟨rfl, rfl⟩
  · have hkeeps : c.rs r = s.me.rs r := by rw [hframe]; rfl
    refine (hregs r).trans ?_
    rw [hkeeps]
    cases s.me.rs r with
    | ok w => exact ite_self _
    | bad p => rfl
  · have hkeeps : c.rq r = s.me.rq r := by rw [hframe]; rfl
    refine (hpreds r).trans ?_
    rw [hkeeps]
    cases s.me.rq r with
    | ok b => exact ite_self _
    | bad p => rfl

end

section
/-! GETS and PUTS: the special registers (09 R274; 11 R341; 05 R166; 06 R180). -/

namespace Sys2Proof.Machine

/-! The lowest active lane, and masks of lanes. -/

theorem State.lowest_active {s : State} {l : Nat} (hl : l ∈ s.active) (hmin : ∀ j ∈ s.active, l ≤ j) : lowest 32 s.mask = some l := by
  obtain ⟨hlt, hbit⟩ := List.mem_filter.mp hl
  rw [lowest, List.find?_range_eq_some]
  refine ⟨hbit, hlt, fun j hj => ?_⟩
  have hclear : ¬ bit s.mask j = true := fun hset =>
    absurd (hmin j (List.mem_filter.mpr ⟨List.mem_range.mpr (by have := List.mem_range.mp hlt; omega), hset⟩)) (by omega)
  simpa using hclear

theorem getLsbD_ballot (v : List (Nat × Bool)) (i : Nat) : (ballot v).getLsbD i = v.any (fun e => e.2 && decide (e.1 = i ∧ i < 64)) := by
  have hfold (w : W64) : (v.foldl (fun w e => if e.2 then w ||| (1 <<< e.1) else w) w).getLsbD i
      = (w.getLsbD i || v.any (fun e => e.2 && decide (e.1 = i ∧ i < 64))) := by
    induction v generalizing w with
    | nil => simp
    | cons e v ih =>
      have hone : ((1 <<< e.1 : Nat) : W64).getLsbD i = decide (e.1 = i ∧ i < 64) := by
        rw [BitVec.natCast_eq_ofNat, BitVec.getLsbD_ofNat, Nat.one_shiftLeft, Nat.testBit_two_pow, Bool.decide_and, Bool.and_comm]
      rw [List.foldl_cons, ih, List.any_cons]
      cases e.2
      · simp
      · simp only [if_true, BitVec.getLsbD_or, hone, Bool.true_and, Bool.or_assoc]
  rw [ballot, hfold]
  simp

/-- The mask of the lanes of a condition, as a word and as a number. -/
theorem toNat_ballot (P : Nat → Bool) : (ballot ((List.range 32).map (fun l => (l, P l)))).toNat = maskOf ((List.range 32).filter P) := by
  refine Nat.eq_of_testBit_eq fun i => ?_
  rw [BitVec.testBit_toNat, getLsbD_ballot, testBit_maskOf, Bool.eq_iff_iff]
  simp only [List.any_map, List.any_eq_true, Function.comp, Bool.and_eq_true, decide_eq_true_iff, List.mem_filter, List.mem_range]
  constructor
  · rintro ⟨l, hl, hP, rfl, -⟩
    exact ⟨hl, hP⟩
  · rintro ⟨hi, hP⟩
    exact ⟨i, hi, hP, rfl, by omega⟩

/-! The end of an instruction that changes its context and retires. -/

section
variable {s : State} {i : Instr} {c : Ctx}

theorem State.becomes_of_retire (hexec : exec i s = .next ((s.setCtx s.cur.act c).retire s.mask)) (hp : c.pend = []) (hsplits : c.splits = s.me.splits)
    (hpool : c.pool = s.me.pool) : s.becomes i c s.after := by
  obtain ⟨sp, pl, hret, hends⟩ := State.retire_setCtx (s := s) (u := s) (m := s.mask) rfl hp
  exact ⟨sp, pl, hexec.trans (congrArg _ hret), fun ⟨hlone, hnone, _⟩ => hends s.sp (hsplits.trans hlone) (hpool.trans hnone)⟩

/-- The same where the instruction has put `x` in the place of its split. -/
theorem State.becomes_of_retire_setSplit {x : Split} (hexec : exec i s = .next ((s.setCtx s.cur.act (c.setSplit s.cur.act.slot x)).retire s.mask))
    (hp : c.pend = []) (hsplits : c.splits = s.me.splits) (hpool : c.pool = s.me.pool) : s.becomes i c { x with pc := s.cur.npc } := by
  obtain ⟨sp, pl, hret, hends⟩ := State.retire_setCtx (s := s) (u := s) (c := c.setSplit s.cur.act.slot x) (m := s.mask) rfl hp
  refine ⟨sp, pl, hexec.trans (congrArg _ hret), fun ⟨hlone, hnone, _⟩ => hends x ?_ (hpool.trans hnone)⟩
  rw [Ctx.setSplit, hsplits, hlone]
  exact Tbl.put_singleton ..

end

/-- A guard that lets its instruction execute. -/
theorem State.guarded_taken {s : State} {g : Nat} (h : s.takes g = some true) (k : State → State) : s.guarded g k = k s := by
  unfold State.takes at h
  unfold State.guarded
  split at h
  · next hg => rw [if_pos hg]
  · next hg =>
    rw [if_neg hg]
    split at h
    · cases h
    · next b _ => rw [if_pos (Option.some.inj h)]

theorem State.notSeq_of_allows {s : State} (h : s.allows Legal.noSeq [] = true) : s.cur.act.isSeq = false := by
  unfold State.allows at h
  cases hact : s.cur.act <;> simp_all [Actor.isCtl, Actor.isSeq, Legal.noSeq]

theorem Ctx.ws_eq_setS {c : Ctx} (hp : c.pend = []) (d : Nat) (v : Val W64) : c.ws d v = c.setS d v := Ctx.ws_quiet c hp d v

/-- The warnings of GETS and PUTS: a field that must be 0 is not, or the number is reserved. -/
def numberWarns (ign : Bool) (n : Nat) : W32 := ignored ign ||| flagIf (decide (15 ≤ n)) wModRsvd

theorem numberWarns_known (ign : Bool) {n : Nat} (h : n < 15) : numberWarns ign n = ignored ign := by
  rw [numberWarns, decide_eq_false (by omega)]
  exact BitVec.or_zero

theorem numberWarns_reserved (ign : Bool) {n : Nat} (h : 15 ≤ n) : numberWarns ign n = ignored ign ||| flag wModRsvd := by
  rw [numberWarns, decide_eq_true h]
  rfl

section
variable {s : State} (hallows : s.allows Legal.noSeq [] = true) (hq : s.quiet) {g : Nat} (hg : s.takes g = some true) (b m : Nat)
include hallows hq hg

theorem State.becomes_gets (d n : Nat) : s.becomes (.gets d n b g m)
    ((s.me.warned (numberWarns (b != 0 || m != 0) n)).setS d (s.special ((lowest 32 s.mask).getD 0) n)) s.after := by
  have hpend : (s.me.warned (numberWarns (b != 0 || m != 0) n)).pend = [] := hq
  have hkept : ∀ (c : Ctx) (v : Val W64), (c.setS d v).pend = c.pend ∧ (c.setS d v).splits = c.splits ∧ (c.setS d v).pool = c.pool := by
    intro c v
    rw [Ctx.setS]
    split <;> exact ⟨rfl, rfl, rfl⟩
  obtain ⟨hkpend, hksplits, hkpool⟩ := hkept (s.me.warned (numberWarns (b != 0 || m != 0) n)) (s.special ((lowest 32 s.mask).getD 0) n)
  refine State.becomes_of_retire ?_ (hkpend.trans hpend) hksplits hkpool
  show execGets d n b g m s = _
  rw [execGets, State.uni1, State.uni_allowed s _ _ _ hallows, State.guarded_taken hg, ← Ctx.ws_eq_setS hpend]
  dsimp only
  rw [State.warns_upd s _ (State.notSeq_of_allows hallows), State.upd_upd]
  rfl

omit hq in
/-- PUTS of a clean value writes the special register after its warnings. -/
theorem State.exec_puts {a : Nat} {v : W64} (hv : s.me.rs a = .ok v) (d : Nat) : exec (.puts d a b g m) s
    = .next (((s.setCtx s.cur.act (s.me.warned (numberWarns (b != 0 || m != 0) d))).putSpecial d v).retire s.mask) := by
  show execPuts d a b g m s = _
  rw [execPuts, State.uni1, State.uni_allowed s _ _ _ hallows, State.guarded_taken hg]
  rw [hv]
  dsimp only
  rw [State.warns_upd s _ (State.notSeq_of_allows hallows)]
  rfl

section
variable {a : Nat} {v : W64} (hv : s.me.rs a = .ok v)
include hv

/-- PUTS of a register that it does not write only sets its warnings. -/
theorem State.becomes_puts_readOnly {d : Nat} (hd : d < 9 ∨ d = 12 ∨ 15 ≤ d) :
    s.becomes (.puts d a b g m) (s.me.warned (numberWarns (b != 0 || m != 0) d)) s.after := by
  refine State.becomes_of_retire ((State.exec_puts hallows hg b m hv d).trans ?_) hq rfl rfl
  rw [State.putSpecial.eq_def]
  split
  case h_6 => rfl
  all_goals omega

omit hq in
/-- PUTS of a register of the context itself. -/
theorem State.becomes_puts {d : Nat} {f : Ctx → Ctx} (hput : ∀ u : State, u.putSpecial d v = u.upd f)
    (hpend : (f (s.me.warned (numberWarns (b != 0 || m != 0) d))).pend = []) (hsplits : (f (s.me.warned (numberWarns (b != 0 || m != 0) d))).splits = s.me.splits)
    (hpool : (f (s.me.warned (numberWarns (b != 0 || m != 0) d))).pool = s.me.pool) :
    s.becomes (.puts d a b g m) (f (s.me.warned (numberWarns (b != 0 || m != 0) d))) s.after := by
  refine State.becomes_of_retire ((State.exec_puts hallows hg b m hv d).trans ?_) hpend hsplits hpool
  rw [hput, State.upd_eq, State.me_setCtx, State.setCtx_cur, State.setCtx_setCtx]

theorem State.becomes_puts_lc : s.becomes (.puts 10 a b g m) (s.me.warned (ignored (b != 0 || m != 0))) { s.after with lc := v.setWidth 32 } := by
  refine State.becomes_of_retire_setSplit (x := { s.sp with lc := v.setWidth 32 }) ((State.exec_puts hallows hg b m hv 10).trans ?_) hq rfl rfl
  rw [numberWarns_known _ (by decide)]
  show Host.Outcome.next ((State.updSp _ _).retire s.mask) = _
  rw [State.updSp, State.upd_eq, State.me_setCtx, State.setCtx_cur, State.setCtx_setCtx]
  rfl

theorem State.becomes_puts_dr : ∃ t, s.becomes (.puts 9 a b g m) { s.me.warned (ignored (b != 0 || m != 0)) with lanes := t } s.after
    ∧ ∀ l, Tbl.get ({} : Lane) t l = if l ∈ s.active then { s.me.ln l with dr := .ok (v.setWidth 32) } else s.me.ln l := by
  obtain ⟨hframe, hln⟩ := Ctx.foldl_lanes (f := fun c l => c.wdr l (.ok (v.setWidth 32))) (h := fun x => { x with dr := .ok (v.setWidth 32) })
    (fun c l _ => (c.onLane_refl l).setLn _) (lanesOf_nodup s.mask) (s.me.warned (ignored (b != 0 || m != 0))) hq
  refine ⟨_, State.becomes_of_retire ((State.exec_puts hallows hg b m hv 9).trans ?_) hq rfl rfl, hln⟩
  rw [numberWarns_known _ (by decide), ← hframe]
  show Host.Outcome.next ((State.upd _ _).retire s.mask) = _
  rw [State.upd_eq, State.me_setCtx, State.setCtx_cur, State.setCtx_setCtx, State.active, State.mask_warned]

end

end

/-! What GETS reads. -/

/-- The special registers of a lane context that stand for the lane `l`, or are its group's place (06 R180). -/
theorem State.special_lanes {s : State} (h : s.cur.act.lanes = true) (l : Nat) :
    s.special l 0 = .ok (BitVec.ofNat 64 l) ∧ s.special l 1 = .ok (BitVec.ofNat 64 (l / 8))
      ∧ s.special l 3 = .ok (BitVec.ofNat 64 (s.wgOf s.cur.act).w)
      ∧ s.special l 4 = .ok (BitVec.ofNat 64 ((s.wgOf s.cur.act).w / 2 ^ (s.desc s.cur.act).nlog))
      ∧ s.special l 5 = .ok (BitVec.ofNat 64 (s.wgOf s.cur.act).member) ∧ s.special l 7 = .ok (s.wgOf s.cur.act).teams
      ∧ s.special l 9 = (match (s.me.ln l).dr with | .ok w => .ok (w.setWidth 64) | .bad p => .bad p) := by
  have hctl : s.cur.act.isCtl = false := by cases hact : s.cur.act <;> simp_all [Actor.lanes, Actor.isCtl]
  refine ⟨?_, ?_, ?_, ?_, ?_, ?_, if_pos h⟩ <;> simp [State.special, h, hctl]

theorem State.special_reserved (s : State) (l : Nat) {n : Nat} (h : 15 ≤ n) : s.special l n = .ok 0 := by
  rw [State.special.eq_def]
  split
  case h_16 => rfl
  all_goals omega

/-- The group view of %rgn (05 R166). -/
theorem State.special_rgn {s : State} {c h k : Nat} (hact : s.cur.act = .split c h k) (l : Nat) : s.special l 12 = .ok (BitVec.ofNat 64
    (s.me.seq % 2 ^ 16 * 2 ^ 48 + ((s.core c).quar.filter (fun e => e.slot == h)).length % 2 ^ 10 * 2 ^ 38 + s.me.kexp % 2 ^ 3 * 2 ^ 35
      + (if s.me.ovf then 2 ^ 34 else 0)
      + (ballot ((List.range 32).map (fun l => let r := s.rgnAt s.cur.act l; (l, (r.opn && r.p) || r.orph)))).toNat)) := by
  have hhome : s.homeActor s.cur.act = s.cur.act := by rw [hact]; rfl
  have hslot : s.homeSlot s.cur.act = h := by rw [hact]; rfl
  have hcore : s.coreOf s.cur.act = c := by rw [hact]; rfl
  have hovf : b2n s.me.ovf * 2 ^ 34 = if s.me.ovf then 2 ^ 34 else 0 := by cases s.me.ovf <;> rfl
  refine congrArg (fun n => Val.ok (BitVec.ofNat 64 n)) ?_
  rw [toNat_ballot (fun l => (let r := s.rgnAt s.cur.act l; (r.opn && r.p) || r.orph)), ← hovf, State.rgnView]
  simp only [hhome, hslot, hcore]
  rfl

end Sys2Proof.Machine
end

section
open Sys2Proof Sys2Proof.Machine

/-- Settles O17: GETS writes what `State.special` reads, PUTS what `State.putSpecial` writes, register by register. -/
theorem specialRegisters : Obligations.SpecialRegisters := by
  unfold Obligations.SpecialRegisters
  intro s d a b g m hallows hq hg _ _
  have hgets {n : Nat} {v : Val W64} (hn : n < 15) (hv : s.special ((lowest 32 s.mask).getD 0) n = v) :
      s.becomes (.gets d n b g m) ((s.me.warned (ignored (b != 0 || m != 0))).setS d v) s.after := by
    rw [← hv, ← numberWarns_known _ hn]
    exact State.becomes_gets hallows hq hg b m d n
  refine ⟨fun n v hnv => ?_, fun l hl hmin hlanes n v hnv => ?_, fun c h k hact => ?_, fun ha => ?_, fun v hv => ⟨fun hd => ?_, fun hd => ?_, ?_, ?_, ?_, ?_, ?_⟩⟩
  · simp only [List.mem_cons, List.not_mem_nil, or_false, Prod.mk.injEq] at hnv
    rcases hnv with ⟨rfl, rfl⟩ | ⟨rfl, rfl⟩ | ⟨rfl, rfl⟩ | ⟨rfl, rfl⟩ | ⟨rfl, rfl⟩ | ⟨rfl, rfl⟩ | ⟨rfl, rfl⟩ <;> exact hgets (by decide) rfl
  · have hlow : (lowest 32 s.mask).getD 0 = l := by rw [State.lowest_active hl hmin]; rfl
    obtain ⟨h0, h1, h3, h4, h5, h7, h9⟩ := State.special_lanes hlanes l
    simp only [List.mem_cons, List.not_mem_nil, or_false, Prod.mk.injEq] at hnv
    rcases hnv with ⟨rfl, rfl⟩ | ⟨rfl, rfl⟩ | ⟨rfl, rfl⟩ | ⟨rfl, rfl⟩ | ⟨rfl, rfl⟩ | ⟨rfl, rfl⟩ | ⟨rfl, rfl⟩
    · exact hgets (by decide) (hlow ▸ h0)
    · exact hgets (by decide) (hlow ▸ h1)
    · exact hgets (by decide) (hlow ▸ h3)
    · exact hgets (by decide) (hlow ▸ h4)
    · exact hgets (by decide) (hlow ▸ h5)
    · exact hgets (by decide) (hlow ▸ h7)
    · exact hgets (by decide) (hlow ▸ h9)
  · exact hgets (by decide) (State.special_rgn hact _)
  · rw [← numberWarns_reserved _ ha, ← s.special_reserved ((lowest 32 s.mask).getD 0) ha]
    exact State.becomes_gets hallows hq hg b m d a
  · rw [← numberWarns_reserved _ hd]
    exact State.becomes_puts_readOnly hallows hq hg b m hv (.inr (.inr hd))
  · rw [← numberWarns_known _ (n := d) (by omega)]
    exact State.becomes_puts_readOnly hallows hq hg b m hv (by omega)
  · exact State.becomes_puts_lc hallows hq hg b m hv
  · exact State.becomes_puts hallows hg b m hv (f := fun c => { c with warn := v.setWidth 32 &&& warnMask }) (fun _ => rfl) hq rfl rfl
  · rw [← numberWarns_known _ (n := 13) (by decide)]
    exact State.becomes_puts hallows hg b m hv (f := fun c => { c with fpx := v.setWidth 32 &&& fpxMask }) (fun _ => rfl) hq rfl rfl
  · rw [← numberWarns_known _ (n := 14) (by decide)]
    exact State.becomes_puts hallows hg b m hv (f := fun c => { c with fpm := v.setWidth 32 &&& 1 }) (fun _ => rfl) hq rfl rfl
  · exact State.becomes_puts_dr hallows hq hg b m hv

end

section
/-! A Retriever thread and its lane's way home (06 R197 to R202), commit back-off (05 R173), and the resumption of a halted die (06 R206, R207). -/

namespace Sys2Proof.Machine

/-! The lane's state that goes back to its group (06 R195). -/

/-- The registers that a hand-over names have the thread's values, the others those of the group. -/
theorem get_foldl_put {α : Type} (d : α) (f : Nat → α) (rs : List Nat) (t : Tbl α) (k : Nat) :
    Tbl.get d (rs.foldl (fun v i => Tbl.put v i (f i)) t) k = if k ∈ rs then f k else Tbl.get d t k := by
  induction rs generalizing t with
  | nil => rfl
  | cons r rs ih =>
    rw [List.foldl_cons, ih, Tbl.get_put]
    by_cases hk : k = r
    · subst hk; simp
    · simp [hk]

/-- The lane `x` of a thread, back in its group in the place of `y`. -/
def Lane.back (x y : Lane) (hset : Nat) : Lane :=
  { v := (hsetRegs hset).foldl (fun v i => Tbl.put v i (x.rd i)) y.v, p := x.p, dr := x.dr, rgn := x.rgn, life := .live }

theorem Lane.rd_back (x y : Lane) (hset : Nat) {r : Nat} (hr : r < 128) : (x.back y hset).rd r = if bit hset r then x.rd r else y.rd r := by
  rw [Lane.rd, Lane.back, get_foldl_put, Nat.mod_eq_of_lt hr]
  simp only [hsetRegs, List.mem_filter, List.mem_range, hr, true_and]
  split
  · rfl
  · rw [Lane.rd, Nat.mod_eq_of_lt hr]

/-- The group's context when a thread's lane is back. -/
def Ctx.withBack (c th : Ctx) (hset : Nat) : Ctx :=
  { c.setLn th.lane ((th.ln th.lane).back (c.ln th.lane) hset) with fpx := c.fpx ||| th.fpx, warn := c.warn ||| th.warn }

/-- The split in which a lane comes home alone (06 R202). -/
def Ctx.homeSplit (th : Ctx) (halted : Bool) : Split :=
  { pc := (th.split 0).pc, mask := 2 ^ th.lane, lc := (th.split 0).lc, join := th.jrec, halted := halted }

theorem Ctx.placeSplit_empty {c : Ctx} (h : c.splits = []) (x : Split) : c.placeSplit x = { c with splits := [(0, x)] } := by
  have hfree : (List.range 4).find? (fun k => (c.split k).mask == 0) = some 0 := by
    rw [List.find?_range_eq_some]
    exact ⟨by rw [Ctx.split, h]; rfl, by decide, nofun⟩
  rw [Ctx.placeSplit, hfree]
  dsimp only
  rw [Ctx.setSplit, h]
  rfl

theorem flatMap_range_one {α : Type} (xs : List α) {m n : Nat} (h : m < n) : (List.range n).flatMap (fun l => if m = l then xs else []) = xs := by
  induction n with
  | zero => omega
  | succ n ih =>
    rw [List.range_succ, List.flatMap_append, List.flatMap_singleton]
    by_cases hm : m = n
    · have hrest : (List.range n).flatMap (fun l => if m = l then xs else []) = [] := by
        rw [List.flatMap_eq_nil_iff]
        exact fun l hl => if_neg (by have := List.mem_range.mp hl; omega)
      rw [hrest, if_pos hm, List.nil_append]
    · rw [ih (by omega), if_neg hm, List.append_nil]

/-- The ends of waits that a lane's return gives change no split that does not wait at JOIN (06 R198). -/
theorem State.joinCheck_lone {t : State} {h : Actor} {k : Nat} {x : Split} (hsplits : (t.ctx h).splits = [(k, x)]) (hpool : (t.ctx h).pool = [])
    (hwait : x.wait = .none) : t.joinCheck h = t.setCtx h (t.ctx h) := by
  rw [State.joinCheck, State.updCtx, hsplits, hpool]
  simp only [List.map_cons, List.map_nil, hwait]
  rw [← hsplits, ← hpool]

section
variable {s : State} {die th : Nat} {c : Ctx} (hc : s.ctx (.thread die th) = c)
include hc

theorem State.desc_setCtx_self : (s.setCtx (.thread die th) c).desc (.thread die th) = s.desc (.thread die th) := by
  have hctx : (s.setCtx (.thread die th) c).ctx (.thread die th) = s.ctx (.thread die th) := (State.ctx_setCtx ..).trans hc.symm
  have hwg : (s.setCtx (.thread die th) c).wgOf (.thread die th) = s.wgOf (.thread die th) := by
    rw [State.wgOf, State.wgOf, State.coreOf, State.coreOf, hctx]
    rfl
  rw [State.desc, State.desc, hwg]
  rfl

theorem State.takeBack_live (hp : c.pend = []) :
    (s.updCtx (.thread die th) (fun c => (c.endWin (2 ^ c.lane)).settle)).takeBack (.thread die th) .live
      = ((s.setCtx (.thread die th) c).updCtx (.split c.core c.home 0) (fun y => y.withBack c (s.desc (.thread die th)).hset)).setCtx (.thread die th) {} := by
  rw [State.updCtx, hc, Ctx.endWin_quiet _ hp, Ctx.settle_quiet _ hp, State.takeBack, State.ctx_setCtx, State.desc_setCtx_self hc]
  rfl

variable (hdie : c.core / 64 = die) (hlane : c.lane < 32) (hp : c.pend = []) (hsplits : (s.ctx (.split c.core c.home 0)).splits = [])
  (hpool : (s.ctx (.split c.core c.home 0)).pool = [])
include hdie hlane hp hsplits hpool

/-- The recall of one thread's lane to a group without splits. -/
theorem State.recall_one : ∃ t, s.recall (.split c.core c.home 0) [th] = t ∧ t.ctx (.thread die th) = {}
    ∧ t.ctx (.split c.core c.home 0) = { (s.ctx (.split c.core c.home 0)).withBack c (s.desc (.thread die th)).hset with
        splits := [(0, c.homeSplit (s.ctx (.split c.core c.home 0)).hpack)] }
    ∧ ((s.ctx (.split c.core c.home 0)).hpack = true → (t.die die).halted = true) := by
  have horder : (List.range 32).flatMap (fun l => [th].filter (fun t => (s.ctx (.thread die t)).lane == l)) = [th] := by
    have hfilter (l : Nat) : [th].filter (fun t => (s.ctx (.thread die t)).lane == l) = if c.lane = l then [th] else [] := by
      by_cases hl : c.lane = l
      · rw [if_pos hl, List.filter_cons_of_pos (by rw [hc, hl]; exact beq_self_eq_true l), List.filter_nil]
      · rw [if_neg hl, List.filter_cons_of_neg (by rw [hc]; simpa using hl), List.filter_nil]
    simp only [hfilter]
    exact flatMap_range_one [th] hlane
  have hos : recalled [c] (s.ctx (.split c.core c.home 0)).hpack = [c.homeSplit (s.ctx (.split c.core c.home 0)).hpack] := rfl
  obtain ⟨s1, hs1⟩ : ∃ t, t = ((s.setCtx (.thread die th) c).updCtx (.split c.core c.home 0) (fun y => y.withBack c (s.desc (.thread die th)).hset)).setCtx (.thread die th) {} := ⟨_, rfl⟩
  rw [State.recall, show s.dieOf (.split c.core c.home 0) = die from hdie]
  dsimp only
  rw [horder, List.map_singleton, hc, hos, List.foldl_cons, List.foldl_nil, State.takeBack_live hc hp, ← hs1]
  have hhome : s1.ctx (.split c.core c.home 0) = (s.ctx (.split c.core c.home 0)).withBack c (s.desc (.thread die th)).hset := by
    rw [hs1]
    exact State.ctx_setCtx (s.setCtx (.thread die th) c) (.split c.core c.home 0) _
  have hthread : s1.ctx (.thread die th) = {} := by
    rw [hs1]
    exact State.ctx_setCtx ..
  have hplaced : (([c.homeSplit (s.ctx (.split c.core c.home 0)).hpack].foldl Ctx.placeSplit (s1.ctx (.split c.core c.home 0))).tidy
      = { (s.ctx (.split c.core c.home 0)).withBack c (s.desc (.thread die th)).hset with
        splits := [(0, c.homeSplit (s.ctx (.split c.core c.home 0)).hpack)] }) := by
    rw [List.foldl_cons, List.foldl_nil, hhome, Ctx.placeSplit_empty (by exact hsplits)]
    exact Ctx.tidy_lone _ rfl hpool
  rw [State.updCtx, hplaced]
  generalize hD : ({ (s.ctx (.split c.core c.home 0)).withBack c (s.desc (.thread die th)).hset with
    splits := [(0, c.homeSplit (s.ctx (.split c.core c.home 0)).hpack)] } : Ctx) = D at *
  have hjoin {u : State} (hu : u.ctx (.split c.core c.home 0) = D) (hth : u.ctx (.thread die th) = {}) :
      (u.joinCheck (.split c.core c.home 0)).ctx (.thread die th) = {} ∧ (u.joinCheck (.split c.core c.home 0)).ctx (.split c.core c.home 0) = D
        ∧ (u.joinCheck (.split c.core c.home 0)).dies = u.dies := by
    rw [State.joinCheck_lone (k := 0) (x := c.homeSplit (s.ctx (.split c.core c.home 0)).hpack) (by rw [hu, ← hD]) (by rw [hu, ← hD]; exact hpool) rfl,
      hu, State.ctx_setCtx, State.setCtx_dies]
    exact ⟨hth, rfl, rfl⟩
  have hset : (s1.setCtx (.split c.core c.home 0) D).ctx (.split c.core c.home 0) = D ∧ (s1.setCtx (.split c.core c.home 0) D).ctx (.thread die th) = {} :=
    ⟨State.ctx_setCtx .., hthread⟩
  cases hpack : (s.ctx (.split c.core c.home 0)).hpack with
  | false =>
    obtain ⟨ht, hh, -⟩ := hjoin hset.1 hset.2
    exact ⟨_, rfl, ht, hh, nofun⟩
  | true =>
    obtain ⟨ht, hh, hdies⟩ := hjoin (u := (s1.setCtx (.split c.core c.home 0) D).setDie die { (s1.setCtx (.split c.core c.home 0) D).die die with halted := true })
      hset.1 hset.2
    refine ⟨_, rfl, ht, hh, fun _ => ?_⟩
    refine (congrArg (fun d => (Tbl.get ({} : Die) d die).halted) hdies).trans ?_
    exact congrArg Die.halted (State.die_setDie _ die _)

end

/-! Debug resume. -/

/-- A group whose halted splits have resumed. -/
def Ctx.resumed (c : Ctx) : Ctx := ({ c with hpack := false, splits := c.splits.map (fun x => (x.1, x.2.resume)), pool := c.pool.map Split.resume } : Ctx).tidy

/-- The groups of a die have resumed. -/
def State.resumed (s : State) (die : Nat) : State :=
  { s with groups := s.groups.map (fun e => if e.1 / 32 / 64 = die then (e.1, e.2.resumed) else e) }

/-- A context without splits has nothing to merge or to promote. -/
theorem Ctx.tidy_empty {c : Ctx} (h : c.splits = []) (hp : c.pool = []) : c.tidy = c := by
  have hmerge (i j : Nat) : c.mergeOne i j = c := by
    have hnone : (c.split i).joins (c.split j) = false := by rw [Ctx.split, h]; exact Split.joins_empty_left _
    rw [Ctx.mergeOne, hnone]
    rfl
  have habsorb : (List.range 4).foldl (fun c k => if (c.split k).mask != 0 && !c.pool.isEmpty then c.absorb k else c) c = c :=
    foldl_keeps (· = c) _ _ (fun d _ hd => by subst hd; simp [hp]) c rfl
  have hfetch : (List.range 4).foldl (fun c k => if (c.split k).mask != 0 then c else (c.fetchPool k (fun _ => true)).getD c) c = c :=
    foldl_keeps (· = c) _ _ (fun d _ hd => by subst hd; simp [Ctx.fetchPool, hp]) c rfl
  rw [Ctx.tidy, Ctx.merge]
  simp only [List.foldl_cons, List.foldl_nil, hmerge]
  rw [Ctx.promote, habsorb, hfetch]

theorem Ctx.resumed_none : ({ } : Ctx).resumed = { } := Ctx.tidy_empty rfl rfl

theorem Ctx.splitsOnly_arr {c d : Ctx} (h : c.splitsOnly d) : d.arr = c.arr := by
  rw [h]
  rfl

theorem Ctx.resumed_arr (c : Ctx) : c.resumed.arr = c.arr := by rw [Ctx.resumed, Ctx.splitsOnly_arr (Ctx.splitsOnly_tidy _)]

theorem Ctx.resumed_lone {c : Ctx} {e : Nat} {x : Split} (h : c.splits = [(e, x)]) (hp : c.pool = []) :
    c.resumed = { c with hpack := false, splits := [(e, x.resume)], pool := [] } := by
  have hsplits : c.splits.map (fun y => (y.1, y.2.resume)) = [(e, x.resume)] := by rw [h]; rfl
  have hpool : c.pool.map Split.resume = [] := by rw [hp]; rfl
  rw [Ctx.resumed, hsplits, hpool]
  exact Ctx.tidy_lone _ rfl rfl

theorem State.ctx_resumed (s : State) (die c k e : Nat) : (s.resumed die).ctx (.split c k e)
    = if (c * 32 + k) / 32 / 64 = die then (s.ctx (.split c k e)).resumed else s.ctx (.split c k e) := by
  show Tbl.get {} (s.groups.map (fun e => if e.1 / 32 / 64 = die then (e.1, e.2.resumed) else e)) (c * 32 + k)
    = if (c * 32 + k) / 32 / 64 = die then (Tbl.get ({ } : Ctx) s.groups (c * 32 + k)).resumed else Tbl.get { } s.groups (c * 32 + k)
  induction s.groups with
  | nil => rw [Tbl.get_nil, Ctx.resumed_none, ite_self]; rfl
  | cons y r ih =>
    rw [List.map_cons]
    by_cases hkey : y.1 = c * 32 + k
    · by_cases hd : (c * 32 + k) / 32 / 64 = die
      · simp [Tbl.get, hkey, hd]
      · simp [Tbl.get, hkey, hd]
    · by_cases hd : y.1 / 32 / 64 = die
      · simpa [Tbl.get, hkey, hd] using ih
      · simpa [Tbl.get, hkey, hd] using ih

/-- With no arrival recorded, there is no barrier to look at again. -/
theorem State.barSweep_none {s : State} (hgroups : ∀ c g n, Tbl.get 0 (s.ctx (.split c g 0)).arr n = 0)
    (houts : ∀ g ∈ s.grids, ∀ p ∈ g.packs, ∀ w ∈ p.saved, ∀ c ∈ w.groups, ∀ n, Tbl.get 0 c.2.arr n = 0) (grid : Nat) : s.barSweep grid = s := by
  have hhere (core : Nat) (w : Wg) (k : Nat) : (s.groupsOf core w).any (fun g => Tbl.get 0 g.2.arr k != 0) = false := by
    refine List.any_eq_false.mpr fun g hg => ?_
    obtain ⟨j, -, rfl⟩ := List.mem_map.mp (List.mem_of_mem_filter hg)
    simp [hgroups]
  have hout {r : Nat × Saved} (hr : r ∈ s.outs grid) (k : Nat) : r.2.groups.any (fun c => Tbl.get 0 c.2.arr k != 0) = false := by
    rw [State.outs] at hr
    split at hr
    · next g hg =>
      obtain ⟨p, hp, hr⟩ := List.mem_flatMap.mp hr
      obtain ⟨w, hw, rfl⟩ := List.mem_map.mp hr
      exact List.any_eq_false.mpr fun c hc => by simp [houts g (List.mem_of_find?_eq_some hg) p hp w hw c hc k]
    · cases hr
  have hresident : (s.residents.filter (fun r => r.2.2.grid == grid)).foldl (fun s r => r.2.2.keys.foldl (fun s k =>
      if (s.groupsOf r.1 r.2.2).any (fun g => Tbl.get 0 g.2.arr k != 0) then s.barCheck r.1 r.2.2 k else s) s) s = s :=
    foldl_keeps (· = s) _ _ (fun t r ht => foldl_keeps (· = s) _ _ (fun u k hu => by rw [hu, if_neg (by rw [hhere]; exact Bool.false_ne_true)]) t ht) s rfl
  rw [State.barSweep, hresident]
  refine List.foldlRecOn (motive := (· = s)) _ _ rfl fun t ht r hr => foldl_keeps (· = s) _ _ (fun u k hu => ?_) t ht
  rw [hu, if_neg (by rw [hout hr, Bool.and_false]; exact Bool.false_ne_true)]

/-- DBGCTL resumes the groups of its die; where no lane has arrived at a barrier, nothing else happens. -/
theorem State.exec_dbgctlResume {s : State} (die : Nat) (hgroups : ∀ c g n, Tbl.get 0 (s.ctx (.split c g 0)).arr n = 0)
    (houts : ∀ g ∈ s.grids, ∀ p ∈ g.packs, ∀ w ∈ p.saved, ∀ c ∈ w.groups, ∀ n, Tbl.get 0 c.2.arr n = 0) :
    exec (.dbgctlResume die) s = .next (s.resumed die) := by
  have hresumed : ∀ c g n, Tbl.get 0 ((s.resumed die).ctx (.split c g 0)).arr n = 0 := by
    intro c g n
    rw [State.ctx_resumed]
    split
    · rw [Ctx.resumed_arr]
      exact hgroups c g n
    · exact hgroups c g n
  refine congrArg Host.Outcome.next (foldl_keeps (· = s.resumed die) _ _ (fun t k ht => ?_) (s.resumed die) rfl)
  rw [ht]
  exact State.barSweep_none hresumed houts k

theorem Split.resume_halted {x : Split} (h : x.halted = true) : x.resume = { x with halted := false, pc := x.brk.getD x.pc, brk := none } := if_pos h

end Sys2Proof.Machine
end

section
open Sys2Proof Sys2Proof.Machine

/-- Settles O54: each event changes one context, but for the recall, which returns the lane and places its split, and for the resumption of a die. -/
theorem recallAndDebug : Obligations.RecallAndDebug := by
  unfold Obligations.RecallAndDebug
  refine ⟨fun s die th => ⟨fun hoff => ?_, fun hon => ⟨?_, fun hno => ?_, fun hrjt hstop => ?_, fun hno => ?_, fun htimed hquiet hpend => ?_⟩⟩, fun s core slot die => ⟨fun hno => ?_, fun hstop hpack => ?_, ?_, fun hgroups houts => ?_⟩⟩
  · refine ⟨?_, ?_, ?_⟩
    · show execHandOverDone die th s = _
      simp [execHandOverDone, hoff]
    · show execRejoinTimeout die th s = _
      simp [execRejoinTimeout, hoff]
    · show execRecallComplete die th s = _
      simp [execRecallComplete, hoff]
  · refine ⟨_, congrArg Host.Outcome.next (if_pos hon), ?_, rfl⟩
    exact State.ctx_setCtx ..
  · show execRejoinTimeout die th s = _
    rcases hno with hno | hno <;> simp [execRejoinTimeout, hno]
  · refine ⟨_, congrArg Host.Outcome.next (if_pos ?_), State.ctx_setCtx .., rfl⟩
    simp [hon, hrjt, hstop]
  · show execRecallComplete die th s = _
    rcases hno with hno | hno <;> simp [execRecallComplete, hno]
  · intro c h hdie hlane hsplits hpool
    obtain ⟨t, hrecall, hthread, hhome, hhalted⟩ := State.recall_one (s := s) (th := th) (c := c) rfl hdie hlane hpend hsplits hpool
    refine ⟨t, (congrArg Host.Outcome.next (if_pos ?_)).trans (congrArg _ hrecall), ?_⟩
    · simp [hon, htimed, hquiet]
    · have hln : Ctx.ln { (s.ctx h).withBack c (s.desc (.thread die th)).hset with splits := [(0, c.homeSplit (s.ctx h).hpack)] } c.lane
        = (c.ln c.lane).back ((s.ctx h).ln c.lane) (s.desc (.thread die th)).hset := Ctx.ln_setLn ..
      dsimp only
      rw [hthread, show t.ctx h = _ from hhome, hln]
      refine ⟨rfl, rfl, fun _ => hhalted, ?_⟩
      exact ⟨rfl, rfl, rfl, rfl, fun r hr => Lane.rd_back _ _ _ hr⟩
  · show execCommitBackoffExpiry core slot s = _
    rcases hno with hno | hno <;> simp [execCommitBackoffExpiry, hno]
  · refine ⟨_, congrArg Host.Outcome.next (if_neg ?_), State.ctx_setCtx .., rfl⟩
    simp [hstop, hpack]
  · exact ⟨_, rfl, State.die_setDie .., rfl⟩
  · refine ⟨_, State.exec_dbgctlResume die hgroups houts, rfl, rfl, fun k e hdie hk => ?_, fun k e x hdie hk _ hsplits hpool _ hhalted => ?_⟩
    · rw [State.ctx_resumed, if_neg (by omega)]
    · rw [State.ctx_resumed, if_pos (by omega), Ctx.resumed_lone hsplits hpool, Split.resume_halted hhalted]
      exact ⟨rfl, rfl⟩

end

section
/-! The reset of a compute die that serves no grid (13 R417, R418). -/

namespace Sys2Proof.Machine

theorem find_offDie {α : Type} (t : Tbl α) (die u k : Nat) : Tbl.find (offDie t die u) k = if k / u = die then none else Tbl.find t k := by
  induction t with
  | nil => exact (ite_self _).symm
  | cons e r ih =>
    rw [offDie] at ih ⊢
    by_cases hdie : e.1 / u = die
    · rw [List.filter_cons_of_neg (by simp [hdie]), ih, Tbl.find]
      split
      · rfl
      · next hk => rw [if_neg fun heq : e.1 = k => hk (heq ▸ hdie)]
    · rw [List.filter_cons_of_pos (by simp [hdie]), Tbl.find, Tbl.find, ih]
      by_cases hk : e.1 = k
      · rw [if_pos hk, if_pos hk, if_neg (hk ▸ hdie)]
      · rw [if_neg hk, if_neg hk]

theorem get_offDie {α : Type} (d : α) (t : Tbl α) {die u k : Nat} (h : k / u = die) : Tbl.get d (offDie t die u) k = d := by
  induction t with
  | nil => rfl
  | cons e r ih =>
    rw [offDie] at ih ⊢
    by_cases hdie : e.1 / u = die
    · rw [List.filter_cons_of_neg (by simp [hdie]), ih]
    · rw [List.filter_cons_of_pos (by simp [hdie]), Tbl.get, if_neg fun heq : e.1 = k => hdie (heq ▸ h), ih]

/-- `u` has the translations and the memory of `m`. -/
structure Mem.SameTlbs (m u : Mem) : Prop where
  tlb : ∀ i < 16, (u.slice i).tlb = (m.slice i).tlb
  hbm : u.hbm = m.hbm

/-- Slots that are revoked one after another. -/
theorem Mem.foldl_revoke (ks : List Nat) (m : Mem) : m.SameTlbs (ks.foldl (fun m k => m.revoke k) m)
    ∧ ∀ j, ((ks.foldl (fun m k => m.revoke k) m).key j).revoked = true ↔ j ∈ ks ∨ (m.key j).revoked = true := by
  induction ks generalizing m with
  | nil => exact ⟨⟨fun _ _ => rfl, rfl⟩, fun j => by simp⟩
  | cons k ks ih =>
    obtain ⟨⟨htlb, hhbm⟩, hkey⟩ := ih (m.revoke k)
    refine ⟨⟨fun i hi => ?_, hhbm.trans (m.hbm_revoke k)⟩, fun j => ?_⟩
    · rw [List.foldl_cons, htlb i hi, Mem.slice_revoke m k i hi]
      rfl
    · rw [List.foldl_cons, hkey, Mem.key_revoke, List.mem_cons]
      by_cases hj : j = k <;> simp [hj]

/-- A slice at which the contexts of a test no longer wait. -/
def Slice.forget (f : Actor → Bool) (x : Slice) : Slice :=
  { x with
    walks := (x.walks.map (fun w => { w with waiters := w.waiters.filter (fun b => !f b) })).filter (fun w => !w.waiters.isEmpty)
    queue := x.queue.filter (fun b => !f b)
    waits := (x.waits.map (fun w => { w with waiters := w.waiters.filter (fun b => !f b) })).filter (fun w => !w.waiters.isEmpty) }

theorem Mem.forget_eq (m : Mem) (core : Nat) (f : Actor → Bool) :
    m.forget core f = (List.range Config.slices).foldl (fun m i => m.updSlice i (Slice.forget f)) (m.unreserve1 core f) := rfl

/-- Contexts that end leave translations, keys and memory as they are. -/
theorem Mem.forget_spec (m : Mem) (core : Nat) (f : Actor → Bool) : m.SameTlbs (m.forget core f) ∧ (m.forget core f).keys = m.keys := by
  obtain ⟨t, ht⟩ := Mem.sweep_eq (fun _ => Slice.forget f) (List.range Config.slices) (m.unreserve1 core f)
  have hslice := Mem.slice_sweep (fun _ => Slice.forget f) (List.range Config.slices) List.nodup_range (m.unreserve1 core f)
  rw [← Mem.forget_eq] at ht hslice
  refine ⟨⟨fun i hi => ?_, by rw [ht]; rfl⟩, by rw [ht]; rfl⟩
  rw [hslice, if_pos (mem_range_slices hi)]
  rfl

/-- Slices without translations have no owner to drop. -/
theorem State.dropOwners_none {s : State} (h : ∀ x < 16, (s.mem.slice x).tlb = []) (die : Nat) : s.dropOwners die = s := by
  rw [State.dropOwners]
  refine List.foldlRecOn (motive := (· = s)) _ _ rfl fun t ht sl hsl => ?_
  rw [ht, h sl (List.mem_range.mp hsl)]
  rfl

/-- What the reset of a die leaves, where no grid is in flight and no slice holds a translation. -/
theorem State.dieReset_spec {s : State} (hgrids : s.grids = []) (htlb : ∀ x < 16, (s.mem.slice x).tlb = []) (die : Nat) : ∃ t, s.dieReset die = t
    ∧ t.mf = { s.mf with msix := offDie' s.mf.msix die, pba := s.mf.pba.filter (fun k => k / 256 != die + 1) }
    ∧ t.dies = Tbl.put s.dies die { tdi := if (s.die die).tdi == .locked || (s.die die).tdi == .run then .error else (s.die die).tdi
                                    inRst := true, thermal := (s.die die).thermal }
    ∧ (((s.die die).tdi == .locked || (s.die die).tdi == .run) = true → ∀ k, ((s.die die).ownSlot = some k ∨ k ∈ (s.die die).tdiSlots) → (t.mem.key k).revoked = true)
    ∧ t.groups = offDie s.groups die 2048 ∧ t.threads = offDie s.threads die 128 ∧ t.ctls = offDie s.ctls die 8 ∧ t.cores = offDie s.cores die 64
    ∧ (∃ l, t.mem.l1 = offDie l die 64) ∧ (∃ l, t.mem.oc = offDie l die 64)
    ∧ Tbl.get [] t.mem.dc die = [] ∧ Tbl.get [] t.mem.dslhm die = s.mf.slhm ∧ t.mem.hbm = s.mem.hbm := by
  generalize hreset : s.dieReset die = t
  unfold State.dieReset at hreset
  extract_lets d live s1 m s2 s3 s4 s5 m5 s6 s7 at hreset
  obtain ⟨m1, hs1⟩ : ∃ m1, s1 = { s with mem := m1 } := by
    unfold s1
    split <;> exact ⟨_, rfl⟩
  have hrevoked : s.mem.SameTlbs s1.mem ∧ (live = true → ∀ k, (d.ownSlot = some k ∨ k ∈ d.tdiSlots) → (s1.mem.key k).revoked = true) := by
    unfold s1
    split
    · obtain ⟨hsame, hkeys⟩ := Mem.foldl_revoke (d.ownSlot.toList ++ d.tdiSlots) s.mem
      exact ⟨hsame, fun _ k hk => (hkeys k).mpr (.inl (by simpa using hk))⟩
    · next hlive => exact ⟨⟨fun _ _ => rfl, rfl⟩, fun h => absurd h hlive⟩
  clear_value s1
  subst hs1
  obtain ⟨⟨htlb1, hhbm1⟩, hkeys1⟩ := hrevoked
  have hforget : m1.SameTlbs m ∧ m.keys = m1.keys := Mem.forget_spec ..
  clear_value m
  obtain ⟨⟨htlbm, hhbmm⟩, hkeysm⟩ := hforget
  have hs3 : s3 = s2 := by
    unfold s3
    rw [show s2.grids = [] from hgrids]
    rfl
  clear_value s3
  subst hs3
  have hs5 : s5 = s4 := by
    refine State.dropOwners_none (fun x hx => ?_) die
    have hnone : (m.slice x).tlb = [] := (htlbm x hx).trans ((htlb1 x hx).trans (htlb x hx))
    rw [Mem.slice] at hnone
    exact hnone
  clear_value s5
  subst hs5
  refine ⟨t, rfl, ?_⟩
  rw [← hreset]
  refine ⟨rfl, rfl, fun hlive k hk => ?_, rfl, rfl, rfl, rfl, ⟨_, rfl⟩, ⟨_, rfl⟩, Tbl.get_del_same _ _ _, Tbl.get_put_same _ _ _ _, hhbmm.trans hhbm1⟩
  have hkey := hkeys1 hlive k hk
  rw [Mem.key, ← hkeysm] at hkey
  exact hkey

end Sys2Proof.Machine
end

section
/-! Resets of a base die and of the module, and thermal limits (13 R403, R419, R425). -/

namespace Sys2Proof.Machine

/-- What a reset of a compute die by DRST or a function-level reset leaves, where no grid is in flight and no slice holds a translation. -/
theorem State.event_dieReset {s : State} {die : Nat} {i : Instr} {f : Mf} (hi : i = .functionLevelReset die ∧ f = s.mf ∨ i = .drstGo die ∧ f = { s.mf with drstDie := die })
    (hgrids : s.grids = []) (htlb : ∀ x < 16, (s.mem.slice x).tlb = []) :
    let d := s.die die
    let live := d.tdi = .locked ∨ d.tdi = .run
    s.event? i (fun t => t.mf = { f with msix := offDie' f.msix die, pba := f.pba.filter (fun k => k / 256 != die + 1) }
      ∧ (live → t.die die = { tdi := .error, inRst := true, thermal := d.thermal }) ∧ (¬ live → t.die die = { tdi := d.tdi, inRst := true, thermal := d.thermal })
      ∧ (live → ∀ k, (d.ownSlot = some k ∨ k ∈ d.tdiSlots) → (t.mem.key k).revoked = true)
      ∧ (∀ k, k / 2048 = die → Tbl.find t.groups k = none) ∧ (∀ k, k / 2048 ≠ die → Tbl.find t.groups k = Tbl.find s.groups k)
      ∧ (∀ k, k / 64 = die → t.core k = {} ∧ t.mem.lines1 k = [] ∧ Tbl.get [] t.mem.oc k = []) ∧ (∀ k, k / 8 = die → Tbl.find t.ctls k = none)
      ∧ (∀ k, k / 128 = die → Tbl.find t.threads k = none) ∧ Tbl.get [] t.mem.dc die = [] ∧ Tbl.get [] t.mem.dslhm die = s.mf.slhm
      ∧ (∀ k < 4, k ≠ die → t.die k = s.die k) ∧ t.mem.hbm = s.mem.hbm) := by
  obtain ⟨t, ht, hmf, hdies, hkeys, hgroups, hthreads, hctls, hcores, ⟨l, hl1⟩, ⟨o, hoc⟩, hdc, hslhm, hhbm⟩ := State.dieReset_spec hgrids htlb die
  have hexec : exec i s = .next { t with mf := { f with msix := offDie' f.msix die, pba := f.pba.filter (fun k => k / 256 != die + 1) } } := by
    rcases hi with ⟨rfl, rfl⟩ | ⟨rfl, rfl⟩
    · show Host.Outcome.next (s.dieReset die) = _
      rw [ht, ← hmf]
    · show Host.Outcome.next ((s.dieReset die).updMf _) = _
      rw [ht, State.updMf, hmf]
  have hlive : ((s.die die).tdi == .locked || (s.die die).tdi == .run) = true ↔ (s.die die).tdi = .locked ∨ (s.die die).tdi = .run := by simp
  have hdie : Tbl.get ({} : Die) t.dies die = _ := (congrArg (fun d => Tbl.get {} d die) hdies).trans (Tbl.get_put_same _ _ _ _)
  refine ⟨_, hexec, rfl, fun h => ?_, fun h => ?_, fun h => hkeys (hlive.mpr h), fun k hk => ?_, fun k hk => ?_, fun k hk => ⟨?_, ?_, ?_⟩, fun k hk => ?_, fun k hk => ?_,
    hdc, hslhm, fun k _ hk => ?_, hhbm⟩
  · exact hdie.trans (by rw [if_pos (hlive.mpr h)])
  · exact hdie.trans (by rw [if_neg (mt hlive.mp h)])
  · exact (congrArg (Tbl.find · k) hgroups).trans ((find_offDie ..).trans (if_pos hk))
  · exact (congrArg (Tbl.find · k) hgroups).trans ((find_offDie ..).trans (if_neg hk))
  · exact (congrArg (Tbl.get ({} : Core) · k) hcores).trans (get_offDie _ _ hk)
  · exact (congrArg (Tbl.get [] · k) hl1).trans (get_offDie _ _ hk)
  · exact (congrArg (Tbl.get [] · k) hoc).trans (get_offDie _ _ hk)
  · exact (congrArg (Tbl.find · k) hctls).trans ((find_offDie ..).trans (if_pos hk))
  · exact (congrArg (Tbl.find · k) hthreads).trans ((find_offDie ..).trans (if_pos hk))
  · exact (congrArg (Tbl.get ({} : Die) · k) hdies).trans (Tbl.get_put_ne _ _ _ hk)

/-- A base die resets whose slice holds no spill line and no request. -/
theorem State.baseReset_idle {s : State} {sl : Nat} (hspill : (s.mem.slice sl).spill = []) (hidle : ∀ a ∈ s.actors, s.atSlice a sl = none) :
    s.baseReset sl = { s with mem := s.mem.setSlice sl { gens := (s.mem.slice sl).gens, slhm := s.mf.slhm, inRst := true } } := by
  have hhit : s.actors.filterMap (fun a => (s.atSlice a sl).map (fun r => (a, r))) = [] :=
    List.filterMap_eq_nil_iff.mpr fun a ha => by rw [hidle a ha]; rfl
  rw [State.baseReset]
  simp only [hspill, hhit, List.map_nil, List.foldl_nil]

/-- A module halts: an interrupt, and the mark. -/
theorem State.haltAll_mf (s : State) : ∃ p o, s.haltAll = { s with mf := { s.mf with pba := p, halted := true }, mem := { s.mem with out := o } } := by
  obtain ⟨p, o, hint⟩ := s.interrupt_eq 0 0
  refine ⟨p, o, ?_⟩
  rw [State.haltAll, hint]
  rfl

/-- The second thermal limit is withdrawn, the first stands. -/
theorem State.exec_thermalRecover_second {s : State} {die : Nat} (h : (s.die die).thermal = 2) :
    exec (.thermalRecover die 1) s = .next (s.setDie die { s.die die with thermal := 1 }) := by
  show execThermalRecover die 1 s = _
  simp [execThermalRecover, h]

/-- The module at reset, before the firmware writes: the drives and the numbers drawn stay (13 R419). -/
def State.coldReset (s : State) : State :=
  { State.reset with
    ports := s.ports.map (fun e => (e.1, ({ drive := e.2.drive } : Port)))
    agenda := s.agenda
    mem := { State.reset.mem with ctr := s.mem.ctr }
    mf := { State.reset.mf with nonce := s.mf.nonce + 1 } }

theorem State.exec_coldReset_fails {s : State} {ok : Nat} (hok : ok ≠ 1) (ctxb peerb fab : Nat) :
    exec (.moduleColdReset ok ctxb peerb fab) s = .next ((s.coldReset.alarm 0).updMf (fun f => { f with halted := true })) := if_neg hok

/-- The alarm of a failed boot: its source alone is set, and nothing but the management function and the messages changes. -/
theorem State.coldReset_alarm (s : State) : (s.coldReset.alarm 0).mf.enabled = false ∧ (s.coldReset.alarm 0).mf.almSrc = 1
    ∧ (s.coldReset.alarm 0).groups = [] ∧ (s.coldReset.alarm 0).grids = [] := by
  obtain ⟨p, o, hint⟩ := (s.coldReset.alarmed 0).interrupt_eq 0 0
  have halarm : s.coldReset.alarm 0 = (s.coldReset.alarmed 0).interrupt 0 0 := rfl
  rw [halarm, hint]
  refine ⟨rfl, ?_, rfl, rfl⟩
  show (0 : BitVec 5) ||| BitVec.ofNat 5 (2 ^ 0) = 1
  decide

end Sys2Proof.Machine
end

section
/-! Accesses of the host and of peers (13 R405, R406, R409, R413), and uncorrectable errors (05 R154). -/

namespace Sys2Proof.Machine

/-- The BAR2 window of a die is open where its word is valid and names an ASID, the functions are enabled, and the access lies inside. -/
theorem State.bar2_eq (s : State) (die off size : Nat) : s.bar2 die off size
    = if (Tbl.get 0 s.mf.h2w die).getLsbD 47 = true ∧ (Tbl.get 0 s.mf.h2w die).toNat / 2 ^ 48 ≠ 0 ∧ s.mf.enabled = true ∧ off + size ≤ 2 ^ 36
      then some ((Tbl.get 0 s.mf.h2w die).toNat / 2 ^ 48, (Tbl.get 0 s.mf.h2w die).toNat % 2 ^ 19 * 2 ^ 36 + off) else none := by
  have hasid : fld (Tbl.get 0 s.mf.h2w die).toNat 48 16 = (Tbl.get 0 s.mf.h2w die).toNat / 2 ^ 48 := by
    have := (Tbl.get 0 s.mf.h2w die).isLt
    rw [fld]
    omega
  rw [State.bar2]
  simp only [hasid, fld_zero, bit_toNat, Bool.and_eq_true, bne_iff_ne, decide_eq_true_iff, and_assoc]

section
variable {s : State} {die off size asid va value ep : Nat} {m : Mem} (hopen : s.bar2 die off size = some (asid, va))
include hopen

theorem State.exec_bar2Read {x p : Nat} (h : s.mem.readN (hostWho die) asid va size 0 = (m, .ok (x, p))) :
    exec (.hostBar2Read die off size) s = .next (State.say { s with mem := m } 5 (if p = 0 then 0 else 3) x) := by
  show execHostBar2Read die off size s = _
  rw [execHostBar2Read, hopen]
  simp only [h]

theorem State.exec_bar2Read_fails {f : Nat × Flt} (h : s.mem.readN (hostWho die) asid va size 0 = (m, .error f)) :
    exec (.hostBar2Read die off size) s = .next (State.say { s with mem := m } 5 1 0) := by
  show execHostBar2Read die off size s = _
  rw [execHostBar2Read, hopen]
  simp only [h]

theorem State.exec_bar2Write (h : s.mem.writeN (hostWho die) asid va size value (if ep = 1 then 2 ^ size - 1 else 0) 0 = (m, none)) :
    exec (.hostBar2Write die off size value ep) s = .next { s with mem := m } := by
  show execHostBar2Write die off size value ep s = _
  rw [execHostBar2Write, hopen]
  simp only [h]

theorem State.exec_bar2Write_fails {f : Nat × Flt} (h : s.mem.writeN (hostWho die) asid va size value (if ep = 1 then 2 ^ size - 1 else 0) 0 = (m, some f)) :
    exec (.hostBar2Write die off size value ep) s = .next (State.remoteEvent { s with mem := m } cRemoteFault die 0 0) := by
  show execHostBar2Write die off size value ep s = _
  rw [execHostBar2Write, hopen]
  simp only [h]

end

/-- The event of an inbound access, as a record: type 11, its cause, and the sender in the data (07 R216, R242). -/
theorem State.offers_remoteEvent (s : State) {cause : Nat} (h : cause < 256) (die fab port : Nat) {t : State}
    (ht : t.mem.offer = (s.remoteEvent cause die fab port).mem.offer) : s.offers t die 11 cause (fab % 65536 * 256 + port % 256) := by
  obtain ⟨htype, hstatus, hdata⟩ := evRec_fields 11 cause 0 0 port die false (fab % 65536 * 256 + port % 256)
  exact ⟨_, ht, htype, hstatus.trans (Nat.mod_eq_of_lt h), hdata⟩

/-- The sender in the data of a remote event. -/
theorem remoteData_div (fab port : Nat) : (fab % 65536 * 256 + port % 256) / 256 = fab % 65536 := by omega

section
variable {s : State} {fab rasid cmd addr value poi : Nat}

/-- A peer request whose sender is not mapped to an ASID here. -/
theorem State.exec_peerRequest_unmapped (h : s.mf.localAsid fab rasid = none) : exec (.peerRequest fab rasid cmd addr value poi) s
    = .next ((s.updMf (fun f => { f with mfes := f.mfes ||| 4 })).say 6 1 0) := by
  show execPeerRequest fab rasid cmd addr value poi s = _
  rw [execPeerRequest]
  simp only [h]

/-- An access of a peer that faults: the event, and the answer. -/
def State.peerFails (s : State) (fab : Nat) : State := (s.remoteEvent cRemoteFault 0 fab s.uaPort).say 6 1 0

/-- The answer to a peer's token: taken, failed, or refused (12 R387). -/
def State.tokenAnswer (u : State) (fab : Nat) : Sent → State
  | .delivered => u.answerPeer 0 0 0
  | .fault _ => u.peerFails fab
  | _ => u.answerPeer 4 0 0

theorem State.tokenAnswer_refused {u : State} {fab : Nat} {o : Sent} (hdelivered : o = .delivered → False) (hfault : ∀ f, o = .fault f → False) :
    u.tokenAnswer fab o = u.answerPeer 4 0 0 := by
  cases o with
  | delivered => exact (hdelivered rfl).elim
  | fault f => exact (hfault f rfl).elim
  | _ => rfl

/-- The operation of an atomic in a peer's command. -/
theorem peerOp_eq (cmd : Nat) : fld cmd 3 4 = cmd / 8 % 16 := rfl

/-- The size of the payload of a token, in its header. -/
theorem tokenSize_eq (value : Nat) : fld value 160 16 = value / 2 ^ 160 % 65536 := rfl

/-- An access of a peer that faults leaves the event and the answer. -/
theorem State.peerFails_spec (s : State) (fab : Nat) : ∃ f, s.offers (s.peerFails fab) 0 11 cRemoteFault f ∧ f / 256 = fab % 65536
    ∧ (s.peerFails fab).mem.out = s.mem.out ++ [{ kind := 6, addr := 1, data := 0, poi := 0 }] :=
  ⟨_, s.offers_remoteEvent (by decide) 0 fab s.uaPort rfl, remoteData_div .., rfl⟩

section
variable {asid : Nat} (hasid : s.mf.localAsid fab rasid = some asid)
include hasid

/-! A peer request of a mapped sender does what its kind says (13 R413). -/

theorem State.exec_peerRead {m : Mem} {x p : Nat} (hk : cmd % 8 = 0) (h : s.mem.readN (hostWho 0) asid addr (cmd / 128) 0 = (m, .ok (x, p))) :
    exec (.peerRequest fab rasid cmd addr value poi) s = .next (State.answerPeer { s with mem := m } (if p = 0 then 0 else 3) x (sectorPoison addr (cmd / 128) p)) := by
  have hkind := (fld_zero cmd 3).trans hk
  show execPeerRequest fab rasid cmd addr value poi s = _
  rw [execPeerRequest]
  simp only [hasid, hkind, h]

theorem State.exec_peerRead_fails {m : Mem} {f : Nat × Flt} (hk : cmd % 8 = 0) (h : s.mem.readN (hostWho 0) asid addr (cmd / 128) 0 = (m, .error f)) :
    exec (.peerRequest fab rasid cmd addr value poi) s = .next (State.peerFails { s with mem := m } fab) := by
  have hkind := (fld_zero cmd 3).trans hk
  show execPeerRequest fab rasid cmd addr value poi s = _
  rw [execPeerRequest]
  simp only [hasid, hkind, h]
  rfl

theorem State.exec_peerWrite {m : Mem} (hk : cmd % 8 = 1) (h : s.mem.writeN (hostWho 0) asid addr (cmd / 128) value (bytePoison addr (cmd / 128) poi) 0 = (m, none)) :
    exec (.peerRequest fab rasid cmd addr value poi) s = .next (State.answerPeer { s with mem := m } 0 0 0) := by
  have hkind := (fld_zero cmd 3).trans hk
  show execPeerRequest fab rasid cmd addr value poi s = _
  rw [execPeerRequest]
  simp only [hasid, hkind, h]

theorem State.exec_peerWrite_fails {m : Mem} {f : Nat × Flt} (hk : cmd % 8 = 1) (h : s.mem.writeN (hostWho 0) asid addr (cmd / 128) value (bytePoison addr (cmd / 128) poi) 0 = (m, some f)) :
    exec (.peerRequest fab rasid cmd addr value poi) s = .next (State.peerFails { s with mem := m } fab) := by
  have hkind := (fld_zero cmd 3).trans hk
  show execPeerRequest fab rasid cmd addr value poi s = _
  rw [execPeerRequest]
  simp only [hasid, hkind, h]
  rfl

theorem State.exec_peerAtomic_misaligned (hk : cmd % 8 = 2) (hal : addr % atomSize (cmd / 8 % 16) ≠ 0) :
    exec (.peerRequest fab rasid cmd addr value poi) s = .next (s.peerFails fab) := by
  have hkind := (fld_zero cmd 3).trans hk
  show execPeerRequest fab rasid cmd addr value poi s = _
  rw [execPeerRequest]
  simp only [hasid, hkind, peerOp_eq, bne_iff_ne.mpr hal, if_true]
  rfl

theorem State.exec_peerAtomic {m : Mem} {x : Nat} (hk : cmd % 8 = 2) (hal : addr % atomSize (cmd / 8 % 16) = 0)
    (h : s.mem.updG (hostWho 0) asid addr (atomSize (cmd / 8 % 16)) (fun x => atomNew (cmd / 8 % 16) x (value % 2 ^ (8 * atomSize (cmd / 8 % 16)))
      (value / 2 ^ (8 * atomSize (cmd / 8 % 16)) % 2 ^ (8 * atomSize (cmd / 8 % 16)))) (poi.testBit 0) = (m, .ok x)) :
    exec (.peerRequest fab rasid cmd addr value poi) s = .next (State.answerPeer { s with mem := m } 0 x 0) := by
  have hkind := (fld_zero cmd 3).trans hk
  show execPeerRequest fab rasid cmd addr value poi s = _
  have hal : (addr % atomSize (cmd / 8 % 16) != 0) = false := by simp [hal]
  rw [← bit_eq_testBit] at h
  rw [execPeerRequest]
  simp only [hasid, hkind, peerOp_eq, hal, Bool.false_eq_true, if_false]
  unfold fld
  rw [h]

theorem State.exec_peerAtomic_fails {m : Mem} {f : Flt} (hk : cmd % 8 = 2) (hal : addr % atomSize (cmd / 8 % 16) = 0)
    (h : s.mem.updG (hostWho 0) asid addr (atomSize (cmd / 8 % 16)) (fun x => atomNew (cmd / 8 % 16) x (value % 2 ^ (8 * atomSize (cmd / 8 % 16)))
      (value / 2 ^ (8 * atomSize (cmd / 8 % 16)) % 2 ^ (8 * atomSize (cmd / 8 % 16)))) (poi.testBit 0) = (m, .error f)) :
    exec (.peerRequest fab rasid cmd addr value poi) s = .next (if f.cause = cPoisonMem ∨ f.cause = cEccUe then State.answerPeer { s with mem := m } 3 0 1 else State.peerFails { s with mem := m } fab) := by
  have hkind := (fld_zero cmd 3).trans hk
  show execPeerRequest fab rasid cmd addr value poi s = _
  have hal : (addr % atomSize (cmd / 8 % 16) != 0) = false := by simp [hal]
  rw [← bit_eq_testBit] at h
  rw [execPeerRequest]
  simp only [hasid, hkind, peerOp_eq, hal, Bool.false_eq_true, if_false]
  unfold fld
  rw [h]
  simp only [Bool.or_eq_true, beq_iff_eq]
  rfl

theorem State.exec_peerToken {u : State} {o : Sent} (hk : cmd % 8 = 3)
    (h : s.claimSlot (hostWho 0) asid addr (value % 2 ^ 256) (value / 2 ^ 256) (value / 2 ^ 160 % 65536) (bytePoison 0 (32 + value / 2 ^ 160 % 65536) poi) = (u, o)) :
    exec (.peerRequest fab rasid cmd addr value poi) s = .next (u.tokenAnswer fab o) := by
  have hkind := (fld_zero cmd 3).trans hk
  show execPeerRequest fab rasid cmd addr value poi s = _
  rw [execPeerRequest]
  simp only [hasid, hkind, tokenSize_eq, h]
  cases o <;> rfl

theorem State.exec_peerTimeout (hk : cmd % 8 = 4) :
    exec (.peerRequest fab rasid cmd addr value poi) s = .next (s.remoteEvent cRemoteTimeout 0 fab s.uaPort) := by
  have hkind := (fld_zero cmd 3).trans hk
  show execPeerRequest fab rasid cmd addr value poi s = _
  rw [execPeerRequest]
  simp only [hasid, hkind]

end

end

end Sys2Proof.Machine
end

section
open Sys2Proof Sys2Proof.Machine

/-- Settles O56: each clause is the effect of one command; a die reset takes the tables of its die apart, and an access of the host or of a peer
answers what the memory system answers. -/
theorem resetsAndHost : Obligations.ResetsAndHost := by
  unfold Obligations.ResetsAndHost
  intro s die sl v ok peerb fab off size value ep rasid cmd addr poi core syn tmax
  refine ⟨fun i f hi hgrids htlb => ?_, ⟨_, rfl, rfl⟩, fun hspill hidle => ?_, ?_, fun hon => ⟨?_, ?_⟩, fun hoff => ⟨?_, ?_⟩, fun ht => ?_, fun ht => ?_, rfl,
    ?_, fun hok => ?_, ?_, fun hclosed => ?_, ?_, ?_, fun hpop hpois => ?_, fun sp hsp haddr => ?_⟩
  · exact State.event_dieReset hi hgrids htlb
  · refine ⟨_, congrArg Host.Outcome.next (State.baseReset_idle hspill hidle), ?_⟩
    simp only [Mem.slice_setSlice_same, true_and]
    exact fun k hk => (Mem.slice_setSlice ..).trans (if_neg hk)
  · exact ⟨_, rfl, Mem.slice_updSlice_same ..⟩
  · exact congrArg Host.Outcome.next (if_pos hon)
  · exact congrArg Host.Outcome.next (if_pos hon)
  · exact congrArg Host.Outcome.next (if_neg (by rw [hoff]; exact Bool.false_ne_true))
  · exact congrArg Host.Outcome.next (if_neg (by rw [hoff]; exact Bool.false_ne_true))
  · exact congrArg Host.Outcome.next (if_pos ht)
  · exact congrArg Host.Outcome.next (if_neg (by rw [ht]; exact Bool.false_ne_true))
  · exact ⟨_, rfl, rfl, rfl, rfl, rfl, rfl, rfl, rfl, rfl, rfl, rfl, rfl, rfl, rfl⟩
  · obtain ⟨henabled, hsrc, hgroups, hgrids⟩ := s.coldReset_alarm
    exact ⟨_, State.exec_coldReset_fails hok v peerb fab, rfl, henabled, hsrc, hgroups, hgrids⟩
  · intro d
    refine ⟨fun h => ⟨_, rfl, congrArg (s.setDie die) (if_pos h)⟩, fun h => ⟨_, rfl, ?_⟩, ?_, fun h => ⟨_, State.exec_thermalRecover_second h, rfl⟩, fun p h => ⟨_, rfl, ?_⟩⟩
    · rw [if_neg (show (s.die die).thermal ≠ 0 by rw [h]; decide)]
    · obtain ⟨p, o, hhalt⟩ := s.haltAll_mf
      refine ⟨_, rfl, ?_⟩
      rw [hhalt]
      exact ⟨rfl, rfl, rfl, rfl⟩
    · rw [h]
      rfl
  · refine ⟨?_, ?_⟩
    · show execHostBar2Write die off size value ep s = _
      rw [execHostBar2Write, hclosed]
    · show execHostBar2Read die off size s = _
      rw [execHostBar2Read, hclosed]
      rfl
  · intro w
    refine ⟨fun hno => ?_, fun hon hvalid hasid hoff => ?_⟩
    · rw [State.bar2_eq, if_neg]
      rintro ⟨hvalid, hasid, hon, hoff⟩
      rcases hno with hno | hno | hno | hno
      · exact Bool.false_ne_true (hno.symm.trans hon)
      · exact Bool.false_ne_true (hno.symm.trans hvalid)
      · exact hasid hno
      · omega
    · have hopen : s.bar2 die off size = some (w.toNat / 2 ^ 48, w.toNat % 2 ^ 19 * 2 ^ 36 + off) :=
        (s.bar2_eq die off size).trans (if_pos ⟨hvalid, hasid, hon, hoff⟩)
      intro asid va
      refine ⟨?_, ?_⟩
      · split
        · next m x p hread => exact State.exec_bar2Read hopen hread
        · next m f hread => exact State.exec_bar2Read_fails hopen hread
      · split
        · next m hwrite => exact State.exec_bar2Write hopen hwrite
        · next m f hwrite => exact ⟨_, State.exec_bar2Write_fails hopen hwrite, State.offers_remoteEvent _ (by decide) die 0 0 rfl⟩
  · intro i op size told
    refine ⟨fun hno => ⟨_, State.exec_peerRequest_unmapped hno, rfl, rfl, rfl⟩, fun asid hasid => ?_⟩
    intro fails
    have hfails {u : State} (h : exec i s = .next (u.peerFails fab)) : fails u := ⟨_, h, u.peerFails_spec fab⟩
    refine ⟨fun hk => ?_, fun hk => ?_, fun hk => ?_, fun hk => ?_, fun hk hal => hfails (State.exec_peerAtomic_misaligned hasid hk hal), fun hk hal => ?_⟩
    · exact ⟨_, State.exec_peerTimeout hasid hk, _, State.offers_remoteEvent _ (by decide) 0 fab s.uaPort rfl, remoteData_div .., rfl⟩
    · split
      · next u h => exact ⟨_, State.exec_peerToken hasid hk h, rfl, rfl⟩
      · next u f h => exact hfails (State.exec_peerToken hasid hk h)
      · next u o hdelivered hfault h =>
        refine ⟨_, (State.exec_peerToken hasid hk h).trans (congrArg _ (State.tokenAnswer_refused hdelivered hfault)), rfl, rfl⟩
    · split
      · next m x p h => exact ⟨_, State.exec_peerRead hasid hk h, rfl, rfl⟩
      · next m f h => exact hfails (State.exec_peerRead_fails hasid hk h)
    · split
      · next m h => exact ⟨_, State.exec_peerWrite hasid hk h, rfl, rfl, rfl⟩
      · next m f h => exact hfails (State.exec_peerWrite_fails hasid hk h)
    · intro w
      split
      · next m x h => exact ⟨_, State.exec_peerAtomic hasid hk hal h, rfl, rfl, rfl⟩
      · next m f h =>
        split
        · next hpoison => exact ⟨_, (State.exec_peerAtomic_fails hasid hk hal h).trans (congrArg _ (if_pos hpoison)), rfl⟩
        · next hother => exact hfails ((State.exec_peerAtomic_fails hasid hk hal h).trans (congrArg _ (if_neg hother)))
  · refine ⟨{ s with mem := { s.mem with sec := Tbl.put s.mem.sec (addr / 32) { Tbl.get ({} : Sec) s.mem.sec (addr / 32) with ecc := some syn } } }, ?_, rfl, ?_⟩
    · exact congrArg Host.Outcome.next (if_pos (by rw [hpop, hpois]; rfl))
    · rw [Mem.secFault]
      simp only [Tbl.get_put_same]
      exact ⟨_, rfl, rfl⟩
  · have hother : sp ≠ 4 := by omega
    refine ⟨_, (if_neg hother).trans (if_pos haddr), rfl, ?_⟩
    simp only [Mem.osecAt, Mem.setOsec, Tbl.get_upd, if_true, Tbl.get_put_same]

end
